-- ==== Sys2Proof/Word.lean ====
section
/-! DEFINITION. The word types of the Golmet G7 and their plainest arithmetic (00 R4: little-endian, bit 0 least). -/

namespace Sys2Proof

/-- A 64-bit scalar register, bref or record word. -/
abbrev Word := BitVec 64

/-- One byte of memory. -/
abbrev Byte := BitVec 8

/-- A scalar register number, x0 to x31 (04 R57). -/
abbrev Reg := BitVec 5

/-- A vector register, handle or other 256-bit value (04 R57). -/
abbrev V256 := BitVec 256

end Sys2Proof
end

