-- ==== Sys2Proof/Config.lean ====
section
/-! DEFINITION. What an implementation fixes and the values the manual leaves open, as constants without a body. -/

namespace Sys2Proof.Config

/-- Package time that passes in the n-th step, in units of 1/16 ns: the manual relates no step to a time (01 R15, log 3). -/
opaque freeElapsed : Nat → Nat

/-- The hub's junction temperature in degrees at the n-th step, which DIESTAT of the hub reads: the manual gives no event that sets it
(25 R410, log 61). -/
opaque hubTemperature : Nat → BitVec 8

/-- Cycles of the own clock of a hart, by its number, that pass in the n-th step: the manual gives no such clock, and clocks of different
dies stand in no fixed relation (01 R15, 18 R304, log 13). -/
opaque freeCycles : Nat → Nat → BitVec 64

/-- What the n-th register that a restore has lost reads as: nothing but the resident frames survives a swap (04 R77, log 89). -/
opaque freeRegister : Nat → BitVec 256

/-- Which line of a full cluster cache the n-th choice of the model evicts (05 R81: a line may be evicted at any time, log 65). -/
opaque freeVictim : Nat → Nat

/-- How many entries the sync-object directory has beyond its first: the manual gives no number (05 R87, log 78). -/
opaque syncExtra : Nat

/-- The device secret, from which the keys that belong to no tenant come (22 R367, log 80). -/
opaque deviceSecret : BitVec 256

/-- What measurement blocks 1 to 5 measure beside the remap tables: ROM, firmware and fuses (22 R378, log 80). -/
opaque measuredCode : Nat → List (BitVec 8)

/-- Where a stack keeps a node of its counter tree, by level and index within the level, in lines from the stack's start (22 R369, R371,
log 80). -/
opaque nodeAddress : Nat → Nat → BitVec 30

/-- A nonce of the n-th message that carries one (22 R379, log 80). -/
opaque freeNonce : Nat → BitVec 256

/-- The random bytes of the n-th handshake's ephemeral ML-KEM-1024 key: d and z of FIPS 203 (22 R379, log 80). -/
opaque kemSeed : Nat → BitVec 512

/-- The random bytes of the n-th encapsulation: m of FIPS 203 (22 R379, log 80). -/
opaque kemRandom : Nat → BitVec 256

/-- The fused seed of the device's ML-DSA-65 key (22 R378, log 80). -/
opaque deviceSeed : BitVec 256

/-- The random bytes of the device's signature of a message: rnd of FIPS 204 (22 R378, log 80). -/
opaque signRandom : List (BitVec 8) → BitVec 256

/-- The device's certificate chain (22 R378, log 80). -/
opaque ownChain : List (BitVec 8)

/-- The certificate chain fetched from a peer package (22 R379, log 80). -/
opaque peerChain : Nat → List (BitVec 8)

/-- Whether a chain leads to the Dratur root (22 R380, log 80). -/
opaque chainRooted : List (BitVec 8) → Bool

/-- The ML-DSA-65 public key that a chain certifies, of 1,952 bytes (22 R380, log 80). -/
opaque chainKey : List (BitVec 8) → List (BitVec 8)

/-- The digest of the fresh signed touchmark fetched from a partition of a peer package in the n-th handshake (22 R380, log 80). -/
opaque peerTouchmark : Nat → Nat → Nat → BitVec 512

/-- The 96-bit IV that UALinkSec constructs for a sequence number of a port's key (22 R376, log 80). -/
opaque ualinkIv : Nat → BitVec 96

/-- The bytes of the messages of an SPDM connection that a response's signature covers beside the nonces, by port and step, whose layout
is DSP0274's (22 R378, log 11). -/
opaque spdmTranscript : Nat → Nat → List (BitVec 8)

/-- The CRC and reserved bytes of a flit, 14 bytes, by the 242 bytes before them: UCIe's (24 R399, log 42). -/
opaque flitTail : List (BitVec 8) → BitVec 112

/-- A signed or keyed response of the root of trust to an SPDM or TDISP request, by request, port and nonce (22 R377, R378, log 11). -/
opaque attestation : Nat → Nat → Nat → BitVec 512

/-- The bytes of payload of a partition's n-th save image, whose layout is not architectural (20 R348, log 16). -/
opaque imagePayload : Nat → Nat → Nat

/-- A byte of that payload before it is sealed (20 R348, log 16). -/
opaque imageByte : Nat → Nat → Nat → BitVec 8

/-- The largest time-port bound firmware configured, in units of 1/16 ns (24 R406, log 12). -/
opaque timePortAsymmetry : Nat

end Sys2Proof.Config
end

