-- ==== Sys2Proof/Syntax.lean ====
section
/-! DEFINITION. The instructions and events of spec/opcode_table.json, one constructor per row:
71 base forms (09 R154), the Xosin long forms (08 R133, R144), the short forms (R141, R142) and the device's events (file 95). -/

namespace Sys2Proof

/-- The fields of a Xosin long form but for OP, CLASS and the major opcode (08 R133).
`sub` is MOD, `fmt` is FMT in classes 0-8 and OPX in classes 9-15 (R135). -/
structure LF where
  /-- MOD, bits [63:58]. -/
  sub : BitVec 6
  /-- M, bit [57]. -/
  m : BitVec 1
  /-- T, bit [56]. -/
  t : BitVec 1
  /-- GRP, bits [55:54]. -/
  grp : BitVec 2
  /-- FMT or OPX, bits [53:50]. -/
  fmt : BitVec 4
  /-- B, bits [49:39]. -/
  b : BitVec 11
  /-- A, bits [38:28]. -/
  a : BitVec 11
  /-- D, bits [27:17]. -/
  d : BitVec 11
deriving DecidableEq, Repr

/-- One constructor per row of spec/opcode_table.json: first the instructions with operand fields, then those without.
The device's events take their arguments from State.args (assumption 1). -/
inductive Instr where
  /-- R154. Writes the upper immediate, shifted left by 12, to rd. -/
  | lui (rd : Reg) (imm : BitVec 20)
  /-- R156. Adds the upper immediate to the member's code-offset PC and writes the sum to rd. -/
  | auipc (rd : Reg) (imm : BitVec 20)
  /-- R156. Jumps to PC plus the offset and writes PC + 4 as the link; a misaligned target raises ALIGN. -/
  | jal (rd : Reg) (imm : BitVec 20)
  /-- R156. Jumps to rs1 plus the immediate and writes PC + 4 as the link; a misaligned target raises ALIGN. -/
  | jalr (rd : Reg) (rs1 : Reg) (imm : BitVec 12)
  /-- R156. Branches when rs1 equals rs2. -/
  | beq (rs1 : Reg) (rs2 : Reg) (imm : BitVec 12)
  /-- R156. Branches when rs1 differs from rs2. -/
  | bne (rs1 : Reg) (rs2 : Reg) (imm : BitVec 12)
  /-- R156. Branches when rs1 is less than rs2, signed. -/
  | blt (rs1 : Reg) (rs2 : Reg) (imm : BitVec 12)
  /-- R156. Branches when rs1 is greater than or equal to rs2, signed. -/
  | bge (rs1 : Reg) (rs2 : Reg) (imm : BitVec 12)
  /-- R156. Branches when rs1 is less than rs2, unsigned. -/
  | bltu (rs1 : Reg) (rs2 : Reg) (imm : BitVec 12)
  /-- R156. Branches when rs1 is greater than or equal to rs2, unsigned. -/
  | bgeu (rs1 : Reg) (rs2 : Reg) (imm : BitVec 12)
  /-- R157. Loads a sign-extended byte from local space. -/
  | lb (rd : Reg) (rs1 : Reg) (imm : BitVec 12)
  /-- R157. Loads a sign-extended halfword from local space. -/
  | lh (rd : Reg) (rs1 : Reg) (imm : BitVec 12)
  /-- R157. Loads a sign-extended word from local space. -/
  | lw (rd : Reg) (rs1 : Reg) (imm : BitVec 12)
  /-- R157. Loads a doubleword from local space. -/
  | ld (rd : Reg) (rs1 : Reg) (imm : BitVec 12)
  /-- R157. Loads a zero-extended byte from local space. -/
  | lbu (rd : Reg) (rs1 : Reg) (imm : BitVec 12)
  /-- R157. Loads a zero-extended halfword from local space. -/
  | lhu (rd : Reg) (rs1 : Reg) (imm : BitVec 12)
  /-- R157. Loads a zero-extended word from local space. -/
  | lwu (rd : Reg) (rs1 : Reg) (imm : BitVec 12)
  /-- R157. Stores a byte to local space. -/
  | sb (rs1 : Reg) (rs2 : Reg) (imm : BitVec 12)
  /-- R157. Stores a halfword to local space. -/
  | sh (rs1 : Reg) (rs2 : Reg) (imm : BitVec 12)
  /-- R157. Stores a word to local space. -/
  | sw (rs1 : Reg) (rs2 : Reg) (imm : BitVec 12)
  /-- R157. Stores a doubleword to local space. -/
  | sd (rs1 : Reg) (rs2 : Reg) (imm : BitVec 12)
  /-- R154. Adds the immediate to rs1. -/
  | addi (rd : Reg) (rs1 : Reg) (imm : BitVec 12)
  /-- R154. Sets rd when rs1 is less than the immediate, signed. -/
  | slti (rd : Reg) (rs1 : Reg) (imm : BitVec 12)
  /-- R154. Sets rd when rs1 is less than the immediate, unsigned. -/
  | sltiu (rd : Reg) (rs1 : Reg) (imm : BitVec 12)
  /-- R154. XORs rs1 with the immediate. -/
  | xori (rd : Reg) (rs1 : Reg) (imm : BitVec 12)
  /-- R154. ORs rs1 with the immediate. -/
  | ori (rd : Reg) (rs1 : Reg) (imm : BitVec 12)
  /-- R154. ANDs rs1 with the immediate. -/
  | andi (rd : Reg) (rs1 : Reg) (imm : BitVec 12)
  /-- R154. Shifts rs1 left by a 6-bit immediate. -/
  | slli (rd : Reg) (rs1 : Reg) (sh : BitVec 6)
  /-- R154. Shifts rs1 right logically by a 6-bit immediate. -/
  | srli (rd : Reg) (rs1 : Reg) (sh : BitVec 6)
  /-- R154. Shifts rs1 right arithmetically by a 6-bit immediate. -/
  | srai (rd : Reg) (rs1 : Reg) (sh : BitVec 6)
  /-- R154. Adds rs1 and rs2. -/
  | add (rd : Reg) (rs1 : Reg) (rs2 : Reg)
  /-- R154. Subtracts rs2 from rs1. -/
  | sub (rd : Reg) (rs1 : Reg) (rs2 : Reg)
  /-- R154. Shifts rs1 left by rs2. -/
  | sll (rd : Reg) (rs1 : Reg) (rs2 : Reg)
  /-- R154. Sets rd when rs1 is less than rs2, signed. -/
  | slt (rd : Reg) (rs1 : Reg) (rs2 : Reg)
  /-- R154. Sets rd when rs1 is less than rs2, unsigned. -/
  | sltu (rd : Reg) (rs1 : Reg) (rs2 : Reg)
  /-- R154. XORs rs1 and rs2. -/
  | xor (rd : Reg) (rs1 : Reg) (rs2 : Reg)
  /-- R154. Shifts rs1 right logically by rs2. -/
  | srl (rd : Reg) (rs1 : Reg) (rs2 : Reg)
  /-- R154. Shifts rs1 right arithmetically by rs2. -/
  | sra (rd : Reg) (rs1 : Reg) (rs2 : Reg)
  /-- R154. ORs rs1 and rs2. -/
  | or (rd : Reg) (rs1 : Reg) (rs2 : Reg)
  /-- R154. ANDs rs1 and rs2. -/
  | and (rd : Reg) (rs1 : Reg) (rs2 : Reg)
  /-- R154. Writes the low 64 bits of the product of rs1 and rs2. -/
  | mul (rd : Reg) (rs1 : Reg) (rs2 : Reg)
  /-- R154. Writes the high 64 bits of the signed product. -/
  | mulh (rd : Reg) (rs1 : Reg) (rs2 : Reg)
  /-- R154. Writes the high 64 bits of the signed-by-unsigned product. -/
  | mulhsu (rd : Reg) (rs1 : Reg) (rs2 : Reg)
  /-- R154. Writes the high 64 bits of the unsigned product. -/
  | mulhu (rd : Reg) (rs1 : Reg) (rs2 : Reg)
  /-- R154. Divides signed, never trapping; division by zero gives all ones. -/
  | div (rd : Reg) (rs1 : Reg) (rs2 : Reg)
  /-- R154. Divides unsigned, never trapping. -/
  | divu (rd : Reg) (rs1 : Reg) (rs2 : Reg)
  /-- R154. Writes the signed remainder, never trapping. -/
  | rem (rd : Reg) (rs1 : Reg) (rs2 : Reg)
  /-- R154. Writes the unsigned remainder, never trapping. -/
  | remu (rd : Reg) (rs1 : Reg) (rs2 : Reg)
  /-- R154. Adds the immediate at 32 bits and sign-extends the result. -/
  | addiw (rd : Reg) (rs1 : Reg) (imm : BitVec 12)
  /-- R154. Shifts left at 32 bits by an immediate and sign-extends the result. -/
  | slliw (rd : Reg) (rs1 : Reg) (sh : BitVec 5)
  /-- R154. Shifts right logically at 32 bits by an immediate. -/
  | srliw (rd : Reg) (rs1 : Reg) (sh : BitVec 5)
  /-- R154. Shifts right arithmetically at 32 bits by an immediate. -/
  | sraiw (rd : Reg) (rs1 : Reg) (sh : BitVec 5)
  /-- R154. Adds at 32 bits and sign-extends the result. -/
  | addw (rd : Reg) (rs1 : Reg) (rs2 : Reg)
  /-- R154. Subtracts at 32 bits and sign-extends the result. -/
  | subw (rd : Reg) (rs1 : Reg) (rs2 : Reg)
  /-- R154. Shifts left at 32 bits. -/
  | sllw (rd : Reg) (rs1 : Reg) (rs2 : Reg)
  /-- R154. Shifts right logically at 32 bits. -/
  | srlw (rd : Reg) (rs1 : Reg) (rs2 : Reg)
  /-- R154. Shifts right arithmetically at 32 bits. -/
  | sraw (rd : Reg) (rs1 : Reg) (rs2 : Reg)
  /-- R154. Multiplies at 32 bits and sign-extends the result. -/
  | mulw (rd : Reg) (rs1 : Reg) (rs2 : Reg)
  /-- R154. Divides signed at 32 bits, never trapping. -/
  | divw (rd : Reg) (rs1 : Reg) (rs2 : Reg)
  /-- R154. Divides unsigned at 32 bits, never trapping. -/
  | divuw (rd : Reg) (rs1 : Reg) (rs2 : Reg)
  /-- R154. Writes the signed remainder at 32 bits. -/
  | remw (rd : Reg) (rs1 : Reg) (rs2 : Reg)
  /-- R154. Writes the unsigned remainder at 32 bits. -/
  | remuw (rd : Reg) (rs1 : Reg) (rs2 : Reg)
  /-- R158. Waits until every earlier scalar store of the member has been written in its scratchpad. -/
  | fence (rd : Reg) (rs1 : Reg) (imm : BitVec 12)
  /-- R162. Swaps a user CSR with rs1; no read when rd is x0. -/
  | csrrw (rd : Reg) (rs1 : Reg) (csr : BitVec 12)
  /-- R162. Reads a user CSR and sets the bits of rs1 in it. -/
  | csrrs (rd : Reg) (rs1 : Reg) (csr : BitVec 12)
  /-- R162. Reads a user CSR and clears the bits of rs1 in it. -/
  | csrrc (rd : Reg) (rs1 : Reg) (csr : BitVec 12)
  /-- R162. Writes a 5-bit immediate to a user CSR. -/
  | csrrwi (rd : Reg) (rs1 : Reg) (csr : BitVec 12)
  /-- R162. Reads a user CSR and sets the immediate bits in it. -/
  | csrrsi (rd : Reg) (rs1 : Reg) (csr : BitVec 12)
  /-- R162. Reads a user CSR and clears the immediate bits in it. -/
  | csrrci (rd : Reg) (rs1 : Reg) (csr : BitVec 12)
  /-- R172. Adds floating-point elements, rounds once and lands after 5 cycles. -/
  | vadd (o : LF)
  /-- R172. Subtracts floating-point elements and lands after 5 cycles. -/
  | vsub (o : LF)
  /-- R172. Multiplies floating-point elements and lands after 5 cycles. -/
  | vmul (o : LF)
  /-- R172. Computes a fused a × b + d with one rounding and lands after 5 cycles. -/
  | vfma (o : LF)
  /-- R173. Returns the smaller element, with NaN-avoiding rules. -/
  | vmin (o : LF)
  /-- R173. Returns the larger element, with NaN-avoiding rules. -/
  | vmax (o : LF)
  /-- R174. Replaces each element's sign as cpy, neg, xor or abs selects. -/
  | vsgn (o : LF)
  /-- R175. Compares elements and writes a 64-bit mask to a scalar register. -/
  | vcmp (o : LF)
  /-- R176. Writes a one-hot class code for each element. -/
  | vclass (o : LF)
  /-- R178. Adds integer elements, optionally unsigned and saturating. -/
  | viadd (o : LF)
  /-- R178. Subtracts integer elements. -/
  | visub (o : LF)
  /-- R178. Multiplies integer elements, keeping the low half. -/
  | vimul (o : LF)
  /-- R178. Multiplies integer elements, keeping the high half. -/
  | vimulh (o : LF)
  /-- R178. Computes an integer a × b + d. -/
  | vimad (o : LF)
  /-- R179. ANDs the sources bitwise. -/
  | vand (o : LF)
  /-- R179. ORs the sources bitwise. -/
  | vor (o : LF)
  /-- R179. XORs the sources bitwise. -/
  | vxor (o : LF)
  /-- R179. Shifts elements left by a register or an immediate count. -/
  | vshl (o : LF)
  /-- R179. Shifts elements right, arithmetically or logically. -/
  | vshr (o : LF)
  /-- R180. Returns the integer minimum or maximum. -/
  | viminmax (o : LF)
  /-- R180. Selects each element from A or B by the mask-stack top. -/
  | vsel (o : LF)
  /-- R182. Converts elements between formats and lands after 4 cycles. -/
  | vcvt (o : LF)
  /-- R184. Converts register layout to packed memory layout. -/
  | vpack (o : LF)
  /-- R184. Converts packed memory layout to register layout. -/
  | vunpack (o : LF)
  /-- R185. Multiplies LN6 codes in the log domain. -/
  | vlnmul (o : LF)
  /-- R186. Decodes LN6 codes to linear values scaled by 2^s. -/
  | vlnlin (o : LF)
  /-- R188. Computes 2^x, correctly rounded. -/
  | vexp2 (o : LF)
  /-- R188. Computes log2 x, correctly rounded. -/
  | vlog2 (o : LF)
  /-- R188. Computes 1/x, correctly rounded. -/
  | vrcp (o : LF)
  /-- R188. Computes 1/√x, correctly rounded. -/
  | vrsqrt (o : LF)
  /-- R189. Sums the active elements exactly and rounds once into element 0. -/
  | vsum (o : LF)
  /-- R190. Writes the maximum of the active elements to element 0. -/
  | vrmax (o : LF)
  /-- R192. Permutes elements by the index group. -/
  | vperm (o : LF)
  /-- R193. Broadcasts an element or a scalar to every element. -/
  | vbcast (o : LF)
  /-- R193. Slides elements up or down by k. -/
  | vslide (o : LF)
  /-- R193. Copies a register or writes an immediate. -/
  | vmov (o : LF)
  /-- R194. Moves one element to a scalar register. -/
  | vmvx (o : LF)
  /-- R194. Lands a scalar in one element. -/
  | vins (o : LF)
  /-- R196. Loads a group from a scratchpad in its issue cycle and lands it later. -/
  | vld (o : LF)
  /-- R196. Stores a group to a scratchpad in its issue cycle. -/
  | vst (o : LF)
  /-- R197. Gathers elements by 32-bit offsets. -/
  | vgath (o : LF)
  /-- R197. Scatters elements by 32-bit offsets. -/
  | vscat (o : LF)
  /-- R198. Pushes x[A] AND the top onto the mask stack. -/
  | mpush (o : LF)
  /-- R198. Replaces the top with its parent AND NOT the top. -/
  | minv (o : LF)
  /-- R198. Pops the mask stack. -/
  | mpop (o : LF)
  /-- R198. Writes the mask top to a scalar register. -/
  | mget (o : LF)
  /-- R198. Branches when the mask top is zero. -/
  | bmz (o : LF)
  /-- R66. Pushes a register-window frame, spilling when needed. -/
  | wenter (o : LF)
  /-- R66. Pops a register-window frame, filling when needed. -/
  | wleave (o : LF)
  /-- R207. Accumulates the exact products of two tiles into an accumulator and draws a pm.mx number. -/
  | mma (o : LF)
  /-- R208. Multiplies a down-converted accumulator by a tile and accumulates the result. -/
  | mmac (o : LF)
  /-- R209. Builds table-lookup entries from activations into an accumulator. -/
  | mlutb (o : LF)
  /-- R210. Accumulates looked-up table entries selected by the weights. -/
  | mlut (o : LF)
  /-- R213. Lands +0 in every accumulator element. -/
  | azero (o : LF)
  /-- R213. Loads a tile into an accumulator. -/
  | ald (o : LF)
  /-- R213. Stores an accumulator tile through the down-converter. -/
  | ast (o : LF)
  /-- R214. Reads accumulator elements into a vector group through the down-converter. -/
  | ardv (o : LF)
  /-- R214. Writes a vector group into accumulator elements. -/
  | awrv (o : LF)
  /-- R215. Lands a scalar in one handle word. -/
  | hset (o : LF)
  /-- R215. Reads one handle word to a scalar register. -/
  | hget (o : LF)
  /-- R215. Loads a handle from local space. -/
  | hld (o : LF)
  /-- R215. Stores a handle to local space. -/
  | hst (o : LF)
  /-- R215. Advances a handle's BASE by the stride of a loop counter. -/
  | hadv (o : LF)
  /-- R216. Starts a hardware loop on a counter. -/
  | loop (o : LF)
  /-- R217. Reads a loop counter's COUNT. -/
  | lcrd (o : LF)
  /-- R216. Pops a loop and every loop above it. -/
  | lbrk (o : LF)
  /-- R218. Writes a format-table entry. -/
  | fmtset (o : LF)
  /-- R218. Sets the format selector. -/
  | fmtsel (o : LF)
  /-- R218. Reads a format-table entry. -/
  | fmtget (o : LF)
  /-- R231. Issues a copy from buffer memory to local space or a slot, optionally transposing. -/
  | cpld (o : LF)
  /-- R231. Issues a copy from local space to buffer memory. -/
  | cpst (o : LF)
  /-- R232. Issues a gather of buffer rows into packed local rows. -/
  | cpgat (o : LF)
  /-- R232. Issues a scatter of local rows to buffer rows. -/
  | cpsca (o : LF)
  /-- R231. Issues a copy between local ranges or into a slot. -/
  | cploc (o : LF)
  /-- R233. Issues a copy between buffer ranges at their homes. -/
  | cprem (o : LF)
  /-- R236. Issues a collective all-gather, broadcast or all-to-all. -/
  | coll (o : LF)
  /-- R240. Loads 1 to 8 bytes of buffer memory through the cluster cache. -/
  | bld (o : LF)
  /-- R240. Stores 1 to 8 bytes of buffer memory through the cluster cache. -/
  | bst (o : LF)
  /-- R241. Performs an atomic operation at the home with scope actions. -/
  | bamo (o : LF)
  /-- R242. Performs a compare-and-swap at the home. -/
  | bcas (o : LF)
  /-- R88. Requests a sync object exclusive or shared and acquires its ranges on grant. -/
  | acq (o : LF)
  /-- R89. Writes back the bound ranges and releases the object at the directory. -/
  | rel (o : LF)
  /-- R90. Performs write-back and/or invalidation over a range at a scope. -/
  | frange (o : LF)
  /-- R246. Reads a postmark counter's completed value. -/
  | pmrd (o : LF)
  /-- R246. Waits until a postmark counter reaches n, then acquires. -/
  | pmwait (o : LF)
  /-- R247. Waits until the member's outstanding counters fall to the immediates. -/
  | wait (o : LF)
  /-- R225. Reconfigures a quiescent pigeonhole. -/
  | phcfg (o : LF)
  /-- R224. Binds the next filled slot, blocking while none is filled. -/
  | phtake (o : LF)
  /-- R224. Frees the oldest taken slot once copies have read it. -/
  | phgive (o : LF)
  /-- R224. Reserves the next free slot, blocking while none is free. -/
  | phres (o : LF)
  /-- R224. Posts the oldest reserved slot not reserved by an AP copy. -/
  | phpost (o : LF)
  /-- R224. Reads a pigeonhole's state word. -/
  | phstat (o : LF)
  /-- R226. Appends a word to a token queue, blocking while it is full. -/
  | tqput (o : LF)
  /-- R226. Removes or peeks the head word of a token queue. -/
  | tqget (o : LF)
  /-- R119. Checks and sends a near-bank query, reserving result slots and drawing a pm.nb number. -/
  | nbq (o : LF)
  /-- R127. Cancels an accepted, incomplete near-bank query. -/
  | nbcan (o : LF)
  /-- R251. Checks a TCB and registers it with a sorter as READY or WAITING. -/
  | tenq (o : LF)
  /-- R252. Drains and ends the member; the last member's tend completes or parks the task. -/
  | tend (o : LF)
  /-- R254. Saves the team when equal-or-higher-priority ready work waits, and otherwise does nothing. -/
  | tyield (o : LF)
  /-- R256. Releases the visibility ranges and posts a child launch record to a launch queue. -/
  | lnch (o : LF)
  /-- R257. Waits until a buffer word meets a condition at its home. -/
  | twait (o : LF)
  /-- R258. Reads a snapshot of the task's speculation state. -/
  | specq (o : LF)
  /-- R259. Writes the hop distance between two virtual dies. -/
  | vdist (o : LF)
  /-- R255. Traps the task with TASK_ABORT and a detail word. -/
  | tabort (o : LF)
  /-- R260. Re-encrypts the counter blocks of a range under generation CUR. -/
  | krot (o : LF)
  /-- R261. Reads the state of the counter block holding a byte. -/
  | kstat (o : LF)
  /-- R264. Writes a sealed AES-GCM image of up to 8 ranges. -/
  | sealImage (o : LF)
  /-- R265. Verifies a sealed image and restores its ranges. -/
  | unsealImage (o : LF)
  /-- R266. Zeroes a local range in its issue cycle. -/
  | scrub (o : LF)
  /-- R267. Declares the 4 KiB blocks of a range dead so that they read zero. -/
  | mdead (o : LF)
  /-- R386. Saves a running task's team as SAVE does. -/
  | ctxsv (o : LF)
  /-- R319. Saves a running task, posts HALT and keeps it out of the ready queues. -/
  | ctxsvHalt (o : LF)
  /-- R386. Verifies a kept-out task's image and re-queues it. -/
  | ctxrs (o : LF)
  /-- R386. Makes a checkpoint due for a running task. -/
  | ckpt (o : LF)
  /-- R386. Rolls back a rollback-eligible running task. -/
  | ckrb (o : LF)
  /-- R334. Invalidates the translations of a CID's virtual range and waits for in-flight accesses. -/
  | tlbir (o : LF)
  /-- R389. Derives the next key generation into the non-CUR half and sets CUR. -/
  | ksload (o : LF)
  /-- R389. Assigns a free key slot to a partition and loads generation GENNO into half 0. -/
  | ksloadNew (o : LF)
  /-- R389. Zeroises one half of a key slot. -/
  | ksclr (o : LF)
  /-- R389. Zeroises both halves of a key slot and unassigns it. -/
  | ksclrAll (o : LF)
  /-- R392. Writes a context's virtual-die table. -/
  | slmap (o : LF)
  /-- R392. Lends an idle slice's compute die to a borrower's anchor. -/
  | slend (o : LF)
  /-- R362. Starts the recall of a lent die. -/
  | slrcl (o : LF)
  /-- R390. Links a new segment into a launch queue. -/
  | qlink (o : LF)
  /-- R394. Loads the unlocked package-time master's count. -/
  | tset (o : LF)
  /-- R394. Sets the package-time master's rate correction. -/
  | tadj (o : LF)
  /-- R391. Posts a record to a context's fault, error or debug queue. -/
  | errpost (o : LF)
  /-- R393. Sets a die's stamp pool. -/
  | stmp (o : LF)
  /-- R387. Restores a faulted or halted task at its stopped instructions. -/
  | tresmResume (o : LF)
  /-- R387. Discards a faulted or halted task's team and starts it from its entry. -/
  | tresmRestart (o : LF)
  /-- R320. Runs one instruction of one member of a halted or faulted task. -/
  | tresmStep (o : LF)
  /-- R320. Abandons a blocked step and posts STEP. -/
  | tresmAbandon (o : LF)
  /-- R321. Releases a task's held child launches to the Postmaster. -/
  | tresmRel (o : LF)
  /-- R314. Answers an outstanding service request with a return or a fault. -/
  | tresmSvc (o : LF)
  /-- R32. Cancels a faulted or halted task and cascades. -/
  | tcanc (o : LF)
  /-- R240. Short form of bld.b. -/
  | bldBShort (rd : Reg) (rs1 : Reg) (imm : BitVec 12)
  /-- R240. Short form of bld.h. -/
  | bldHShort (rd : Reg) (rs1 : Reg) (imm : BitVec 12)
  /-- R240. Short form of bld.w. -/
  | bldWShort (rd : Reg) (rs1 : Reg) (imm : BitVec 12)
  /-- R240. Short form of bld.d. -/
  | bldDShort (rd : Reg) (rs1 : Reg) (imm : BitVec 12)
  /-- R240. Short form of bst.b. -/
  | bstBShort (rs1 : Reg) (rs2 : Reg) (imm : BitVec 12)
  /-- R240. Short form of bst.h. -/
  | bstHShort (rs1 : Reg) (rs2 : Reg) (imm : BitVec 12)
  /-- R240. Short form of bst.w. -/
  | bstWShort (rs1 : Reg) (rs2 : Reg) (imm : BitVec 12)
  /-- R240. Short form of bst.d. -/
  | bstDShort (rs1 : Reg) (rs2 : Reg) (imm : BitVec 12)
  /-- R88. Short form of an exclusive acq. -/
  | acqShort (rd : Reg) (rs1 : Reg) (rs2 : Reg)
  /-- R88. Short form of a shared acq. -/
  | acqShShort (rd : Reg) (rs1 : Reg) (rs2 : Reg)
  /-- R89. Short form of rel. -/
  | relShort (rd : Reg) (rs1 : Reg) (rs2 : Reg)
  /-- R246. Short form of pmrd. -/
  | pmrdShort (rd : Reg) (rs1 : Reg) (rs2 : Reg)
  /-- R246. Short form of pmwait. -/
  | pmwaitShort (rd : Reg) (rs1 : Reg) (rs2 : Reg)
  /-- R224. Short form of phres. -/
  | phresShort (rd : Reg) (rs1 : Reg) (rs2 : Reg)
  /-- R224. Short form of phpost. -/
  | phpostShort (rd : Reg) (rs1 : Reg) (rs2 : Reg)
  /-- R224. Short form of phtake. -/
  | phtakeShort (rd : Reg) (rs1 : Reg) (rs2 : Reg)
  /-- R224. Short form of phgive. -/
  | phgiveShort (rd : Reg) (rs1 : Reg) (rs2 : Reg)
  /-- R224. Short form of phstat. -/
  | phstatShort (rd : Reg) (rs1 : Reg) (rs2 : Reg)
  /-- R226. Short form of tqput. -/
  | tqputShort (rd : Reg) (rs1 : Reg) (rs2 : Reg)
  /-- R226. Short form of tqget. -/
  | tqgetShort (rd : Reg) (rs1 : Reg) (rs2 : Reg)
  /-- R226. Short form of tqget.pk. -/
  | tqgetPkShort (rd : Reg) (rs1 : Reg) (rs2 : Reg)
  /-- R259. Short form of vdist. -/
  | vdistShort (rd : Reg) (rs1 : Reg) (rs2 : Reg)
  /-- R258. Short form of specq. -/
  | specqShort (rd : Reg) (rs1 : Reg) (rs2 : Reg)
  /-- R261. Short form of kstat. -/
  | kstatShort (rd : Reg) (rs1 : Reg) (rs2 : Reg)
  /-- R217. Short form of lcrd. -/
  | lcrdShort (rd : Reg) (rs1 : Reg) (rs2 : Reg)
  /-- R216. Short form of lbrk. -/
  | lbrkShort (rd : Reg) (rs1 : Reg) (rs2 : Reg)
  /-- R218. Short form of fmtsel. -/
  | fmtselShort (rd : Reg) (rs1 : Reg) (rs2 : Reg)
  /-- R218. Short form of fmtget. -/
  | fmtgetShort (rd : Reg) (rs1 : Reg) (rs2 : Reg)
  /-- R198. Short form of mget. -/
  | mgetShort (rd : Reg) (rs1 : Reg) (rs2 : Reg)
  /-- R198. Short form of mpush. -/
  | mpushShort (rd : Reg) (rs1 : Reg) (rs2 : Reg)
  /-- R66. Short form of wenter, with n/32 split over rs1 and rs2. -/
  | wenterShort (rd : Reg) (rs1 : Reg) (rs2 : Reg)
  /-- R127. Short form of nbcan. -/
  | nbcanShort (rd : Reg) (rs1 : Reg) (rs2 : Reg)
  /-- R255. Short form of tabort. -/
  | tabortShort (rd : Reg) (rs1 : Reg) (rs2 : Reg)
  /-- R266. Short form of scrub. -/
  | scrubShort (rd : Reg) (rs1 : Reg) (rs2 : Reg)
  /-- R215. Short form of hadv. -/
  | hadvShort (rd : Reg) (rs1 : Reg) (rs2 : Reg)
  /-- R251. Short form of tenq. -/
  | tenqShort (rd : Reg) (rs1 : Reg) (rs2 : Reg)
  /-- R159. Posts a service request to the supervisor's service queue and blocks the member until it is answered. -/
  | ecall
  /-- R160. Raises BREAKPOINT precisely, before it issues. -/
  | ebreak
  /-- R334. The hub returns the range-invalidation acknowledgement once in-flight accesses, write-backs and squashes are done. -/
  | tlbirAck
  /-- R252. Short form of tend. -/
  | tendShort
  /-- R254. Short form of tyield. -/
  | tyieldShort
  /-- R198. Short form of minv. -/
  | minvShort
  /-- R198. Short form of mpop. -/
  | mpopShort
  /-- R66. Short form of wleave. -/
  | wleaveShort
  /-- R61. A pending result whose delay reaches zero writes its destination, or the bypass, with its flags. -/
  | landing
  /-- R308. The sorter stops the team at a faulting instruction, saves it, writes FAULT and posts a fault record. -/
  | trap
  /-- R23. The Postmaster takes a launch record from a queue, assigns LAUNCH_ID, checks it and writes its status. -/
  | launchAccept
  /-- R396. A 64-byte host write to a queue window is appended as a launch record or refused. -/
  | hostLaunchSubmit
  /-- R340. Every 100 µs each queue with undispatched tasks gains dispatch credit. -/
  | quantumTick
  /-- R340. The Postmaster hands a task of a queue to a die sorter, charging the queue's credit. -/
  | dispatch
  /-- R341. A queue gains one priority token every REFILL µs, up to TOKCAP. -/
  | tokenRefill
  /-- R26. The sorter starts or restores the head task of its highest queue when its stamps and a core are free. -/
  | taskStart
  /-- R31. Once every buffer write of the task reaches home, the sorter writes DONE_PM and DONE and decrements successors. -/
  | taskComplete
  /-- R104. A WAITING task whose only outstanding predecessors are producers starts on proofs. -/
  | speculativeStart
  /-- R109. An assay notice arrives at the consumer's cluster and the assay engine reads and compares the real tile. -/
  | assayNotice
  /-- R110. The verdict reaches the sorter: pass marks the slot real or commits, fail squashes. -/
  | assayVerdict
  /-- R105. A proof-store-full freeze lasting one team-wait threshold squashes the task. -/
  | proofStoreTimeout
  /-- R34. A team that retires nothing for the team-wait threshold while waiting is saved and its core released. -/
  | teamSwap
  /-- R34. A swapped task is re-queued when its awaited word changes, or one threshold after the swap. -/
  | swapRequeue
  /-- R322. The hang timer reaches the threshold and the task traps with HANG, or a stalled save is abandoned. -/
  | hangTimeout
  /-- R323. A privileged hart's firmware watchdog expires and the hart is reset. -/
  | firmwareWatchdog
  /-- R344. The sorter chooses victims for a blocked newcomer, spends tokens and applies a policy to each. -/
  | preempt
  /-- R346. A DRAIN victim not done after DRAIN_MAX is given another policy. -/
  | drainTimeout
  /-- R346. The stopped team's image is written, STATE becomes SAVED, and the core and stamps are released. -/
  | saveComplete
  /-- R349. CKPT_INT elapses, or the log area reaches seven-eighths, and a checkpoint falls due. -/
  | checkpointDue
  /-- R349. At the first quiet instant the team state is snapshotted and the logs emptied. -/
  | checkpointTaken
  /-- R353. At the switch tick every die pre-empts the gang's running tasks. -/
  | gangSwitch
  /-- R353. A die's prepared token arrives; with all votes the commit binds the incoming gang. -/
  | gangVote
  /-- R354. At S + 120 µs without every vote, every die rolls back the gang's remaining tasks. -/
  | gangVoteDeadline
  /-- R354. At S + 170 µs a die still without a vote is reset and its tasks killed or faulted. -/
  | gangResetDeadline
  /-- R81. A cluster-cache line is evicted, writing back only its dirty bytes. -/
  | cacheEviction
  /-- R230. A copy's last destination byte is written, completing its number and auto-posting its slot. -/
  | copyComplete
  /-- R88. The directory grants the head request, and the acquirer writes back and invalidates its bound lines. -/
  | syncGrant
  /-- R125. The memory die accepts a query, verifies counters and holds writes to the covered rows. -/
  | nbqAccept
  /-- R121. A bank engine finishes its scan and its record is written and posted to its slot. -/
  | nbEngineRecord
  /-- R119. The summary record is posted and the query's pm.nb number completes. -/
  | nbSummary
  /-- R128. A same-bank refresh pre-empts a scan at a row boundary. -/
  | sameBankRefresh
  /-- R237. A contribution lands in a member's receive buffer and is counted, completing pm.cl when the count is reached. -/
  | collArrival
  /-- R371. A memory die reads a line, decrypts it and verifies its MAC and counter path. -/
  | homeRead
  /-- R372. A memory die applies a line write, increments its minor and updates the tree. -/
  | homeWrite
  /-- R373. A re-encryption or revival finishes, and the block unlocks and applies held accesses in order. -/
  | blockUnlock
  /-- R91. An atomic is performed indivisibly at the home and its old value returned. -/
  | homeAtomic
  /-- R318. On-die error scrubbing finds an uncorrectable line and poisons it. -/
  | errorScrub
  /-- R399. A Nenil completion slot returns a result to the requester. -/
  | completion
  /-- R16. An acknowledgement token arrives over a die link, completing the operation that awaited it. -/
  | acknowledgementToken
  /-- R399. An acquire or release message reaches the sync-object directory. -/
  | directoryMessage
  /-- R399. A management slot crosses a die link. -/
  | managementMessage
  /-- R375. A burst's closing tag is checked and the burst accepted, or treated as a flit error. -/
  | burstTag
  /-- R400. A receiver discarding a bad flit requests go-back-N replay, and the transmitter resends. -/
  | replayRequest
  /-- R400. A fourth consecutive failure takes a die link down for retraining. -/
  | linkDown
  /-- R400. A retrained die link resumes traffic. -/
  | linkUp
  /-- R364. A die unconnected for 1 ms discards state, zeroises keys and halts. -/
  | orphanTimeout
  /-- R405. Every 1 µs, or 100 µs across packages, a parent sends a time-exchange flit. -/
  | timeExchangeTick
  /-- R405. A child computes offset and delay from an exchange, slews its rate and updates lock state. -/
  | timeExchange
  /-- R329. A walker translates a virtual address through four levels, setting A and D or faulting. -/
  | pageWalk
  /-- R363. At R + D − 20 µs remaining borrower teams are discarded and the die is reset. -/
  | recallDeadline
  /-- R362. When every borrower task has left, firmware scrubs the die and returns it to the lender. -/
  | recallReturn
  /-- R397. A read of the notification register pops one FIFO entry. -/
  | notificationPop
  /-- R398. A host aperture read is checked and performed at home as the entry's CID. -/
  | apertureRead
  /-- R398. A host aperture write is checked and performed at home as the entry's CID. -/
  | apertureWrite
  /-- R365. A master writes its code to OWNER to claim management ownership. -/
  | mgmtClaim
  /-- R365. The owner sets TARGET to begin a handover. -/
  | mgmtHandover
  /-- R365. A target that does not claim within 1 s leaves ownership with the owner. -/
  | handoverTimeout
  /-- R365. Five seconds without an MCTP message from the owning BMC clears OWNER. -/
  | bmcSilenceTimeout
  /-- R365. A link-down of the host port clears host ownership. -/
  | hostLinkDown
  /-- R404. Setting LOCK makes the package configuration read-only until reset. -/
  | pkgcfgLock
  /-- R410. The owner clears DIESTAT error counts or events by writing ones. -/
  | diestatClear
  /-- R410. A write to a management register without a row of its own, honoured only from the owner. -/
  | registerWrite
  /-- R357. The management owner asks firmware to create, resize or destroy a partition. -/
  | partitionRequest
  /-- R325. Firmware writes a buffer descriptor at the supervisor's request and invalidates cached copies. -/
  | bdtWrite
  /-- R336. Firmware writes a partition's scheduling block. -/
  | schedBlockWrite
  /-- R331. The supervisor adds frames to a free pool through firmware. -/
  | poolFrameAdd
  /-- R366. A tenant installs its record through a secure SPDM session while the TDI is CONFIG_LOCKED. -/
  | tenantSet
  /-- R377. TDISP version query. -/
  | getTdispVersion
  /-- R377. TDISP capabilities query. -/
  | getTdispCapabilities
  /-- R377. Freezes block 6 and moves the TDI to CONFIG_LOCKED. -/
  | lockInterfaceRequest
  /-- R377. Returns the TDI's interface report. -/
  | getDeviceInterfaceReport
  /-- R377. Returns the TDI's state. -/
  | getDeviceInterfaceState
  /-- R377. Enables the partition's IDE stream and queues and moves the TDI to RUN. -/
  | startInterfaceRequest
  /-- R377. Zeroises the tenant record and slots and moves the TDI to CONFIG_UNLOCKED. -/
  | stopInterfaceRequest
  /-- R377. An IDE key-management message over an SPDM secure session. -/
  | ideKm
  /-- R377. An IDE stream failure zeroises the record and slots and moves the TDI to ERROR. -/
  | ideStreamFailure
  /-- R378. SPDM version request. -/
  | getVersion
  /-- R378. SPDM capabilities request. -/
  | getCapabilities
  /-- R378. SPDM algorithm negotiation. -/
  | negotiateAlgorithms
  /-- R378. SPDM certificate digest request. -/
  | getDigests
  /-- R378. SPDM certificate chain request. -/
  | getCertificate
  /-- R378. SPDM challenge signed with the ML-DSA-65 device key. -/
  | challenge
  /-- R378. Returns signed measurement blocks, which form the touchmark. -/
  | getMeasurements
  /-- R378. SPDM session key exchange. -/
  | keyExchange
  /-- R378. SPDM session finish. -/
  | finish
  /-- R378. Ends an SPDM session. -/
  | endSession
  /-- R379. The initiator's hello with nonce, ML-KEM key and touchmark digest reaches the responder. -/
  | joinHello
  /-- R379. The responder's signed reply with ML-KEM ciphertext reaches the initiator, which checks it. -/
  | joinReply
  /-- R380. The wrapped tenant record reaches the responder, which checks it and installs the record. -/
  | joinFinish
  /-- R380. The responder's done tag reaches the initiator, which admits the peer and loads link keys. -/
  | joinDone
  /-- R380. A handshake message not arriving within 10 ms ends the handshake with no change. -/
  | joinTimeout
  /-- R403. A UALink read, write or atomic is performed at a remote home and acknowledged. -/
  | ualinkTransaction
  /-- R407. Input within 48–54 V for 10 ms powers the hub and starts bring-up. -/
  | powerUp
  /-- R407. A reset repeats every bring-up step in order. -/
  | moduleReset
  /-- R409. Each ms a compute die above 100 °C lowers its cap by 68 stamps, or raises it below 95 °C. -/
  | thermalCapStep
  /-- R409. A die crossing its trip temperature is reset, or a stack's refresh and credit refill are adjusted. -/
  | thermalTrip
  /-- R405. A die whose time link stays down for longer than 1 ms becomes unlocked and TERR reads all ones. -/
  | timeUnlockTimeout
  /-- R339. Segments are returned to a partition's empty reserve pool, letting stalled lnch and refused host submissions proceed. -/
  | reservePoolRefill
  /-- R338. Firmware writes a launch-queue descriptor's WEIGHT, PRIO, TOKCAP or REFILL at the supervisor's request. -/
  | queueDescWrite
  /-- R337. Firmware creates or changes a context descriptor, including VALID, DEBUG and GANG. -/
  | contextDescWrite
  /-- R398. Firmware writes an entry of a TDI's aperture table at the supervisor's request. -/
  | apertureTableWrite
  /-- R335. Firmware resets a memory or compute die, or a memory die suffers a fatal error, after which accesses answer MEM_UNAVAILABLE. -/
  | dieReset
  /-- R364. Firmware brings a reset or orphaned die back, marking every block of a returning memory die dead. -/
  | dieReturn
  /-- R403. A UALink port loses a lane and runs degraded as x2 or x1. -/
  | ualinkLaneFault
deriving DecidableEq, Repr

end Sys2Proof
end

