-- ==== Sys2Proof/Machine/Shape.lean ====
section
/-! DEFINITION. What each Xosin long form may hold in its fields: the opcode map (08 R144), the operand kinds (R134),
and the static half of check 4 of R139. -/

namespace Sys2Proof

/-- The operand kinds of R134. -/
inductive Kind where
  /-- Not used: must be zero. -/
  | none
  | vec | x | h | acc | lc | ph | tq | pm | uimm | simm
deriving DecidableEq, Repr

/-- What one long form's fields may hold. -/
structure Shape where
  cls : Nat
  op : Nat
  d : Kind
  a : Kind
  b : Kind
  /-- FMT codes (classes 0-8) or OPX values (classes 9-15) it accepts. -/
  fmts : List Nat
  modOk : Bool
  grpOk : Bool
  tOk : Bool
  mOk : Bool
deriving DecidableEq, Repr

/-- The zero, must-be-zero and range rule of one operand field (R134). -/
def Kind.fieldOk (k : Kind) (f : BitVec 11) : Bool :=
  match k with
  | .none => f == 0
  | .x | .h => f.toNat < 32
  | .acc | .lc => f.toNat < 4
  | .ph => f.toNat < 16
  | .tq => f.toNat < 8
  | .pm => f.toNat < 5
  | .vec | .uimm | .simm => true

/-- SUB[1:0] of classes 0, 2, 3, 7 and 8 (R137). -/
def LF.sub2 (o : LF) : Nat := (o.sub.extractLsb' 4 2).toNat
/-- OVF of classes 0, 2, 3, 7 and 8. -/
def LF.ovf (o : LF) : Bool := o.sub.getLsbD 3
/-- RM of classes 0, 2, 3, 7 and 8. -/
def LF.rm (o : LF) : Nat := (o.sub.extractLsb' 0 3).toNat
/-- SUB[3:0] of class 1. -/
def LF.sub4 (o : LF) : Nat := (o.sub.extractLsb' 2 4).toNat
/-- UNS of class 1. -/
def LF.uns (o : LF) : Bool := o.sub.getLsbD 1
/-- SAT of class 1. -/
def LF.sat (o : LF) : Bool := o.sub.getLsbD 0
/-- SUB[0] of class 9: the pigeonhole form (R228). -/
def LF.isPh (o : LF) : Bool := o.sub.getLsbD 3
/-- TR of class 9. -/
def LF.tr (o : LF) : Nat := (o.sub.extractLsb' 1 2).toNat
/-- AP of class 9. -/
def LF.ap (o : LF) : Bool := o.sub.getLsbD 0
/-- SCOPE of classes 10 and 11. -/
def LF.scope (o : LF) : Nat := (o.sub.extractLsb' 4 2).toNat
/-- SX of class 10. -/
def LF.sx (o : LF) : Bool := o.sub.getLsbD 3
/-- SIZE of class 10, as a power of two. -/
def LF.size (o : LF) : Nat := (o.sub.extractLsb' 0 2).toNat

/-- MOD of the rounding classes: SUB at most `maxSub`, RM 0 unless `rm`, never 5 or 6, OVF 0 unless `ovf` (R137). -/
def LF.rmMod (o : LF) (maxSub : Nat) (rm ovf : Bool) : Bool :=
  o.sub2 ≤ maxSub && (o.rm == 0 || (rm && o.rm != 5 && o.rm != 6)) && (ovf || !o.ovf)
/-- MOD of class 1. -/
def LF.intMod (o : LF) (maxSub : Nat) (uns sat : Bool) : Bool :=
  o.sub4 ≤ maxSub && (uns || !o.uns) && (sat || !o.sat)
/-- MOD of the classes whose MOD is all SUB. -/
def LF.subMod (o : LF) (maxSub : Nat) : Bool := o.sub.toNat ≤ maxSub
/-- MOD of class 9 (R228). -/
def LF.copyMod (o : LF) (ph tr : Bool) : Bool :=
  o.sub.extractLsb' 4 2 == 0 && (ph || !o.isPh) && (o.tr == 0 || (tr && o.tr != 3)) && (!o.ap || o.isPh)
/-- MOD of class 10 (R239). -/
def LF.bufMod (o : LF) (sx : Bool) (sizes : List Nat) (scope : Bool) : Bool :=
  !o.sub.getLsbD 2 && sizes.contains o.size && (!o.sx || (sx && o.size != 3)) && (!o.sx || !scope || o.size == 2)
    && (scope || o.scope == 0)
/-- MOD of `frange`: SUB 1 to 3 at any scope (R243). -/
def LF.frangeMod (o : LF) : Bool :=
  let s := (o.sub.extractLsb' 0 4).toNat
  1 ≤ s && s ≤ 3
/-- MOD of `twait` (R249). -/
def LF.twaitMod (o : LF) : Bool := (o.sub.extractLsb' 0 3).toNat ≤ 5 && o.sub.extractLsb' 4 2 == 0

/-- Formats 0-2 (R171). -/
def fmtsF : List Nat := [0, 1, 2, 15]
/-- Formats 0-5 (R171). -/
def fmtsF6 : List Nat := [0, 1, 2, 3, 4, 5, 15]
/-- Class 1 formats (R166). -/
def fmtsI : List Nat := [0, 1, 6, 7, 12, 15]
/-- `vcvt` destinations (R181). -/
def fmtsC : List Nat := [0, 1, 2, 3, 4, 5, 6, 7, 8, 9, 10, 11, 12, 15]
/-- `vpack` formats (R181). -/
def fmtsP : List Nat := [8, 9, 10, 11, 15]
/-- Class 4 and 5 formats (R166). -/
def fmtsR : List Nat := [0, 1, 2, 3, 4, 5, 6, 7, 8, 12, 15]
/-- `vgath` and `vscat` formats: no 4-bit ones (R195). -/
def fmtsG : List Nat := [0, 1, 2, 3, 4, 6, 8, 12, 15]
/-- Matrix formats (R204, R212). -/
def fmtsM : List Nat := [0, 1, 2, 3, 4, 5, 6, 7, 8, 9, 10, 11, 12, 15]
/-- Table-lookup formats (R204). -/
def fmtsL : List Nat := [13, 14, 15]
/-- Formats of `ald` and `awrv` (R212). -/
def fmtsA : List Nat := [0, 1, 2, 3, 4, 5, 6, 7, 8, 12, 15]
/-- Every OPX value: a pigeonhole number (R228). -/
def fmtsAll : List Nat := [0, 1, 2, 3, 4, 5, 6, 7, 8, 9, 10, 11, 12, 13, 14, 15]

/-- The fields of VADD (class 0, OP 0). -/
def shapeVadd (o : LF) : Shape := ⟨0, 0, .vec, .vec, .vec, fmtsF, o.rmMod 0 true false, true, true, true⟩
/-- The fields of VSUB (class 0, OP 1). -/
def shapeVsub (o : LF) : Shape := ⟨0, 1, .vec, .vec, .vec, fmtsF, o.rmMod 0 true false, true, true, true⟩
/-- The fields of VMUL (class 0, OP 2). -/
def shapeVmul (o : LF) : Shape := ⟨0, 2, .vec, .vec, .vec, fmtsF, o.rmMod 0 true false, true, true, true⟩
/-- The fields of VFMA (class 0, OP 3). -/
def shapeVfma (o : LF) : Shape := ⟨0, 3, .vec, .vec, .vec, fmtsF, o.rmMod 0 true false, true, true, true⟩
/-- The fields of VMIN (class 0, OP 4). -/
def shapeVmin (o : LF) : Shape := ⟨0, 4, .vec, .vec, .vec, fmtsF, o.rmMod 0 false false, true, true, true⟩
/-- The fields of VMAX (class 0, OP 5). -/
def shapeVmax (o : LF) : Shape := ⟨0, 5, .vec, .vec, .vec, fmtsF, o.rmMod 0 false false, true, true, true⟩
/-- The fields of VSGN (class 0, OP 6). -/
def shapeVsgn (o : LF) : Shape := ⟨0, 6, .vec, .vec, (if o.sub2 = 3 then .none else .vec), fmtsF6, o.rmMod 3 false false, true, true, true⟩
/-- The fields of VCMP (class 0, OP 7). -/
def shapeVcmp (o : LF) : Shape := ⟨0, 7, .x, .vec, .vec, fmtsF6, o.rmMod 3 false false, true, false, true⟩
/-- The fields of VCLASS (class 0, OP 8). -/
def shapeVclass (o : LF) : Shape := ⟨0, 8, .vec, .vec, .none, fmtsF, o.rmMod 0 false false, true, true, true⟩
/-- The fields of VIADD (class 1, OP 0). -/
def shapeViadd (o : LF) : Shape := ⟨1, 0, .vec, .vec, .vec, fmtsI, o.intMod 0 true true, true, true, true⟩
/-- The fields of VISUB (class 1, OP 1). -/
def shapeVisub (o : LF) : Shape := ⟨1, 1, .vec, .vec, .vec, fmtsI, o.intMod 0 true true, true, true, true⟩
/-- The fields of VIMUL (class 1, OP 2). -/
def shapeVimul (o : LF) : Shape := ⟨1, 2, .vec, .vec, .vec, fmtsI, o.intMod 0 true true, true, true, true⟩
/-- The fields of VIMULH (class 1, OP 3). -/
def shapeVimulh (o : LF) : Shape := ⟨1, 3, .vec, .vec, .vec, fmtsI, o.intMod 0 true false, true, true, true⟩
/-- The fields of VIMAD (class 1, OP 4). -/
def shapeVimad (o : LF) : Shape := ⟨1, 4, .vec, .vec, .vec, fmtsI, o.intMod 0 true true, true, true, true⟩
/-- The fields of VAND (class 1, OP 5). -/
def shapeVand (o : LF) : Shape := ⟨1, 5, .vec, .vec, .vec, fmtsI, o.intMod 0 false false, true, true, true⟩
/-- The fields of VOR (class 1, OP 6). -/
def shapeVor (o : LF) : Shape := ⟨1, 6, .vec, .vec, .vec, fmtsI, o.intMod 0 false false, true, true, true⟩
/-- The fields of VXOR (class 1, OP 7). -/
def shapeVxor (o : LF) : Shape := ⟨1, 7, .vec, .vec, .vec, fmtsI, o.intMod 0 false false, true, true, true⟩
/-- The fields of VSHL (class 1, OP 8). -/
def shapeVshl (o : LF) : Shape := ⟨1, 8, .vec, .vec, (if o.sub4 = 1 then .uimm else .vec), fmtsI, o.intMod 1 true true, true, true, true⟩
/-- The fields of VSHR (class 1, OP 9). -/
def shapeVshr (o : LF) : Shape := ⟨1, 9, .vec, .vec, (if o.sub4 = 1 then .uimm else .vec), fmtsI, o.intMod 1 true false, true, true, true⟩
/-- The fields of VIMINMAX (class 1, OP 10). -/
def shapeViminmax (o : LF) : Shape := ⟨1, 10, .vec, .vec, .vec, fmtsI, o.intMod 1 true false, true, true, true⟩
/-- The fields of VSEL (class 1, OP 11). -/
def shapeVsel (o : LF) : Shape := ⟨1, 11, .vec, .vec, .vec, fmtsI, o.intMod 0 false false, true, true, false⟩
/-- The fields of VCVT (class 2, OP 0). -/
def shapeVcvt (o : LF) : Shape := ⟨2, 0, .vec, .vec, .uimm, fmtsC, o.rmMod 3 true true, true, true, true⟩
/-- The fields of VPACK (class 2, OP 1). -/
def shapeVpack (o : LF) : Shape := ⟨2, 1, .vec, .vec, .none, fmtsP, o.rmMod 0 false false, true, true, false⟩
/-- The fields of VUNPACK (class 2, OP 2). -/
def shapeVunpack (o : LF) : Shape := ⟨2, 2, .vec, .vec, .none, fmtsP, o.rmMod 0 false false, true, true, false⟩
/-- The fields of VLNMUL (class 2, OP 3). -/
def shapeVlnmul (o : LF) : Shape := ⟨2, 3, .vec, .vec, .vec, [8, 15], o.rmMod 0 false false, true, true, true⟩
/-- The fields of VLNLIN (class 2, OP 4). -/
def shapeVlnlin (o : LF) : Shape := ⟨2, 4, .vec, .vec, .simm, fmtsF, o.rmMod 0 true true, true, true, true⟩
/-- The fields of VEXP2 (class 3, OP 0). -/
def shapeVexp2 (o : LF) : Shape := ⟨3, 0, .vec, .vec, .none, fmtsF, o.rmMod 0 true false, true, true, true⟩
/-- The fields of VLOG2 (class 3, OP 1). -/
def shapeVlog2 (o : LF) : Shape := ⟨3, 1, .vec, .vec, .none, fmtsF, o.rmMod 0 true false, true, true, true⟩
/-- The fields of VRCP (class 3, OP 2). -/
def shapeVrcp (o : LF) : Shape := ⟨3, 2, .vec, .vec, .none, fmtsF, o.rmMod 0 true false, true, true, true⟩
/-- The fields of VRSQRT (class 3, OP 3). -/
def shapeVrsqrt (o : LF) : Shape := ⟨3, 3, .vec, .vec, .none, fmtsF, o.rmMod 0 true false, true, true, true⟩
/-- The fields of VSUM (class 3, OP 4). -/
def shapeVsum (o : LF) : Shape := ⟨3, 4, .vec, .vec, .none, fmtsF, o.rmMod 0 true false, true, true, true⟩
/-- The fields of VRMAX (class 3, OP 5). -/
def shapeVrmax (o : LF) : Shape := ⟨3, 5, .vec, .vec, .none, fmtsF, o.rmMod 0 false false, true, true, true⟩
/-- The fields of VPERM (class 4, OP 0). -/
def shapeVperm (o : LF) : Shape := ⟨4, 0, .vec, .vec, .vec, fmtsR, o.subMod 0, true, true, true⟩
/-- The fields of VBCAST (class 4, OP 1). -/
def shapeVbcast (o : LF) : Shape := ⟨4, 1, .vec, (if o.sub = 1 then .x else .vec), (if o.sub = 1 then .none else .uimm), fmtsR, o.subMod 1, true, true, true⟩
/-- The fields of VSLIDE (class 4, OP 2). -/
def shapeVslide (o : LF) : Shape := ⟨4, 2, .vec, .vec, .uimm, fmtsR, o.subMod 1, true, true, true⟩
/-- The fields of VMOV (class 4, OP 3). -/
def shapeVmov (o : LF) : Shape := ⟨4, 3, .vec, (if o.sub = 1 then .none else .vec), (if o.sub = 1 then .simm else .none), fmtsR, o.subMod 1, true, true, true⟩
/-- The fields of VMVX (class 4, OP 4). -/
def shapeVmvx (o : LF) : Shape := ⟨4, 4, .x, .vec, .uimm, fmtsR, o.subMod 1, true, false, false⟩
/-- The fields of VINS (class 4, OP 5). -/
def shapeVins (o : LF) : Shape := ⟨4, 5, .vec, .x, .uimm, fmtsR, o.subMod 0, true, true, false⟩
/-- The fields of VLD (class 5, OP 0). -/
def shapeVld (o : LF) : Shape := ⟨5, 0, .vec, .x, .simm, fmtsR, o.subMod 1, true, true, true⟩
/-- The fields of VST (class 5, OP 1). -/
def shapeVst (o : LF) : Shape := ⟨5, 1, .vec, .x, .simm, fmtsR, o.subMod 1, true, false, true⟩
/-- The fields of VGATH (class 5, OP 2). -/
def shapeVgath (o : LF) : Shape := ⟨5, 2, .vec, .vec, .x, fmtsG, o.subMod 1, true, true, true⟩
/-- The fields of VSCAT (class 5, OP 3). -/
def shapeVscat (o : LF) : Shape := ⟨5, 3, .vec, .vec, .x, fmtsG, o.subMod 1, true, false, true⟩
/-- The fields of MPUSH (class 6, OP 0). -/
def shapeMpush (o : LF) : Shape := ⟨6, 0, .none, .x, .none, [0], o.subMod 0, false, false, false⟩
/-- The fields of MINV (class 6, OP 1). -/
def shapeMinv (o : LF) : Shape := ⟨6, 1, .none, .none, .none, [0], o.subMod 0, false, false, false⟩
/-- The fields of MPOP (class 6, OP 2). -/
def shapeMpop (o : LF) : Shape := ⟨6, 2, .none, .none, .none, [0], o.subMod 0, false, false, false⟩
/-- The fields of MGET (class 6, OP 3). -/
def shapeMget (o : LF) : Shape := ⟨6, 3, .x, .none, .none, [0], o.subMod 0, false, false, false⟩
/-- The fields of BMZ (class 6, OP 4). -/
def shapeBmz (o : LF) : Shape := ⟨6, 4, .none, .none, .simm, [0], o.subMod 0, false, false, false⟩
/-- The fields of WENTER (class 6, OP 5). -/
def shapeWenter (o : LF) : Shape := ⟨6, 5, .none, .none, .uimm, [0], o.subMod 0, false, false, false⟩
/-- The fields of WLEAVE (class 6, OP 6). -/
def shapeWleave (o : LF) : Shape := ⟨6, 6, .none, .none, .none, [0], o.subMod 0, false, false, false⟩
/-- The fields of MMA (class 7, OP 0). -/
def shapeMma (o : LF) : Shape := ⟨7, 0, .acc, .h, .h, fmtsM, o.rmMod 1 false false, false, false, false⟩
/-- The fields of MMAC (class 7, OP 1). -/
def shapeMmac (o : LF) : Shape := ⟨7, 1, .acc, .acc, .h, fmtsM, o.rmMod 3 true true, false, false, false⟩
/-- The fields of MLUTB (class 7, OP 2). -/
def shapeMlutb (o : LF) : Shape := ⟨7, 2, .acc, .h, .vec, fmtsL, o.rmMod 0 false false, false, false, false⟩
/-- The fields of MLUT (class 7, OP 3). -/
def shapeMlut (o : LF) : Shape := ⟨7, 3, .acc, .acc, .h, fmtsL, o.rmMod 0 false false, false, false, false⟩
/-- The fields of AZERO (class 8, OP 0). -/
def shapeAzero (o : LF) : Shape := ⟨8, 0, .acc, .none, .none, [0], o.rmMod 0 false false, false, false, false⟩
/-- The fields of ALD (class 8, OP 1). -/
def shapeAld (o : LF) : Shape := ⟨8, 1, .acc, .h, .none, fmtsA, o.rmMod 0 false false, false, false, false⟩
/-- The fields of AST (class 8, OP 2). -/
def shapeAst (o : LF) : Shape := ⟨8, 2, .h, .acc, .none, fmtsM, o.rmMod 0 true true, false, false, false⟩
/-- The fields of ARDV (class 8, OP 3). -/
def shapeArdv (o : LF) : Shape := ⟨8, 3, .vec, .acc, .uimm, fmtsM, o.rmMod 0 true true, true, true, true⟩
/-- The fields of AWRV (class 8, OP 4). -/
def shapeAwrv (o : LF) : Shape := ⟨8, 4, .acc, .vec, .uimm, fmtsA, o.rmMod 0 false false, true, false, false⟩
/-- The fields of HSET (class 8, OP 8). -/
def shapeHset (o : LF) : Shape := ⟨8, 8, .h, .x, .uimm, [0], o.rmMod 0 false false, false, false, false⟩
/-- The fields of HGET (class 8, OP 9). -/
def shapeHget (o : LF) : Shape := ⟨8, 9, .x, .h, .uimm, [0], o.rmMod 0 false false, false, false, false⟩
/-- The fields of HLD (class 8, OP 10). -/
def shapeHld (o : LF) : Shape := ⟨8, 10, .h, .x, .simm, [0], o.rmMod 1 false false, false, false, false⟩
/-- The fields of HST (class 8, OP 11). -/
def shapeHst (o : LF) : Shape := ⟨8, 11, .h, .x, .simm, [0], o.rmMod 1 false false, false, false, false⟩
/-- The fields of HADV (class 8, OP 12). -/
def shapeHadv (o : LF) : Shape := ⟨8, 12, .none, .h, .lc, [0], o.rmMod 0 false false, false, false, false⟩
/-- The fields of LOOP (class 8, OP 16). -/
def shapeLoop (o : LF) : Shape := ⟨8, 16, .lc, .x, .simm, [0], o.rmMod 0 false false, false, false, false⟩
/-- The fields of LCRD (class 8, OP 17). -/
def shapeLcrd (o : LF) : Shape := ⟨8, 17, .x, .none, .lc, [0], o.rmMod 0 false false, false, false, false⟩
/-- The fields of LBRK (class 8, OP 18). -/
def shapeLbrk (o : LF) : Shape := ⟨8, 18, .none, .none, .lc, [0], o.rmMod 0 false false, false, false, false⟩
/-- The fields of FMTSET (class 8, OP 24). -/
def shapeFmtset (o : LF) : Shape := ⟨8, 24, .uimm, (if o.sub2 = 1 then .x else .none), (if o.sub2 = 1 then .none else .uimm), [0], o.rmMod 1 false false, false, false, false⟩
/-- The fields of FMTSEL (class 8, OP 25). -/
def shapeFmtsel (o : LF) : Shape := ⟨8, 25, .none, .uimm, .uimm, [0], o.rmMod 0 false false, false, false, false⟩
/-- The fields of FMTGET (class 8, OP 26). -/
def shapeFmtget (o : LF) : Shape := ⟨8, 26, .x, .none, .uimm, [0], o.rmMod 0 false false, false, false, false⟩
/-- The fields of CPLD (class 9, OP 0). -/
def shapeCpld (o : LF) : Shape := ⟨9, 0, .x, .x, .x, (if o.isPh then fmtsAll else [0]), o.copyMod true true, false, false, false⟩
/-- The fields of CPST (class 9, OP 1). -/
def shapeCpst (o : LF) : Shape := ⟨9, 1, .x, .x, .x, [0], o.copyMod false false, false, false, false⟩
/-- The fields of CPGAT (class 9, OP 2). -/
def shapeCpgat (o : LF) : Shape := ⟨9, 2, .x, .x, .none, (if o.isPh then fmtsAll else [0]), o.copyMod true false, false, false, false⟩
/-- The fields of CPSCA (class 9, OP 3). -/
def shapeCpsca (o : LF) : Shape := ⟨9, 3, .x, .x, .none, [0], o.copyMod false false, false, false, false⟩
/-- The fields of CPLOC (class 9, OP 4). -/
def shapeCploc (o : LF) : Shape := ⟨9, 4, .x, .x, (if o.isPh then .none else .x), (if o.isPh then fmtsAll else [0]), o.copyMod true false, false, false, false⟩
/-- The fields of CPREM (class 9, OP 5). -/
def shapeCprem (o : LF) : Shape := ⟨9, 5, .x, .x, .x, [0], o.copyMod false false, false, false, false⟩
/-- The fields of COLL (class 9, OP 6). -/
def shapeColl (o : LF) : Shape := ⟨9, 6, .x, .x, .none, [0, 1, 2], o.copyMod false false, false, false, false⟩
/-- The fields of BLD (class 10, OP 0). -/
def shapeBld (o : LF) : Shape := ⟨10, 0, .x, .x, .simm, [0], o.bufMod true [0, 1, 2, 3] false, false, false, false⟩
/-- The fields of BST (class 10, OP 1). -/
def shapeBst (o : LF) : Shape := ⟨10, 1, .simm, .x, .x, [0], o.bufMod false [0, 1, 2, 3] false, false, false, false⟩
/-- The fields of BAMO (class 10, OP 2). -/
def shapeBamo (o : LF) : Shape := ⟨10, 2, .x, .x, .x, [0, 1, 2, 3, 4, 5, 6, 7, 8], o.bufMod true [2, 3] true, false, false, false⟩
/-- The fields of BCAS (class 10, OP 3). -/
def shapeBcas (o : LF) : Shape := ⟨10, 3, .x, .x, .x, [0], o.bufMod true [2, 3] true, false, false, false⟩
/-- The fields of ACQ (class 11, OP 0). -/
def shapeAcq (o : LF) : Shape := ⟨11, 0, .none, .x, .none, [0], o.subMod 1, false, false, false⟩
/-- The fields of REL (class 11, OP 1). -/
def shapeRel (o : LF) : Shape := ⟨11, 1, .none, .x, .none, [0], o.subMod 0, false, false, false⟩
/-- The fields of FRANGE (class 11, OP 2). -/
def shapeFrange (o : LF) : Shape := ⟨11, 2, .none, .x, .x, [0], o.frangeMod, false, false, false⟩
/-- The fields of PMRD (class 11, OP 3). -/
def shapePmrd (o : LF) : Shape := ⟨11, 3, .x, .none, .pm, [0], o.subMod 0, false, false, false⟩
/-- The fields of PMWAIT (class 11, OP 4). -/
def shapePmwait (o : LF) : Shape := ⟨11, 4, .none, .x, .pm, [0], o.subMod 0, false, false, false⟩
/-- The fields of WAIT (class 11, OP 5). -/
def shapeWait (o : LF) : Shape := ⟨11, 5, .uimm, .uimm, .uimm, [0], decide (o.sub.toNat < 64), false, false, false⟩
/-- The fields of PHCFG (class 11, OP 8). -/
def shapePhcfg (o : LF) : Shape := ⟨11, 8, .none, .x, .ph, [0], o.subMod 0, false, false, false⟩
/-- The fields of PHTAKE (class 11, OP 9). -/
def shapePhtake (o : LF) : Shape := ⟨11, 9, .x, .none, .ph, [0], o.subMod 0, false, false, false⟩
/-- The fields of PHGIVE (class 11, OP 10). -/
def shapePhgive (o : LF) : Shape := ⟨11, 10, .none, .none, .ph, [0], o.subMod 0, false, false, false⟩
/-- The fields of PHRES (class 11, OP 11). -/
def shapePhres (o : LF) : Shape := ⟨11, 11, .x, .none, .ph, [0], o.subMod 0, false, false, false⟩
/-- The fields of PHPOST (class 11, OP 12). -/
def shapePhpost (o : LF) : Shape := ⟨11, 12, .none, .none, .ph, [0], o.subMod 0, false, false, false⟩
/-- The fields of PHSTAT (class 11, OP 13). -/
def shapePhstat (o : LF) : Shape := ⟨11, 13, .x, .none, .ph, [0], o.subMod 0, false, false, false⟩
/-- The fields of TQPUT (class 11, OP 14). -/
def shapeTqput (o : LF) : Shape := ⟨11, 14, .none, .x, .tq, [0], o.subMod 0, false, false, false⟩
/-- The fields of TQGET (class 11, OP 15). -/
def shapeTqget (o : LF) : Shape := ⟨11, 15, .x, .none, .tq, [0], o.subMod 1, false, false, false⟩
/-- The fields of NBQ (class 12, OP 0). -/
def shapeNbq (o : LF) : Shape := ⟨12, 0, .x, .x, .ph, [0], o.subMod 0, false, false, false⟩
/-- The fields of NBCAN (class 12, OP 1). -/
def shapeNbcan (o : LF) : Shape := ⟨12, 1, .none, .x, .none, [0], o.subMod 0, false, false, false⟩
/-- The fields of TENQ (class 13, OP 0). -/
def shapeTenq (o : LF) : Shape := ⟨13, 0, .none, .x, .none, [0], o.subMod 0, false, false, false⟩
/-- The fields of TEND (class 13, OP 1). -/
def shapeTend (o : LF) : Shape := ⟨13, 1, .none, .none, .none, [0], o.subMod 0, false, false, false⟩
/-- The fields of TYIELD (class 13, OP 2). -/
def shapeTyield (o : LF) : Shape := ⟨13, 2, .none, .none, .none, [0], o.subMod 0, false, false, false⟩
/-- The fields of LNCH (class 13, OP 3). -/
def shapeLnch (o : LF) : Shape := ⟨13, 3, .none, .x, .x, [0], o.subMod 0, false, false, false⟩
/-- The fields of TWAIT (class 13, OP 4). -/
def shapeTwait (o : LF) : Shape := ⟨13, 4, .x, .x, .x, [0], o.twaitMod, false, false, false⟩
/-- The fields of SPECQ (class 13, OP 5). -/
def shapeSpecq (o : LF) : Shape := ⟨13, 5, .x, .none, .none, [0], o.subMod 0, false, false, false⟩
/-- The fields of VDIST (class 13, OP 6). -/
def shapeVdist (o : LF) : Shape := ⟨13, 6, .x, .x, .x, [0], o.subMod 0, false, false, false⟩
/-- The fields of TABORT (class 13, OP 7). -/
def shapeTabort (o : LF) : Shape := ⟨13, 7, .none, .x, .none, [0], o.subMod 0, false, false, false⟩
/-- The fields of KROT (class 14, OP 0). -/
def shapeKrot (o : LF) : Shape := ⟨14, 0, .x, .x, .x, [0], o.subMod 0, false, false, false⟩
/-- The fields of KSTAT (class 14, OP 1). -/
def shapeKstat (o : LF) : Shape := ⟨14, 1, .x, .x, .none, [0], o.subMod 0, false, false, false⟩
/-- The fields of SEAL (class 14, OP 2). -/
def shapeSealImage (o : LF) : Shape := ⟨14, 2, .x, .x, .none, [0], o.subMod 0, false, false, false⟩
/-- The fields of UNSEAL (class 14, OP 3). -/
def shapeUnsealImage (o : LF) : Shape := ⟨14, 3, .x, .x, .none, [0], o.subMod 0, false, false, false⟩
/-- The fields of SCRUB (class 14, OP 4). -/
def shapeScrub (o : LF) : Shape := ⟨14, 4, .none, .x, .x, [0], o.subMod 0, false, false, false⟩
/-- The fields of MDEAD (class 14, OP 5). -/
def shapeMdead (o : LF) : Shape := ⟨14, 5, .none, .x, .x, [0], o.subMod 0, false, false, false⟩
/-- The fields of CTXSV (class 15, OP 0). -/
def shapeCtxsv (o : LF) : Shape := ⟨15, 0, .x, .x, .none, [0], o.subMod 0, false, false, false⟩
/-- The fields of CTXSV_HALT (class 15, OP 0). -/
def shapeCtxsvHalt (o : LF) : Shape := ⟨15, 0, .x, .x, .none, [1], o.subMod 0, false, false, false⟩
/-- The fields of CTXRS (class 15, OP 1). -/
def shapeCtxrs (o : LF) : Shape := ⟨15, 1, .x, .x, .none, [0], o.subMod 0, false, false, false⟩
/-- The fields of CKPT (class 15, OP 2). -/
def shapeCkpt (o : LF) : Shape := ⟨15, 2, .x, .x, .none, [0], o.subMod 0, false, false, false⟩
/-- The fields of CKRB (class 15, OP 3). -/
def shapeCkrb (o : LF) : Shape := ⟨15, 3, .x, .x, .none, [0], o.subMod 0, false, false, false⟩
/-- The fields of TLBIR (class 15, OP 4). -/
def shapeTlbir (o : LF) : Shape := ⟨15, 4, .x, .x, .x, [0], o.subMod 0, false, false, false⟩
/-- The fields of KSLOAD (class 15, OP 5). -/
def shapeKsload (o : LF) : Shape := ⟨15, 5, .x, .x, .none, [0], o.subMod 0, false, false, false⟩
/-- The fields of KSLOAD_NEW (class 15, OP 5). -/
def shapeKsloadNew (o : LF) : Shape := ⟨15, 5, .x, .x, .x, [1], o.subMod 0, false, false, false⟩
/-- The fields of KSCLR (class 15, OP 6). -/
def shapeKsclr (o : LF) : Shape := ⟨15, 6, .x, .x, .x, [0], o.subMod 0, false, false, false⟩
/-- The fields of KSCLR_ALL (class 15, OP 6). -/
def shapeKsclrAll (o : LF) : Shape := ⟨15, 6, .x, .x, .none, [1], o.subMod 0, false, false, false⟩
/-- The fields of SLMAP (class 15, OP 7). -/
def shapeSlmap (o : LF) : Shape := ⟨15, 7, .x, .x, .x, [0], o.subMod 0, false, false, false⟩
/-- The fields of SLEND (class 15, OP 8). -/
def shapeSlend (o : LF) : Shape := ⟨15, 8, .x, .x, .none, [0], o.subMod 0, false, false, false⟩
/-- The fields of SLRCL (class 15, OP 9). -/
def shapeSlrcl (o : LF) : Shape := ⟨15, 9, .x, .x, .none, [0], o.subMod 0, false, false, false⟩
/-- The fields of QLINK (class 15, OP 10). -/
def shapeQlink (o : LF) : Shape := ⟨15, 10, .x, .x, .x, [0], o.subMod 0, false, false, false⟩
/-- The fields of TSET (class 15, OP 11). -/
def shapeTset (o : LF) : Shape := ⟨15, 11, .x, .x, .none, [0], o.subMod 0, false, false, false⟩
/-- The fields of TADJ (class 15, OP 12). -/
def shapeTadj (o : LF) : Shape := ⟨15, 12, .x, .x, .none, [0], o.subMod 0, false, false, false⟩
/-- The fields of ERRPOST (class 15, OP 13). -/
def shapeErrpost (o : LF) : Shape := ⟨15, 13, .x, .x, .x, [0, 1, 2], o.subMod 0, false, false, false⟩
/-- The fields of STMP (class 15, OP 14). -/
def shapeStmp (o : LF) : Shape := ⟨15, 14, .x, .x, .x, [0], o.subMod 0, false, false, false⟩
/-- The fields of TRESM_RESUME (class 15, OP 15). -/
def shapeTresmResume (o : LF) : Shape := ⟨15, 15, .x, .x, .x, [0], o.subMod 0, false, false, false⟩
/-- The fields of TRESM_RESTART (class 15, OP 15). -/
def shapeTresmRestart (o : LF) : Shape := ⟨15, 15, .x, .x, .x, [1], o.subMod 0, false, false, false⟩
/-- The fields of TRESM_STEP (class 15, OP 15). -/
def shapeTresmStep (o : LF) : Shape := ⟨15, 15, .x, .x, .x, [2], o.subMod 0, false, false, false⟩
/-- The fields of TRESM_ABANDON (class 15, OP 15). -/
def shapeTresmAbandon (o : LF) : Shape := ⟨15, 15, .x, .x, .x, [3], o.subMod 0, false, false, false⟩
/-- The fields of TRESM_REL (class 15, OP 15). -/
def shapeTresmRel (o : LF) : Shape := ⟨15, 15, .x, .x, .x, [4], o.subMod 0, false, false, false⟩
/-- The fields of TRESM_SVC (class 15, OP 15). -/
def shapeTresmSvc (o : LF) : Shape := ⟨15, 15, .x, .x, .x, [5], o.subMod 0, false, false, false⟩
/-- The fields of TCANC (class 15, OP 16). -/
def shapeTcanc (o : LF) : Shape := ⟨15, 16, .x, .x, .none, [0], o.subMod 0, false, false, false⟩

/-- The shape of a long form; none for every other instruction. -/
def Instr.shape (i : Instr) : Option (LF × Shape) :=
  match i with
  | .vadd o => some (o, shapeVadd o)
  | .vsub o => some (o, shapeVsub o)
  | .vmul o => some (o, shapeVmul o)
  | .vfma o => some (o, shapeVfma o)
  | .vmin o => some (o, shapeVmin o)
  | .vmax o => some (o, shapeVmax o)
  | .vsgn o => some (o, shapeVsgn o)
  | .vcmp o => some (o, shapeVcmp o)
  | .vclass o => some (o, shapeVclass o)
  | .viadd o => some (o, shapeViadd o)
  | .visub o => some (o, shapeVisub o)
  | .vimul o => some (o, shapeVimul o)
  | .vimulh o => some (o, shapeVimulh o)
  | .vimad o => some (o, shapeVimad o)
  | .vand o => some (o, shapeVand o)
  | .vor o => some (o, shapeVor o)
  | .vxor o => some (o, shapeVxor o)
  | .vshl o => some (o, shapeVshl o)
  | .vshr o => some (o, shapeVshr o)
  | .viminmax o => some (o, shapeViminmax o)
  | .vsel o => some (o, shapeVsel o)
  | .vcvt o => some (o, shapeVcvt o)
  | .vpack o => some (o, shapeVpack o)
  | .vunpack o => some (o, shapeVunpack o)
  | .vlnmul o => some (o, shapeVlnmul o)
  | .vlnlin o => some (o, shapeVlnlin o)
  | .vexp2 o => some (o, shapeVexp2 o)
  | .vlog2 o => some (o, shapeVlog2 o)
  | .vrcp o => some (o, shapeVrcp o)
  | .vrsqrt o => some (o, shapeVrsqrt o)
  | .vsum o => some (o, shapeVsum o)
  | .vrmax o => some (o, shapeVrmax o)
  | .vperm o => some (o, shapeVperm o)
  | .vbcast o => some (o, shapeVbcast o)
  | .vslide o => some (o, shapeVslide o)
  | .vmov o => some (o, shapeVmov o)
  | .vmvx o => some (o, shapeVmvx o)
  | .vins o => some (o, shapeVins o)
  | .vld o => some (o, shapeVld o)
  | .vst o => some (o, shapeVst o)
  | .vgath o => some (o, shapeVgath o)
  | .vscat o => some (o, shapeVscat o)
  | .mpush o => some (o, shapeMpush o)
  | .minv o => some (o, shapeMinv o)
  | .mpop o => some (o, shapeMpop o)
  | .mget o => some (o, shapeMget o)
  | .bmz o => some (o, shapeBmz o)
  | .wenter o => some (o, shapeWenter o)
  | .wleave o => some (o, shapeWleave o)
  | .mma o => some (o, shapeMma o)
  | .mmac o => some (o, shapeMmac o)
  | .mlutb o => some (o, shapeMlutb o)
  | .mlut o => some (o, shapeMlut o)
  | .azero o => some (o, shapeAzero o)
  | .ald o => some (o, shapeAld o)
  | .ast o => some (o, shapeAst o)
  | .ardv o => some (o, shapeArdv o)
  | .awrv o => some (o, shapeAwrv o)
  | .hset o => some (o, shapeHset o)
  | .hget o => some (o, shapeHget o)
  | .hld o => some (o, shapeHld o)
  | .hst o => some (o, shapeHst o)
  | .hadv o => some (o, shapeHadv o)
  | .loop o => some (o, shapeLoop o)
  | .lcrd o => some (o, shapeLcrd o)
  | .lbrk o => some (o, shapeLbrk o)
  | .fmtset o => some (o, shapeFmtset o)
  | .fmtsel o => some (o, shapeFmtsel o)
  | .fmtget o => some (o, shapeFmtget o)
  | .cpld o => some (o, shapeCpld o)
  | .cpst o => some (o, shapeCpst o)
  | .cpgat o => some (o, shapeCpgat o)
  | .cpsca o => some (o, shapeCpsca o)
  | .cploc o => some (o, shapeCploc o)
  | .cprem o => some (o, shapeCprem o)
  | .coll o => some (o, shapeColl o)
  | .bld o => some (o, shapeBld o)
  | .bst o => some (o, shapeBst o)
  | .bamo o => some (o, shapeBamo o)
  | .bcas o => some (o, shapeBcas o)
  | .acq o => some (o, shapeAcq o)
  | .rel o => some (o, shapeRel o)
  | .frange o => some (o, shapeFrange o)
  | .pmrd o => some (o, shapePmrd o)
  | .pmwait o => some (o, shapePmwait o)
  | .wait o => some (o, shapeWait o)
  | .phcfg o => some (o, shapePhcfg o)
  | .phtake o => some (o, shapePhtake o)
  | .phgive o => some (o, shapePhgive o)
  | .phres o => some (o, shapePhres o)
  | .phpost o => some (o, shapePhpost o)
  | .phstat o => some (o, shapePhstat o)
  | .tqput o => some (o, shapeTqput o)
  | .tqget o => some (o, shapeTqget o)
  | .nbq o => some (o, shapeNbq o)
  | .nbcan o => some (o, shapeNbcan o)
  | .tenq o => some (o, shapeTenq o)
  | .tend o => some (o, shapeTend o)
  | .tyield o => some (o, shapeTyield o)
  | .lnch o => some (o, shapeLnch o)
  | .twait o => some (o, shapeTwait o)
  | .specq o => some (o, shapeSpecq o)
  | .vdist o => some (o, shapeVdist o)
  | .tabort o => some (o, shapeTabort o)
  | .krot o => some (o, shapeKrot o)
  | .kstat o => some (o, shapeKstat o)
  | .sealImage o => some (o, shapeSealImage o)
  | .unsealImage o => some (o, shapeUnsealImage o)
  | .scrub o => some (o, shapeScrub o)
  | .mdead o => some (o, shapeMdead o)
  | .ctxsv o => some (o, shapeCtxsv o)
  | .ctxsvHalt o => some (o, shapeCtxsvHalt o)
  | .ctxrs o => some (o, shapeCtxrs o)
  | .ckpt o => some (o, shapeCkpt o)
  | .ckrb o => some (o, shapeCkrb o)
  | .tlbir o => some (o, shapeTlbir o)
  | .ksload o => some (o, shapeKsload o)
  | .ksloadNew o => some (o, shapeKsloadNew o)
  | .ksclr o => some (o, shapeKsclr o)
  | .ksclrAll o => some (o, shapeKsclrAll o)
  | .slmap o => some (o, shapeSlmap o)
  | .slend o => some (o, shapeSlend o)
  | .slrcl o => some (o, shapeSlrcl o)
  | .qlink o => some (o, shapeQlink o)
  | .tset o => some (o, shapeTset o)
  | .tadj o => some (o, shapeTadj o)
  | .errpost o => some (o, shapeErrpost o)
  | .stmp o => some (o, shapeStmp o)
  | .tresmResume o => some (o, shapeTresmResume o)
  | .tresmRestart o => some (o, shapeTresmRestart o)
  | .tresmStep o => some (o, shapeTresmStep o)
  | .tresmAbandon o => some (o, shapeTresmAbandon o)
  | .tresmRel o => some (o, shapeTresmRel o)
  | .tresmSvc o => some (o, shapeTresmSvc o)
  | .tcanc o => some (o, shapeTcanc o)
  | _ => Option.none

/-- The static half of check 4 of R139: no must-be-zero bit set, no MOD, FMT, OPX, GRP, T or M value outside the list. -/
def Shape.fieldsOk (sh : Shape) (o : LF) : Bool :=
  sh.d.fieldOk o.d && sh.a.fieldOk o.a && sh.b.fieldOk o.b && sh.fmts.contains o.fmt.toNat && sh.modOk
    && (sh.grpOk || o.grp == 0) && (sh.tOk || o.t == 0) && (sh.mOk || o.m == 0)

end Sys2Proof
end

