-- ==== Sys2Proof/WellFormed.lean ====
section
/-! DEFINITION. Well-formed instructions: the static checks of 08 R139, as one Bool per instruction. -/

namespace Sys2Proof

/-- The long form with which a custom-1 short form agrees (R142): D := rd, A := rs1, B := rs2, SUB as its row says. -/
def shortLF (rd rs1 rs2 : Reg) (sub : BitVec 6) : LF :=
  { sub := sub, m := 0, t := 0, grp := 0, fmt := 0, b := rs2.setWidth 11, a := rs1.setWidth 11, d := rd.setWidth 11 }

/-- The long form of the short `wenter`: A := 0 and B := n/32, held in rs2 and rs1 (R142). -/
def shortWenterLF (rd rs1 rs2 : Reg) : LF :=
  { sub := 0, m := 0, t := 0, grp := 0, fmt := 0, b := (rs2 ++ rs1).setWidth 11, a := 0, d := rd.setWidth 11 }

/-- The long equivalent of a custom-1 short form, with its shape; none for every other instruction. -/
def Instr.shortShape (i : Instr) : Option (LF × Shape) :=
  match i with
  | .acqShort rd rs1 rs2 => some (shortLF rd rs1 rs2 0, shapeAcq (shortLF rd rs1 rs2 0))
  | .acqShShort rd rs1 rs2 => some (shortLF rd rs1 rs2 1, shapeAcq (shortLF rd rs1 rs2 1))
  | .relShort rd rs1 rs2 => some (shortLF rd rs1 rs2 0, shapeRel (shortLF rd rs1 rs2 0))
  | .pmrdShort rd rs1 rs2 => some (shortLF rd rs1 rs2 0, shapePmrd (shortLF rd rs1 rs2 0))
  | .pmwaitShort rd rs1 rs2 => some (shortLF rd rs1 rs2 0, shapePmwait (shortLF rd rs1 rs2 0))
  | .phresShort rd rs1 rs2 => some (shortLF rd rs1 rs2 0, shapePhres (shortLF rd rs1 rs2 0))
  | .phpostShort rd rs1 rs2 => some (shortLF rd rs1 rs2 0, shapePhpost (shortLF rd rs1 rs2 0))
  | .phtakeShort rd rs1 rs2 => some (shortLF rd rs1 rs2 0, shapePhtake (shortLF rd rs1 rs2 0))
  | .phgiveShort rd rs1 rs2 => some (shortLF rd rs1 rs2 0, shapePhgive (shortLF rd rs1 rs2 0))
  | .phstatShort rd rs1 rs2 => some (shortLF rd rs1 rs2 0, shapePhstat (shortLF rd rs1 rs2 0))
  | .tqputShort rd rs1 rs2 => some (shortLF rd rs1 rs2 0, shapeTqput (shortLF rd rs1 rs2 0))
  | .tqgetShort rd rs1 rs2 => some (shortLF rd rs1 rs2 0, shapeTqget (shortLF rd rs1 rs2 0))
  | .tqgetPkShort rd rs1 rs2 => some (shortLF rd rs1 rs2 1, shapeTqget (shortLF rd rs1 rs2 1))
  | .tendShort => some (shortLF 0 0 0 0, shapeTend (shortLF 0 0 0 0))
  | .tyieldShort => some (shortLF 0 0 0 0, shapeTyield (shortLF 0 0 0 0))
  | .vdistShort rd rs1 rs2 => some (shortLF rd rs1 rs2 0, shapeVdist (shortLF rd rs1 rs2 0))
  | .specqShort rd rs1 rs2 => some (shortLF rd rs1 rs2 0, shapeSpecq (shortLF rd rs1 rs2 0))
  | .kstatShort rd rs1 rs2 => some (shortLF rd rs1 rs2 0, shapeKstat (shortLF rd rs1 rs2 0))
  | .lcrdShort rd rs1 rs2 => some (shortLF rd rs1 rs2 0, shapeLcrd (shortLF rd rs1 rs2 0))
  | .lbrkShort rd rs1 rs2 => some (shortLF rd rs1 rs2 0, shapeLbrk (shortLF rd rs1 rs2 0))
  | .fmtselShort rd rs1 rs2 => some (shortLF rd rs1 rs2 0, shapeFmtsel (shortLF rd rs1 rs2 0))
  | .fmtgetShort rd rs1 rs2 => some (shortLF rd rs1 rs2 0, shapeFmtget (shortLF rd rs1 rs2 0))
  | .mgetShort rd rs1 rs2 => some (shortLF rd rs1 rs2 0, shapeMget (shortLF rd rs1 rs2 0))
  | .mpushShort rd rs1 rs2 => some (shortLF rd rs1 rs2 0, shapeMpush (shortLF rd rs1 rs2 0))
  | .minvShort => some (shortLF 0 0 0 0, shapeMinv (shortLF 0 0 0 0))
  | .mpopShort => some (shortLF 0 0 0 0, shapeMpop (shortLF 0 0 0 0))
  | .wenterShort rd rs1 rs2 => some (shortWenterLF rd rs1 rs2, shapeWenter (shortWenterLF rd rs1 rs2))
  | .wleaveShort => some (shortLF 0 0 0 0, shapeWleave (shortLF 0 0 0 0))
  | .nbcanShort rd rs1 rs2 => some (shortLF rd rs1 rs2 0, shapeNbcan (shortLF rd rs1 rs2 0))
  | .tabortShort rd rs1 rs2 => some (shortLF rd rs1 rs2 0, shapeTabort (shortLF rd rs1 rs2 0))
  | .scrubShort rd rs1 rs2 => some (shortLF rd rs1 rs2 0, shapeScrub (shortLF rd rs1 rs2 0))
  | .hadvShort rd rs1 rs2 => some (shortLF rd rs1 rs2 0, shapeHadv (shortLF rd rs1 rs2 0))
  | .tenqShort rd rs1 rs2 => some (shortLF rd rs1 rs2 0, shapeTenq (shortLF rd rs1 rs2 0))
  | _ => none

/-- False of the short forms all of whose operand fields must be zero (R142), which carry none. -/
def Instr.hasShortFields (i : Instr) : Bool :=
  match i with
  | .minvShort => false
  | .mpopShort => false
  | .tendShort => false
  | .tyieldShort => false
  | .wleaveShort => false
  | _ => true

/-- Check 4 of R139 on the bits of an instruction; base forms, custom-0 forms and events have no such field. -/
def Instr.wellFormed (i : Instr) : Bool :=
  match i.shape with
  | some (o, shp) => shp.fieldsOk o
  | none =>
    match i.shortShape with
    | some (o, shp) => shp.fieldsOk o
    | none => true

end Sys2Proof
end

