-- ==== Sys2Proof/Decode.lean ====
section
/-! DEFINITION. The decoder, total on any words and rejecting by name, and the encoder (08 R132-R135, R141, R142, R144; 09 R155). -/

namespace Sys2Proof

/-- Why a word is no instruction. -/
inductive DecodeError where
  /-- A word of the instruction lies outside the code image (R132). -/
  | fetchOutside
  /-- An unassigned major opcode (R132). -/
  | badMajor
  /-- An unassigned funct3 or funct7 (R142, R155). -/
  | badFunct
  /-- An unassigned CLASS/OP pair (R144). -/
  | badPair
  /-- A must-be-zero bit, or a MOD, OPX, T, M or FMT value not allowed (check 4 of R139). -/
  | badField
  /-- The same in class 15, which a team refuses first for its privilege (check 2 of R139, R382). -/
  | systemField
deriving DecidableEq, Repr

/-! ### Fields of a 32-bit word (R155) -/

/-- opcode [6:0]. -/
def fOpcode (w : BitVec 32) : BitVec 7 := w.extractLsb' 0 7
/-- rd [11:7]. -/
def fRd (w : BitVec 32) : Reg := w.extractLsb' 7 5
/-- funct3 [14:12]. -/
def fF3 (w : BitVec 32) : BitVec 3 := w.extractLsb' 12 3
/-- rs1 [19:15]. -/
def fRs1 (w : BitVec 32) : Reg := w.extractLsb' 15 5
/-- rs2 [24:20]. -/
def fRs2 (w : BitVec 32) : Reg := w.extractLsb' 20 5
/-- funct7 [31:25]. -/
def fF7 (w : BitVec 32) : BitVec 7 := w.extractLsb' 25 7
/-- imm of the I layout. -/
def fImmI (w : BitVec 32) : BitVec 12 := w.extractLsb' 20 12
/-- imm of the S layout. -/
def fImmS (w : BitVec 32) : BitVec 12 := w.extractLsb' 25 7 ++ w.extractLsb' 7 5
/-- imm[12:1] of the B layout. -/
def fImmB (w : BitVec 32) : BitVec 12 :=
  w.extractLsb' 31 1 ++ w.extractLsb' 7 1 ++ w.extractLsb' 25 6 ++ w.extractLsb' 8 4
/-- imm[31:12] of the U layout. -/
def fImmU (w : BitVec 32) : BitVec 20 := w.extractLsb' 12 20
/-- imm[20:1] of the J layout. -/
def fImmJ (w : BitVec 32) : BitVec 20 :=
  w.extractLsb' 31 1 ++ w.extractLsb' 12 8 ++ w.extractLsb' 20 1 ++ w.extractLsb' 21 10

/-- The operand fields of a long form (R133). -/
def fLF (w : BitVec 64) : LF :=
  { sub := w.extractLsb' 58 6, m := w.extractLsb' 57 1, t := w.extractLsb' 56 1, grp := w.extractLsb' 54 2,
    fmt := w.extractLsb' 50 4, b := w.extractLsb' 39 11, a := w.extractLsb' 28 11, d := w.extractLsb' 17 11 }

/-! ### Decoding -/

/-- BRANCH (R155). -/
def decodeBranch (w : BitVec 32) : Except DecodeError Instr :=
  match (fF3 w).toNat with
  | 0 => .ok (.beq (fRs1 w) (fRs2 w) (fImmB w))
  | 1 => .ok (.bne (fRs1 w) (fRs2 w) (fImmB w))
  | 4 => .ok (.blt (fRs1 w) (fRs2 w) (fImmB w))
  | 5 => .ok (.bge (fRs1 w) (fRs2 w) (fImmB w))
  | 6 => .ok (.bltu (fRs1 w) (fRs2 w) (fImmB w))
  | 7 => .ok (.bgeu (fRs1 w) (fRs2 w) (fImmB w))
  | _ => .error .badFunct

/-- LOAD (R155). -/
def decodeLoad (w : BitVec 32) : Except DecodeError Instr :=
  match (fF3 w).toNat with
  | 0 => .ok (.lb (fRd w) (fRs1 w) (fImmI w))
  | 1 => .ok (.lh (fRd w) (fRs1 w) (fImmI w))
  | 2 => .ok (.lw (fRd w) (fRs1 w) (fImmI w))
  | 3 => .ok (.ld (fRd w) (fRs1 w) (fImmI w))
  | 4 => .ok (.lbu (fRd w) (fRs1 w) (fImmI w))
  | 5 => .ok (.lhu (fRd w) (fRs1 w) (fImmI w))
  | 6 => .ok (.lwu (fRd w) (fRs1 w) (fImmI w))
  | _ => .error .badFunct

/-- STORE (R155). -/
def decodeStore (w : BitVec 32) : Except DecodeError Instr :=
  match (fF3 w).toNat with
  | 0 => .ok (.sb (fRs1 w) (fRs2 w) (fImmS w))
  | 1 => .ok (.sh (fRs1 w) (fRs2 w) (fImmS w))
  | 2 => .ok (.sw (fRs1 w) (fRs2 w) (fImmS w))
  | 3 => .ok (.sd (fRs1 w) (fRs2 w) (fImmS w))
  | _ => .error .badFunct

/-- OP-IMM (R155). -/
def decodeOpImm (w : BitVec 32) : Except DecodeError Instr :=
  match (fF3 w).toNat with
  | 1 => if (fImmI w).extractLsb' 6 6 = 0#6 then .ok (.slli (fRd w) (fRs1 w) (w.extractLsb' 20 6)) else .error .badFunct
  | 5 =>
    match ((fImmI w).extractLsb' 6 6).toNat with
    | 0 => .ok (.srli (fRd w) (fRs1 w) (w.extractLsb' 20 6))
    | 16 => .ok (.srai (fRd w) (fRs1 w) (w.extractLsb' 20 6))
    | _ => .error .badFunct
  | 0 => .ok (.addi (fRd w) (fRs1 w) (fImmI w))
  | 2 => .ok (.slti (fRd w) (fRs1 w) (fImmI w))
  | 3 => .ok (.sltiu (fRd w) (fRs1 w) (fImmI w))
  | 4 => .ok (.xori (fRd w) (fRs1 w) (fImmI w))
  | 6 => .ok (.ori (fRd w) (fRs1 w) (fImmI w))
  | 7 => .ok (.andi (fRd w) (fRs1 w) (fImmI w))
  | _ => .error .badFunct

/-- OP-IMM-32 (R155). -/
def decodeOpImm32 (w : BitVec 32) : Except DecodeError Instr :=
  match (fF3 w).toNat, (fF7 w).toNat with
  | 0, _ => .ok (.addiw (fRd w) (fRs1 w) (fImmI w))
  | 1, 0 => .ok (.slliw (fRd w) (fRs1 w) (fRs2 w))
  | 5, 0 => .ok (.srliw (fRd w) (fRs1 w) (fRs2 w))
  | 5, 32 => .ok (.sraiw (fRd w) (fRs1 w) (fRs2 w))
  | _, _ => .error .badFunct

/-- OP (R155). -/
def decodeOp (w : BitVec 32) : Except DecodeError Instr :=
  match (fF7 w).toNat, (fF3 w).toNat with
  | 0, 0 => .ok (.add (fRd w) (fRs1 w) (fRs2 w))
  | 0, 1 => .ok (.sll (fRd w) (fRs1 w) (fRs2 w))
  | 0, 2 => .ok (.slt (fRd w) (fRs1 w) (fRs2 w))
  | 0, 3 => .ok (.sltu (fRd w) (fRs1 w) (fRs2 w))
  | 0, 4 => .ok (.xor (fRd w) (fRs1 w) (fRs2 w))
  | 0, 5 => .ok (.srl (fRd w) (fRs1 w) (fRs2 w))
  | 0, 6 => .ok (.or (fRd w) (fRs1 w) (fRs2 w))
  | 0, 7 => .ok (.and (fRd w) (fRs1 w) (fRs2 w))
  | 32, 0 => .ok (.sub (fRd w) (fRs1 w) (fRs2 w))
  | 32, 5 => .ok (.sra (fRd w) (fRs1 w) (fRs2 w))
  | 1, 0 => .ok (.mul (fRd w) (fRs1 w) (fRs2 w))
  | 1, 1 => .ok (.mulh (fRd w) (fRs1 w) (fRs2 w))
  | 1, 2 => .ok (.mulhsu (fRd w) (fRs1 w) (fRs2 w))
  | 1, 3 => .ok (.mulhu (fRd w) (fRs1 w) (fRs2 w))
  | 1, 4 => .ok (.div (fRd w) (fRs1 w) (fRs2 w))
  | 1, 5 => .ok (.divu (fRd w) (fRs1 w) (fRs2 w))
  | 1, 6 => .ok (.rem (fRd w) (fRs1 w) (fRs2 w))
  | 1, 7 => .ok (.remu (fRd w) (fRs1 w) (fRs2 w))
  | _, _ => .error .badFunct

/-- OP-32 (R155). -/
def decodeOp32 (w : BitVec 32) : Except DecodeError Instr :=
  match (fF7 w).toNat, (fF3 w).toNat with
  | 0, 0 => .ok (.addw (fRd w) (fRs1 w) (fRs2 w))
  | 0, 1 => .ok (.sllw (fRd w) (fRs1 w) (fRs2 w))
  | 0, 5 => .ok (.srlw (fRd w) (fRs1 w) (fRs2 w))
  | 32, 0 => .ok (.subw (fRd w) (fRs1 w) (fRs2 w))
  | 32, 5 => .ok (.sraw (fRd w) (fRs1 w) (fRs2 w))
  | 1, 0 => .ok (.mulw (fRd w) (fRs1 w) (fRs2 w))
  | 1, 4 => .ok (.divw (fRd w) (fRs1 w) (fRs2 w))
  | 1, 5 => .ok (.divuw (fRd w) (fRs1 w) (fRs2 w))
  | 1, 6 => .ok (.remw (fRd w) (fRs1 w) (fRs2 w))
  | 1, 7 => .ok (.remuw (fRd w) (fRs1 w) (fRs2 w))
  | _, _ => .error .badFunct

/-- SYSTEM (R155). -/
def decodeSystem (w : BitVec 32) : Except DecodeError Instr :=
  match (fF3 w).toNat with
  | 0 =>
    if w = 0x00000073#32 then .ok .ecall else if w = 0x00100073#32 then .ok .ebreak else .error .badFunct
  | 1 => .ok (.csrrw (fRd w) (fRs1 w) (fImmI w))
  | 2 => .ok (.csrrs (fRd w) (fRs1 w) (fImmI w))
  | 3 => .ok (.csrrc (fRd w) (fRs1 w) (fImmI w))
  | 5 => .ok (.csrrwi (fRd w) (fRs1 w) (fImmI w))
  | 6 => .ok (.csrrsi (fRd w) (fRs1 w) (fImmI w))
  | 7 => .ok (.csrrci (fRd w) (fRs1 w) (fImmI w))
  | _ => .error .badFunct

/-- custom-0: the short buffer loads and stores (R141). -/
def decodeCustom0 (w : BitVec 32) : Except DecodeError Instr :=
  match (fF3 w).toNat with
  | 0 => .ok (.bldBShort (fRd w) (fRs1 w) (fImmI w))
  | 1 => .ok (.bldHShort (fRd w) (fRs1 w) (fImmI w))
  | 2 => .ok (.bldWShort (fRd w) (fRs1 w) (fImmI w))
  | 3 => .ok (.bldDShort (fRd w) (fRs1 w) (fImmI w))
  | 4 => .ok (.bstBShort (fRs1 w) (fRs2 w) (fImmS w))
  | 5 => .ok (.bstHShort (fRs1 w) (fRs2 w) (fImmS w))
  | 6 => .ok (.bstWShort (fRs1 w) (fRs2 w) (fImmS w))
  | 7 => .ok (.bstDShort (fRs1 w) (fRs2 w) (fImmS w))
  | _ => .error .badFunct

/-- The short form that funct3 and funct7 of custom-1 select (R142). -/
def custom1Row (f3 f7 : Nat) (rd rs1 rs2 : Reg) : Option Instr :=
  match f3, f7 with
  | 0, 0 => some (.acqShort rd rs1 rs2)
  | 0, 1 => some (.acqShShort rd rs1 rs2)
  | 0, 2 => some (.relShort rd rs1 rs2)
  | 0, 3 => some (.pmrdShort rd rs1 rs2)
  | 0, 4 => some (.pmwaitShort rd rs1 rs2)
  | 1, 0 => some (.phresShort rd rs1 rs2)
  | 1, 1 => some (.phpostShort rd rs1 rs2)
  | 1, 2 => some (.phtakeShort rd rs1 rs2)
  | 1, 3 => some (.phgiveShort rd rs1 rs2)
  | 1, 4 => some (.phstatShort rd rs1 rs2)
  | 1, 5 => some (.tqputShort rd rs1 rs2)
  | 1, 6 => some (.tqgetShort rd rs1 rs2)
  | 1, 7 => some (.tqgetPkShort rd rs1 rs2)
  | 2, 0 => some .tendShort
  | 2, 1 => some .tyieldShort
  | 2, 2 => some (.vdistShort rd rs1 rs2)
  | 2, 3 => some (.specqShort rd rs1 rs2)
  | 2, 4 => some (.kstatShort rd rs1 rs2)
  | 3, 0 => some (.lcrdShort rd rs1 rs2)
  | 3, 1 => some (.lbrkShort rd rs1 rs2)
  | 3, 2 => some (.fmtselShort rd rs1 rs2)
  | 3, 3 => some (.fmtgetShort rd rs1 rs2)
  | 3, 4 => some (.mgetShort rd rs1 rs2)
  | 3, 5 => some (.mpushShort rd rs1 rs2)
  | 3, 6 => some .minvShort
  | 3, 7 => some .mpopShort
  | 4, 0 => some (.wenterShort rd rs1 rs2)
  | 4, 1 => some .wleaveShort
  | 4, 2 => some (.nbcanShort rd rs1 rs2)
  | 4, 3 => some (.tabortShort rd rs1 rs2)
  | 4, 4 => some (.scrubShort rd rs1 rs2)
  | 4, 5 => some (.hadvShort rd rs1 rs2)
  | 4, 6 => some (.tenqShort rd rs1 rs2)
  | _, _ => none

/-- custom-1 (R142): an unassigned value is refused before a field that must be zero. -/
def decodeCustom1 (w : BitVec 32) : Except DecodeError Instr :=
  match custom1Row (fF3 w).toNat (fF7 w).toNat (fRd w) (fRs1 w) (fRs2 w) with
  | none => .error .badFunct
  | some i =>
    if i.wellFormed && (i.hasShortFields || (fRd w == 0 && fRs1 w == 0 && fRs2 w == 0)) then .ok i else .error .badField

/-- The instruction of class 0 with operation `op` (R144). -/
def class0Row (op : Nat) (o : LF) : Option Instr :=
  match op with
  | 0 => some (.vadd o)
  | 1 => some (.vsub o)
  | 2 => some (.vmul o)
  | 3 => some (.vfma o)
  | 4 => some (.vmin o)
  | 5 => some (.vmax o)
  | 6 => some (.vsgn o)
  | 7 => some (.vcmp o)
  | 8 => some (.vclass o)
  | _ => none

/-- The instruction of class 1 with operation `op` (R144). -/
def class1Row (op : Nat) (o : LF) : Option Instr :=
  match op with
  | 0 => some (.viadd o)
  | 1 => some (.visub o)
  | 2 => some (.vimul o)
  | 3 => some (.vimulh o)
  | 4 => some (.vimad o)
  | 5 => some (.vand o)
  | 6 => some (.vor o)
  | 7 => some (.vxor o)
  | 8 => some (.vshl o)
  | 9 => some (.vshr o)
  | 10 => some (.viminmax o)
  | 11 => some (.vsel o)
  | _ => none

/-- The instruction of class 2 with operation `op` (R144). -/
def class2Row (op : Nat) (o : LF) : Option Instr :=
  match op with
  | 0 => some (.vcvt o)
  | 1 => some (.vpack o)
  | 2 => some (.vunpack o)
  | 3 => some (.vlnmul o)
  | 4 => some (.vlnlin o)
  | _ => none

/-- The instruction of class 3 with operation `op` (R144). -/
def class3Row (op : Nat) (o : LF) : Option Instr :=
  match op with
  | 0 => some (.vexp2 o)
  | 1 => some (.vlog2 o)
  | 2 => some (.vrcp o)
  | 3 => some (.vrsqrt o)
  | 4 => some (.vsum o)
  | 5 => some (.vrmax o)
  | _ => none

/-- The instruction of class 4 with operation `op` (R144). -/
def class4Row (op : Nat) (o : LF) : Option Instr :=
  match op with
  | 0 => some (.vperm o)
  | 1 => some (.vbcast o)
  | 2 => some (.vslide o)
  | 3 => some (.vmov o)
  | 4 => some (.vmvx o)
  | 5 => some (.vins o)
  | _ => none

/-- The instruction of class 5 with operation `op` (R144). -/
def class5Row (op : Nat) (o : LF) : Option Instr :=
  match op with
  | 0 => some (.vld o)
  | 1 => some (.vst o)
  | 2 => some (.vgath o)
  | 3 => some (.vscat o)
  | _ => none

/-- The instruction of class 6 with operation `op` (R144). -/
def class6Row (op : Nat) (o : LF) : Option Instr :=
  match op with
  | 0 => some (.mpush o)
  | 1 => some (.minv o)
  | 2 => some (.mpop o)
  | 3 => some (.mget o)
  | 4 => some (.bmz o)
  | 5 => some (.wenter o)
  | 6 => some (.wleave o)
  | _ => none

/-- The instruction of class 7 with operation `op` (R144). -/
def class7Row (op : Nat) (o : LF) : Option Instr :=
  match op with
  | 0 => some (.mma o)
  | 1 => some (.mmac o)
  | 2 => some (.mlutb o)
  | 3 => some (.mlut o)
  | _ => none

/-- The instruction of class 8 with operation `op` (R144). -/
def class8Row (op : Nat) (o : LF) : Option Instr :=
  match op with
  | 0 => some (.azero o)
  | 1 => some (.ald o)
  | 2 => some (.ast o)
  | 3 => some (.ardv o)
  | 4 => some (.awrv o)
  | 8 => some (.hset o)
  | 9 => some (.hget o)
  | 10 => some (.hld o)
  | 11 => some (.hst o)
  | 12 => some (.hadv o)
  | 16 => some (.loop o)
  | 17 => some (.lcrd o)
  | 18 => some (.lbrk o)
  | 24 => some (.fmtset o)
  | 25 => some (.fmtsel o)
  | 26 => some (.fmtget o)
  | _ => none

/-- The instruction of class 9 with operation `op` (R144). -/
def class9Row (op : Nat) (o : LF) : Option Instr :=
  match op with
  | 0 => some (.cpld o)
  | 1 => some (.cpst o)
  | 2 => some (.cpgat o)
  | 3 => some (.cpsca o)
  | 4 => some (.cploc o)
  | 5 => some (.cprem o)
  | 6 => some (.coll o)
  | _ => none

/-- The instruction of class 10 with operation `op` (R144). -/
def class10Row (op : Nat) (o : LF) : Option Instr :=
  match op with
  | 0 => some (.bld o)
  | 1 => some (.bst o)
  | 2 => some (.bamo o)
  | 3 => some (.bcas o)
  | _ => none

/-- The instruction of class 11 with operation `op` (R144). -/
def class11Row (op : Nat) (o : LF) : Option Instr :=
  match op with
  | 0 => some (.acq o)
  | 1 => some (.rel o)
  | 2 => some (.frange o)
  | 3 => some (.pmrd o)
  | 4 => some (.pmwait o)
  | 5 => some (.wait o)
  | 8 => some (.phcfg o)
  | 9 => some (.phtake o)
  | 10 => some (.phgive o)
  | 11 => some (.phres o)
  | 12 => some (.phpost o)
  | 13 => some (.phstat o)
  | 14 => some (.tqput o)
  | 15 => some (.tqget o)
  | _ => none

/-- The instruction of class 12 with operation `op` (R144). -/
def class12Row (op : Nat) (o : LF) : Option Instr :=
  match op with
  | 0 => some (.nbq o)
  | 1 => some (.nbcan o)
  | _ => none

/-- The instruction of class 13 with operation `op` (R144). -/
def class13Row (op : Nat) (o : LF) : Option Instr :=
  match op with
  | 0 => some (.tenq o)
  | 1 => some (.tend o)
  | 2 => some (.tyield o)
  | 3 => some (.lnch o)
  | 4 => some (.twait o)
  | 5 => some (.specq o)
  | 6 => some (.vdist o)
  | 7 => some (.tabort o)
  | _ => none

/-- The instruction of class 14 with operation `op` (R144). -/
def class14Row (op : Nat) (o : LF) : Option Instr :=
  match op with
  | 0 => some (.krot o)
  | 1 => some (.kstat o)
  | 2 => some (.sealImage o)
  | 3 => some (.unsealImage o)
  | 4 => some (.scrub o)
  | 5 => some (.mdead o)
  | _ => none

/-- The instruction of class 15 with operation `op` and OPX `x` (R385): the pair is assigned and OPX unlisted, or unassigned. -/
def class15Row (op x : Nat) (o : LF) : Except DecodeError Instr :=
  match op, x with
  | 0, 0 => .ok (.ctxsv o)
  | 0, 1 => .ok (.ctxsvHalt o)
  | 1, 0 => .ok (.ctxrs o)
  | 2, 0 => .ok (.ckpt o)
  | 3, 0 => .ok (.ckrb o)
  | 4, 0 => .ok (.tlbir o)
  | 5, 0 => .ok (.ksload o)
  | 5, 1 => .ok (.ksloadNew o)
  | 6, 0 => .ok (.ksclr o)
  | 6, 1 => .ok (.ksclrAll o)
  | 7, 0 => .ok (.slmap o)
  | 8, 0 => .ok (.slend o)
  | 9, 0 => .ok (.slrcl o)
  | 10, 0 => .ok (.qlink o)
  | 11, 0 => .ok (.tset o)
  | 12, 0 => .ok (.tadj o)
  | 13, 0 => .ok (.errpost o)
  | 13, 1 => .ok (.errpost o)
  | 13, 2 => .ok (.errpost o)
  | 14, 0 => .ok (.stmp o)
  | 15, 0 => .ok (.tresmResume o)
  | 15, 1 => .ok (.tresmRestart o)
  | 15, 2 => .ok (.tresmStep o)
  | 15, 3 => .ok (.tresmAbandon o)
  | 15, 4 => .ok (.tresmRel o)
  | 15, 5 => .ok (.tresmSvc o)
  | 16, 0 => .ok (.tcanc o)
  | _, _ => .error (if op ≤ 16 then .systemField else .badPair)

/-- The CLASS/OP map (R144). -/
def longRow (cls op : Nat) (o : LF) : Except DecodeError Instr :=
  let pick (r : Option Instr) : Except DecodeError Instr :=
    match r with
    | some i => .ok i
    | none => .error .badPair
  match cls with
  | 0 => pick (class0Row op o)
  | 1 => pick (class1Row op o)
  | 2 => pick (class2Row op o)
  | 3 => pick (class3Row op o)
  | 4 => pick (class4Row op o)
  | 5 => pick (class5Row op o)
  | 6 => pick (class6Row op o)
  | 7 => pick (class7Row op o)
  | 8 => pick (class8Row op o)
  | 9 => pick (class9Row op o)
  | 10 => pick (class10Row op o)
  | 11 => pick (class11Row op o)
  | 12 => pick (class12Row op o)
  | 13 => pick (class13Row op o)
  | 14 => pick (class14Row op o)
  | 15 => class15Row op o.fmt.toNat o
  | _ => .error .badPair

/-- A long form (R133): check 1 of R139, then the static half of check 4. -/
def decodeLong (w : BitVec 64) : Except DecodeError Instr :=
  let cls := (w.extractLsb' 7 4).toNat
  match longRow cls (w.extractLsb' 11 6).toNat (fLF w) with
  | .error e => .error e
  | .ok i => if i.wellFormed then .ok i else .error (if cls = 15 then .systemField else .badField)

/-- A four-byte instruction (R132). -/
def decode32 (w : BitVec 32) : Except DecodeError Instr :=
  match (fOpcode w).toNat with
  | 0x37 => .ok (.lui (fRd w) (fImmU w))
  | 0x17 => .ok (.auipc (fRd w) (fImmU w))
  | 0x6F => .ok (.jal (fRd w) (fImmJ w))
  | 0x67 => if fF3 w = 0#3 then .ok (.jalr (fRd w) (fRs1 w) (fImmI w)) else .error .badFunct
  | 0x63 => decodeBranch w
  | 0x03 => decodeLoad w
  | 0x23 => decodeStore w
  | 0x13 => decodeOpImm w
  | 0x1B => decodeOpImm32 w
  | 0x33 => decodeOp w
  | 0x3B => decodeOp32 w
  | 0x0F => if fF3 w = 0#3 then .ok (.fence (fRd w) (fRs1 w) (fImmI w)) else .error .badFunct
  | 0x73 => decodeSystem w
  | 0x0B => decodeCustom0 w
  | 0x2B => decodeCustom1 w
  | _ => .error .badMajor

/-- The instruction whose first word is `lo` and whose next word, if the image has one, is `hi`; with its length in bytes. -/
def decode (lo : BitVec 32) (hi : Option (BitVec 32)) : Except DecodeError (Instr × Nat) :=
  if fOpcode lo = 0x3F#7 then
    match hi with
    | none => .error .fetchOutside
    | some h =>
      match decodeLong (h ++ lo) with
      | .ok i => .ok (i, 8)
      | .error e => .error e
  else
    match decode32 lo with
    | .ok i => .ok (i, 4)
    | .error e => .error e

/-- The word of four little-endian bytes. -/
def wordOfBytes (b0 b1 b2 b3 : Byte) : BitVec 32 := b3 ++ b2 ++ b1 ++ b0

/-- The instruction at the front of a list of bytes, and the bytes after it. -/
def decodeBytes (bs : List Byte) : Except DecodeError (Instr × List Byte) :=
  match bs with
  | b0 :: b1 :: b2 :: b3 :: rest =>
    let hi : Option (BitVec 32) :=
      match rest with
      | c0 :: c1 :: c2 :: c3 :: _ => some (wordOfBytes c0 c1 c2 c3)
      | _ => none
    match decode (wordOfBytes b0 b1 b2 b3) hi with
    | .ok (i, n) => .ok (i, rest.drop (n - 4))
    | .error e => .error e
  | _ => .error .fetchOutside

/-- The instruction of the table's bit numbering: the first word is bits 31..0 of `w`. -/
def decodeTableWord (nbits w : Nat) : Option Instr :=
  let v := BitVec.ofNat 64 (w % 2 ^ nbits)
  match decode (v.extractLsb' 0 32) (some (v.extractLsb' 32 32)) with
  | .ok (i, _) => some i
  | .error _ => none

/-! ### Encoding -/

/-- R layout. -/
def encR (f7 : BitVec 7) (rs2 rs1 : Reg) (f3 : BitVec 3) (rd : Reg) (opc : BitVec 7) : BitVec 32 :=
  f7 ++ rs2 ++ rs1 ++ f3 ++ rd ++ opc
/-- I layout. -/
def encI (imm : BitVec 12) (rs1 : Reg) (f3 : BitVec 3) (rd : Reg) (opc : BitVec 7) : BitVec 32 :=
  imm ++ rs1 ++ f3 ++ rd ++ opc
/-- S layout. -/
def encS (imm : BitVec 12) (rs2 rs1 : Reg) (f3 : BitVec 3) (opc : BitVec 7) : BitVec 32 :=
  imm.extractLsb' 5 7 ++ rs2 ++ rs1 ++ f3 ++ imm.extractLsb' 0 5 ++ opc
/-- B layout, of imm[12:1]. -/
def encB (imm : BitVec 12) (rs2 rs1 : Reg) (f3 : BitVec 3) : BitVec 32 :=
  imm.extractLsb' 11 1 ++ imm.extractLsb' 4 6 ++ rs2 ++ rs1 ++ f3 ++ imm.extractLsb' 0 4 ++ imm.extractLsb' 10 1 ++ 0x63#7
/-- U layout. -/
def encU (imm : BitVec 20) (rd : Reg) (opc : BitVec 7) : BitVec 32 := imm ++ rd ++ opc
/-- J layout, of imm[20:1]. -/
def encJ (imm : BitVec 20) (rd : Reg) : BitVec 32 :=
  imm.extractLsb' 19 1 ++ imm.extractLsb' 0 10 ++ imm.extractLsb' 10 1 ++ imm.extractLsb' 11 8 ++ rd ++ 0x6F#7
/-- A long form (R133). -/
def encL (o : LF) (op : BitVec 6) (cls : BitVec 4) : BitVec 64 :=
  o.sub ++ o.m ++ o.t ++ o.grp ++ o.fmt ++ o.b ++ o.a ++ o.d ++ op ++ cls ++ 0x3F#7

/-- The word of a four-byte instruction; none for a long form or an event. -/
def encode32 (i : Instr) : Option (BitVec 32) :=
  match i with
  | .lui rd imm => some (encU imm rd 0x37#7)
  | .auipc rd imm => some (encU imm rd 0x17#7)
  | .jal rd imm => some (encJ imm rd)
  | .jalr rd rs1 imm => some (encI imm rs1 0#3 rd 0x67#7)
  | .beq rs1 rs2 imm => some (encB imm rs2 rs1 0#3)
  | .bne rs1 rs2 imm => some (encB imm rs2 rs1 1#3)
  | .blt rs1 rs2 imm => some (encB imm rs2 rs1 4#3)
  | .bge rs1 rs2 imm => some (encB imm rs2 rs1 5#3)
  | .bltu rs1 rs2 imm => some (encB imm rs2 rs1 6#3)
  | .bgeu rs1 rs2 imm => some (encB imm rs2 rs1 7#3)
  | .lb rd rs1 imm => some (encI imm rs1 0#3 rd 0x03#7)
  | .lh rd rs1 imm => some (encI imm rs1 1#3 rd 0x03#7)
  | .lw rd rs1 imm => some (encI imm rs1 2#3 rd 0x03#7)
  | .ld rd rs1 imm => some (encI imm rs1 3#3 rd 0x03#7)
  | .lbu rd rs1 imm => some (encI imm rs1 4#3 rd 0x03#7)
  | .lhu rd rs1 imm => some (encI imm rs1 5#3 rd 0x03#7)
  | .lwu rd rs1 imm => some (encI imm rs1 6#3 rd 0x03#7)
  | .sb rs1 rs2 imm => some (encS imm rs2 rs1 0#3 0x23#7)
  | .sh rs1 rs2 imm => some (encS imm rs2 rs1 1#3 0x23#7)
  | .sw rs1 rs2 imm => some (encS imm rs2 rs1 2#3 0x23#7)
  | .sd rs1 rs2 imm => some (encS imm rs2 rs1 3#3 0x23#7)
  | .addi rd rs1 imm => some (encI imm rs1 0#3 rd 0x13#7)
  | .slti rd rs1 imm => some (encI imm rs1 2#3 rd 0x13#7)
  | .sltiu rd rs1 imm => some (encI imm rs1 3#3 rd 0x13#7)
  | .xori rd rs1 imm => some (encI imm rs1 4#3 rd 0x13#7)
  | .ori rd rs1 imm => some (encI imm rs1 6#3 rd 0x13#7)
  | .andi rd rs1 imm => some (encI imm rs1 7#3 rd 0x13#7)
  | .slli rd rs1 sh => some (encI (0#6 ++ sh) rs1 1#3 rd 0x13#7)
  | .srli rd rs1 sh => some (encI (0#6 ++ sh) rs1 5#3 rd 0x13#7)
  | .srai rd rs1 sh => some (encI (16#6 ++ sh) rs1 5#3 rd 0x13#7)
  | .addiw rd rs1 imm => some (encI imm rs1 0#3 rd 0x1B#7)
  | .slliw rd rs1 sh => some (encR 0#7 sh rs1 1#3 rd 0x1B#7)
  | .srliw rd rs1 sh => some (encR 0#7 sh rs1 5#3 rd 0x1B#7)
  | .sraiw rd rs1 sh => some (encR 32#7 sh rs1 5#3 rd 0x1B#7)
  | .add rd rs1 rs2 => some (encR 0#7 rs2 rs1 0#3 rd 0x33#7)
  | .sll rd rs1 rs2 => some (encR 0#7 rs2 rs1 1#3 rd 0x33#7)
  | .slt rd rs1 rs2 => some (encR 0#7 rs2 rs1 2#3 rd 0x33#7)
  | .sltu rd rs1 rs2 => some (encR 0#7 rs2 rs1 3#3 rd 0x33#7)
  | .xor rd rs1 rs2 => some (encR 0#7 rs2 rs1 4#3 rd 0x33#7)
  | .srl rd rs1 rs2 => some (encR 0#7 rs2 rs1 5#3 rd 0x33#7)
  | .or rd rs1 rs2 => some (encR 0#7 rs2 rs1 6#3 rd 0x33#7)
  | .and rd rs1 rs2 => some (encR 0#7 rs2 rs1 7#3 rd 0x33#7)
  | .sub rd rs1 rs2 => some (encR 32#7 rs2 rs1 0#3 rd 0x33#7)
  | .sra rd rs1 rs2 => some (encR 32#7 rs2 rs1 5#3 rd 0x33#7)
  | .mul rd rs1 rs2 => some (encR 1#7 rs2 rs1 0#3 rd 0x33#7)
  | .mulh rd rs1 rs2 => some (encR 1#7 rs2 rs1 1#3 rd 0x33#7)
  | .mulhsu rd rs1 rs2 => some (encR 1#7 rs2 rs1 2#3 rd 0x33#7)
  | .mulhu rd rs1 rs2 => some (encR 1#7 rs2 rs1 3#3 rd 0x33#7)
  | .div rd rs1 rs2 => some (encR 1#7 rs2 rs1 4#3 rd 0x33#7)
  | .divu rd rs1 rs2 => some (encR 1#7 rs2 rs1 5#3 rd 0x33#7)
  | .rem rd rs1 rs2 => some (encR 1#7 rs2 rs1 6#3 rd 0x33#7)
  | .remu rd rs1 rs2 => some (encR 1#7 rs2 rs1 7#3 rd 0x33#7)
  | .addw rd rs1 rs2 => some (encR 0#7 rs2 rs1 0#3 rd 0x3B#7)
  | .sllw rd rs1 rs2 => some (encR 0#7 rs2 rs1 1#3 rd 0x3B#7)
  | .srlw rd rs1 rs2 => some (encR 0#7 rs2 rs1 5#3 rd 0x3B#7)
  | .subw rd rs1 rs2 => some (encR 32#7 rs2 rs1 0#3 rd 0x3B#7)
  | .sraw rd rs1 rs2 => some (encR 32#7 rs2 rs1 5#3 rd 0x3B#7)
  | .mulw rd rs1 rs2 => some (encR 1#7 rs2 rs1 0#3 rd 0x3B#7)
  | .divw rd rs1 rs2 => some (encR 1#7 rs2 rs1 4#3 rd 0x3B#7)
  | .divuw rd rs1 rs2 => some (encR 1#7 rs2 rs1 5#3 rd 0x3B#7)
  | .remw rd rs1 rs2 => some (encR 1#7 rs2 rs1 6#3 rd 0x3B#7)
  | .remuw rd rs1 rs2 => some (encR 1#7 rs2 rs1 7#3 rd 0x3B#7)
  | .fence rd rs1 imm => some (encI imm rs1 0#3 rd 0x0F#7)
  | .ecall => some 0x00000073#32
  | .ebreak => some 0x00100073#32
  | .csrrw rd rs1 csr => some (encI csr rs1 1#3 rd 0x73#7)
  | .csrrs rd rs1 csr => some (encI csr rs1 2#3 rd 0x73#7)
  | .csrrc rd rs1 csr => some (encI csr rs1 3#3 rd 0x73#7)
  | .csrrwi rd rs1 csr => some (encI csr rs1 5#3 rd 0x73#7)
  | .csrrsi rd rs1 csr => some (encI csr rs1 6#3 rd 0x73#7)
  | .csrrci rd rs1 csr => some (encI csr rs1 7#3 rd 0x73#7)
  | .bldBShort rd rs1 imm => some (encI imm rs1 0#3 rd 0x0B#7)
  | .bldHShort rd rs1 imm => some (encI imm rs1 1#3 rd 0x0B#7)
  | .bldWShort rd rs1 imm => some (encI imm rs1 2#3 rd 0x0B#7)
  | .bldDShort rd rs1 imm => some (encI imm rs1 3#3 rd 0x0B#7)
  | .bstBShort rs1 rs2 imm => some (encS imm rs2 rs1 4#3 0x0B#7)
  | .bstHShort rs1 rs2 imm => some (encS imm rs2 rs1 5#3 0x0B#7)
  | .bstWShort rs1 rs2 imm => some (encS imm rs2 rs1 6#3 0x0B#7)
  | .bstDShort rs1 rs2 imm => some (encS imm rs2 rs1 7#3 0x0B#7)
  | .acqShort rd rs1 rs2 => some (encR 0#7 rs2 rs1 0#3 rd 0x2B#7)
  | .acqShShort rd rs1 rs2 => some (encR 1#7 rs2 rs1 0#3 rd 0x2B#7)
  | .relShort rd rs1 rs2 => some (encR 2#7 rs2 rs1 0#3 rd 0x2B#7)
  | .pmrdShort rd rs1 rs2 => some (encR 3#7 rs2 rs1 0#3 rd 0x2B#7)
  | .pmwaitShort rd rs1 rs2 => some (encR 4#7 rs2 rs1 0#3 rd 0x2B#7)
  | .phresShort rd rs1 rs2 => some (encR 0#7 rs2 rs1 1#3 rd 0x2B#7)
  | .phpostShort rd rs1 rs2 => some (encR 1#7 rs2 rs1 1#3 rd 0x2B#7)
  | .phtakeShort rd rs1 rs2 => some (encR 2#7 rs2 rs1 1#3 rd 0x2B#7)
  | .phgiveShort rd rs1 rs2 => some (encR 3#7 rs2 rs1 1#3 rd 0x2B#7)
  | .phstatShort rd rs1 rs2 => some (encR 4#7 rs2 rs1 1#3 rd 0x2B#7)
  | .tqputShort rd rs1 rs2 => some (encR 5#7 rs2 rs1 1#3 rd 0x2B#7)
  | .tqgetShort rd rs1 rs2 => some (encR 6#7 rs2 rs1 1#3 rd 0x2B#7)
  | .tqgetPkShort rd rs1 rs2 => some (encR 7#7 rs2 rs1 1#3 rd 0x2B#7)
  | .tendShort => some (encR 0#7 0 0 2#3 0 0x2B#7)
  | .tyieldShort => some (encR 1#7 0 0 2#3 0 0x2B#7)
  | .vdistShort rd rs1 rs2 => some (encR 2#7 rs2 rs1 2#3 rd 0x2B#7)
  | .specqShort rd rs1 rs2 => some (encR 3#7 rs2 rs1 2#3 rd 0x2B#7)
  | .kstatShort rd rs1 rs2 => some (encR 4#7 rs2 rs1 2#3 rd 0x2B#7)
  | .lcrdShort rd rs1 rs2 => some (encR 0#7 rs2 rs1 3#3 rd 0x2B#7)
  | .lbrkShort rd rs1 rs2 => some (encR 1#7 rs2 rs1 3#3 rd 0x2B#7)
  | .fmtselShort rd rs1 rs2 => some (encR 2#7 rs2 rs1 3#3 rd 0x2B#7)
  | .fmtgetShort rd rs1 rs2 => some (encR 3#7 rs2 rs1 3#3 rd 0x2B#7)
  | .mgetShort rd rs1 rs2 => some (encR 4#7 rs2 rs1 3#3 rd 0x2B#7)
  | .mpushShort rd rs1 rs2 => some (encR 5#7 rs2 rs1 3#3 rd 0x2B#7)
  | .minvShort => some (encR 6#7 0 0 3#3 0 0x2B#7)
  | .mpopShort => some (encR 7#7 0 0 3#3 0 0x2B#7)
  | .wenterShort rd rs1 rs2 => some (encR 0#7 rs2 rs1 4#3 rd 0x2B#7)
  | .wleaveShort => some (encR 1#7 0 0 4#3 0 0x2B#7)
  | .nbcanShort rd rs1 rs2 => some (encR 2#7 rs2 rs1 4#3 rd 0x2B#7)
  | .tabortShort rd rs1 rs2 => some (encR 3#7 rs2 rs1 4#3 rd 0x2B#7)
  | .scrubShort rd rs1 rs2 => some (encR 4#7 rs2 rs1 4#3 rd 0x2B#7)
  | .hadvShort rd rs1 rs2 => some (encR 5#7 rs2 rs1 4#3 rd 0x2B#7)
  | .tenqShort rd rs1 rs2 => some (encR 6#7 rs2 rs1 4#3 rd 0x2B#7)
  | _ => none

/-- The eight bytes of a long form, as one word; none for every other instruction. -/
def encode64 (i : Instr) : Option (BitVec 64) :=
  match i with
  | .vadd o => some (encL o 0#6 0#4)
  | .vsub o => some (encL o 1#6 0#4)
  | .vmul o => some (encL o 2#6 0#4)
  | .vfma o => some (encL o 3#6 0#4)
  | .vmin o => some (encL o 4#6 0#4)
  | .vmax o => some (encL o 5#6 0#4)
  | .vsgn o => some (encL o 6#6 0#4)
  | .vcmp o => some (encL o 7#6 0#4)
  | .vclass o => some (encL o 8#6 0#4)
  | .viadd o => some (encL o 0#6 1#4)
  | .visub o => some (encL o 1#6 1#4)
  | .vimul o => some (encL o 2#6 1#4)
  | .vimulh o => some (encL o 3#6 1#4)
  | .vimad o => some (encL o 4#6 1#4)
  | .vand o => some (encL o 5#6 1#4)
  | .vor o => some (encL o 6#6 1#4)
  | .vxor o => some (encL o 7#6 1#4)
  | .vshl o => some (encL o 8#6 1#4)
  | .vshr o => some (encL o 9#6 1#4)
  | .viminmax o => some (encL o 10#6 1#4)
  | .vsel o => some (encL o 11#6 1#4)
  | .vcvt o => some (encL o 0#6 2#4)
  | .vpack o => some (encL o 1#6 2#4)
  | .vunpack o => some (encL o 2#6 2#4)
  | .vlnmul o => some (encL o 3#6 2#4)
  | .vlnlin o => some (encL o 4#6 2#4)
  | .vexp2 o => some (encL o 0#6 3#4)
  | .vlog2 o => some (encL o 1#6 3#4)
  | .vrcp o => some (encL o 2#6 3#4)
  | .vrsqrt o => some (encL o 3#6 3#4)
  | .vsum o => some (encL o 4#6 3#4)
  | .vrmax o => some (encL o 5#6 3#4)
  | .vperm o => some (encL o 0#6 4#4)
  | .vbcast o => some (encL o 1#6 4#4)
  | .vslide o => some (encL o 2#6 4#4)
  | .vmov o => some (encL o 3#6 4#4)
  | .vmvx o => some (encL o 4#6 4#4)
  | .vins o => some (encL o 5#6 4#4)
  | .vld o => some (encL o 0#6 5#4)
  | .vst o => some (encL o 1#6 5#4)
  | .vgath o => some (encL o 2#6 5#4)
  | .vscat o => some (encL o 3#6 5#4)
  | .mpush o => some (encL o 0#6 6#4)
  | .minv o => some (encL o 1#6 6#4)
  | .mpop o => some (encL o 2#6 6#4)
  | .mget o => some (encL o 3#6 6#4)
  | .bmz o => some (encL o 4#6 6#4)
  | .wenter o => some (encL o 5#6 6#4)
  | .wleave o => some (encL o 6#6 6#4)
  | .mma o => some (encL o 0#6 7#4)
  | .mmac o => some (encL o 1#6 7#4)
  | .mlutb o => some (encL o 2#6 7#4)
  | .mlut o => some (encL o 3#6 7#4)
  | .azero o => some (encL o 0#6 8#4)
  | .ald o => some (encL o 1#6 8#4)
  | .ast o => some (encL o 2#6 8#4)
  | .ardv o => some (encL o 3#6 8#4)
  | .awrv o => some (encL o 4#6 8#4)
  | .hset o => some (encL o 8#6 8#4)
  | .hget o => some (encL o 9#6 8#4)
  | .hld o => some (encL o 10#6 8#4)
  | .hst o => some (encL o 11#6 8#4)
  | .hadv o => some (encL o 12#6 8#4)
  | .loop o => some (encL o 16#6 8#4)
  | .lcrd o => some (encL o 17#6 8#4)
  | .lbrk o => some (encL o 18#6 8#4)
  | .fmtset o => some (encL o 24#6 8#4)
  | .fmtsel o => some (encL o 25#6 8#4)
  | .fmtget o => some (encL o 26#6 8#4)
  | .cpld o => some (encL o 0#6 9#4)
  | .cpst o => some (encL o 1#6 9#4)
  | .cpgat o => some (encL o 2#6 9#4)
  | .cpsca o => some (encL o 3#6 9#4)
  | .cploc o => some (encL o 4#6 9#4)
  | .cprem o => some (encL o 5#6 9#4)
  | .coll o => some (encL o 6#6 9#4)
  | .bld o => some (encL o 0#6 10#4)
  | .bst o => some (encL o 1#6 10#4)
  | .bamo o => some (encL o 2#6 10#4)
  | .bcas o => some (encL o 3#6 10#4)
  | .acq o => some (encL o 0#6 11#4)
  | .rel o => some (encL o 1#6 11#4)
  | .frange o => some (encL o 2#6 11#4)
  | .pmrd o => some (encL o 3#6 11#4)
  | .pmwait o => some (encL o 4#6 11#4)
  | .wait o => some (encL o 5#6 11#4)
  | .phcfg o => some (encL o 8#6 11#4)
  | .phtake o => some (encL o 9#6 11#4)
  | .phgive o => some (encL o 10#6 11#4)
  | .phres o => some (encL o 11#6 11#4)
  | .phpost o => some (encL o 12#6 11#4)
  | .phstat o => some (encL o 13#6 11#4)
  | .tqput o => some (encL o 14#6 11#4)
  | .tqget o => some (encL o 15#6 11#4)
  | .nbq o => some (encL o 0#6 12#4)
  | .nbcan o => some (encL o 1#6 12#4)
  | .tenq o => some (encL o 0#6 13#4)
  | .tend o => some (encL o 1#6 13#4)
  | .tyield o => some (encL o 2#6 13#4)
  | .lnch o => some (encL o 3#6 13#4)
  | .twait o => some (encL o 4#6 13#4)
  | .specq o => some (encL o 5#6 13#4)
  | .vdist o => some (encL o 6#6 13#4)
  | .tabort o => some (encL o 7#6 13#4)
  | .krot o => some (encL o 0#6 14#4)
  | .kstat o => some (encL o 1#6 14#4)
  | .sealImage o => some (encL o 2#6 14#4)
  | .unsealImage o => some (encL o 3#6 14#4)
  | .scrub o => some (encL o 4#6 14#4)
  | .mdead o => some (encL o 5#6 14#4)
  | .ctxsv o => some (encL o 0#6 15#4)
  | .ctxsvHalt o => some (encL o 0#6 15#4)
  | .ctxrs o => some (encL o 1#6 15#4)
  | .ckpt o => some (encL o 2#6 15#4)
  | .ckrb o => some (encL o 3#6 15#4)
  | .tlbir o => some (encL o 4#6 15#4)
  | .ksload o => some (encL o 5#6 15#4)
  | .ksloadNew o => some (encL o 5#6 15#4)
  | .ksclr o => some (encL o 6#6 15#4)
  | .ksclrAll o => some (encL o 6#6 15#4)
  | .slmap o => some (encL o 7#6 15#4)
  | .slend o => some (encL o 8#6 15#4)
  | .slrcl o => some (encL o 9#6 15#4)
  | .qlink o => some (encL o 10#6 15#4)
  | .tset o => some (encL o 11#6 15#4)
  | .tadj o => some (encL o 12#6 15#4)
  | .errpost o => some (encL o 13#6 15#4)
  | .stmp o => some (encL o 14#6 15#4)
  | .tresmResume o => some (encL o 15#6 15#4)
  | .tresmRestart o => some (encL o 15#6 15#4)
  | .tresmStep o => some (encL o 15#6 15#4)
  | .tresmAbandon o => some (encL o 15#6 15#4)
  | .tresmRel o => some (encL o 15#6 15#4)
  | .tresmSvc o => some (encL o 15#6 15#4)
  | .tcanc o => some (encL o 16#6 15#4)
  | _ => none

/-- The words of a well-formed instruction, the first at the lowest address; none for an event, which has no encoding. -/
def encode (i : Instr) : List (BitVec 32) :=
  match encode64 i with
  | some w => [w.extractLsb' 0 32, w.extractLsb' 32 32]
  | none =>
    match encode32 i with
    | some w => [w]
    | none => []

end Sys2Proof
end

