-- ==== Sys2Proof/Machine/Num.lean ====
section
/-! DEFINITION. Numbers: the element formats bit by bit, exact values, and Round (03 R37-R50, R188). -/

namespace Sys2Proof.Machine

/-- An exact value: m × 2^e with a sign, an infinity or a NaN (03 R39). A zero keeps its sign. -/
inductive Val where
  | nan
  | inf (neg : Bool)
  | num (neg : Bool) (m : Nat) (e : Int)
deriving DecidableEq, Repr

/-- Positive zero. -/
def vZero : Val := .num false 0 0

/-- The XFCSR flag bits (03 R51): NX. -/
def fNX : BitVec 6 := 1
/-- UF. -/
def fUF : BitVec 6 := 2
/-- OF. -/
def fOF : BitVec 6 := 4
/-- DZ. -/
def fDZ : BitVec 6 := 8
/-- NV. -/
def fNV : BitVec 6 := 16
/-- SAT. -/
def fSAT : BitVec 6 := 32

/-- A floating-point format: fraction bits, bias, width, largest finite code, infinity and canonical NaN (03 R39). -/
structure FFmt where
  p : Nat
  bias : Nat
  width : Nat
  maxCode : Nat
  inf : Option Nat
  nan : Option Nat
deriving DecidableEq, Repr

/-- FP32. -/
def fp32 : FFmt := ⟨23, 127, 32, 0x7F7FFFFF, some 0x7F800000, some 0x7FC00000⟩
/-- FP16. -/
def fp16 : FFmt := ⟨10, 15, 16, 0x7BFF, some 0x7C00, some 0x7E00⟩
/-- BF16. -/
def bf16 : FFmt := ⟨7, 127, 16, 0x7F7F, some 0x7F80, some 0x7FC0⟩
/-- E4M3. -/
def e4m3 : FFmt := ⟨3, 7, 8, 0x7E, none, some 0x7F⟩
/-- E5M2. -/
def e5m2 : FFmt := ⟨2, 15, 8, 0x7B, some 0x7C, some 0x7E⟩
/-- E2M1. -/
def e2m1 : FFmt := ⟨1, 1, 4, 0x7, none, none⟩

/-- The floating-point format of a code 0-5 (03 R37); FP32 for any other code. -/
def ffmt (code : Nat) : FFmt :=
  match code with
  | 1 => fp16
  | 2 => bf16
  | 3 => e4m3
  | 4 => e5m2
  | 5 => e2m1
  | _ => fp32

/-- The exact value of a code of a floating-point format (03 R39). -/
def FFmt.decode (f : FFmt) (c : Nat) : Val :=
  let neg := (c >>> (f.width - 1)) % 2 = 1
  let mag := c % 2 ^ (f.width - 1)
  let frac := mag % 2 ^ f.p
  let ex := mag / 2 ^ f.p
  if mag > f.maxCode then (if f.inf = some mag then .inf neg else .nan)
  else if ex = 0 then .num neg frac (1 - (f.bias : Int) - f.p)
  else .num neg (frac + 2 ^ f.p) ((ex : Int) - f.bias - f.p)

/-- The magnitude bits of T[0..3] as FP32 significands (03 R42). -/
def ln6T (f : Nat) : Nat :=
  match f with
  | 0 => 0x800000
  | 1 => 0x9837F0
  | 2 => 0xB504F3
  | 3 => 0xD744FD
  | _ => 0x1000000

/-- The linear value of an LN6 magnitude index, over the whole range of products (03 R42, R43): T[f] × 2^k. -/
def ln6Value (neg : Bool) (l : Int) : Val :=
  let d := l - 16
  .num neg (ln6T (d % 4).toNat) (d / 4 - 23)

/-- The exact value of an LN6 code (03 R42). -/
def ln6Decode (c : Nat) : Val :=
  let neg := (c >>> 5) % 2 = 1
  let l := c % 32
  if l = 0 then .num neg 0 0 else ln6Value neg l

/-- A two's complement number of `w` bits. -/
def signedOf (w c : Nat) : Int :=
  let v := c % 2 ^ w
  if v < 2 ^ (w - 1) then v else (v : Int) - 2 ^ w

/-- An integer as an exact value. -/
def intVal (i : Int) : Val := .num (i < 0) i.natAbs 0

/-- The exact value of an element code by format code; nested-block codes name the element alone (03 R38-R45). -/
def decodeElem (fmt c : Nat) : Val :=
  match fmt with
  | 6 => intVal (signedOf 8 c)
  | 7 => intVal (signedOf 4 c)
  | 8 => ln6Decode (c % 64)
  | 9 => e2m1.decode (c % 16)
  | 10 => intVal (signedOf 4 c)
  | 11 => ln6Decode (c % 64)
  | 12 => intVal (c % 256)
  | _ => (ffmt fmt).decode c

/-- A value times 2^k. -/
def Val.scale (v : Val) (k : Int) : Val :=
  match v with
  | .num n m e => .num n m (e + k)
  | _ => v

/-- The sign of a value; a NaN has none. -/
def Val.neg (v : Val) : Bool :=
  match v with
  | .nan => false
  | .inf n => n
  | .num n _ _ => n

/-- A value with its sign inverted. -/
def Val.flip (v : Val) : Val :=
  match v with
  | .nan => .nan
  | .inf n => .inf (!n)
  | .num n m e => .num (!n) m e

/-- A value without its sign. -/
def Val.abs (v : Val) : Val :=
  match v with
  | .nan => .nan
  | .inf _ => .inf false
  | .num _ m e => .num false m e

/-- Whether a value is a zero of either sign. -/
def Val.isZero (v : Val) : Bool :=
  match v with
  | .num _ m _ => m == 0
  | _ => false

/-- floor(log2 m) of a positive number; 0 of zero. -/
def log2F (m : Nat) : Nat := Nat.log2 m

/-- floor(log2 |v|) of a nonzero number. -/
def Val.exp (v : Val) : Int :=
  match v with
  | .num _ m e => log2F m + e
  | _ => 0

/-- The exact product; the flag says that a NaN was created (03 R51). -/
def Val.mul (a b : Val) : Val × Bool :=
  match a, b with
  | .nan, _ => (.nan, false)
  | _, .nan => (.nan, false)
  | .inf n, .inf k => (.inf (n != k), false)
  | .inf n, .num k m _ => if m = 0 then (.nan, true) else (.inf (n != k), false)
  | .num k m _, .inf n => if m = 0 then (.nan, true) else (.inf (n != k), false)
  | .num n m e, .num k l g => (.num (n != k) (m * l) (e + g), false)

/-- A signed multiple of 2^e. -/
def ofInt (zneg : Bool) (i : Int) (e : Int) : Val := .num (if i = 0 then zneg else i < 0) i.natAbs e

/-- The signed significand of a number at an exponent at or below its own. -/
def sigAt (n : Bool) (m : Nat) (e g : Int) : Int :=
  let v : Int := (m <<< (e - g).toNat : Nat)
  if n then -v else v

/-- The exact sum, with the zero rules of 10 R172 under RDN or another mode. -/
def Val.add (rdn : Bool) (a b : Val) : Val × Bool :=
  match a, b with
  | .nan, _ => (.nan, false)
  | _, .nan => (.nan, false)
  | .inf n, .inf k => if n = k then (.inf n, false) else (.nan, true)
  | .inf n, .num _ _ _ => (.inf n, false)
  | .num _ _ _, .inf n => (.inf n, false)
  | .num n m e, .num k l g =>
    if m = 0 ∧ l = 0 then (.num (if n = k then n else rdn) 0 0, false)
    else if m = 0 then (.num k l g, false)
    else if l = 0 then (.num n m e, false)
    else
      let x := min e g
      (ofInt rdn (sigAt n m e x + sigAt k l g x) x, false)

/-- a × b + c with one NaN rule for both steps (10 R172): 0 × infinity sets NV even when c is a NaN. -/
def Val.fma (rdn : Bool) (a b c : Val) : Val × Bool :=
  let p := a.mul b
  if p.2 then (.nan, true)
  else
    let s := p.1.add rdn c
    (s.1, s.2)

/-- A finite value. -/
def Val.finite (v : Val) : Bool :=
  match v with
  | .num _ _ _ => true
  | _ => false

/-- Numeric order of two values that are not NaN: -1, 0 or 1, with -0 equal to +0. -/
def Val.cmp (a b : Val) : Int :=
  match a, b with
  | .inf n, .inf k => if n = k then 0 else if n then -1 else 1
  | .inf n, _ => if n then -1 else 1
  | _, .inf k => if k then 1 else -1
  | .num n m e, .num k l g =>
    let x := min e g
    let d := sigAt n m e x - sigAt k l g x
    if d < 0 then -1 else if d = 0 then 0 else 1
  | _, _ => 0

/-- Whether a magnitude lo + rest, where the rest is `rem` of 2^s parts and `more` says something nonzero lies below,
rounds up under a mode (03 R48). `r` is the draw of SR. -/
def roundUp (mode : Nat) (neg : Bool) (r lo rem s : Nat) (more : Bool) : Bool :=
  let inexact := rem != 0 || more
  match mode with
  | 0 => (2 * rem > 2 ^ s || (2 * rem == 2 ^ s && (more || lo % 2 == 1))) && s != 0
  | 2 => neg && inexact
  | 3 => !neg && inexact
  | 4 => r < (rem * 65536) / 2 ^ s
  | _ => false

/-- m × 2^e rounded onto multiples of 2^q: the multiple and whether it is inexact. -/
def roundAt (mode : Nat) (neg : Bool) (r m : Nat) (e q : Int) (more : Bool) : Nat × Bool :=
  if q ≤ e then (m <<< (e - q).toNat, more)
  else
    let s := (q - e).toNat
    let lo := m >>> s
    let rem := m % 2 ^ s
    (lo + (if roundUp mode neg r lo rem s more then 1 else 0), rem != 0 || more)

/-- The code that a finite overflow gives (03 R49). -/
def FFmt.overflow (f : FFmt) (mode : Nat) (ieee neg : Bool) : Nat :=
  if !ieee || mode = 1 || (mode = 2 && !neg) || (mode = 3 && neg) then f.maxCode
  else
    match f.inf with
    | some c => c
    | none =>
      match f.nan with
      | some c => c
      | none => f.maxCode

/-- Whether the sign bit goes on a magnitude code: never on a NaN (03 R39). -/
def FFmt.signed (f : FFmt) (neg : Bool) (mag : Nat) : Nat :=
  if neg && f.nan != some mag then mag + 2 ^ (f.width - 1) else mag

/-- A finite magnitude m × 2^e (and a little more when `more`) rounded to a floating-point format (03 R48, R49):
the code and the flags. -/
def FFmt.roundNum (f : FFmt) (mode : Nat) (ieee : Bool) (r : Nat) (neg : Bool) (m : Nat) (e : Int) (more : Bool) :
    Nat × BitVec 6 :=
  if m = 0 ∧ more = false then (f.signed neg 0, 0)
  else
    let top := (log2F m : Int) + e
    let emin : Int := 1 - f.bias
    let q := max (top - f.p) (emin - f.p)
    let (n, inexact) := roundAt mode neg r m e q more
    let code := ((q - (emin - f.p)).toNat) * 2 ^ f.p + n
    if code > f.maxCode then (f.signed neg (f.overflow mode ieee neg), fOF ||| fNX)
    else
      let tiny := top < emin &&
        (top < emin - 1 || (roundAt mode neg r m e (top - f.p) more).1 < 2 ^ (f.p + 1))
      (f.signed neg code, (if inexact then fNX else 0) ||| (if tiny && inexact then fUF else 0))

/-- A value rounded to a floating-point format (03 R49). An infinity going to a format without one sets OF alone, as 03 R49 has it, where 03
R51 names NV (DEDUCED, log 86). -/
def FFmt.round (f : FFmt) (mode : Nat) (ieee : Bool) (r : Nat) (v : Val) : Nat × BitVec 6 :=
  match v with
  | .nan =>
    match f.nan with
    | some c => (c, 0)
    | none => (0, fNV)
  | .inf neg =>
    match f.inf with
    | some c => (f.signed neg c, 0)
    | none =>
      match f.nan with
      | some c => (f.signed neg (if ieee then c else f.maxCode), fOF)
      | none => (f.signed neg f.maxCode, fOF)
  | .num neg m e => f.roundNum mode ieee r neg m e false

/-- A value rounded to an integer and bounded (03 R41). -/
def roundInt (lo hi : Int) (mode r : Nat) (v : Val) : Int × BitVec 6 :=
  match v with
  | .nan => (0, fNV)
  | .inf neg => (if neg then lo else hi, fNV)
  | .num neg m e =>
    let (n, inexact) := roundAt mode neg r m e 0 false
    let i : Int := if neg then -(n : Int) else n
    if i < lo then (lo, fNV) else if hi < i then (hi, fNV) else (i, if inexact then fNX else 0)

/-- A conversion to LN6 (03 R44, and R49 for NaN and infinity): the code and the flags, OF alone for an infinity (DEDUCED, log 86). -/
def ln6Round (mode r : Nat) (v : Val) : Nat × BitVec 6 :=
  match v with
  | .nan => (0, fNV)
  | .inf neg => ((if neg then 32 else 0) + 31, fOF)
  | .num neg m e =>
    let s := if neg then 32 else 0
    if m = 0 then (s, 0)
    else
      let k := log2F m
      let top : Int := k + e
      -- μ = m / 2^k; compared as m × 2^23 with c × 2^k
      let above (c : Nat) : Bool := c * 2 ^ k ≤ m * 2 ^ 23
      let fin (l : Int) (exact : Bool) : Nat × BitVec 6 :=
        if l > 31 then (s + 31, fOF ||| fNX)
        else if l < 1 then (s, fUF ||| fNX)
        else (s + l.toNat, if exact then 0 else fNX)
      if mode = 0 then
        let q := [0x8B95C2, 0xA5FED7, 0xC5672A, 0xEAC0C7].countP above
        fin (16 + 4 * top + q) (ln6T q * 2 ^ k == m * 2 ^ 23)
      else
        -- below 2^-3.75 = T[1] × 2^-4, between 0 and that magnitude
        let small : Bool := top < -4 || (top == -4 && !above (ln6T 1))
        if small then
          -- |x| / hi with hi = T[1] × 2^-27
          let num := if e + 27 ≥ 0 then m <<< (e + 27).toNat else m
          let den := if e + 27 ≥ 0 then ln6T 1 else ln6T 1 <<< (-(e + 27)).toNat
          let up := match mode with
            | 2 => neg
            | 3 => !neg
            | 4 => r < num * 65536 / den
            | _ => false
          (if up then s + 1 else s, fUF ||| fNX)
        else
          let f := [ln6T 1, ln6T 2, ln6T 3].countP above
          let lo := ln6T f * 2 ^ k
          let hi := ln6T (f + 1) * 2 ^ k
          let x := m * 2 ^ 23
          let exact := x == lo
          let up := !exact && match mode with
            | 2 => neg
            | 3 => !neg
            | 4 => r < (x - lo) * 65536 / (hi - lo)
            | _ => false
          fin (16 + 4 * top + f + (if up then 1 else 0)) exact

/-- A value rounded to an element of a format code 0-8 or 12 (03 R41, R44, R49); nested-block elements are formed by `blockRound`. -/
def roundElem (fmt mode : Nat) (ieee : Bool) (r : Nat) (v : Val) : Nat × BitVec 6 :=
  match fmt with
  | 6 => let (i, fl) := roundInt (-128) 127 mode r v; ((i % 256).toNat, fl)
  | 7 => let (i, fl) := roundInt (-8) 7 mode r v; ((i % 16).toNat, fl)
  | 8 => ln6Round mode r v
  | 12 => let (i, fl) := roundInt 0 255 mode r v; (i.toNat, fl)
  | _ => (ffmt fmt).round mode ieee r v

/-- The element format of a nested-block format. -/
def blockElem (fmt : Nat) : Nat := match fmt with | 9 => 5 | 10 => 7 | _ => 8

/-- A block of sixteen elements (03 R45): element codes, E and the micro byte. -/
structure NBlock where
  elems : List Nat
  e : Nat
  micro : Nat
deriving DecidableEq, Repr

/-- The exact value of element `i` of a block (03 R45). -/
def NBlock.value (fmt : Nat) (b : NBlock) (i : Nat) : Val :=
  if b.e = 0xFF then .nan
  else (decodeElem (blockElem fmt) (b.elems.getD i 0)).scale ((b.e : Int) - 127 - (b.micro >>> (i / 2)) % 2)

/-- floor(log2) of the larger magnitude of some finite values; none when all are zero. -/
def topExp (vs : List Val) : Option Int :=
  vs.foldl (fun t v => if v.isZero then t else match t with
    | none => some v.exp
    | some x => some (max x v.exp)) none

/-- A nested block that is a NaN, in its one canonical form (03 R45, R46). -/
def nanBlock : NBlock := ⟨List.replicate 16 0, 0xFF, 0⟩

/-- Sixteen values converted into a nested block (03 R46), with the draws of their positions; and the flags that each value raises
(03 R51). -/
def blockRound (fmt mode : Nat) (ieee : Bool) (rs : List Nat) (vs : List Val) : NBlock × List (BitVec 6) :=
  let bad (v : Val) : Bool := match v with
    | .num _ _ _ => false
    | _ => true
  if vs.any bad then (nanBlock, vs.map fun v => if bad v then fNV else 0)
  else
    match topExp vs with
    | none => (⟨List.replicate 16 0, 0, 0xFF⟩, [])
    | some x =>
      let emax : Int := if fmt = 11 then 3 else 2
      let e := (min (max (x - emax + 127) 0) 254).toNat
      let m (p : Nat) : Nat :=
        match topExp ((vs.drop (2 * p)).take 2) with
        | none => 1
        | some y => if y < x then 1 else 0
      let micro := (List.range 8).foldl (fun a p => a + m p * 2 ^ p) 0
      let out := (List.range 16).map fun i =>
        roundElem (blockElem fmt) mode ieee (rs.getD i 0) ((vs.getD i vZero).scale (127 - (e : Int) + m (i / 2)))
      (⟨out.map (·.1), e, micro⟩, out.map (·.2))

/-- The lower 64-bit draw step of 03 R50. -/
def srStep (s : Word) : Word :=
  let s := s ^^^ (s <<< 13)
  let s := s ^^^ (s >>> 7)
  s ^^^ (s <<< 17)

/-- `n` successive draws and the state after them (03 R50). -/
def srDraws (n : Nat) (s : Word) : List Nat × Word :=
  match n with
  | 0 => ([], s)
  | n + 1 =>
    let s1 := srStep s
    let (rs, s2) := srDraws n s1
    ((s1 >>> 48).toNat :: rs, s2)

/-! ### Special functions (10 R188), each as a truncated magnitude with a sticky part -/

/-- floor of the square root, by bits from `k` down. -/
def isqrtBits (k n acc : Nat) : Nat :=
  match k with
  | 0 => acc
  | k + 1 =>
    let t := acc + 2 ^ k
    isqrtBits k n (if t * t ≤ n then t else acc)

/-- floor of the square root. -/
def isqrt (n : Nat) : Nat := isqrtBits (log2F n / 2 + 1) n 0

/-- 1/x of a nonzero number: m, e and the sticky part. -/
def rcpNum (m : Nat) (e : Int) : Nat × Int × Bool :=
  let k := log2F m + 100
  (2 ^ k / m, -e - k, 2 ^ k % m != 0)

/-- 1/√x of a positive number. -/
def rsqrtNum (m : Nat) (e : Int) : Nat × Int × Bool :=
  let (m, e) := if e % 2 = 0 then (m, e) else (2 * m, e - 1)
  let k := log2F m + 100
  let n := isqrt (2 ^ (2 * k) / m)
  (n, -(e / 2) - k, n * n * m != 2 ^ (2 * k))

/-- The bits of precision of the series below. -/
def sfuBits : Nat := 192

/-- The product of 2^(2^-i) for each set bit `i` of a fraction of `b` bits, in units of 2^-192, truncated;
`root` is 2^(2^-(i-1)). -/
def exp2Loop (b f : Nat) (root acc : Nat) : Nat :=
  match b with
  | 0 => acc
  | b + 1 =>
    let root := isqrt (root * 2 ^ sfuBits)
    exp2Loop b (f % 2 ^ b) root (if f / 2 ^ b % 2 = 1 then acc * root / 2 ^ sfuBits else acc)

/-- 2^x of a finite x: m, e and the sticky part. Beyond ±2^12 it stands at a magnitude that overflows or underflows every format;
below 2^-100 the result is 1 with something more or less. -/
def exp2Num (neg : Bool) (m : Nat) (e : Int) : Nat × Int × Bool :=
  if m = 0 then (1, 0, false)
  else if log2F m + e ≥ 12 then (1, if neg then -4096 else 4096, neg)
  else if log2F m + e < -100 then (if neg then 2 ^ 100 - 1 else 2 ^ 100, -100, true)
  else
    -- x = n + f / 2^b with 0 ≤ f < 2^b
    let b := (-e).toNat
    let s : Int := sigAt neg m (max e 0) 0
    let n : Int := if e ≥ 0 then s else s / 2 ^ b
    let f : Nat := if e ≥ 0 then 0 else (s % 2 ^ b).toNat
    if f = 0 then (1, n, false)
    else (exp2Loop b f (2 * 2 ^ sfuBits) (2 ^ sfuBits), n - sfuBits, true)

/-- `b` bits of log2 of y / 2^192 in [1, 2), by repeated squaring, truncated. -/
def log2Loop (b y acc : Nat) : Nat :=
  match b with
  | 0 => acc
  | b + 1 =>
    let y2 := y * y / 2 ^ sfuBits
    if y2 ≥ 2 * 2 ^ sfuBits then log2Loop b (y2 / 2) (2 * acc + 1) else log2Loop b y2 (2 * acc)

/-- log2 of a positive number: sign, m, e and the sticky part. -/
def log2Num (m : Nat) (e : Int) : Bool × Nat × Int × Bool :=
  let k := log2F m
  let n : Int := k + e
  if m = 2 ^ k then (n < 0, n.natAbs, 0, false)
  else
    let f := log2Loop 110 (m * 2 ^ sfuBits / 2 ^ k) 0
    let t : Int := n * 2 ^ 110 + f
    if n ≥ 0 then (false, t.toNat, -110, true) else (true, (-t - 1).toNat, -110, true)

end Sys2Proof.Machine
end

