-- ==== Sys2Proof/Machine/Sparse.lean ====
section
/-! DEFINITION. Lists of key and value pairs in one canonical form: keys strictly rising, no entry equal to the default. -/

namespace Sys2Proof.Machine

/-- The value at a key; `d` where the list has no entry. -/
def Sparse.get {α : Type} (d : α) (l : List (Nat × α)) (k : Nat) : α :=
  match l with
  | [] => d
  | (j, v) :: rest => if j = k then v else Sparse.get d rest k

/-- The list with the entry at a key put first, unless its value is the default. -/
def Sparse.cons {α : Type} [DecidableEq α] (d : α) (k : Nat) (v : α) (l : List (Nat × α)) : List (Nat × α) :=
  if v = d then l else (k, v) :: l

/-- The list with the value at a key replaced, in canonical form. -/
def Sparse.set {α : Type} [DecidableEq α] (d : α) (l : List (Nat × α)) (k : Nat) (v : α) : List (Nat × α) :=
  match l with
  | [] => Sparse.cons d k v []
  | (j, w) :: rest =>
    if k < j then Sparse.cons d k v ((j, w) :: rest)
    else if k = j then Sparse.cons d k v rest
    else (j, w) :: Sparse.set d rest k v

/-- Every key of the list is above `k`, and the list is in canonical form. -/
def Sparse.above {α : Type} [DecidableEq α] (d : α) (k : Nat) (l : List (Nat × α)) : Bool :=
  match l with
  | [] => true
  | (j, v) :: rest => decide (k < j) && decide (v ≠ d) && Sparse.above d j rest

/-- The canonical form: keys strictly rising and no entry equal to the default. -/
def Sparse.wf {α : Type} [DecidableEq α] (d : α) (l : List (Nat × α)) : Bool :=
  match l with
  | [] => true
  | (j, v) :: rest => decide (v ≠ d) && Sparse.above d j rest

/-- The list without the entries whose keys lie in [`lo`, `lo + n`): they read as the default again. -/
def Sparse.clear {α : Type} (l : List (Nat × α)) (lo n : Nat) : List (Nat × α) :=
  l.filter fun kv => kv.1 < lo || lo + n ≤ kv.1

/-- Several values set in order. -/
def Sparse.setAll {α : Type} [DecidableEq α] (d : α) (l : List (Nat × α)) (kvs : List (Nat × α)) : List (Nat × α) :=
  kvs.foldl (fun m kv => Sparse.set d m kv.1 kv.2) l

/-- The canonical form of a byte memory whose unlisted bytes read 0. -/
def Memory.wf (m : List Host.Cell) : Bool := Sparse.wf (0 : Byte) m

/-- The bytes at `n` successive addresses. -/
def bytesAt (m : List Host.Cell) (a n : Nat) : List Byte :=
  (List.range n).map fun i => Sparse.get 0 m (a + i)

/-- A byte memory with successive bytes written from an address upward. -/
def putBytes (m : List Host.Cell) (a : Nat) (bs : List Byte) : List Host.Cell :=
  match bs with
  | [] => m
  | b :: rest => putBytes (Sparse.set 0 m a b) (a + 1) rest

/-- A little-endian number of bytes (00 R4). -/
def leNat (bs : List Byte) : Nat :=
  match bs with
  | [] => 0
  | b :: rest => b.toNat + 256 * leNat rest

/-- The `n` little-endian bytes of a number (00 R4). -/
def leBytes (n : Nat) (v : Nat) : List Byte :=
  match n with
  | 0 => []
  | n + 1 => BitVec.ofNat 8 v :: leBytes n (v / 256)

/-- Byte `i` of a wide value. -/
def byteOf {w : Nat} (v : BitVec w) (i : Nat) : Byte := v.extractLsb' (8 * i) 8

/-- A wide value with byte `i` replaced. -/
def setByte {w : Nat} (v : BitVec w) (i : Nat) (b : Byte) : BitVec w :=
  (v &&& ~~~((BitVec.ofNat w 255) <<< (8 * i))) ||| ((b.setWidth w) <<< (8 * i))

end Sys2Proof.Machine
end

