-- ==== Sys2Proof/Machine/State.lean ====
section
/-! DEFINITION. The state of the Golmet G7 as plain data: teams, tasks, queues, memory, links, keys, harts; and State.reset. -/

namespace Sys2Proof.Machine

/-- The members of a team, in program-number order (04 R57, 18 R307). -/
inductive Who where
  | seq | ld | st
deriving DecidableEq, Repr

/-- What executes instructions: a member of the focused task's team, or a privileged hart:
0-7 the Postmaster's, 8-15 the die controllers of CD0-CD7 (18 R304). -/
inductive Agent where
  | member (w : Who)
  | hart (h : Fin 16)
deriving DecidableEq, Repr

/-- One turn of the agenda: an agent's next instruction, a byte of it read ahead, an event of the device with its arguments, or a change of the focused task. -/
inductive Turn where
  | run (a : Agent)
  /-- A member of the focused task reads a byte of local space ahead of the rest of its next instruction (04 R69). -/
  | glance (w : Who) (a : Nat)
  | event (i : Instr) (args : List Nat)
  | focusTask (task : Nat)
deriving DecidableEq, Repr

/-- What a member is blocked in (02 R34, 18 R311, R322). -/
inductive Wait where
  /-- `tqget` on an empty queue. -/
  | tqget (q : Nat)
  /-- `tqput` on a full queue. -/
  | tqput (q : Nat)
  /-- `phtake` with nothing filled. -/
  | phtake (p : Nat)
  /-- `phres` with nothing free. -/
  | phres (p : Nat)
  /-- A copy or query waiting for slots at issue. -/
  | slot (p : Nat)
  /-- `acq` waiting for its grant, by the object's virtual address, with the changes its entry had seen, none while it waits for an entry of
  the directory, and the descriptor its checks found (19 R325). -/
  | acq (va : Nat) (seen : Option Nat) (desc : List Byte)
  /-- `twait` on the word at a virtual address, with the word last read, whether its line failed, and the descriptor its checks found (18 R316,
  19 R325). -/
  | twait (va size : Nat) (seen : Word) (failed : Bool) (desc : List Byte)
  /-- `pmwait` on a counter. -/
  | pmwait (cls n : Nat)
  /-- A courier's `wait`. -/
  | counters
  /-- `phgive` and the copy hazards of 12 R234: waits on the member's own copies. -/
  | hazard
  /-- An instruction stalled because the task is speculative (06 R106). -/
  | spec
  /-- `ecall`, under its request tag (18 R314). -/
  | ecall (tag : Nat)
  /-- `lnch` on an empty reserve pool (13 R256): the segment whose slot 62 holds its record, once it is written. -/
  | reservePool (seg : Option Word)
  /-- The drain of `tend` (13 R252). -/
  | tend
  /-- A tlbir-locked page, a block under re-encryption or another interlock of the member. -/
  | interlock
deriving DecidableEq, Repr

/-- A loop counter (11 R216). -/
structure LoopCtr where
  count : BitVec 32
  bound : BitVec 32
  start : Nat
  stop : Nat
  active : Bool
deriving DecidableEq, Repr

/-- One destination write of a landing-queue entry, already formed: absolute vector register, accumulator element
or handle, with the bits it writes (04 R61, R62). -/
inductive LWrite where
  | v (reg : Nat) (val mask : V256)
  | acc (idx : Nat) (val : BitVec 32)
  | h (idx : Fin 32) (val mask : V256)
deriving DecidableEq, Repr

/-- A landing-queue entry (04 R62). -/
structure Landing where
  writes : List LWrite
  flags : BitVec 6
  delay : Nat
  transient : Bool
  /-- A class 7 result, counted by the tile-operation counter (05 R83). -/
  matrix : Bool
  /-- Its pm.mx number, when it drew one (05 R84). -/
  mx : Option Nat
deriving DecidableEq, Repr

/-- A bypass entry: the merged register values and the issue cycles it still lives (04 R63). -/
structure Bypass where
  vals : List (Nat × V256)
  left : Nat
deriving DecidableEq, Repr

/-- A reserved slot of a pigeonhole, in the order of reservation (04 R75). -/
structure HoleSlot where
  slot : Nat
  posted : Bool
  /-- Reserved by a copy with AP = 1, or by a query. -/
  auto : Bool
  /-- The engine operation that fills it, while in flight. -/
  op : Option Nat
  /-- `phpost` came before that operation completed (12 R224). -/
  postOnDone : Bool
deriving DecidableEq, Repr

/-- A pigeonhole (04 R73-R75). FREE is COUNT less the other counts. -/
structure Hole where
  en : Bool
  base : Nat
  slotsz : Nat
  count : Nat
  head : Nat
  tail : Nat
  filled : Nat
  taken : Nat
  resv : List HoleSlot
deriving DecidableEq, Repr

/-- One member of a team (04 R57). -/
structure Member where
  x : Vector Word 32
  pc : Nat
  /-- The code image, in words (08 R132). -/
  code : List (BitVec 32)
  ended : Bool
  wait : Option Wait
  /-- The tag of its outstanding service request (18 R314). -/
  svc : Option Nat
  /-- An answer kept until the task is restored: `x10` and `x11`. -/
  answer : Option (Word × Word)
  /-- A fault answer that came while its team was stopping (18 R314): its code and detail. -/
  refusal : Option (BitVec 16 × Word)
deriving DecidableEq, Repr

/-- The state of 04 R77. -/
structure Team where
  seq : Member
  ld : Member
  st : Member
  /-- The physical vector file, by register 0-4095; unlisted registers hold 0. -/
  vfile : List (Nat × V256)
  /-- Registers of the file whose contents a restore has lost and nothing has written since, each with the number of the free value it
  reads as (04 R77; model's own). -/
  stale : List (Nat × Nat)
  /-- Spilled registers, by absolute register. -/
  spilled : List (Nat × V256)
  /-- The absolute register of `v0`; WB is this modulo 4,096 (04 R65). -/
  wb : Nat
  fs : Nat
  /-- The lowest resident absolute register (04 R66). -/
  lo : Nat
  links : List Nat
  /-- Accumulator elements, by 2048 × accumulator + 64 m + n; unlisted ones hold +0. -/
  acc : List (Nat × BitVec 32)
  h : Vector V256 32
  lc : Vector LoopCtr 4
  /-- Active counters, innermost first. -/
  loops : List (Fin 4)
  /-- The mask stack, top first. -/
  masks : List Word
  landings : List Landing
  bypass : List Bypass
  /-- XFCSR[5:0]. -/
  flags : BitVec 6
  /-- The flags that landed in the present issue cycle, which a write of that cycle cannot clear (09 R164). -/
  flagsNow : BitVec 6
  /-- XFCSR[10:8]. -/
  rm : BitVec 3
  srseed : Word
  ft : Vector (BitVec 8) 16
  selCtr : Option (Fin 4)
  selBase : BitVec 4
  clock : Nat
  /-- Issue cycles for which the matrix engine is still held (11 R206). -/
  matBusy : Nat
  /-- Drain cycles owed for landings into spilled registers (04 R66). -/
  debt : Nat
  tq : Vector (List Word) 8
  ph : Vector Hole 16
  scratch : List Host.Cell
deriving DecidableEq, Repr

/-- The task states of 02 R27. -/
inductive TState where
  | free | waiting | ready | running | done | faulted | squashed | cancelled | saved | rolledBack
deriving DecidableEq, Repr

/-- A trap as it is recorded (18 R307, R312). -/
structure FaultRec where
  cause : BitVec 16
  who : Who
  pc : Nat
  d1 : Word
  d2 : Word
deriving DecidableEq, Repr

/-- What a team is stopping for (18 R308, 20 R346, R352). -/
inductive Stop where
  /-- A trap that waits for the engine operations in flight. -/
  | trap (r : FaultRec)
  /-- A save, with the REASON of 20 R348. -/
  | save (reason : Nat)
deriving DecidableEq, Repr

/-- A TLB entry of a cluster or, with `cluster` none, of a die (19 R333). -/
structure Tlb where
  die : Nat
  cluster : Option Nat
  cid : Nat
  va : Nat
  size : Nat
  pa : Nat
  nb : Bool
  r : Bool
  w : Bool
  dirty : Bool
deriving DecidableEq, Repr

/-- The bytes of a proof-store line that one store wrote, with what its checks found (19 R325, R334): the line as its bref names it, the
descriptor, and the page. -/
structure ProofPart where
  mask : BitVec 64
  bref : Word
  desc : List Byte
  page : Tlb
deriving DecidableEq, Repr

/-- A line of a task's proof-store entry (06 R103, R105), by virtual line. -/
structure ProofLine where
  line : Nat
  data : BitVec 512
  written : BitVec 64
  /-- Bytes of the proof itself. -/
  proof : BitVec 64
  /-- The stores it merged, oldest first, each with the bytes no later store wrote. -/
  kept : List ProofPart
deriving DecidableEq, Repr

/-- One entry of a task's undo log (20 R350). -/
inductive LogEntry where
  /-- A line of the cluster scratchpads, with its contents before the first write and the mask of the bytes written since. -/
  | clus (line : Nat) (old : BitVec 512) (mask : BitVec 64)
  /-- A proof-store line; none when the task had none. -/
  | proof (line : Nat) (old : Option ProofLine)
  /-- A virtual line of buffer memory as a bref names it, likewise; `home` when a copy wrote it. -/
  | buf (line : Nat) (bref : Word) (old : BitVec 512) (mask : BitVec 64) (home : Bool)
deriving DecidableEq, Repr

/-- A memory key: what KD and KM of 22 R367 are derived from. `trk` is none for the device's own key, which firmware, the harts,
page tables and records outside the contexts use. -/
structure MemKey where
  trk : Option (BitVec 256)
  slot : Nat
  gen : Nat
deriving DecidableEq, Repr

/-- What a Nenil transaction in flight carries (24 R399). -/
inductive TxnKind where
  | read (size : Nat)
  | write (data : BitVec 512) (mask : BitVec 64)
  | atomic (op size : Nat) (operand : Word)
  | completion (value : BitVec 512)
  | ack
  | mgmt
  | directory
  | time (count : Nat)
deriving DecidableEq, Repr

/-- A transaction in flight over the die links, oldest first in State.txns. -/
structure Txn where
  tag : Nat
  cid : Nat
  src : Nat
  dst : Nat
  /-- Physical address of the first byte, and the virtual line its context named it by. -/
  pa : Nat
  va : Nat
  slot : Nat
  nb : Bool
  /-- The line as its access named it, and the length of its header (22 R375). -/
  bref : Word
  len : Nat
  kind : TxnKind
  /-- Whether its destination has accepted the burst that carries it, so that no link holds it for a replay (24 R400). -/
  accepted : Bool
deriving DecidableEq, Repr

/-- The counter block of a 4 KiB block, with the key its ciphertext was made under (22 R368-R370). -/
structure Block where
  major : BitVec 64
  /-- Minor counters of the 64 lines; unlisted ones are 0. -/
  minors : List (Nat × Nat)
  gen : Bool
  dead : Bool
  key : Option MemKey
  locked : Bool
  /-- Lines written whole under another key than `key`, with that key. -/
  odd : List (Nat × MemKey)
  /-- The transactions held by the lock, in arrival order (22 R373). -/
  held : List Txn
deriving DecidableEq, Repr

/-- Where a core lies: 512 × die + 16 × cluster + core (01 R8). -/
abbrev CoreId := Nat

/-- The assay of one slot (06 R108): none yet, its notice sent with whether the history stood, or its verdict formed. -/
inductive Assay where
  | idle
  | sent (good : Bool)
  | formed (pass : Bool)
deriving DecidableEq, Repr

/-- A tile task with its team (02 R25-R29). -/
structure Task where
  id : Nat
  part : Nat
  cid : Nat
  /-- bref of its TCB; 0 for a loop-table task. -/
  tcb : Word
  launch : Nat
  linear : Nat
  tx : Nat
  ty : Nat
  tz : Nat
  vdie : Nat
  /-- The compute die whose sorter holds it. -/
  die : Nat
  state : TState
  spec : Bool
  depth : Nat
  prio : Nat
  effPrio : Nat
  policy : BitVec 4
  stamps : Nat
  est : Nat
  vframe : Nat
  spill : Nat
  phcfg : Word
  args : Word
  code : Word
  trips : List Nat
  /-- DEP_COUNT of a registered TCB task. -/
  deps : Nat
  nsucc : Nat
  succ : Word
  specIn : BitVec 32
  predOut : BitVec 32
  tol : Word
  hist : Word
  donePm : Nat
  fault : FaultRec
  /-- The core it occupies. -/
  core : Option CoreId
  /-- The cluster in which its team last ran: 32 × die + cluster. -/
  lastCluster : Option Nat
  /-- Kept off lent dies (21 R361). -/
  anchorOnly : Bool
  readyAt : Nat
  hasRun : Bool
  /-- Teams of it that were discarded. -/
  run : Nat
  /-- Its last start faulted before any instruction, and the next one starts anew (04 R74). -/
  fresh : Bool
  runTime : Nat
  startedAt : Nat
  /-- Package time at which a member last issued, or of the last start or restore (02 R34, 18 R322). -/
  issuedAt : Nat
  /-- The hang timer: package time it has counted since it last restarted (18 R322). -/
  hung : Nat
  stop : Option Stop
  halted : Bool
  /-- Set while a debugger steps one member (18 R320). -/
  stepping : Option Who
  parked : Bool
  held : Option FaultRec
  /-- Slot states of 13 R258, and the producers its proofs came from. -/
  slot0 : Nat
  slot1 : Nat
  prod0 : Option Nat
  prod1 : Option Nat
  assay0 : Assay
  assay1 : Assay
  /-- The proofs of its slots as element codes, for the assay (06 R108). -/
  guess0 : List Nat
  guess1 : List Nat
  proof : List ProofLine
  /-- Proof-store lines its declared tile ranges need, or room it waits for. -/
  proofFull : Bool
  /-- Package time at which its core froze for room in the proof store (06 R105). -/
  fullAt : Nat
  /-- pm numbers it drew while speculative, by counter. -/
  specNums : List (Nat × Nat)
  image : Bool
  /-- The bytes of its image as they were sealed: header, payload and tag (20 R348). -/
  sealed : List Byte
  reason : Nat
  slot : Option Nat
  svcTag : Nat
  ckpt : Option Team
  log : List LogEntry
  /-- Its last external operation completed after its last checkpoint (20 R351). -/
  extSince : Bool
  ckptDue : Bool
  ckptAt : Nat
  /-- Collective tags it has issued, for the repeat mark of 12 R238. -/
  collTags : List Nat
  swappedAt : Nat
  preemptAt : Nat
  draining : Bool
  /-- Victims' cores reserved for it, with the stamps that go with each (20 R344). -/
  reserves : List (CoreId × Nat)
  /-- Package time of its last speculative start (06 R112). -/
  specAt : Nat
  team : Team
deriving DecidableEq, Repr

/-- One side of a move of bytes. -/
inductive Place where
  | loc (a : Nat)
  | buf (bref : Word)
deriving DecidableEq, Repr

/-- One contiguous piece of a copy. -/
structure Move where
  src : Place
  dst : Place
  len : Nat
deriving DecidableEq, Repr

/-- A copy in flight (12 R230). -/
structure Copy where
  id : Nat
  task : Nat
  cid : Nat
  vdie : Nat
  who : Who
  cls : Nat
  num : Nat
  moves : List Move
  hole : Option Nat
  slot : Nat
  auto : Bool
  /-- What of its moves is still to be performed, each with the source bytes already read, by offset (04 R69, 05 R80). -/
  todo : List (Move × List (Nat × Byte))
  /-- Source lines in error that its records have named, by physical line (18 R316). -/
  bad : List Nat
  /-- `cprem`: both sides at their homes (12 R233). -/
  remote : Bool
  spec : Bool
  /-- The translations of its checks (12 R229, 19 R334). -/
  pages : List Tlb
  /-- The descriptors its checks found, by buffer index (19 R325). -/
  descs : List (Nat × List Byte)
deriving DecidableEq, Repr

/-- The record of one bank engine, formed at acceptance (07 R121, R125). -/
structure NbRecord where
  engine : Nat
  status : Nat
  row : Nat
  keys : Nat
  bytes : List Byte
  /-- For ERR and INTEGRITY: the failure's kind, and the page offset of the first failing line of the row (07 R126). -/
  error : Nat
  line : Nat
  posted : Bool
deriving DecidableEq, Repr

/-- A near-bank query (07 R117-R119). -/
structure Query where
  id : Nat
  task : Nat
  cid : Nat
  vdie : Nat
  who : Who
  num : Nat
  hole : Nat
  slots : List Nat
  engines : List Nat
  kref : Word
  vref : Word
  nkeys : Nat
  dim : Nat
  fmt : Nat
  rslog : Nat
  scale : BitVec 32
  q : List Byte
  /-- The frame of its NB page, and the page offsets of its first key and value record. -/
  frame : Nat
  koff : Nat
  voff : Nat
  accepted : Bool
  cancelled : Bool
  records : List NbRecord
  /-- The descriptors its checks found, by buffer index (19 R325). -/
  descs : List (Nat × List Byte)
deriving DecidableEq, Repr

/-- One send of a collective (12 R236). -/
structure Send where
  sender : Nat
  receiver : Nat
  src : Word
  dst : Word
  len : Nat
  done : Bool
  /-- The translations of its checks. -/
  pages : List Tlb
  /-- The descriptors its checks found, by buffer index (19 R325). -/
  descs : List (Nat × List Byte)
deriving DecidableEq, Repr

/-- A member of a collective that has issued it (12 R236, R237). -/
structure CollMember where
  rank : Nat
  vdie : Nat
  /-- Its pm.cl number. -/
  num : Nat
  task : Nat
  /-- The run of the task that issued it. -/
  run : Nat
  who : Who
  send : Word
  recv : Word
deriving DecidableEq, Repr

/-- The hub's entry for one collective (12 R237). -/
structure Coll where
  cid : Nat
  tag : Nat
  nmemb : Nat
  variant : Nat
  root : Nat
  issued : List CollMember
  /-- (sender, receiver) pairs counted. -/
  counted : List (Nat × Nat)
  sends : List Send
  completed : List Nat
deriving DecidableEq, Repr

/-- The directory's entry for one sync object (05 R87). -/
structure Sync where
  cid : Nat
  va : Nat
  ranges : List (Word × Nat)
  excl : Option Nat
  shared : List Nat
  /-- Waiting requests, oldest first: task, member and exclusive flag. -/
  queue : List (Nat × Who × Bool)
  /-- How often its holders have changed (02 R34). -/
  changes : Nat
deriving DecidableEq, Repr

/-- A line of a cluster cache (05 R81). -/
structure CacheLine where
  cluster : Nat
  cid : Nat
  va : Nat
  pa : Nat
  slot : Nat
  /-- Its page is near-bank (07 R113). -/
  nb : Bool
  /-- Its first byte as the access that allocated it named it (18 R317). -/
  bref : Word
  data : BitVec 512
  valid : BitVec 64
  dirty : BitVec 64
deriving DecidableEq, Repr

/-- A node of a stack's counter tree (22 R371). -/
structure Node where
  major : Nat
  minors : List (Nat × Nat)
deriving DecidableEq, Repr

/-- How a line is damaged (18 R317, R318). -/
inductive Damage where
  | ecc
  /-- In one 32-byte half of the line only, the upper one where `hi`. -/
  | eccAtom (hi : Bool)
  | mac
  /-- The counter line of the line's block fails its check, and with it every line of the block (22 R371). -/
  | counter
  /-- The tree node of a level over the line's block fails its check, 7 just above the counter lines and 1 on top, and with it every line
  under the node (22 R371). -/
  | node (level : Nat)
deriving DecidableEq, Repr

/-- A key slot, the same on every die (22 R368); the keys of its halves. -/
structure KeySlot where
  part : Nat
  h0 : Option MemKey
  h1 : Option MemKey
  cur : Bool
deriving DecidableEq, Repr

/-- The postmark counter of one class, context and virtual die (05 R84). -/
structure Postmark where
  drawn : Nat
  /-- Numbers drawn and not complete. -/
  pending : List Nat
deriving DecidableEq, Repr

/-- What stands behind a record in a launch queue: the launch that posted it, 0 for the host and the supervisor; the task for which a
debugger holds it; and whether the slot is passed over, its record discarded while held (18 R321) or never written (log 33). -/
structure Posted where
  parent : Nat
  holder : Option Nat
  dropped : Bool
deriving DecidableEq, Repr

/-- A launch queue (20 R338, R341; 24 R396). -/
structure Queue where
  headSeg : Word
  tailSeg : Word
  head : Nat
  tail : Nat
  cid : Nat
  weight : Nat
  prio : Nat
  urgent : Bool
  tokens : Nat
  tokcap : Nat
  refill : Nat
  refillAt : Nat
  credit : Int
  accepted : Nat
  refused : Nat
  /-- A record stands in slot 62 whose advance waits for a segment (20 R339). -/
  stall : Bool
  /-- The records still in the queue, oldest first. -/
  posted : List Posted
deriving DecidableEq, Repr

/-- A launch (02 R20-R24, R35). -/
structure Launch where
  cid : Nat
  id : Nat
  part : Nat
  queue : Nat
  kernel : Word
  args : Word
  depth : Nat
  parent : Option Nat
  /-- Loop-table levels below NLEVELS: trip, kind, axis. -/
  levels : List (Nat × Nat × Nat)
  /-- Tile tasks in all, the virtual dies of its context at acceptance, and how many tasks each has been handed (02 R24). -/
  total : Nat
  ndies : Nat
  next : List (Nat × Nat)
  /-- Tasks, of the loop table and enqueued, that are not DONE or CANCELLED. -/
  left : Nat
  cancelled : Nat
  children : Nat
deriving DecidableEq, Repr

/-- A context: its descriptor (20 R337) and virtual-die table (21 R358). -/
structure Context where
  cid : Nat
  valid : Bool
  debug : Bool
  gang : Bool
  bdt : Nat
  ptroot : Nat
  faultq : Word
  errq : Word
  debugq : Word
  savearea : Nat
  nslots : Nat
  logsz : Nat
  logarea : Word
  vdtab : Nat
  queues : Word
  vdies : List Nat
  launchCount : Nat
  /-- Save slots in use. -/
  slots : List Nat
  /-- The clusters its tasks have run in since its virtual-die table was last written: 32 x die + cluster. -/
  used : List Nat
deriving DecidableEq, Repr

/-- A tenant record (22 R366). -/
structure Tenant where
  trk : BitVec 256
  id : Word
  /-- Touchmark digests of 64 bytes. -/
  peers : List (BitVec 512)
  admitted : List (BitVec 512)
deriving DecidableEq, Repr

/-- The states of a TDI (22 R377). -/
inductive Tdi where
  | unlocked | locked | run | error
deriving DecidableEq, Repr

/-- An aperture-table entry (24 R398). -/
structure ApEntry where
  base : Word
  cid : Nat
  r : Bool
  w : Bool
deriving DecidableEq, Repr

/-- A peer handshake in progress (22 R379): the peer, the role and the last message seen. -/
structure Join where
  peer : Nat
  initiator : Bool
  phase : Nat
  /-- Package time of the last message. -/
  since : Nat
  /-- Which of the handshakes it is that this package has begun or answered: what its random bytes come from. -/
  number : Nat
  /-- The bytes of JOIN_HELLO and JOIN_REPLY, and the ML-KEM secret, on the side that has it. -/
  hello : List Byte
  reply : List Byte
  secret : List Byte
deriving DecidableEq, Repr

/-- A partition with its TDI, parameters and tenant (20 R336, 21 R357, 22 R366, R377). -/
structure Part where
  slices : List Nat
  teamWait : Nat
  hang : Nat
  drainMax : Nat
  ckptInt : Nat
  proofsz : Nat
  /-- The quanta of package time whose ticks have come (20 R336). -/
  tick : Nat
  /-- A scheduling block waiting for the next quantum tick. -/
  pendingSched : Option (Nat × Nat × Nat × Nat × Nat)
  pool : List Word
  /-- The queue last served at each priority (20 R340). -/
  turns : List (Nat × Nat)
  tenant : Option Tenant
  genno : BitVec 32
  /-- The epoch of its path keys, and the next burst sequence number of each path under them: 32 x source + destination (22 R367,
  R375). -/
  pathEpoch : Nat
  bursts : List (Nat × Nat)
  sealCtr : Nat
  saveCtr : Nat
  tdi : Tdi
  /-- Measurement block 6 as it was frozen at LOCK_INTERFACE_REQUEST (22 R377, R378). -/
  block6 : Option (List Nat)
  /-- Whether its IDE stream has keys, and whether it is enabled (22 R377). -/
  ideKeys : Bool
  ideUp : Bool
  apertures : List (Nat × ApEntry)
  aperr : Nat
  /-- Notification FIFO, oldest first: queue kind and CID (24 R397). -/
  fifo : List (Nat × Nat)
  ovf : Bool
  /-- Physical addresses of the control blocks of its page-fault queue and its service queue (19 R332, 18 R314). -/
  pageCtl : Nat
  svcCtl : Nat
  join : Option Join
  queues : List (Nat × Queue)
deriving DecidableEq, Repr

/-- A loan of a compute die (21 R359). -/
structure Loan where
  lender : Nat
  borrower : Nat
  anchor : Nat
  deadline : Nat
  automatic : Bool
  recalledAt : Option Nat
  /-- The member states of the borrower's tasks on the die's cores as they stood at the recall (21 R363). -/
  members : List (Nat × Word)
deriving DecidableEq, Repr

/-- How a copy of package time follows its parent (24 R405): the correction still to be slewed and the part of a unit already
slewed, both in units of 1/16,000,000 of the count, its rate per unit of time, the exchanges towards locking or unlocking, the interval in
which the latest exchange was begun, and whether its reply is still to come. -/
structure Clock where
  slew : Int
  frac : Nat
  rate : Nat
  locked : Bool
  good : Nat
  bad : Nat
  tick : Nat
  asked : Bool
  /-- The path's delay that its last exchange found (24 R405). -/
  delay : Int
deriving DecidableEq, Repr

/-- A compute die (25 R407-R410, 20 R342, 24 R405). -/
structure Die where
  present : Bool
  inReset : Bool
  orphan : Bool
  pool : Nat
  stampSet : Nat
  cap : Nat
  temp : Nat
  errcnt : Nat
  evt : Nat
  /-- REMAP0-REMAP3: PHYS and OK of the 32 entries, and their lock (21 R356). -/
  remap : List Nat
  remapOk : BitVec 32
  remapLock : Bool
  /-- The clusters that its fuses record as harvested at test (21 R356). -/
  harvested : List Nat
  /-- The key slots its clusters hold where they are not its partition's (21 R360). -/
  keys : Option Nat
  /-- Its own time since which it has not been connected (21 R364). -/
  cutAt : Option Nat
  loan : Option Loan
  /-- Its copy of package time. -/
  time : Nat
  clock : Clock
  /-- Package time of its last thermal step. -/
  capAt : Nat
deriving DecidableEq, Repr

/-- A memory die (25 R409, R410; 07 R129; 19 R331). -/
structure Stack where
  present : Bool
  inReset : Bool
  orphan : Bool
  temp : Nat
  errcnt : Nat
  evt : Nat
  /-- Scan credit in engine cycles, at most 409,600, and the package time to which it has been refilled (07 R129). -/
  credit : Int
  creditAt : Nat
  halved : Bool
  /-- Same-bank refreshes taken, by engine and bank. -/
  refreshed : List (Nat × Nat)
  cutAt : Option Nat
  time : Nat
  clock : Clock
  /-- Free pools: partition, frame size, frames (addresses within the package), ring size seen. -/
  pools : List (Nat × Nat × List Nat × Nat)
deriving DecidableEq, Repr

/-- A die link: 0-7 hub to CDn, 8-23 home-stack rim of MDm, 24-31 ring CDn to CDn+1, 32-47 hub to MDm (24 R399, R400). -/
structure Link where
  up : Bool
  /-- Failures in succession of one flit or burst, and which it is. -/
  fails : Nat
  failing : List Nat
  replays : Nat
  /-- Package time at which it went down. -/
  downAt : Nat
deriving DecidableEq, Repr

/-- A UALinkSec key of one direction of a port for one trust domain (22 R376, R379): the partition, the peer package, the key, and
the next sequence number under it. -/
structure LinkKey where
  part : Nat
  peer : Nat
  key : List Byte
  seq : Nat
deriving DecidableEq, Repr

/-- A UALink port (24 R403). -/
structure Port where
  up : Bool
  lanes : Nat
  errs : Nat
  out : List LinkKey
  into : List LinkKey
deriving DecidableEq, Repr

/-- A range invalidation in flight (19 R334): the hart that waits, and the operations the acknowledgement waits for. -/
structure Inval where
  ticket : Nat
  cid : Nat
  va : Nat
  len : Nat
  hart : Fin 16
  copies : List Nat
  queries : List Nat
deriving DecidableEq, Repr

/-- A gang switch in progress (20 R353). -/
structure Gang where
  cid : Nat
  incoming : Nat
  tick : Nat
  votes : List Nat
  resets : List Nat
  /-- The member states of the context's tasks on cores as they stood at the switch tick (20 R354). -/
  members : List (Nat × Word)
deriving DecidableEq, Repr

/-- What a privileged hart waits for inside a class 15 instruction, or the status it is to write (23 R383, R386). -/
inductive HartWait where
  | tlbir (ticket : Nat)
  | saved (task : Nat)
  | ckpt (task : Nat)
  | recall (die : Nat)
  | status (code : Nat)
deriving DecidableEq, Repr

/-- A privileged hart (18 R304, R305): the registers of the Privileged ISA that its traps use. -/
structure Hart where
  x : Vector Word 32
  pc : Word
  /-- 3 M, 1 S, 0 U. -/
  mode : BitVec 2
  mstatus : Word
  mie : Word
  mip : Word
  medeleg : Word
  mideleg : Word
  mtvec : Word
  mscratch : Word
  mepc : Word
  mcause : Word
  mtval : Word
  stvec : Word
  sscratch : Word
  sepc : Word
  scause : Word
  stval : Word
  satp : Word
  /-- Counters of the Privileged ISA and what enables and inhibits them. -/
  mcycle : Word
  minstret : Word
  mcounteren : Word
  scounteren : Word
  mcountinhibit : Word
  menvcfg : Word
  senvcfg : Word
  /-- PARTID[3:0]. -/
  partid : BitVec 4
  /-- The reservation of a load-reserve: physical address and size. -/
  resv : Option (Nat × Nat)
  wait : Option HartWait
  /-- Its firmware watchdog was serviced in M since it last ran out (18 R323). -/
  wdog : Bool
deriving DecidableEq, Repr

/-- SPDM with one requester: 0-7 the TDIs, 8 the management interface (22 R378). -/
structure Spdm where
  phase : Nat
  session : Bool
deriving DecidableEq, Repr

/-- The hub: management, time, package configuration (21 R365, 24 R404-R406, 25 R410). -/
structure Hub where
  owner : BitVec 2
  target : BitVec 2
  pref : BitVec 2
  epoch : BitVec 32
  bootStep : Nat
  bootFail : Nat
  bootPresent : BitVec 8
  pkgid : BitVec 20
  domain : Bool
  pkgLock : Bool
  tmaster : Bool
  /-- The package-time master, in units of 1/16 ns. -/
  time : Nat
  rate : Int
  timeLocked : Bool
  timeBound : Nat
  /-- Packages of the load-store domain; the port the routing table gives for each; and the port that leads to the domain's time master. -/
  peers : List Nat
  routes : List (Nat × Nat)
  timePort : Nat
  ports : Vector Port 24
  errcnt : Nat
  evt : Nat
  /-- The epoch of the path keys for traffic that carries no CID, which rises at each reset, and the next burst sequence number of each
  path under them (22 R375). -/
  pathEpoch : Nat
  bursts : List (Nat × Nat)
  /-- How the master follows the domain's, what it is ahead of it and counts at half rate to lose (24 R406), and the part of a unit
  already counted (23 R394), both in units of 2^-32 of the count. -/
  clock : Clock
  ahead : Nat
  frac : Nat
  /-- Package times at which TARGET was set and the last MCTP message came (21 R365). -/
  targetAt : Nat
  bmcAt : Nat
  spdm : Vector Spdm 9
  /-- The IDE stream of the management interface (22 R377). -/
  mgmtIde : Bool
  /-- The random value of this boot, from which the tree keys come (22 R367). -/
  bootNonce : Nat
deriving DecidableEq, Repr

/-- Why the machine stops: no meaning and no fetch of this machine stops it, so there is no reason to name. -/
inductive Fault
deriving DecidableEq, Repr

/-- Why an instruction has no meaning. -/
inductive Refusal where
  /-- An instruction whose arm of `exec` gives no meaning; raised by Dispatch; safe. -/
  | notModelled (mnemonic : String)
deriving DecidableEq, Repr

/-- The whole machine. -/
structure State where
  /-- The agent that fetches when the agenda is empty (model's own). -/
  focus : Agent
  /-- What moves before it, in order (model's own). -/
  agenda : List Turn
  /-- Bytes of local space that members have read ahead for their next instruction: task, member, address and byte (04 R69; model's own). -/
  glances : List (Nat × Who × Nat × Byte)
  /-- Those of the member whose instruction is being performed (04 R69; model's own). -/
  seen : List (Nat × Byte)
  /-- The arguments of the event being performed (model's own). -/
  args : List Nat
  /-- What the last event or class 15 request returned to the outside world. -/
  reply : List Word
  /-- The counter that free values are applied to (model's own). -/
  freeCount : Nat
  /-- The focused task; the others stand in `tasks`. -/
  cur : Task
  tasks : List Task
  nextId : Nat
  launches : List Launch
  contexts : List Context
  parts : Vector Part 8
  keySlots : Vector KeySlot 64
  postmarks : List (Nat × Postmark)
  syncs : List Sync
  copies : List Copy
  queries : List Query
  colls : List Coll
  invals : List Inval
  gang : Option Gang
  txns : List Txn
  cache : List CacheLine
  tlbs : List Tlb
  /-- Physical memory, by physical address; an unlisted byte reads 0. -/
  mem : List Host.Cell
  blocks : List (Nat × Block)
  nodes : List (Nat × Node)
  damage : List (Nat × Damage)
  /-- Cluster scratchpads, by 8 MiB × cluster + offset; an unlisted byte reads 0. -/
  clus : List Host.Cell
  /-- Scratchpad lines with an uncorrectable error not yet rebuilt: cluster and line offset (04 R72). -/
  clusBad : List (Nat × Nat)
  /-- PROOFSZ in force, by cluster, where it differs from the partition's. -/
  proofszHeld : List (Nat × Nat)
  dies : Vector Die 8
  mdies : Vector Stack 16
  links : Vector Link 48
  hub : Hub
  harts : Vector Hart 16
deriving DecidableEq, Repr

/-! ### Blank parts and reset -/

/-- An inactive loop counter. -/
def blankLoop : LoopCtr := ⟨0, 0, 0, 0, false⟩

/-- An unconfigured pigeonhole: every field of 04 R73 at its reset value 0. -/
def blankHole : Hole := ⟨false, 0, 0, 0, 0, 0, 0, 0, []⟩

/-- A member with no code. -/
def blankMember : Member := ⟨Vector.replicate 32 0, 0, [], false, none, none, none, none⟩

/-- A team with every register at the value 02 R26 gives at task start, frame 32 and no code. -/
def blankTeam : Team :=
  { seq := blankMember, ld := blankMember, st := blankMember, vfile := [], stale := [], spilled := [], wb := 0, fs := 32, lo := 0,
    links := [], acc := [], h := Vector.replicate 32 0, lc := Vector.replicate 4 blankLoop, loops := [],
    masks := [BitVec.allOnes 64], landings := [], bypass := [], flags := 0, flagsNow := 0, rm := 0, srseed := 1,
    ft := Vector.replicate 16 0, selCtr := none, selBase := 0, clock := 0, matBusy := 0, debt := 0,
    tq := Vector.replicate 8 [], ph := Vector.replicate 16 blankHole, scratch := [] }

/-- No fault. -/
def blankFault : FaultRec := ⟨0, .seq, 0, 0, 0⟩

/-- A task that has not been created: STATE = FREE. -/
def blankTask : Task :=
  { id := 0, part := 0, cid := 0, tcb := 0, launch := 0, linear := 0, tx := 0, ty := 0, tz := 0, vdie := 0, die := 0,
    state := .free, spec := false, depth := 0, prio := 0, effPrio := 0, policy := 0, stamps := 0, est := 0, vframe := 32,
    spill := 0, phcfg := 0, args := 0, code := 0, trips := [], deps := 0, nsucc := 0, succ := 0, specIn := 0,
    predOut := 0, tol := 0, hist := 0, donePm := 0, fault := blankFault, core := none, lastCluster := none,
    anchorOnly := false, readyAt := 0, hasRun := false, run := 0, fresh := false, runTime := 0, startedAt := 0, issuedAt := 0, hung := 0, stop := none,
    halted := false,
    stepping := none, parked := false, held := none, slot0 := 0, slot1 := 0, prod0 := none, prod1 := none, assay0 := .idle, assay1 := .idle, guess0 := [], guess1 := [], proof := [],
    proofFull := false, fullAt := 0, specNums := [], image := false, sealed := [], reason := 0, slot := none, svcTag := 0,
    ckpt := none, log := [], extSince := false, ckptDue := false, ckptAt := 0, collTags := [],
    swappedAt := 0, preemptAt := 0, draining := false, reserves := [], specAt := 0, team := blankTeam }

/-- A die link that is not up. -/
def downLink : Link := ⟨false, 0, [], 0, 0⟩

/-- A partition number that owns nothing; its scheduling block holds the defaults of 20 R336. -/
def blankPart : Part :=
  { slices := [], teamWait := 100, hang := 10000, drainMax := 20, ckptInt := 50, proofsz := 2, tick := 0, pendingSched := none,
    pool := [], turns := [], tenant := none, genno := 1, pathEpoch := 0, bursts := [], sealCtr := 0, saveCtr := 0, tdi := .unlocked, block6 := none,
    ideKeys := false, ideUp := false, apertures := [], aperr := 0, fifo := [], ovf := false, pageCtl := 0, svcCtl := 0, join := none,
    queues := [] }

/-- A copy of package time that is not locked. -/
def blankClock : Clock := ⟨0, 0, 0, false, 0, 0, 0, false, 0⟩

/-- A compute die before bring-up: absent, unlocked, its stamp pool at the value of 25 R407 step 9. -/
def blankDie : Die :=
  { present := false, inReset := false, orphan := false, pool := 1360, stampSet := 1360, cap := 1360, temp := 0,
    errcnt := 0, evt := 0, remap := List.range 32, remapOk := BitVec.allOnes 32, remapLock := false, harvested := [], keys := none, cutAt := none,
    loan := none, time := 0, clock := blankClock, capAt := 0 }

/-- A memory die before bring-up. -/
def blankStack : Stack :=
  { present := false, inReset := false, orphan := false, temp := 0, errcnt := 0, evt := 0, credit := 409600,
    creditAt := 0, halved := false, refreshed := [], cutAt := none, time := 0, clock := blankClock, pools := [] }

/-- A privileged hart at reset: mode M, UXL and SXL 2 in mstatus (log 13), zeros elsewhere, PARTID ALL = 1 and PART = 0 (18 R305). -/
def blankHart : Hart :=
  { x := Vector.replicate 32 0, pc := 0, mode := 3, mstatus := 0x0000000A00000000, mie := 0, mip := 0, medeleg := 0, mideleg := 0,
    mtvec := 0, mscratch := 0, mepc := 0, mcause := 0, mtval := 0, stvec := 0, sscratch := 0, sepc := 0, scause := 0,
    stval := 0, satp := 0, mcycle := 0, minstret := 0, mcounteren := 0, scounteren := 0, mcountinhibit := 0, menvcfg := 0,
    senvcfg := 0, partid := 8, resv := none, wait := none, wdog := false }

/-- The hub at reset (21 R365, 24 R404, R405, 25 R410). -/
def blankHub : Hub :=
  { owner := 0, target := 0, pref := 0, epoch := 0, bootStep := 0, bootFail := 0, bootPresent := 0, pkgid := 0,
    domain := false, pkgLock := false, tmaster := false, time := 0, rate := 0, timeLocked := false, timeBound := 64,
    peers := [], routes := [], timePort := 0, ports := Vector.replicate 24 ⟨false, 4, 0, [], []⟩, errcnt := 0, evt := 0, pathEpoch := 0, bursts := [], clock := blankClock, ahead := 0, frac := 0, targetAt := 0, bmcAt := 0,
    spdm := Vector.replicate 9 ⟨0, false⟩, mgmtIde := false, bootNonce := 0 }

/-- The machine right after reset, before bring-up: nothing present, no task, memory with nothing listed. -/
def State.reset : State :=
  { focus := .member .seq, agenda := [], glances := [], seen := [], args := [], reply := [], freeCount := 0, cur := blankTask, tasks := [],
    nextId := 1, launches := [], contexts := [], parts := Vector.replicate 8 blankPart,
    keySlots := Vector.replicate 64 ⟨0, none, none, false⟩, postmarks := [], syncs := [], copies := [], queries := [],
    colls := [], invals := [], gang := none, txns := [], cache := [], tlbs := [], mem := [], blocks := [], nodes := [],
    damage := [], clus := [], clusBad := [], proofszHeld := [], dies := Vector.replicate 8 blankDie,
    mdies := Vector.replicate 16 blankStack, links := Vector.replicate 48 downLink, hub := blankHub,
    harts := Vector.replicate 16 blankHart }

end Sys2Proof.Machine
end

