-- ==== Sys2Proof/Machine/Regs.lean ====
section
/-! DEFINITION. The named operations over registers, the issue clock, landings and local space, and how an instruction ends:
it completes, waits, drains, or takes its trap. -/

namespace Sys2Proof.Machine

/-! ### Members, tasks and scalar registers -/

/-- A scalar register of a file; `x0` reads 0 (04 R57). -/
def regGet (v : Vector Word 32) (r : Reg) : Word := if r = 0 then 0 else v.get ⟨r.toNat, r.isLt⟩

/-- A file with a scalar register written; a write of `x0` is dropped (04 R57). -/
def regSet (v : Vector Word 32) (r : Reg) (a : Word) : Vector Word 32 := if r = 0 then v else v.set r.toNat a r.isLt

/-- A member of a team. -/
def Team.member (t : Team) (w : Who) : Member :=
  match w with
  | .seq => t.seq
  | .ld => t.ld
  | .st => t.st

/-- A team with one member replaced. -/
def Team.setMember (t : Team) (w : Who) (m : Member) : Team :=
  match w with
  | .seq => { t with seq := m }
  | .ld => { t with ld := m }
  | .st => { t with st := m }

/-- The state with the focused task's team replaced. -/
def State.setTeam (s : State) (t : Team) : State := { s with cur := { s.cur with team := t } }

/-- The state with a member of the focused team replaced. -/
def State.setMember (s : State) (w : Who) (m : Member) : State := s.setTeam (s.cur.team.setMember w m)

/-- A member of the focused team. -/
def State.member (s : State) (w : Who) : Member := s.cur.team.member w

/-- A privileged hart. -/
def State.hart (s : State) (h : Fin 16) : Hart := s.harts.get h

/-- The state with a privileged hart replaced. -/
def State.setHart (s : State) (h : Fin 16) (v : Hart) : State := { s with harts := s.harts.set h.val v h.isLt }

/-- A scalar register of the agent in focus. -/
def State.x (s : State) (r : Reg) : Word :=
  match s.focus with
  | .member w => regGet (s.member w).x r
  | .hart h => regGet (s.hart h).x r

/-- The state with a scalar register of the agent in focus written. -/
def State.setX (s : State) (r : Reg) (a : Word) : State :=
  match s.focus with
  | .member w => s.setMember w { s.member w with x := regSet (s.member w).x r a }
  | .hart h => s.setHart h { s.hart h with x := regSet (s.hart h).x r a }

/-- The program counter of the agent in focus. -/
def State.pc (s : State) : Word :=
  match s.focus with
  | .member w => BitVec.ofNat 64 (s.member w).pc
  | .hart h => (s.hart h).pc

/-- A scalar register named by an operand field (08 R134). -/
def fieldReg (f : BitVec 11) : Reg := f.setWidth 5

/-- The program number of a member (18 R307). -/
def Who.num (w : Who) : Nat :=
  match w with
  | .seq => 0
  | .ld => 1
  | .st => 2

/-- The member of a program number. -/
def whoOf (n : Nat) : Who :=
  match n with
  | 0 => .seq
  | 1 => .ld
  | _ => .st

/-- The task with an identity, the focused one first. -/
def State.task? (s : State) (id : Nat) : Option Task :=
  if s.cur.id = id then some s.cur else s.tasks.find? fun t => t.id == id

/-- The state with a task replaced by its identity. -/
def State.setTask (s : State) (t : Task) : State :=
  if s.cur.id = t.id then { s with cur := t }
  else { s with tasks := s.tasks.map fun u => if u.id = t.id then t else u }

/-- Every task, the focused one first. -/
def State.allTasks (s : State) : List Task := s.cur :: s.tasks

/-- The state with another task in focus; unchanged when there is none of that identity. -/
def State.focusTask (s : State) (id : Nat) : State :=
  if s.cur.id = id then s
  else
    match s.tasks.find? fun t => t.id == id with
    | some t => { s with cur := t, tasks := s.cur :: s.tasks.filter fun u => u.id != id }
    | none => s

/-- What some operations do on the task of an identity, with the focus as it was; nothing when there is none. -/
def State.withTask (s : State) (id : Nat) (f : State → State) : State :=
  match s.task? id with
  | none => s
  | some _ => (f (s.focusTask id)).focusTask s.cur.id

/-- A task's identity made new. -/
def State.addTask (s : State) (t : Task) : State := { s with tasks := s.tasks ++ [{ t with id := s.nextId }], nextId := s.nextId + 1 }

/-! ### Traps -/

/-- The causes a team member raises (18 R306), and the supervisor's. -/
inductive Cause where
  | illegalInstr | privilege | illegalOperand | regOverlap | bypassConflict | align | localAddr
  | maskOverflow | maskUnderflow | winSpillOverflow | winUnderflow | breakpoint
  | bufBounds | bufRights | bufOwner | pageFault | memUnavailable | localUe | nbLayout
  | phState | syncBind | syncState | collMismatch | teamEnded | taskState | taskDesc | taskAbort | hang
  | supervisor (code : BitVec 16)
  /-- An exception of the Privileged ISA on a privileged hart, by its cause number (18 R304). -/
  | hart (code : BitVec 16)
deriving DecidableEq, Repr

/-- The code of a cause (18 R306). -/
def Cause.code (c : Cause) : BitVec 16 :=
  match c with
  | .illegalInstr => 0x0001
  | .privilege => 0x0002
  | .illegalOperand => 0x0003
  | .regOverlap => 0x0004
  | .bypassConflict => 0x0005
  | .align => 0x0006
  | .localAddr => 0x0007
  | .maskOverflow => 0x0008
  | .maskUnderflow => 0x0009
  | .winSpillOverflow => 0x000A
  | .winUnderflow => 0x000B
  | .breakpoint => 0x000C
  | .bufBounds => 0x0010
  | .bufRights => 0x0011
  | .bufOwner => 0x0012
  | .pageFault => 0x0013
  | .memUnavailable => 0x0014
  | .localUe => 0x0015
  | .nbLayout => 0x0016
  | .phState => 0x0020
  | .syncBind => 0x0021
  | .syncState => 0x0022
  | .collMismatch => 0x0023
  | .teamEnded => 0x0024
  | .taskState => 0x0030
  | .taskDesc => 0x0031
  | .taskAbort => 0x0032
  | .hang => 0x0033
  | .supervisor code => code
  | .hart code => code

/-- A trap an instruction raises, with DETAIL1 and DETAIL2 of its record (18 R312). -/
structure Trap where
  cause : Cause
  d1 : Word := 0
  d2 : Word := 0
deriving DecidableEq, Repr

/-- A cause with no details. -/
def trapOf (c : Cause) : Trap := { cause := c }

/-- ALIGN, LOCAL_ADDR or a buffer cause, with its address and length (18 R312). -/
def trapAt (c : Cause) (a : Word) (len : Nat) : Trap := { cause := c, d1 := a, d2 := BitVec.ofNat 64 len }

/-- How an instruction of the agent in focus ends. -/
inductive Eff where
  /-- It completes and falls through. -/
  | done (s : State)
  /-- It completes and falls through, with the DETAIL words its STEP record carries (18 R321). -/
  | doneWith (s : State) (d1 d2 : Word)
  /-- It completes and its next PC is `pc`. -/
  | jump (s : State) (pc : Word)
  /-- It does not complete: it is blocked, and is tried again from its start. -/
  | stay (w : Wait) (s : State)
  /-- A drain cycle passes before it issues (04 R59). -/
  | drain (s : State)
  /-- It traps with no effect (04 R64). -/
  | trap (t : Trap) (s : State)
  /-- It stops the team for another reason, after completing. -/
  | ends (s : State)
deriving DecidableEq, Repr

/-- A checked effect: a trap, or what follows. -/
def Eff.ofExcept (s : State) (e : Except Trap State) : Eff :=
  match e with
  | .ok s' => .done s'
  | .error t => .trap t s

/-- Continue with the value of a check, or trap. -/
def Eff.check {α : Type} (s : State) (e : Except Trap α) (k : α → Eff) : Eff :=
  match e with
  | .ok a => k a
  | .error t => .trap t s

/-- A check that passes or traps. -/
def need (b : Bool) (t : Trap) : Except Trap Unit := if b then .ok () else .error t

/-! ### Vector file, window and bypass -/

/-- The physical register of an absolute one (04 R65). -/
def physReg (a : Nat) : Nat := a % 4096

/-- A physical register of the file: a free value where a restore has lost it (04 R77). -/
def Team.fileGet (t : Team) (p : Nat) : V256 :=
  match t.stale.find? fun e => e.1 == p with
  | some e => Config.freeRegister e.2
  | none => Sparse.get 0 t.vfile p

/-- The file with a physical register written. -/
def Team.fileSet (t : Team) (p : Nat) (v : V256) : Team :=
  { t with vfile := Sparse.set 0 t.vfile p v, stale := t.stale.filter fun e => e.1 != p }

/-- Whether a physical register belongs to the resident frames, from the lowest resident register to WB + FS (04 R66, R77). -/
def Team.resident (t : Team) (p : Nat) : Bool := (p + 4096 - t.lo % 4096) % 4096 < t.wb + t.fs - t.lo

/-- A team restored: of the file its resident frames alone have survived, and every other register reads a free value of its own, numbered
from `n` (04 R77). -/
def Team.restored (t : Team) (n : Nat) : Team :=
  { t with vfile := t.vfile.filter fun e => t.resident e.1,
           stale := t.stale.filter (fun e => t.resident e.1) ++ ((List.range 4096).filter fun p => !t.resident p).map fun p => (p, 4096 * n + p) }

/-- The register file's value of an absolute register: the spilled copy below the resident span (04 R66). -/
def Team.vfileGet (t : Team) (a : Nat) : V256 :=
  if a < t.lo then Sparse.get 0 t.spilled a else t.fileGet (physReg a)

/-- The register file with an absolute register written. -/
def Team.vfileSet (t : Team) (a : Nat) (v : V256) : Team :=
  if a < t.lo then { t with spilled := Sparse.set 0 t.spilled a v } else t.fileSet (physReg a) v

/-- The live bypass value of a physical register, the latest landed first (04 R63). -/
def bypassGet (bs : List Bypass) (a : Nat) : Option V256 :=
  match bs with
  | [] => none
  | b :: rest =>
    match b.vals.find? fun kv => physReg kv.1 == physReg a with
    | some kv => some kv.2
    | none => bypassGet rest a

/-- The value an instruction reads from a window-relative register: bypass first (04 R63, R65). -/
def Team.v (t : Team) (i : Nat) : V256 :=
  match bypassGet t.bypass (t.wb + i) with
  | some v => v
  | none => t.vfileGet (t.wb + i)

/-- A value merged into an old one under a bit mask. -/
def mergeBits {w : Nat} (old val mask : BitVec w) : BitVec w := (old &&& ~~~mask) ||| (val &&& mask)

/-- One write of a landing into the register files. -/
def Team.landWrite (t : Team) (w : LWrite) : Team :=
  match w with
  | .v a val mask => t.vfileSet a (mergeBits (t.vfileGet a) val mask)
  | .acc i val => { t with acc := Sparse.set 0 t.acc i val }
  | .h i val mask => { t with h := t.h.set i.val (mergeBits (t.h.get i) val mask) i.isLt }

/-- Whether a landing writes a spilled register (04 R66). -/
def LWrite.spilled (lo : Nat) (w : LWrite) : Bool :=
  match w with
  | .v a _ _ => a < lo
  | _ => false

/-- The bypass entry of a transient result, merged with the register file of its landing cycle (04 R63). -/
def Team.bypassOf (t : Team) (e : Landing) : Bypass :=
  { vals := e.writes.filterMap (fun w => match w with
      | .v a val mask => some (a, mergeBits (t.vfileGet a) val mask)
      | _ => none), left := 3 }

/-- One entry lands: its destination, or the bypass, and its flags (04 R61, R63, 03 R51). A transient result whose register has been
spilled lands in the spilled copy; either kind then costs one drain cycle (04 R66). -/
def Team.landOne (t : Team) (e : Landing) : Team :=
  let low := e.writes.filter fun w => w.spilled t.lo
  let debt := if low.isEmpty then t.debt else t.debt + 1
  let t1 :=
    if !e.transient then e.writes.foldl Team.landWrite t
    else
      let u := low.foldl Team.landWrite t
      if low.length = e.writes.length then u
      else { u with bypass := u.bypassOf { e with writes := e.writes.filter fun w => !w.spilled t.lo } :: u.bypass }
  { t1 with flags := t.flags ||| e.flags, flagsNow := t.flagsNow ||| e.flags, debt := debt }

/-- The entries whose delay has run out, in issue order; transient ones last, as they merge with the register file of the landing
cycle (04 R61, R63). -/
def Team.due (t : Team) : List Landing :=
  let due := t.landings.filter fun e => e.delay == 0
  (due.filter fun e => !e.transient) ++ due.filter fun e => e.transient

/-- The due entries land in issue order, so that the later issued one wins (04 R61). -/
def Team.landDue (t : Team) : Team :=
  t.due.foldl Team.landOne { t with landings := t.landings.filter fun e => e.delay != 0 }

/-- A pending result one issue cycle later. -/
def Landing.age (e : Landing) : Landing := { e with delay := e.delay - 1 }

/-- A bypass entry one issue cycle later. -/
def Bypass.age (b : Bypass) : Bypass := { b with left := b.left - 1 }

/-- A team whose delays and occupancy have fallen by one. -/
def Team.age (t : Team) : Team :=
  { t with
    clock := t.clock + 1, matBusy := t.matBusy - 1, flagsNow := 0, landings := t.landings.map Landing.age,
    bypass := (t.bypass.map Bypass.age).filter fun b => b.left != 0 }

/-- One issue cycle passes: delays and occupancy fall by one, then due results land (04 R59, R61). -/
def Team.tick (t : Team) : Team := t.age.landDue

/-- The live bypass entries at `t` cycles from now, with the pending transient results (04 R63). -/
def Team.bypassLive (t : Team) (at_ : Nat) : Nat :=
  (t.bypass.filter fun b => at_ < b.left).length
    + (t.landings.filter fun e => e.transient && e.delay ≤ at_ && at_ ≤ e.delay + 2).length

/-- Whether a transient result of latency `l` would make four entries live in some cycle (04 R63). -/
def Team.bypassConflict (t : Team) (l : Nat) : Bool :=
  [l, l + 1, l + 2].any fun c => t.bypassLive c ≥ 3

/-! ### Loops and retirement -/

/-- A loop counter. -/
def Team.loopOf (t : Team) (n : Fin 4) : LoopCtr := t.lc.get n

/-- A team with a loop counter replaced. -/
def Team.setLoop (t : Team) (n : Fin 4) (c : LoopCtr) : Team := { t with lc := t.lc.set n.val c n.isLt }

/-- The back-edge test of 11 R216 on a next PC, from the innermost loop outward; at most the four counters can pop. -/
def Team.backEdge (t : Team) (fuel : Nat) (pc : Nat) : Team × Nat :=
  match fuel, t.loops with
  | fuel + 1, n :: rest =>
    let c := t.loopOf n
    if pc = c.stop then
      if c.count.toNat + 1 < c.bound.toNat then
        (t.setLoop n { c with count := c.count + 1 }, c.start)
      else
        let u := t.setLoop n { c with active := false }
        Team.backEdge { u with loops := rest } fuel pc
    else (t, pc)
  | _, _ => (t, pc)

/-! ### Postmarks (05 R84) -/

/-- The key of a postmark counter. -/
def pmKey (cid vdie cls : Nat) : Nat := (cid * 8 + vdie) * 8 + cls

/-- A counter nothing has drawn from. -/
def freshPm : Postmark := ⟨0, []⟩

/-- A postmark counter of a context and virtual die. -/
def State.pm (s : State) (cid vdie cls : Nat) : Postmark := Sparse.get freshPm s.postmarks (pmKey cid vdie cls)

/-- The state with a postmark counter replaced. -/
def State.setPm (s : State) (cid vdie cls : Nat) (p : Postmark) : State :=
  { s with postmarks := Sparse.set freshPm s.postmarks (pmKey cid vdie cls) p }

/-- The completed value: the largest n with every number n or below complete (05 R84). -/
def Postmark.completed (p : Postmark) : Nat :=
  match p.pending.min? with
  | some n => n - 1
  | none => p.drawn

/-- The next number of a counter, now pending. -/
def State.drawPm (s : State) (cid vdie cls : Nat) : State × Nat :=
  let p := s.pm cid vdie cls
  (s.setPm cid vdie cls { drawn := p.drawn + 1, pending := p.pending ++ [p.drawn + 1] }, p.drawn + 1)

/-- A number completes. -/
def State.completePm (s : State) (cid vdie cls n : Nat) : State :=
  let p := s.pm cid vdie cls
  s.setPm cid vdie cls { p with pending := p.pending.filter fun k => k != n }

/-- The pm.mx numbers of pending results that land in the coming cycle (05 R84). -/
def Team.dueMx (t : Team) : List Nat := (t.landings.filter fun e => e.delay ≤ 1).filterMap fun e => e.mx

/-- The focused team one issue cycle later; numbers of matrix operations that land complete, unless the task is speculative
(04 R61, 05 R84). -/
def State.tickTeam (s : State) (t : Team) : State :=
  let s1 := s.setTeam t.tick
  if s.cur.spec then s1 else t.dueMx.foldl (fun u n => u.completePm s.cur.cid s.cur.vdie 2 n) s1

/-- A member of the focused team ends its instruction with next PC `pc`: the sequencer's loops turn and its clock runs. -/
def State.retireMember (s : State) (w : Who) (pc : Nat) : State :=
  match w with
  | .seq =>
    let (t, pc) := s.cur.team.backEdge 4 pc
    s.tickTeam { t with seq := { t.seq with pc := pc, wait := none } }
  | _ => s.setMember w { s.member w with pc := pc, wait := none }

/-- A hart after an instruction has retired: `minstret` counts it unless inhibited, and M mode has serviced the watchdog
(18 R304, R323). -/
def Hart.retired (v : Hart) : Hart :=
  { v with
    minstret := if v.mcountinhibit.getLsbD 2 then v.minstret else v.minstret + 1
    wdog := v.wdog || v.mode == 3 }

/-- The agent in focus ends its instruction with next PC `pc`. -/
def State.retire (s : State) (pc : Word) : State :=
  match s.focus with
  | .member w =>
    let u := s.retireMember w pc.toNat
    { u with cur := { u.cur with issuedAt := u.hub.time, hung := 0 } }
  | .hart h => s.setHart h { (s.hart h).retired with pc := pc, wait := none }

/-- One drain cycle of the sequencer (04 R59). -/
def State.drainCycle (s : State) : State := s.tickTeam s.cur.team

/-! ### Local space (04 R68) -/

/-- The base of the cluster scratchpad. -/
def clusBase : Nat := 0x01000000
/-- The base of the pigeonhole control words. -/
def holeBase : Nat := 0x02000000

/-- A partition. -/
def State.part (s : State) (p : Nat) : Part := s.parts.toList.getD p blankPart

/-- The state with a partition replaced. -/
def State.setPart (s : State) (p : Nat) (v : Part) : State :=
  if h : p < 8 then { s with parts := s.parts.set p v h } else s

/-- A partition whose path keys are loaded anew: the epoch rises, and burst sequence numbers start at 0 (22 R367, R375). -/
def Part.newKeys (p : Part) : Part := { p with pathEpoch := p.pathEpoch + 1, bursts := [] }

/-- The cluster whose scratchpad a task uses: the one of its core, or the one it last ran in. -/
def Task.cluster (t : Task) : Nat :=
  match t.core with
  | some c => c / 16
  | none => t.lastCluster.getD 0

/-- Whether a cluster may change its proof-store size: no task of the partition on it, and its store without an entry (20 R336). -/
def State.clusterFree (s : State) (part c : Nat) : Bool :=
  !(s.allTasks.any fun t => t.part == part && t.cluster == c && (t.core.isSome || !t.proof.isEmpty))

/-- The proof-store size in force in a cluster for a task's partition, in MiB (20 R336). -/
def State.proofszOf (s : State) (t : Task) : Nat :=
  match s.proofszHeld.find? fun kv => kv.1 == t.cluster && !s.clusterFree t.part kv.1 with
  | some kv => kv.2
  | none => (s.part t.part).proofsz

/-- A cluster about to be occupied takes the size it may change to (20 R336). -/
def State.adoptSize (s : State) (part c : Nat) : State :=
  if s.clusterFree part c then { s with proofszHeld := s.proofszHeld.filter fun kv => kv.1 != c } else s

/-- The accessible bytes of the core scratchpad: below the spill area (04 R68). -/
def Task.coreLimit (t : Task) : Nat := 0x80000 - 1024 * t.spill

/-- The accessible bytes of the cluster scratchpad: below the proof store (04 R68). -/
def State.clusLimit (s : State) (t : Task) : Nat := clusBase + 0x800000 - 0x100000 * s.proofszOf t

/-- Whether [a, a + n) lies inside the core scratchpad outside the spill area. -/
def State.inCore (s : State) (a n : Nat) : Bool := a + n ≤ s.cur.coreLimit

/-- Whether [a, a + n) lies inside the cluster scratchpad outside the proof store. -/
def State.inClus (s : State) (a n : Nat) : Bool := clusBase ≤ a && a + n ≤ s.clusLimit s.cur

/-- Whether [a, a + n) lies inside one scratchpad outside its reserved region (04 R68). -/
def State.inScratch (s : State) (a n : Nat) : Bool := s.inCore a n || s.inClus a n

/-- Whether a line of a cluster scratchpad cannot be read: it has an uncorrectable error, and so has another line of its group and
row, which are the four lines of one 256-byte block (04 R71, R72). -/
def State.clusLost (s : State) (c l : Nat) : Bool :=
  s.clusBad.contains (c, l) && s.clusBad.any fun b => b.1 == c && b.2 != l && b.2 / 4 == l / 4

/-- Whether the line of an address of the focused task's cluster scratchpad cannot be read (04 R72). -/
def State.clusBadAt (s : State) (a : Nat) : Bool := clusBase ≤ a && s.clusLost s.cur.cluster ((a - clusBase) / 64)

/-- The lines of a local range that a read finds in error and can rebuild, rewritten (04 R72). -/
def State.rebuild (s : State) (a n : Nat) : State :=
  if s.clusBad.isEmpty || a < clusBase || n = 0 then s
  else
    { s with clusBad := s.clusBad.filter fun b =>
        b.1 != s.cur.cluster || b.2 < (a - clusBase) / 64 || (a - clusBase + n - 1) / 64 < b.2 || s.clusLost b.1 b.2 }

/-- The first 64-byte line of a range that cannot be read (04 R72). -/
def State.badLineIn (s : State) (a n : Nat) : Option Nat :=
  ((List.range ((a + n + 63) / 64 - a / 64)).map fun i => max a (a / 64 * 64 + 64 * i)).find? s.clusBadAt

/-- A byte of the focused task's scratchpads as it stands. -/
def State.storedByte (s : State) (a : Nat) : Byte :=
  if a < clusBase then Sparse.get 0 s.cur.team.scratch a
  else Sparse.get 0 s.clus (s.cur.cluster * 0x800000 + (a - clusBase))

/-- A byte of the focused task's scratchpads, or what the member whose instruction is being performed read there ahead (04 R69). -/
def State.localByte (s : State) (a : Nat) : Byte :=
  match s.seen.find? fun e => e.1 == a with
  | some e => e.2
  | none => s.storedByte a

/-- An undo log after a write of some bytes of an item: a later write to a logged item extends its mask (20 R350). -/
def logged (log : List LogEntry) (e : LogEntry) : List LogEntry :=
  match log with
  | [] => [e]
  | f :: rest =>
    match e, f with
    | .clus l _ m, .clus k old n => if k = l then .clus k old (n ||| m) :: rest else f :: logged rest e
    | .proof l _, .proof k _ => if k = l then f :: rest else f :: logged rest e
    | .buf l _ _ m h, .buf k b old n g => if k = l ∧ g = h then .buf k b old (n ||| m) g :: rest else f :: logged rest e
    | _, _ => f :: logged rest e

/-- The focused task's log after a write to an item. -/
def State.logItem (s : State) (e : LogEntry) : State := { s with cur := { s.cur with log := logged s.cur.log e } }

/-- The contents of a line of the cluster scratchpads. -/
def State.clusLine (s : State) (l : Nat) : BitVec 512 := BitVec.ofNat 512 (leNat (bytesAt s.clus (64 * l) 64))

/-- The state with a byte of the focused task's scratchpads written; a cluster line is logged first (20 R350). An uncorrectable error of the
line stays (DESIGN CHOICE, log 93). -/
def State.setLocalByte (s : State) (a : Nat) (b : Byte) : State :=
  if a < clusBase then s.setTeam { s.cur.team with scratch := Sparse.set 0 s.cur.team.scratch a b }
  else
    let k := s.cur.cluster * 0x800000 + (a - clusBase)
    { s.logItem (.clus (k / 64) (s.clusLine (k / 64)) (1 <<< (k % 64))) with clus := Sparse.set 0 s.clus k b }

/-- Successive bytes of local space. -/
def State.localBytes (s : State) (a n : Nat) : List Byte := (List.range n).map fun i => s.localByte (a + i)

/-- The state with successive bytes of local space written. -/
def State.setLocalBytes (s : State) (a : Nat) (bs : List Byte) : State :=
  match bs with
  | [] => s
  | b :: rest => (s.setLocalByte a b).setLocalBytes (a + 1) rest

/-- A local address: the unsigned register plus a signed offset, formed exactly (09 R157); none outside 32 bits. -/
def localAddr (base : Word) (off : Int) : Option Nat :=
  let a : Int := base.toNat + off
  if 0 ≤ a ∧ a < 4294967296 then some a.toNat else none

/-- FREE of a pigeonhole (04 R73). -/
def Hole.free (p : Hole) : Nat := p.count - (p.resv.length + p.filled + p.taken)

/-- The state word of a pigeonhole (04 R73). -/
def Hole.stateWord (p : Hole) : Word :=
  if p.en then
    (1#64 <<< 52) ||| BitVec.ofNat 64 (p.tail * 2 ^ 44 + p.head * 2 ^ 36 + p.taken * 2 ^ 27 + p.filled * 2 ^ 18
      + p.resv.length * 2 ^ 9 + p.free)
  else 0

/-- The geometry word of a pigeonhole (04 R73). -/
def Hole.geomWord (p : Hole) : Word := BitVec.ofNat 64 (p.count * 2 ^ 48 + p.slotsz * 2 ^ 32 + p.base)

/-- The eight bytes of a pigeonhole control word at an address of its window. -/
def Team.holeWord (t : Team) (a : Nat) : Word :=
  let n := (a - holeBase) / 16
  let p := if h : n < 16 then t.ph.get ⟨n, h⟩ else blankHole
  if (a / 8) % 2 = 0 then p.stateWord else p.geomWord

end Sys2Proof.Machine
end

