-- ==== Sys2Proof/Machine/Memory.lean ====
section
/-! DEFINITION. Buffer memory: descriptors and R79, translation and first touch, the homes with their counters and keys,
record rings, cluster caches, proof stores and postmarks (05, 18 R310-R318, 19, 22 R368-R374). -/

namespace Sys2Proof.Machine

/-- Whether two ranges meet. -/
def meets (a n b k : Nat) : Bool := a < b + k && b < a + n

/-! ### Contexts, dies and homes -/

/-- The context of a CID. -/
def State.ctx? (s : State) (cid : Nat) : Option Context := s.contexts.find? fun c => c.cid == cid

/-- The state with a context replaced. -/
def State.setCtx (s : State) (c : Context) : State :=
  { s with contexts := s.contexts.map fun d => if d.cid = c.cid then c else d }

/-- The partition of a CID: its bits [11:9] (18 R305). -/
def partOf (cid : Nat) : Nat := cid / 512 % 8

/-- A compute die. -/
def State.die (s : State) (n : Nat) : Die := s.dies.toList.getD n blankDie

/-- The state with a compute die replaced. -/
def State.setDie (s : State) (n : Nat) (d : Die) : State := if h : n < 8 then { s with dies := s.dies.set n d h } else s

/-- A memory die. -/
def State.mdie (s : State) (n : Nat) : Stack := s.mdies.toList.getD n blankStack

/-- The state with a memory die replaced. -/
def State.setMdie (s : State) (n : Nat) (d : Stack) : State := if h : n < 16 then { s with mdies := s.mdies.set n d h } else s

/-- The stack that holds a physical address (19 R328). -/
def stackOf (pa : Nat) : Nat := pa / 2 ^ 36 % 16

/-- The package that holds a physical address (19 R328). -/
def pkgOf (pa : Nat) : Nat := pa / 2 ^ 40 % 2 ^ 20

/-- What an address's home is. -/
inductive Home where
  | here | peer | unavailable | outside
deriving DecidableEq, Repr

/-- The home of a physical address: a data frame of a memory die that is not in reset, a peer of the domain,
or none (19 R329, R335, 22 R369, 24 R404); an address has 60 bits (19 R328). -/
def State.homeOf (s : State) (pa : Nat) : Home :=
  if 2 ^ 60 ≤ pa then .outside
  else if pkgOf pa = s.hub.pkgid.toNat then
    let m := s.mdie (stackOf pa)
    if !m.present || m.inReset || m.orphan || 14680064 ≤ pa / 4096 % 2 ^ 24 then .unavailable else .here
  else if s.hub.domain && s.hub.peers.contains (pkgOf pa) then .peer
  else .outside

/-! ### The links between dies, and the ports to other packages (22 R375, R376, 24 R399-R403) -/

/-- A die link. -/
def State.link (s : State) (n : Nat) : Link := s.links.toList.getD n downLink

/-- The state with a die link replaced. -/
def State.setLink (s : State) (n : Nat) (l : Link) : State := if h : n < 48 then { s with links := s.links.set n l h } else s

/-- Whether a die link is up: 0-7 hub to CDn, 8-23 home-stack rim of MDm, 24-31 ring CDn to CDn+1, 32-47 hub to MDm. -/
def State.linkUp (s : State) (n : Nat) : Bool := (s.link n).up

/-- A UALink port. -/
def State.port (s : State) (n : Nat) : Port := s.hub.ports.toList.getD n ⟨false, 0, 0, [], []⟩

/-- The state with a UALink port replaced. -/
def State.setPort (s : State) (n : Nat) (p : Port) : State :=
  if h : n < 24 then { s with hub := { s.hub with ports := s.hub.ports.set n p h } } else s

/-- The port that the routing table gives for a package; a number of no port where it gives none (24 R403). -/
def State.portTo (s : State) (pkg : Nat) : Nat :=
  match s.hub.routes.find? fun r => r.1 == pkg with
  | some r => r.2
  | none => 24

/-- Keys after the next transaction under one of them. -/
def usedKey (ks : List LinkKey) (part peer : Nat) : List LinkKey :=
  ks.map fun x => if x.part = part ∧ x.peer = peer then { x with seq := x.seq + 1 } else x

/-- The burst sequence number that comes next on a path: of a partition's traffic, or, for 8 and above, of traffic that carries no
CID (22 R375). -/
def State.nextBurst (s : State) (part src dst : Nat) : Nat :=
  Sparse.get 0 (if part < 8 then (s.part part).bursts else s.hub.bursts) (32 * src + dst)

/-- A burst accepted on a path. -/
def State.burstTaken (s : State) (part src dst : Nat) : State :=
  let put (bs : List (Nat × Nat)) : List (Nat × Nat) := Sparse.set 0 bs (32 * src + dst) (s.nextBurst part src dst + 1)
  if part < 8 then s.setPart part { s.part part with bursts := put (s.part part).bursts }
  else { s with hub := { s.hub with bursts := put s.hub.bursts } }

/-- The partition whose path keys carry a transaction; 8 for one that carries no CID (22 R375). -/
def Txn.part (t : Txn) : Nat :=
  match t.kind with
  | .mgmt => 8
  | .time _ => 8
  | _ => partOf t.cid

/-- A transaction that arrives as a burst of its own where no burst has carried it yet. -/
def State.carried (s : State) (t : Txn) : State := if t.accepted then s else s.burstTaken t.part t.src t.dst

/-- The die that is home to an address, by the numbers of 22 R375: a memory die, or the hub, from which a peer package is reached. -/
def State.homeDie (s : State) (pa : Nat) : Nat := if pkgOf pa = s.hub.pkgid.toNat then 16 + stackOf pa else 0

/-- The compute die of a context's virtual die, by the numbers of 22 R375. -/
def State.dieOf (s : State) (cid vdie : Nat) : Nat :=
  match s.ctx? cid with
  | some c => 1 + c.vdies.getD vdie 0
  | none => 0

/-- A request to a peer package sealed under the next sequence number of its port, and its answer under the port's own (22 R376). -/
def State.crossPort (s : State) (part pkg : Nat) : State :=
  let n := s.portTo pkg
  let p := s.port n
  s.setPort n { p with out := usedKey p.out part pkg, into := usedKey p.into part pkg }

/-! ### Counter blocks -/

/-- A block no write has reached since bring-up: dead, counters 0 (25 R407 step 4). -/
def freshBlock : Block := ⟨0, [], false, true, none, false, [], []⟩

/-- The counter block of a physical address. -/
def State.block (s : State) (pa : Nat) : Block := Sparse.get freshBlock s.blocks (pa / 4096)

/-- The state with the counter block of a physical address replaced. -/
def State.setBlock (s : State) (pa : Nat) (b : Block) : State :=
  { s with blocks := Sparse.set freshBlock s.blocks (pa / 4096) b }

/-- A key slot. -/
def State.keySlot (s : State) (n : Nat) : KeySlot := s.keySlots.toList.getD n ⟨8, none, none, false⟩

/-- The state with a key slot replaced. -/
def State.setKeySlot (s : State) (n : Nat) (k : KeySlot) : State :=
  if h : n < 64 then { s with keySlots := s.keySlots.set n k h } else s

/-- The key in a half of a slot. -/
def KeySlot.half (k : KeySlot) (h : Bool) : Option MemKey := if h then k.h1 else k.h0

/-- The slot number by which the model names the device's own key, always loaded: firmware, harts, page walkers and records outside
the contexts use it. -/
def fwSlot : Nat := 64

/-- The key a slot's half holds for a context: none where the slot is assigned to another partition (18 R305, 22 R368). -/
def State.keyOf (s : State) (cid slot : Nat) (h : Bool) : Option MemKey :=
  if slot = fwSlot then some ⟨none, fwSlot, 0⟩ else if (s.keySlot slot).part = partOf cid then (s.keySlot slot).half h else none

/-- KSCTL of a slot (22 R368). -/
def KeySlot.ksctl (k : KeySlot) : Word :=
  let bit (c : Bool) (n : Nat) : Nat := if c then 2 ^ n else 0
  BitVec.ofNat 64 ((((k.h1.map MemKey.gen).getD 0) % 2 ^ 32) * 2 ^ 32 + min k.part 15 * 2 ^ 12 + bit k.h1.isSome 3 + bit k.h0.isSome 2 + bit k.cur 1)

/-- The key a line of a block was encrypted under. -/
def Block.lineKey (b : Block) (i : Nat) : Option MemKey :=
  match b.odd.find? fun kv => kv.1 == i with
  | some kv => some kv.2
  | none => b.key

/-- A block with a line encrypted under a key. -/
def Block.underKey (b : Block) (i : Nat) (k : MemKey) : Block :=
  let rest := b.odd.filter fun kv => kv.1 != i
  { b with odd := if b.key = some k then rest else (i, k) :: rest }

/-- Whether the line of an address in a live block reads under a slot of a context's partition: the block's GEN half is loaded and is the
key the line was encrypted under (22 R368). -/
def State.keyGood (s : State) (b : Block) (cid slot pa : Nat) : Bool :=
  match s.keyOf cid slot b.gen with
  | some k => b.lineKey (pa / 64 % 64) == some k
  | none => false

/-- A counter-tree node that no write has reached. -/
def freshNode : Node := ⟨0, []⟩

/-- The path of 22 R371 above a block: each node's entry for the child is incremented, and an entry at 127 makes the node's
MAJOR rise with every entry 0; the root's counter of the top node rises. -/
def bumpPath (levels : Nat) (stack child : Nat) (ns : List (Nat × Node)) : List (Nat × Node) :=
  match levels with
  | 0 =>
    let key := (stack * 8 + 7) * 2 ^ 24 + child
    let n := Sparse.get freshNode ns key
    Sparse.set freshNode ns key { n with major := n.major + 1 }
  | k + 1 =>
    let key := ((stack * 8 + (7 - (k + 1))) * 2 ^ 24) + child / 8
    let n := Sparse.get freshNode ns key
    let m := Sparse.get 0 n.minors (child % 8)
    let n' : Node := if m = 127 then { major := n.major + 1, minors := [] } else { n with minors := Sparse.set 0 n.minors (child % 8) (m + 1) }
    bumpPath k stack (child / 8) (Sparse.set freshNode ns key n')

/-- The state after the path above an address is written once; a peer package keeps the tree of its own stacks (22 R372). -/
def State.bump (s : State) (pa : Nat) : State :=
  { s with nodes := if pkgOf pa = s.hub.pkgid.toNat then bumpPath 7 (stackOf pa) (pa / 4096 % 2 ^ 24) s.nodes else s.nodes }

/-- Whether the damage found at a line (its number) makes the line of a physical address fail: its own, its counter line's, or that of a
node above it, of the 8^(8 - level) blocks that share it (22 R371). -/
def Damage.covers (d : Damage) (line pa : Nat) : Bool :=
  match d with
  | .ecc => line == pa / 64
  | .eccAtom _ => line == pa / 64
  | .mac => line == pa / 64
  | .counter => line / 64 == pa / 4096
  | .node level => line / 2 ^ 30 == pa / 2 ^ 36 && line / 64 % 2 ^ 24 / 8 ^ (8 - level) == pa / 4096 % 2 ^ 24 / 8 ^ (8 - level)

/-- Whether damage is of one line alone, so that a write of its 64 bytes ends it (18 R318). -/
def Damage.ofLine (d : Damage) : Bool :=
  match d with
  | .ecc => true
  | .eccAtom _ => true
  | .mac => true
  | .counter => false
  | .node _ => false

/-- The damage that the line of a physical address suffers from. -/
def State.damageAt (s : State) (pa : Nat) : Option Damage :=
  match s.damage.find? fun kv => kv.2.covers kv.1 pa with
  | some kv => some kv.2
  | none => none

/-- The state with the line of a physical address no longer damaged; its counters are as they were. -/
def State.heal (s : State) (pa : Nat) : State := { s with damage := s.damage.filter fun kv => kv.1 != pa / 64 || !kv.2.ofLine }

/-- ERROR of an error record (18 R317). -/
def Damage.code (d : Damage) : Nat :=
  match d with
  | .ecc => 1
  | .eccAtom _ => 1
  | .mac => 2
  | .counter => 3
  | .node _ => 3

/-- Why a read of a line by a context fails at its home; none when it verifies (22 R371, R368). A home in
reset answers with an uncorrectable error (19 R335); a dead block is read without checks. -/
def State.readError (s : State) (cid slot pa : Nat) : Option Nat :=
  let b := s.block pa
  if s.homeOf pa = .unavailable then some 1
  else if b.dead then none
  else
    match s.damageAt pa with
    | some d => some d.code
    | none => if s.keyGood b cid slot pa then none else some 2

/-- The 64 bytes of a line as stored. -/
def State.rawLine (s : State) (pa : Nat) : List Byte := bytesAt s.mem (pa / 64 * 64) 64

/-- A line read at its home: its bytes, or zeros with the error (18 R316). -/
def State.homeRead (s : State) (cid slot pa : Nat) : List Byte × Option Nat :=
  match s.readError cid slot pa with
  | some e => (List.replicate 64 0, some e)
  | none => (s.rawLine pa, none)

/-- The lines of a block that an overflow finds unreadable; they are written as zeros (22 R373). -/
def State.badLines (s : State) (cid slot pa : Nat) : List Nat :=
  ((List.range 64).map fun i => pa / 4096 * 4096 + 64 * i).filter fun a => (s.readError cid slot a).isSome

/-- The counters of a block no longer hold poison of its lines. -/
def State.healBlock (s : State) (pa : Nat) : State :=
  { s with damage := s.damage.filter fun kv => kv.1 < pa / 4096 * 64 || pa / 4096 * 64 + 64 ≤ kv.1 ||
      match kv.2 with | .node _ => true | _ => false }

/-- A block re-encrypted under MAJOR + 1 and CUR (22 R373): unreadable lines become zeros; they are given with their failures. -/
def State.reencrypt (s : State) (cid slot pa : Nat) : State × List (Nat × Nat) :=
  let bad := s.badLines cid slot pa
  let cur := (s.keySlot slot).cur
  let b := s.block pa
  let s1 := (bad.foldl (fun (u : State) a => { u with mem := Sparse.clear u.mem a 64 }) s).healBlock pa
  (s1.setBlock pa { b with major := b.major + 1, minors := [], gen := cur, key := s1.keyOf cid slot cur, locked := true, odd := [] },
   bad.map fun a => (a, (s.readError cid slot a).getD 2))

/-- The masked bytes of a line written into memory. -/
def putMasked (m : List Host.Cell) (a : Nat) (data : BitVec 512) (mask : BitVec 64) : List Host.Cell :=
  (List.range 64).foldl (fun m i => if mask.getLsbD i then Sparse.set 0 m (a + i) (byteOf data i) else m) m

/-- Every hart's reservation that meets some bytes is lost. -/
def State.breakResv (s : State) (a n : Nat) : State :=
  { s with harts := s.harts.map fun v =>
      match v.resv with
      | some (b, k) => if a < b + k ∧ b < a + n then { v with resv := none } else v
      | none => v }

/-- The bytes of a masked line put in memory, with the path of its counter line written and the reservations on the line lost. -/
def State.putLine (s : State) (pa : Nat) (data : BitVec 512) (mask : BitVec 64) : State :=
  ({ s with mem := putMasked s.mem (pa / 64 * 64) data mask }.breakResv (pa / 64 * 64) 64).bump pa

/-- Whether the counters of a line do not verify: their line's or a node's above it (22 R371). -/
def State.countersBad (s : State) (pa : Nat) : Bool := (s.damageAt pa).any fun d => !d.ofLine

/-- A masked write of one line by a context performed at its home (22 R372, R373; 13 R267): the state, the error when the write is refused,
and the lines an overflow had to write as zeros, with their failures. On a near-bank page every written line is read and
checked first (07 R124), and so is one whose counters do not verify, whatever it writes (DESIGN CHOICE, log 91). A write to a dead block
revives it, and what scrubbing had poisoned there is gone. -/
def State.homeWrite (s : State) (cid slot : Nat) (nb : Bool) (pa : Nat) (data : BitVec 512) (mask : BitVec 64) :
    State × Option Nat × List (Nat × Nat) :=
  let i := pa / 64 % 64
  let b := s.block pa
  if mask = 0 then (s, none, [])
  else if s.homeOf pa = .unavailable then (s, some 1, [])
  else if b.dead then
    let cur := (s.keySlot slot).cur
    match s.keyOf cid slot cur with
    | none => (s, some 2, [])
    | some k =>
      let b1 := { b with major := b.major + 1, minors := [(i, 1)], gen := cur, dead := false, key := some k, locked := true, odd := [] }
      (((s.healBlock pa).setBlock pa b1).putLine pa data mask, none, [])
  else
    let m := Sparse.get 0 b.minors i
    let whole := mask = BitVec.allOnes 64 ∧ nb = false ∧ s.countersBad pa = false
    match (if whole then none else s.readError cid slot pa), s.keyOf cid slot (if m = 127 then (s.keySlot slot).cur else b.gen) with
    | some e, _ => (s, some e, [])
    | none, none => (s, some 2, [])
    | none, some k =>
      let (s1, bad) := if m = 127 then s.reencrypt cid slot pa else (if whole then s.heal pa else s, [])
      let b1 := s1.block pa
      let b2 := { b1 with minors := Sparse.set 0 b1.minors i ((if m = 127 then 0 else m) + 1) }
      ((s1.setBlock pa (b2.underKey i k)).putLine pa data mask, none, bad)

/-- Blocks marked dead: their bytes read zero, and poison of their lines is cleared (13 R267, 18 R318). -/
def State.markDead (s : State) (pa : Nat) : State :=
  let a := pa / 4096 * 4096
  { ((s.healBlock pa).setBlock pa { s.block pa with dead := true }) with mem := Sparse.clear s.mem a 4096 }

/-! ### Accesses by physical address -/

/-- A range cut at line boundaries: address and length of each piece. -/
def linePieces (fuel a n : Nat) : List (Nat × Nat) :=
  match fuel with
  | 0 => []
  | fuel + 1 =>
    if n = 0 then []
    else
      let k := min n (64 - a % 64)
      (a, k) :: linePieces fuel (a + k) (n - k)

/-- The pieces of a range, by line. -/
def pieces (a n : Nat) : List (Nat × Nat) := linePieces (n / 64 + 2) a n

/-- A line image holding some bytes from an offset, and their mask. -/
def lineOf (off : Nat) (bs : List Byte) : BitVec 512 × BitVec 64 :=
  (BitVec.ofNat 512 (leNat bs * 2 ^ (8 * off)), BitVec.ofNat 64 ((2 ^ bs.length - 1) * 2 ^ off))

/-- Bytes read by physical address under the device's key, by firmware, a hart or a page walker; a line that fails reads zeros. -/
def State.fwRead (s : State) (a n : Nat) : List Byte :=
  (pieces a n).flatMap fun p =>
    if (s.readError 0 fwSlot p.1).isSome then List.replicate p.2 0 else bytesAt s.mem p.1 p.2

/-- A number read so. -/
def State.fwNat (s : State) (a n : Nat) : Nat := leNat (s.fwRead a n)

/-- Bytes written by physical address under the device's key: each line a write at its home (22 R372). -/
def State.fwWrite (s : State) (a : Nat) (bs : List Byte) : State :=
  (pieces a bs.length).foldl (fun u p =>
    let l := lineOf (p.1 % 64) ((bs.drop (p.1 - a)).take p.2)
    (u.homeWrite 0 fwSlot false p.1 l.1 l.2).1) s

/-! ### What a locked block holds, and what errors tell (18 R316-R318, 22 R373, R374) -/

/-- What an error record tells beside its source and time (18 R317), and the line at fault. -/
structure Report where
  kind : Nat
  cid : Nat
  error : Nat
  pmclass : Nat
  bref : Word
  pmnum : Nat
  row : Nat
  pa : Nat
deriving DecidableEq, Repr

/-- The word an atomic leaves in memory (12 R241). -/
def amoNew (opx n old b : Nat) : Nat :=
  let so := signedOf (8 * n) old
  let sb := signedOf (8 * n) b
  match opx with
  | 0 => (old + b) % 256 ^ n
  | 1 => old &&& b
  | 2 => old ||| b
  | 3 => old ^^^ b
  | 4 => if sb < so then b else old
  | 5 => if so < sb then b else old
  | 6 => min old b
  | 7 => max old b
  | _ => b

/-- A masked line of a context written at its home, with WRITE_REJECT for a refusal or an overflow's zeroed line (18 R316, R318). `b` names
the line as its access did (18 R317). -/
def State.lineOut (s : State) (cid slot : Nat) (nb : Bool) (b : Word) (pa : Nat) (data : BitVec 512) (mask : BitVec 64) : State × List Report :=
  let x := s.homeWrite cid slot nb pa data mask
  (x.1, (match x.2.1 with
    | some code => [⟨3, cid, code, 7, b, 0, 0, pa⟩]
    | none => []) ++ x.2.2.map fun l => ⟨3, cid, l.2, 7, b + BitVec.ofNat 64 l.1 - BitVec.ofNat 64 (pa / 64 * 64), 0, 0, l.1⟩)

/-- The answer to a transaction sent back to where it came from. -/
def State.answerTxn (s : State) (t : Txn) (k : TxnKind) (len : Nat) : State :=
  { s with txns := s.txns ++ [{ t with src := t.dst, dst := t.src, kind := k, len := len, accepted := false }] }

/-- What a transaction performed at its home leaves: the state, the errors to report, and its answer with the answer's length. -/
structure Served where
  state : State
  reports : List Report
  answer : Option (TxnKind × Nat)

/-- The record of a read at a home that failed (18 R316). -/
def Txn.failed (t : Txn) (code : Nat) : Report := ⟨1, t.cid, code, 7, t.bref, 0, 0, t.pa⟩

/-- A read performed at its home: the bytes from its address, or zeros with a record. -/
def State.readAt (s : State) (t : Txn) (size : Nat) : Served :=
  let x := s.homeRead t.cid t.slot t.pa
  ⟨s, x.2.toList.map t.failed, some (.completion (BitVec.ofNat 512 (leNat ((x.1.drop (t.pa % 64)).take size))), size)⟩

/-- A line write performed at its home and acknowledged (22 R372). -/
def State.writeAt (s : State) (t : Txn) (data : BitVec 512) (mask : BitVec 64) : Served :=
  let x := s.lineOut t.cid t.slot t.nb t.bref t.pa data mask
  ⟨x.1, x.2, some (.ack, 0)⟩

/-- An atomic performed at its home: the old word; 0, not performed and reported, where the line fails (05 R91, 18 R316). -/
def State.atomicAt (s : State) (t : Txn) (op size : Nat) (operand : Word) : Served :=
  let x := s.homeRead t.cid t.slot t.pa
  match x.2 with
  | some e => ⟨s, [t.failed e], some (.completion 0, size)⟩
  | none =>
    let old := leNat ((x.1.drop (t.pa % 64)).take size)
    let new := amoNew op size old (operand.toNat % 256 ^ size)
    let l := lineOf (t.pa % 64) (leBytes size new)
    let w := if new = old then (s, []) else s.lineOut t.cid t.slot t.nb t.bref t.pa l.1 l.2
    ⟨w.1, w.2, some (.completion (BitVec.ofNat 512 old), size)⟩

/-- A transaction performed at its home. -/
def State.serve (s : State) (t : Txn) : Served :=
  match t.kind with
  | .read size => s.readAt t size
  | .write data mask => s.writeAt t data mask
  | .atomic op size v => s.atomicAt t op size v
  | .completion _ => ⟨s, [], none⟩
  | .ack => ⟨s, [], none⟩
  | .mgmt => ⟨s, [], none⟩
  | .directory => ⟨s, [], none⟩
  | .time _ => ⟨s, [], none⟩

/-- The state with a served transaction's answer on its way back. -/
def Served.sent (x : Served) (t : Txn) : State :=
  match x.answer with
  | some k => x.state.answerTxn t k.1 k.2
  | none => x.state

/-- The block of a physical address unlocked, and the transactions its lock held applied in the order of their arrival (22 R373,
R374), with what they have to report. -/
def State.unlockOut (s : State) (pa : Nat) : State × List Report :=
  let b := s.block pa
  if b.locked then
    b.held.foldl (fun u t => let x := u.1.serve t; (x.sent t, u.2 ++ x.reports)) (s.setBlock pa { b with locked := false, held := [] }, [])
  else (s, [])

/-- Whether a transaction is a write. -/
def Txn.isWrite (t : Txn) : Bool := match t.kind with | .write _ _ => true | _ => false

/-- The writes in flight that a test picks arrive at their homes, in the order in which they were sent, each after what the lock of its
block held. -/
def State.arriveOut (s : State) (p : Txn → Bool) : State × List Report :=
  let mine := s.txns.filter fun t => t.isWrite && p t
  mine.foldl (fun (u : State × List Report) t => match t.kind with
    | .write data mask =>
      let x := u.1.unlockOut t.pa
      let y := (x.1.carried t).lineOut t.cid t.slot t.nb t.bref t.pa data mask
      (y.1, u.2 ++ x.2 ++ y.2)
    | _ => u) ({ s with txns := s.txns.filter fun t => !(t.isWrite && p t) }, [])

/-- What reached a line's home before an access to it is applied first: what the lock of its block held, then the write-backs of the line in
flight over the links, with what their pairs of dies sent before them, and the end of a re-encryption that these began (22 R373, 24 R401). -/
def State.settleOut (s : State) (pa : Nat) : State × List Report :=
  let s0 := s.unlockOut pa
  let x := s0.1.arriveOut fun t => s0.1.txns.any fun u => u.isWrite && u.pa / 64 == pa / 64 && u.src == t.src && u.dst == t.dst
  let z := x.1.unlockOut pa
  (z.1, s0.2 ++ x.2 ++ z.2)

/-! ### Descriptors and the three checks (05 R79, 19 R324) -/

/-- A buffer descriptor. -/
structure Desc where
  vbase : Nat
  length : Nat
  owner : Nat
  rights : Nat
  nb : Bool
  ft : Bool
  de : Bool
  ilv : Nat
  stride : Nat
  keyslot : Nat
  home0 : Nat
deriving DecidableEq, Repr

/-- The descriptor of 64 bytes; an entry that breaks 19 R324 has LENGTH 0. -/
def parseDesc (bs : List Byte) : Desc :=
  let n (o k : Nat) := leNat ((bs.drop o).take k)
  let ilv := n 20 1
  let ok := n 0 8 < 2 ^ 56 && n 8 8 ≤ 2 ^ 52 && n 16 2 < 4096 && n 18 1 < 16 && n 19 1 < 8 && ilv < 16 && ilv % 8 ≤ 4
    && n 21 1 < 64 && leNat (bs.drop 23) == 0 && n 0 8 + n 8 8 ≤ 2 ^ 56 && (n 19 1 % 2 == 0 || ilv % 8 == 0)
  { vbase := n 0 8, length := if ok then n 8 8 else 0, owner := n 16 2, rights := n 18 1, nb := n 19 1 % 2 = 1,
    ft := n 19 1 / 2 % 2 = 1, de := n 19 1 / 4 % 2 = 1, ilv := ilv % 8, stride := if ilv / 8 = 1 then 65536 else 4096,
    keyslot := n 21 1, home0 := n 22 1 }

/-- The buffer index of a bref. -/
def brefIndex (b : Word) : Nat := b.toNat / 2 ^ 52

/-- The byte offset of a bref. -/
def brefOff (b : Word) : Nat := b.toNat % 2 ^ 52

/-- The descriptor a bref names in a context's table. -/
def State.desc (s : State) (cid : Nat) (b : Word) : Desc :=
  match s.ctx? cid with
  | some c => parseDesc (s.fwRead (c.bdt + 64 * brefIndex b) 64)
  | none => parseDesc []

/-- Rights of R79: R 1, W 2, A 4, N 8. -/
def rightR : Nat := 1
/-- W. -/
def rightW : Nat := 2
/-- A. -/
def rightA : Nat := 4
/-- N. -/
def rightN : Nat := 8

/-- Whether the entry of a bref lies in a memory die that is in reset, which answers no access (19 R335). -/
def State.descAway (s : State) (cid : Nat) (b : Word) : Bool :=
  match s.ctx? cid with
  | some c => s.homeOf (c.bdt + 64 * brefIndex b) == .unavailable
  | none => false

/-- `Check` (05 R79, 08 R145): bounds, rights and owner, in that order; a length of 0 passes. -/
def State.check (s : State) (cid : Nat) (b : Word) (len rights : Nat) : Except Trap Unit :=
  if len = 0 then .ok ()
  else if s.descAway cid b then .error (trapAt .memUnavailable b len)
  else
    let d := s.desc cid b
    let fail : Word := if d.length = 0 ∨ d.length ≤ brefOff b then b else BitVec.ofNat 64 (brefIndex b * 2 ^ 52 + d.length)
    if d.length = 0 ∨ d.length < brefOff b + len then .error (trapAt .bufBounds fail len)
    else if d.rights &&& rights ≠ rights then .error (trapAt .bufRights b len)
    else if d.owner ≠ cid then .error (trapAt .bufOwner b len)
    else .ok ()

/-- The virtual address of a bref (19 R325). -/
def State.vaOf (s : State) (cid : Nat) (b : Word) : Nat := (s.desc cid b).vbase + brefOff b

/-! ### Translation (19 R326-R333) -/

/-- What the agent of an access is: its context, the cluster whose TLB and cache it uses, and its touching die. -/
structure Acc where
  cid : Nat
  cluster : Option Nat
  die : Nat
deriving DecidableEq, Repr

/-- The die that an access comes from, by the numbers of 22 R375: its cluster's, or the hub. -/
def Acc.source (a : Acc) : Nat := match a.cluster with | some c => 1 + c / 32 | none => 0

/-- A page's translation. -/
structure Page where
  va : Nat
  size : Nat
  pa : Nat
  nb : Bool
  r : Bool
  w : Bool
  d : Bool
  /-- Address of the leaf entry. -/
  entry : Nat
deriving DecidableEq, Repr

/-- A page-table entry, read at its home. -/
def State.pte (s : State) (a : Nat) : Nat := s.fwNat a 8

/-- A page-table entry written at its home. -/
def State.setPte (s : State) (a v : Nat) : State := s.fwWrite a (leBytes 8 v)

/-- Bit `i` of an entry. -/
def pteBit (e i : Nat) : Bool := e / 2 ^ i % 2 == 1

/-- The frame address of an entry. -/
def ptePfn (e : Nat) : Nat := e / 4096 % 2 ^ 48 * 4096

/-- Whether the sixteen entries of a C group agree: consecutive frames from an aligned one, and identical flags (19 R328). -/
def State.groupOk (s : State) (e0 : Nat) : Bool :=
  let first := s.pte e0
  ptePfn first % 65536 == 0 && (List.range 16).all fun i =>
    let e := s.pte (e0 + 8 * i)
    ptePfn e == ptePfn first + 4096 * i && e / 2 ^ 60 == first / 2 ^ 60 && (e % 16) == (first % 16)

/-- Whether the sixteen entries of a first-touch C group agree (19 R330). -/
def State.groupFt (s : State) (e0 : Nat) : Bool :=
  (List.range 16).all fun i =>
    let e := s.pte (e0 + 8 * i)
    !pteBit e 0 && pteBit e 6 && pteBit e 60 && e % 16 == s.pte e0 % 16 && e / 2 ^ 60 == s.pte e0 / 2 ^ 60

/-- Where a walk ends. -/
inductive Walk where
  | fault
  /-- A table lies in a memory die that answers MEM_UNAVAILABLE (19 R335, 22 R369). -/
  | away
  /-- A first-touch leaf whose backing another walker has begun (19 R330). -/
  | busy
  /-- A valid leaf: its entry, page size, and the frame of the page. -/
  | leaf (entry size frame : Nat)
  /-- A first-touch leaf: the entry claimed and the page size. -/
  | touch (entry size : Nat)
deriving DecidableEq, Repr

/-- Bits every entry must have clear: [63] and [11:8] (19 R328). -/
def pteReserved (e : Nat) : Bool := pteBit e 63 || e / 256 % 16 != 0

/-- A walk that goes on with a table entry read at its home. -/
def State.withPte (s : State) (a : Nat) (k : Nat → Walk) : Walk :=
  match s.homeOf a with
  | .unavailable => .away
  | .outside => .fault
  | .here => k (s.pte a)
  | .peer => k (s.pte a)

/-- A first-touch leaf: claimed, or to be waited for while its backing is in progress (19 R330). -/
def State.touchLeaf (s : State) (entry size : Nat) : Walk := if pteBit (s.pte entry) 7 then .busy else .touch entry size

/-- The walk from a table at level 3 (19 R327-R330). -/
def State.walk3 (s : State) (table va : Nat) : Walk :=
  let a := table + 8 * (va / 2 ^ 12 % 512)
  s.withPte a fun e =>
    let e0 := table + 8 * (va / 2 ^ 16 % 32 * 16)
    if pteReserved e || pteBit e 62 then .fault
    else if pteBit e 0 then
      if pteBit e 60 then (if s.groupOk e0 then .leaf a 65536 (ptePfn (s.pte e0)) else .fault) else .leaf a 4096 (ptePfn e)
    else if pteBit e 6 then
      if pteBit e 60 then (if s.groupFt e0 then s.touchLeaf e0 65536 else .fault) else s.touchLeaf a 4096
    else .fault

/-- The walk from a table at level 2. -/
def State.walk2 (s : State) (table va : Nat) : Walk :=
  let a := table + 8 * (va / 2 ^ 21 % 512)
  s.withPte a fun e =>
    if pteReserved e then .fault
    else if pteBit e 62 && !(pteBit e 1 && pteBit e 61) then .fault
    else if pteBit e 0 then (if pteBit e 1 then .leaf a 0x200000 (ptePfn e) else s.walk3 (ptePfn e) va)
    else if pteBit e 6 && pteBit e 1 && !pteBit e 62 then s.touchLeaf a 0x200000
    else .fault

/-- The walk from a table at level 1. -/
def State.walk1 (s : State) (table va : Nat) : Walk :=
  let a := table + 8 * (va / 2 ^ 30 % 512)
  s.withPte a fun e =>
    if pteReserved e || pteBit e 62 || !pteBit e 0 then .fault
    else if pteBit e 1 then .leaf a 0x40000000 (ptePfn e) else s.walk2 (ptePfn e) va

/-- The walk from the root (19 R327). -/
def State.walk (s : State) (root va : Nat) : Walk :=
  s.withPte (root + 8 * (va / 2 ^ 39 % 131072)) fun e =>
    if pteReserved e || pteBit e 62 || !pteBit e 0 || pteBit e 1 then .fault else s.walk1 (ptePfn e) va

/-- The addresses of the entries of a table of `n` bytes that have V set. -/
def State.entriesIn (s : State) (table n : Nat) : List Nat :=
  s.mem.filterMap fun c => if table ≤ c.1 ∧ c.1 < table + n ∧ c.1 % 8 = 0 ∧ c.2.getLsbD 0 then some c.1 else none

/-- The tables that the entries of some tables name, and theirs, for some levels (19 R327); a table is its address and length. -/
def State.subTables (levels : Nat) (s : State) (ts : List (Nat × Nat)) : List (Nat × Nat) :=
  match levels with
  | 0 => []
  | k + 1 =>
    let us := ts.flatMap fun t => (s.entriesIn t.1 t.2).filterMap fun e => if pteBit (s.pte e) 1 then none else some (ptePfn (s.pte e), 4096)
    us ++ State.subTables k s us

/-- Every page table of a context (19 R327). -/
def State.pageTables (s : State) (c : Context) : List (Nat × Nat) := (c.ptroot, 0x100000) :: State.subTables 3 s [(c.ptroot, 0x100000)]

/-- A host notification of a partition: a FIFO entry of queue kind `k` for a CID (24 R397). -/
def State.notify (s : State) (p k cid : Nat) : State :=
  let q := s.part p
  if q.fifo.length < 64 then s.setPart p { q with fifo := q.fifo ++ [(k, cid)] } else s.setPart p { q with ovf := true }

/-- The stack that first touch takes a frame from (19 R326); none where a condition is broken. -/
def State.touchStack (s : State) (a : Acc) (d : Desc) (pageVa size : Nat) : Option Nat :=
  if d.ilv = 0 then some (2 * a.die + pageVa / size % 2)
  else
    let k := 2 ^ d.ilv
    match s.ctx? a.cid with
    | none => none
    | some c =>
      if d.home0 % k ≠ 0 ∨ 2 * c.vdies.length < d.home0 + k ∨ d.stride < size then none
      else
        let vs := d.home0 + ((((pageVa : Int) - d.vbase) / d.stride) % k).toNat
        some (2 * c.vdies.getD (vs / 2) 0 + vs % 2)

/-- One frame taken from a pool; the pool at an eighth of its ring posts a low-water notification (19 R331). -/
def State.takeFrame (s : State) (stack part size : Nat) : Option (Nat × State) :=
  let m := s.mdie stack
  match m.pools.find? fun p => p.1 == part && p.2.1 == size with
  | some (_, _, f :: rest, ring) =>
    let pools := m.pools.map fun p => if p.1 = part ∧ p.2.1 = size then (part, size, rest, ring) else p
    let s1 := s.setMdie stack { m with pools := pools }
    some (f, if rest.length = ring / 8 then s1.notify part 3 0 else s1)
  | _ => none

/-- First-touch backing (19 R330): the entry claimed, a frame, its blocks dead, and the new entry or group of entries, the claimed
one last. None where the page may not be backed or its pool is empty: the entry is then as it was. -/
def State.backPage (s : State) (a : Acc) (d : Desc) (va entry size : Nat) : Option State :=
  let pageVa := va / size * size
  if !d.ft then none
  else
    match s.touchStack a d pageVa size with
    | none => none
    | some st =>
      match s.takeFrame st (partOf a.cid) size with
      | none => none
      | some (f, s1) =>
        let s2 := (List.range (size / 4096)).foldl (fun (u : State) i => u.markDead (f + 4096 * i)) (s1.setPte entry (s1.pte entry + 128))
        let put (u : State) (e frame : Nat) : State :=
          let old := u.pte e
          let flags := old / 2 ^ 60 * 2 ^ 60 + (if pteBit old 1 then 2 else 0) + (if pteBit old 5 then 32 else 0) + (if pteBit old 4 then 16 else 0)
          u.setPte e (flags + frame + 8 + 4 + 1)
        some (if size = 65536 then (List.range 16).foldl (fun u i => put u (entry + 8 * (15 - i)) (f + 4096 * (15 - i))) s2
          else put s2 entry f)

/-- The page that a TLB entry maps. -/
def Tlb.page (t : Tlb) : Page := ⟨t.va, t.size, t.pa, t.nb, t.r, t.w, t.dirty, 0⟩

/-- A TLB that serves an access: right kind, context and range, and D already set for a write. -/
def Tlb.serves (t : Tlb) (die : Nat) (cl : Option Nat) (cid va : Nat) (write : Bool) : Bool :=
  t.die == die && t.cluster == cl && t.cid == cid && t.va ≤ va && va < t.va + t.size && (t.dirty || !write)

/-- A translation installed in the TLBs of a cluster and its die (19 R333). -/
def State.install (s : State) (a : Acc) (p : Page) (d : Bool) : State :=
  match a.cluster with
  | none => s
  | some c =>
    let mk (cl : Option Nat) : Tlb := ⟨c / 32, cl, a.cid, p.va, p.size, p.pa, p.nb, p.r, p.w, d⟩
    let old := s.tlbs.filter fun t => !(t.die == c / 32 && t.cid == a.cid && t.va == p.va && (t.cluster == some c || t.cluster == none))
    let mine := old.filter fun t => t.cluster == some c
    let die := old.filter fun t => t.die == c / 32 && t.cluster == none
    let rest := old.filter fun t => t.cluster != some c && !(t.die == c / 32 && t.cluster == none)
    { s with tlbs := mk (some c) :: mine.take 255 ++ mk none :: die.take 16383 ++ rest }

/-- Whether a peer package is in the trust domain of a CID's tenant: the port that leads to it is up and holds a key for it (22 R376, R380,
24 R403, R404). -/
def State.trusts (s : State) (cid pkg : Nat) : Bool :=
  let p := s.port (s.portTo pkg)
  p.up && p.out.any fun k => k.part == partOf cid && k.peer == pkg

/-- The rights of a page, and that its home is in the domain, trusted and not in reset (19 R329, R335, 24 R404). -/
def State.pageOk (s : State) (cid : Nat) (p : Page) (write : Bool) (va : Nat) : Except Trap Page :=
  if (if write then !p.w else !p.r) then .error (trapOf .pageFault)
  else
    match s.homeOf (p.pa + (va - p.va)) with
    | .outside => .error (trapOf .pageFault)
    | .unavailable => .error (trapOf .memUnavailable)
    | .peer => if s.trusts cid (pkgOf p.pa) then .ok p else .error (trapOf .pageFault)
    | .here => .ok p

/-- An access that did not translate: its trap, or none when it waits for a page being backed, with what its walks did before:
bits A and D set and pages backed stay so (19 R329, R330). -/
structure Miss where
  trap : Option Trap
  state : State

/-- A miss that traps. -/
def missOf (c : Cause) (s : State) : Miss := ⟨some (trapOf c), s⟩

/-- A leaf used for an access: its rights and home, then A and D set (19 R329). -/
def State.useLeaf (s : State) (a : Acc) (va e size frame : Nat) (write : Bool) : Except Miss (State × Page) :=
  let v := s.pte e
  let p : Page := ⟨va / size * size, size, frame / size * size, pteBit v 62, pteBit v 2, pteBit v 3, pteBit v 5 || write, e⟩
  match s.pageOk a.cid p write va with
  | .error t => .error ⟨some t, s⟩
  | .ok p =>
    let w := (if pteBit v 4 then v else v + 16) + (if write && !pteBit v 5 then 32 else 0)
    .ok ((if w = v then s else s.setPte e w).install a p (pteBit v 5), p)

/-- A walk with A and D set in the leaf, and first touch (19 R329, R330). -/
def State.walkPage (s : State) (a : Acc) (d : Desc) (va : Nat) (write : Bool) : Except Miss (State × Page) :=
  match s.ctx? a.cid with
  | none => .error (missOf .pageFault s)
  | some c =>
    match s.walk c.ptroot va with
    | .fault => .error (missOf .pageFault s)
    | .away => .error (missOf .memUnavailable s)
    | .busy => .error ⟨none, s⟩
    | .leaf e size frame => s.useLeaf a va e size frame write
    | .touch e size =>
      match s.backPage a d va e size with
      | none => .error (missOf .pageFault s)
      | some u =>
        match u.walk c.ptroot va with
        | .leaf e size frame => u.useLeaf a va e size frame write
        | _ => .error (missOf .pageFault u)

/-- Translation of one byte: cluster TLB, die TLB, then a walk (19 R333). -/
def State.translate (s : State) (a : Acc) (d : Desc) (va : Nat) (write : Bool) : Except Miss (State × Page) :=
  let hit : Option Tlb := match a.cluster with
    | none => none
    | some c =>
      match s.tlbs.find? fun t => t.serves (c / 32) (some c) a.cid va write with
      | some t => some t
      | none => s.tlbs.find? fun t => t.serves (c / 32) none a.cid va write
  match hit with
  | some t =>
    match s.pageOk a.cid t.page write va with
    | .error e => .error ⟨some e, s⟩
    | .ok p => .ok (s, p)
  | none => s.walkPage a d va write

/-- The physical address of a byte on its page. -/
def Page.at (p : Page) (va : Nat) : Nat := p.pa + (va - p.va)

/-- A page-fault or reset trap with the bref of the failing byte and the access length (18 R312). -/
def Trap.withBref (t : Trap) (b : Word) (len : Nat) : Trap := { t with d1 := b, d2 := BitVec.ofNat 64 len }

/-- The starts of the 4 KiB blocks that a range meets. -/
def blockStarts (a n : Nat) : List Nat :=
  if n = 0 then [] else (List.range ((a + n - 1) / 4096 - a / 4096 + 1)).map fun i => max a (a / 4096 * 4096 + 4096 * i)

/-- A page's translation as a copy keeps it. -/
def Page.kept (p : Page) (a : Acc) : Tlb := ⟨a.die, a.cluster, a.cid, p.va, p.size, p.pa, p.nb, p.r, p.w, p.d⟩

/-- A miss with the bref of the failing byte and the access length. -/
def Miss.withBref (m : Miss) (b : Word) (len : Nat) : Miss := { m with trap := m.trap.map fun t => t.withBref b len }

/-- Translation of every page a range touches under a descriptor of its bref: the pages, or the miss with the first failing bref. -/
def State.translateUnder (s : State) (d : Desc) (a : Acc) (b : Word) (n : Nat) (write : Bool) : Except Miss (State × List Tlb) :=
  let va := d.vbase + brefOff b
  (blockStarts va n).foldl (fun r x =>
    match r with
    | .error t => .error t
    | .ok ((u : State), ps) =>
      match u.translate a d x write with
      | .error t => .error (t.withBref (b + BitVec.ofNat 64 (x - va)) n)
      | .ok (u, p) => .ok (u, ps ++ [p.kept a])) (.ok (s, []))

/-- Translation of every page a buffer range touches, at its checks (12 R229). -/
def State.translatePages (s : State) (a : Acc) (b : Word) (n : Nat) (write : Bool) : Except Miss (State × List Tlb) :=
  s.translateUnder (s.desc a.cid b) a b n write

/-! ### Device accesses to a context's own records -/

/-- The access of an agent on no compute die: it touches as virtual die 0's die (19 R326). -/
def State.deviceAcc (s : State) (cid : Nat) : Acc :=
  { cid := cid, cluster := none, die := match s.ctx? cid with | some c => c.vdies.getD 0 0 | none => 0 }

/-- The bref of the first byte of a line, from the bref of a byte of it at a virtual address: the start of the buffer where that lies
later in the line. -/
def lineBref (b : Word) (va : Nat) : Word := b - BitVec.ofNat 64 (min (va % 64) (brefOff b))

/-- A write of the device's own to a context's buffer memory, after the checks of R79 and after what reached its lines before, performed at
home; nothing where a check or a translation fails (05 R79, 18 R315). With what its own writes have to report, and what was applied
before them has. -/
def State.devPut (s : State) (a : Acc) (b : Word) (bs : List Byte) : State × List Report × List Report :=
  match s.check a.cid b bs.length rightW with
  | .error _ => (s, [], [])
  | .ok _ =>
    let d := s.desc a.cid b
    let va := d.vbase + brefOff b
    (pieces va bs.length).foldl (fun u p =>
      match u.1.translate a d p.1 true with
      | .error m => (m.state, u.2)
      | .ok (v, pg) =>
        let l := lineOf (p.1 % 64) ((bs.drop (p.1 - va)).take p.2)
        let x := v.settleOut (pg.at p.1)
        let w := x.1.lineOut a.cid d.keyslot pg.nb (lineBref (b + BitVec.ofNat 64 (p.1 - va)) p.1) (pg.at p.1) l.1 l.2
        (w.1, u.2.1 ++ w.2, u.2.2 ++ x.2)) (s, [], [])

/-- A read of the device's own from a context's buffer memory, after the checks of R79, at home; zeros where a check or a translation
fails, or the line does. -/
def State.devRead (s : State) (a : Acc) (b : Word) (n : Nat) : List Byte :=
  match s.check a.cid b n rightR with
  | .error _ => List.replicate n 0
  | .ok _ =>
    let d := s.desc a.cid b
    let va := d.vbase + brefOff b
    (pieces va n).flatMap fun p =>
      match s.translate a d p.1 false with
      | .error _ => List.replicate p.2 0
      | .ok (_, pg) => ((s.homeRead a.cid d.keyslot (pg.at p.1)).1.drop (p.1 % 64)).take p.2

/-- A number in a context's buffer memory. -/
def State.devNat (s : State) (a : Acc) (b : Word) (n : Nat) : Nat := leNat (s.devRead a b n)

/-- Which ring of a context (18 R310): 0 fault, 1 error, 2 debug. -/
def Context.ring (c : Context) (k : Nat) : Word :=
  match k with
  | 0 => c.faultq
  | 1 => c.errq
  | _ => c.debugq

/-- A read of the device's own about to be made: its translations set bit A and back their pages, and what reached its lines before it is
applied (19 R329, R330), with what that has to report. -/
def State.touchOut (s : State) (a : Acc) (b : Word) (n : Nat) : State × List Report :=
  match s.check a.cid b n rightR with
  | .error _ => (s, [])
  | .ok _ =>
    match s.translatePages a b n false with
    | .error m => (m.state, [])
    | .ok (u, ps) =>
      let va := u.vaOf a.cid b
      (pieces va n).foldl (fun (w : State × List Report) p =>
        match ps.find? fun t => t.va ≤ p.1 && p.1 < t.va + t.size with
        | some t => let x := w.1.settleOut (t.pa + (p.1 - t.va)); (x.1, w.2 ++ x.2)
        | none => w) (u, [])

/-- A 64-byte record put in a ring (18 R310): written with PROD advanced, or counted in LOST; whether it was put, what its own writes have
to report, and what was applied before them has. -/
def State.postCore (s : State) (cid k : Nat) (bs : List Byte) : State × Bool × List Report × List Report :=
  match s.ctx? cid with
  | none => (s, false, [], [])
  | some c =>
    let a := s.deviceAcc cid
    let q := c.ring k
    let s0 := s.touchOut a q 32
    let base := s0.1.devNat a q 8
    let entries := s0.1.devNat a (q + 8) 4
    let prod := s0.1.devNat a (q + 16) 4
    let cons := s0.1.devNat a (q + 20) 4
    if (prod + 2 ^ 32 - cons) % 2 ^ 32 < entries then
      let s1 := s0.1.devPut a (BitVec.ofNat 64 (base + 64 * (prod % entries))) bs
      let s2 := s1.1.devPut a (q + 16) (leBytes 4 (prod + 1))
      (s2.1.notify (partOf cid) k cid, true, s1.2.1 ++ s2.2.1, s0.2 ++ s1.2.2 ++ s2.2.2)
    else
      let s1 := s0.1.devPut a (q + 24) (leBytes 4 (s0.1.devNat a (q + 24) 4 + 1))
      (s1.1, false, s1.2.1, s0.2 ++ s1.2.2)

/-- An error record (18 R317). -/
def State.errorRecord (s : State) (kind source cid error pmclass : Nat) (b : Word) (pmnum row : Nat) : List Byte :=
  leBytes 2 kind ++ leBytes 2 source ++ leBytes 2 cid ++ leBytes 1 error ++ leBytes 1 pmclass ++ leBytes 8 b.toNat
    ++ leBytes 8 pmnum ++ leBytes 2 row ++ leBytes 30 0 ++ leBytes 8 s.hub.time

/-- An error record of a memory die posted to the owner's error queue, and an uncorrectable error counted (18 R317, R318, 25 R410); with
what was applied before it has to report. What the record's own writes lose is not reported again. -/
def State.postReport (s : State) (r : Report) : State × List Report :=
  let m := stackOf r.pa
  let s1 := if r.error = 1 then s.setMdie m { s.mdie m with errcnt := (s.mdie m).errcnt + 1 } else s
  let x := s1.postCore r.cid 1 (s.errorRecord r.kind (0x0200 + m) r.cid r.error r.pmclass r.bref r.pmnum r.row)
  (x.1, x.2.2.2)

/-- Error records posted in turn, with those of what their posting found to be applied first. -/
def State.reportAll (fuel : Nat) (s : State) (rs : List Report) : State :=
  match fuel with
  | 0 => s
  | fuel + 1 =>
    match rs with
    | [] => s
    | r :: rest =>
      let x := s.postReport r
      State.reportAll fuel x.1 (rest ++ x.2)

/-- The transactions that are on the links or held at their homes: what may still have an error to report. -/
def State.pendingTxns (s : State) : Nat := s.txns.length + (s.blocks.map fun kv => kv.2.held.length).sum

/-- Errors reported to their owners (18 R316-R318). A transaction reports at most its own line and the 64 of its block. -/
def State.reportErrors (s : State) (rs : List Report) : State :=
  if rs.isEmpty then s else State.reportAll (rs.length + 65 * s.pendingTxns) s rs

/-- An error record of a memory die (18 R316-R318). -/
def State.postError (s : State) (kind cid error pmclass : Nat) (b : Word) (pmnum row pa : Nat) : State :=
  s.reportErrors [⟨kind, cid, error, pmclass, b, pmnum, row, pa⟩]

/-- Whether a ring that firmware keeps at a physical address is full (18 R310). -/
def State.ringFull (s : State) (ctl : Nat) : Bool :=
  s.fwNat (ctl + 8) 4 ≤ (s.fwNat (ctl + 16) 4 + 2 ^ 32 - s.fwNat (ctl + 20) 4) % 2 ^ 32

/-- A record written into such a ring, and PROD advanced (18 R310). -/
def State.ringPut (s : State) (ctl : Nat) (bs : List Byte) : State :=
  let prod := s.fwNat (ctl + 16) 4
  (s.fwWrite (s.fwNat ctl 8 + bs.length * (prod % s.fwNat (ctl + 8) 4)) bs).fwWrite (ctl + 16) (leBytes 4 (prod + 1))

/-- A record dropped by such a ring, counted in LOST (18 R310). -/
def State.ringLost (s : State) (ctl : Nat) : State := s.fwWrite (ctl + 24) (leBytes 4 (s.fwNat (ctl + 24) 4 + 1))

/-! ### Lines written at their homes, and what a locked block holds (18 R316-R318, 22 R373) -/

/-- A masked line of a context written at its home; a refusal or an overflow's zeroed line posts WRITE_REJECT (18 R316, R318). -/
def State.lineWrite (s : State) (cid slot : Nat) (nb : Bool) (b : Word) (pa : Nat) (data : BitVec 512) (mask : BitVec 64) : State :=
  let x := s.lineOut cid slot nb b pa data mask
  x.1.reportErrors x.2

/-- A transaction performed at its home: its errors reported and its answer sent. -/
def State.performTxn (s : State) (t : Txn) : State :=
  let x := s.serve t
  (x.sent t).reportErrors x.reports

/-- A block unlocked, with what its lock held applied (22 R373, R374). -/
def State.unlock (s : State) (pa : Nat) : State :=
  let x := s.unlockOut pa
  x.1.reportErrors x.2

/-- What reached a line's home before an access to it is applied first. -/
def State.settle (s : State) (pa : Nat) : State :=
  let x := s.settleOut pa
  x.1.reportErrors x.2

/-- Every write of a kind that is on its way, and whatever is held at its home, performed, as what waits for their completion requires. -/
def State.settleWhere (s : State) (p : Txn → Bool) : State :=
  let s1 := ((s.blocks.filter fun kv => kv.2.held.any p).map fun kv => 4096 * kv.1).foldl State.unlock s
  let pas := (s1.txns.filter fun t => t.isWrite && p t).map Txn.pa
  let x := s1.arriveOut fun t => s1.txns.any fun u => u.isWrite && p u && u.src == t.src && u.dst == t.dst
  pas.foldl State.unlock (x.1.reportErrors x.2)

/-- An access of a context goes from a die to a line's home and its answer comes back: what the die sent to that home before arrives
first (24 R401), and each way the transaction fills a burst of its own under the path key of its partition (22 R375); a peer package lies
beyond a port besides (22 R376). What reached the line is applied. -/
def State.cross (s : State) (cid src pa : Nat) : State :=
  let dst := s.homeDie pa
  let x := s.arriveOut fun t => t.src == src && t.dst == dst
  let u := (((x.1.reportErrors x.2).settle pa).burstTaken (partOf cid) src dst).burstTaken (partOf cid) dst src
  if dst = 0 then u.crossPort (partOf cid) (pkgOf pa) else u

/-- What the locks of a stack's blocks held when its memory die fails: accesses that never complete, each an uncorrectable error reported to
its owner (19 R335). -/
def State.failHeld (s : State) (m : Nat) : State :=
  ((s.blocks.filter fun kv => pkgOf (4096 * kv.1) == s.hub.pkgid.toNat && stackOf (4096 * kv.1) == m).map fun kv => 4096 * kv.1).foldl
    State.unlock s

/-- A block marked dead after what its lock held is applied (13 R267, 22 R374). -/
def State.killBlock (s : State) (pa : Nat) : State :=
  let x := s.unlockOut pa
  (x.1.markDead pa).reportErrors x.2

/-- A read of the device's own about to be made: what reached its lines before it is applied, and its translations set bit A and
back their pages (19 R329, R330). -/
def State.devTouch (s : State) (a : Acc) (b : Word) (n : Nat) : State :=
  let x := s.touchOut a b n
  x.1.reportErrors x.2

/-- A write of the device's own, after what reached its lines before; its losses are reported (18 R316, R318). -/
def State.devWrite (s : State) (a : Acc) (b : Word) (bs : List Byte) : State :=
  let x := s.devPut a b bs
  x.1.reportErrors (x.2.2 ++ x.2.1)

/-- A 64-byte record posted to a ring (18 R310): written with PROD advanced, or counted in LOST; false when it is lost. -/
def State.post (s : State) (cid k : Nat) (bs : List Byte) : State × Bool :=
  let x := s.postCore cid k bs
  (x.1.reportErrors (x.2.2.2 ++ x.2.2.1), x.2.1)

/-! ### Cluster caches (05 R81) -/

/-- The cached line of a cluster, context and virtual line. -/
def State.cached (s : State) (c cid line : Nat) : Option CacheLine :=
  s.cache.find? fun l => l.cluster == c && l.cid == cid && l.va == line

/-- The state with a cached line put in place of the one it replaces. -/
def State.putCache (s : State) (l : CacheLine) : State :=
  { s with cache := l :: s.cache.filter fun k => !(k.cluster == l.cluster && k.cid == l.cid && k.va == l.va) }

/-- The state without a cached line. -/
def State.dropCache (s : State) (c cid line : Nat) : State :=
  { s with cache := s.cache.filter fun k => !(k.cluster == c && k.cid == cid && k.va == line) }

/-- A bref that names the virtual line of a context where no access named it: the first buffer whose range holds it. -/
def State.brefOfVa (s : State) (cid va : Nat) : Word :=
  match (List.range 4096).find? fun i =>
      let d := s.desc cid (BitVec.ofNat 64 (i * 2 ^ 52))
      d.length != 0 && d.vbase ≤ va && va < d.vbase + d.length with
  | some i => BitVec.ofNat 64 (i * 2 ^ 52 + (va - (s.desc cid (BitVec.ofNat 64 (i * 2 ^ 52))).vbase))
  | none => 0

/-- A cached line's dirty bytes written back and acknowledged, so that its block is unlocked again (22 R373); the line stays, clean (05
R81). -/
def State.writeBack (s : State) (l : CacheLine) : State :=
  if l.dirty = 0 then s
  else (((s.cross l.cid (1 + l.cluster / 32) l.pa).lineWrite l.cid l.slot l.nb l.bref l.pa l.data l.dirty).unlock l.pa).putCache { l with dirty := 0 }

/-- The lines a cluster cache holds: 2 MiB of 64 bytes (05 R81). -/
def cacheLines : Nat := 32768

/-- A cluster cache with room for one more line: when all its lines are in use, one is evicted, its dirty bytes written back; which
one is not given (05 R81). -/
def State.makeRoom (s : State) (c : Nat) : State :=
  let mine := s.cache.filter fun l => l.cluster == c
  if mine.length < cacheLines then s
  else
    match mine[Config.freeVictim s.freeCount % mine.length]? with
    | none => s
    | some l => ({ s with freeCount := s.freeCount + 1 }.writeBack l).dropCache c l.cid l.va

/-- The line of a cluster cache that an access uses: a present line of the page it translated to, or a new one. A line left from an
earlier mapping of its page, or from an entry with another key slot, is written back where it belongs and dropped (19 R325, R334). -/
def State.takeLine (s : State) (c : Nat) (a : Acc) (d : Desc) (p : Page) (b : Word) (va : Nat) : State × CacheLine :=
  let pa := p.at va / 64 * 64
  let new : CacheLine := ⟨c, a.cid, va / 64, pa, d.keyslot, p.nb, lineBref b va, 0, 0, 0⟩
  match s.cached c a.cid (va / 64) with
  | none => (s.makeRoom c, new)
  | some l => if l.pa / 64 = pa / 64 ∧ l.slot = d.keyslot then (s, l) else ((s.writeBack l).dropCache c a.cid l.va, new)

/-- The cached lines of a context in a cluster that meet a virtual range. -/
def State.linesIn (s : State) (c cid va n : Nat) : List CacheLine :=
  s.cache.filter fun l => l.cluster == c && l.cid == cid && n != 0 && va / 64 ≤ l.va && l.va ≤ (va + n - 1) / 64

/-- Every access of a context still in flight or held at its home applied, as a release waits for it (05 R94). -/
def State.settleCid (s : State) (cid : Nat) : State := s.settleWhere fun t => t.cid == cid

/-- Every dirty line of the range written back (05 R89, R90). -/
def State.wbRange (s : State) (c cid va n : Nat) : State := (s.linesIn c cid va n).foldl State.writeBack (s.settleCid cid)

/-- Every line of the range written back and invalidated (05 R88, R90). -/
def State.invRange (s : State) (c cid va n : Nat) : State :=
  let s1 := s.wbRange c cid va n
  { s1 with cache := s1.cache.filter fun l => !(l.cluster == c && l.cid == cid && n != 0 && va / 64 ≤ l.va && l.va ≤ (va + n - 1) / 64) }

/-- Every dirty line of a context in a cluster written back (05 R91). -/
def State.wbAll (s : State) (c cid : Nat) : State :=
  (s.cache.filter fun l => l.cluster == c && l.cid == cid).foldl State.writeBack (s.settleCid cid)

/-- Every line of a context in a cluster invalidated; its dirty bytes are written back first, for they are never dropped. -/
def State.invAll (s : State) (c cid : Nat) : State :=
  let s1 := s.wbAll c cid
  { s1 with cache := s1.cache.filter fun l => !(l.cluster == c && l.cid == cid) }

/-- A task start invalidates the clean bytes of the context's lines (02 R31). -/
def State.dropClean (s : State) (c cid : Nat) : State :=
  { s with cache := (s.cache.map fun l => if l.cluster = c ∧ l.cid = cid then { l with valid := l.dirty } else l).filter fun l => l.valid != 0 }

/-- The masked bytes of a line put over others. -/
def overBytes (old data : BitVec 512) (mask : BitVec 64) : BitVec 512 :=
  (List.range 64).foldl (fun x i => if mask.getLsbD i then setByte x i (byteOf data i) else x) old

/-- A line filled from its home: the dirty bytes keep their cached values (05 R81). -/
def fillLine (l : CacheLine) (home : List Byte) : CacheLine :=
  { l with data := overBytes (BitVec.ofNat 512 (leNat home)) l.data l.dirty, valid := BitVec.allOnes 64 }

/-- The mask of `n` bytes from an offset of a line. -/
def maskOf (off n : Nat) : BitVec 64 := BitVec.ofNat 64 ((2 ^ n - 1) * 2 ^ off)

/-- Bytes of a line. -/
def lineBytes (d : BitVec 512) (off n : Nat) : List Byte := (List.range n).map fun i => byteOf d (off + i)

/-- The bytes of one line piece read through a cluster cache, allocating (05 R81); with the error of a failed fill. -/
def State.cacheRead (s : State) (c : Nat) (a : Acc) (d : Desc) (p : Page) (b : Word) (va n : Nat) : State × List Byte × Option Nat :=
  let pa := p.at va
  let x := s.takeLine c a d p b va
  if x.2.valid &&& maskOf (va % 64) n = maskOf (va % 64) n then (s, lineBytes x.2.data (va % 64) n, none)
  else
    let u := x.1.cross a.cid a.source pa
    match u.homeRead a.cid d.keyslot pa with
    | (_, some e) => (u, List.replicate n 0, some e)
    | (bs, none) =>
      let l := fillLine x.2 bs
      (u.putCache l, lineBytes l.data (va % 64) n, none)

/-- The bytes of one line piece read by a copy: a present line's valid bytes, the home's otherwise (05 R81). -/
def State.copyRead (s : State) (c : Option Nat) (a : Acc) (d : Desc) (p : Page) (va n : Nat) : State × List Byte × Option Nat :=
  let pa := p.at va
  let l := match c with
    | some c => (s.cached c a.cid (va / 64)).filter fun (l : CacheLine) => l.pa / 64 == pa / 64
    | none => none
  let have_ := match l with
    | some l => l.valid
    | none => 0
  if have_ &&& maskOf (va % 64) n = maskOf (va % 64) n then
    (s, match l with | some l => lineBytes l.data (va % 64) n | none => List.replicate n 0, none)
  else
    let s := s.cross a.cid a.source pa
    let (bs, e) := s.homeRead a.cid d.keyslot pa
    let out := (List.range n).map fun i =>
      let o := va % 64 + i
      if have_.getLsbD o then (match l with | some l => byteOf l.data o | none => 0) else bs.getD o 0
    (s, out, e)

/-- Masked bytes of a line written into a cluster cache, dirty, without a fill (05 R81). -/
def State.cacheLine (s : State) (c : Nat) (a : Acc) (d : Desc) (p : Page) (b : Word) (va : Nat) (data : BitVec 512)
    (mask : BitVec 64) : State :=
  let x := s.takeLine c a d p b va
  x.1.putCache { x.2 with data := overBytes x.2.data data mask, valid := x.2.valid ||| mask, dirty := x.2.dirty ||| mask }

/-- Bytes of one line piece written into a cluster cache. -/
def State.cacheWrite (s : State) (c : Nat) (a : Acc) (d : Desc) (p : Page) (b : Word) (va : Nat) (bs : List Byte) : State :=
  let l := lineOf (va % 64) bs
  s.cacheLine c a d p b va l.1 l.2

/-- Masked bytes of a line written by a copy: a present line is updated and the home is written through (05 R81). `b` names the line's
first byte. -/
def State.copyLine (s : State) (c : Option Nat) (a : Acc) (d : Desc) (p : Page) (b : Word) (va : Nat) (data : BitVec 512)
    (mask : BitVec 64) : State :=
  let pa := p.at va
  let s1 := match c with
    | none => s
    | some c =>
      match s.cached c a.cid (va / 64) with
      | none => s
      | some l =>
        if l.pa / 64 = pa / 64 ∧ l.slot = d.keyslot then
          s.putCache { l with data := overBytes l.data data mask, valid := l.valid ||| mask, dirty := l.dirty &&& ~~~mask }
        else (s.writeBack l).dropCache c a.cid l.va
  (s1.cross a.cid a.source pa).lineWrite a.cid d.keyslot p.nb b pa data mask

/-- Bytes of one line piece written by a copy. -/
def State.copyWrite (s : State) (c : Option Nat) (a : Acc) (d : Desc) (p : Page) (b : Word) (va : Nat) (bs : List Byte) : State :=
  let l := lineOf (va % 64) bs
  s.copyLine c a d p (lineBref b va) va l.1 l.2

/-! ### Undo logs (20 R349, R350) -/

/-- The keys whose values differ between two lists. -/
def changedKeys {α : Type} [DecidableEq α] (old new : List (Nat × α)) : List Nat :=
  ((new.filter fun kv => !old.contains kv) ++ old.filter fun kv => !new.any fun x => x.1 == kv.1).map (·.1)

/-- The bytes of a task's undo log: 64 beside the old contents of each item. The registers and core-scratchpad lines that its snapshot
stands for are counted where they differ from it (20 R350; DESIGN CHOICE, log 66). -/
def Task.logBytes (t : Task) : Nat :=
  let own := match t.ckpt with
    | none => 0
    | some k =>
      96 * ((changedKeys k.vfile t.team.vfile).length + (changedKeys k.spilled t.team.spilled).length)
        + 128 * ((changedKeys k.scratch t.team.scratch).map (· / 64)).dedup.length
        + 8256 * ((changedKeys k.acc t.team.acc).map (· / 2048)).dedup.length
  own + 128 * t.log.length

/-- Whether a task's undo log holds at least `n` eighths of its area. -/
def State.logHolds (s : State) (t : Task) (n : Nat) : Bool :=
  match s.ctx? t.cid with
  | some c => 0 < c.logsz && n * (1024 * c.logsz) ≤ 8 * t.logBytes
  | none => false

/-- Whether a task's undo log is full, which freezes its core until the due checkpoint is taken. -/
def State.logFull (s : State) (t : Task) : Bool := s.logHolds t 8

/-! ### Proof stores (06 R103, R105) -/

/-- A task's proof-store line. -/
def Task.proofLine (t : Task) (line : Nat) : Option ProofLine := t.proof.find? fun l => l.line == line

/-- A task with a proof-store line put in place. -/
def Task.putProof (t : Task) (l : ProofLine) : Task := { t with proof := l :: t.proof.filter fun k => k.line != l.line }

/-- Bytes read, with the proof store's own put over them: the task's writes and its proof (06 R103, R105). -/
def Task.overlay (t : Task) (va : Nat) (bs : List Byte) : List Byte :=
  if !t.spec then bs
  else
    bs.zipIdx.map fun (b, i) =>
      match t.proofLine ((va + i) / 64) with
      | none => b
      | some l => if (l.written ||| l.proof).getLsbD ((va + i) % 64) then byteOf l.data ((va + i) % 64) else b

/-- The proof-store lines a cluster of the given size holds: 64 bytes each. -/
def State.proofRoom (s : State) (t : Task) : Nat :=
  let used := (s.allTasks.filter fun u => u.cluster == t.cluster).foldl (fun n u => n + u.proof.length) 0
  s.proofszOf t * 16384 - used

/-- The stores a proof-store line merged, after one more: its bytes are no longer the earlier ones'. -/
def keptWith (ps : List ProofPart) (p : ProofPart) : List ProofPart :=
  ((ps.map fun q => { q with mask := q.mask &&& ~~~p.mask }).filter fun q => q.mask != 0) ++ [p]

/-- Bytes of one line piece written into a speculative task's entry, with the descriptor and the page of its checks; none when the
store has no free line (06 R105). -/
def State.proofWrite (s : State) (b : Word) (desc : List Byte) (page : Tlb) (va : Nat) (bs : List Byte) : Option State :=
  let line := va / 64
  let old := s.cur.proofLine line
  if old.isNone && s.proofRoom s.cur == 0 then none
  else
    let l := old.getD ⟨line, 0, 0, 0, []⟩
    let (data, mask) := lineOf (va % 64) bs
    let u := s.logItem (.proof line old)
    some { u with cur := u.cur.putProof { l with
      data := overBytes l.data data mask, written := l.written ||| mask, kept := keptWith l.kept ⟨mask, lineBref b va, desc, page⟩ } }

/-- The access of a member of the focused task: its cluster, and its touching die, the anchor's on a lent die (19 R326). -/
def State.memberAcc (s : State) : Acc :=
  let c := s.cur.cluster
  let lent := (s.die (c / 32)).loan
  { cid := s.cur.cid, cluster := some c,
    die := match lent with
      | none => c / 32
      | some l => match s.ctx? s.cur.cid with | some x => x.vdies.getD l.anchor 0 | none => c / 32 }

end Sys2Proof.Machine
end

