-- ==== Sys2Proof/Machine/Engines.lean ====
section
/-! DEFINITION. The engines that act on their own: pigeonhole slots that fill, copies that move their bytes and complete, and
sync-object grants (04 R75, 12 R230-R234, 05 R87-R89). -/

namespace Sys2Proof.Machine

/-! ### Pigeonhole rings (04 R75) -/

/-- The local address of a slot. -/
def Hole.slotAddr (p : Hole) (i : Nat) : Nat := p.base + 64 * p.slotsz * i

/-- Posted slots at the front of the ring are counted as filled. -/
def Hole.fill (fuel : Nat) (p : Hole) : Hole :=
  match fuel, p.resv with
  | fuel + 1, r :: rest => if r.posted then Hole.fill fuel { p with resv := rest, filled := p.filled + 1 } else p
  | _, _ => p

/-- A ring after some of its slots were posted. -/
def Hole.settled (p : Hole) : Hole := p.fill p.resv.length

/-- Slot TAIL reserved. -/
def Hole.reserve (p : Hole) (auto : Bool) (op : Option Nat) : Hole :=
  { p with tail := (p.tail + 1) % p.count, resv := p.resv ++ [⟨p.tail, false, auto, op, false⟩] }

/-- Slot HEAD taken. -/
def Hole.take (p : Hole) : Hole := { p with head := (p.head + 1) % p.count, filled := p.filled - 1, taken := p.taken + 1 }

/-- The oldest taken slot. -/
def Hole.oldest (p : Hole) : Nat := (p.head + p.count - p.taken) % p.count

/-- The oldest taken slot freed. -/
def Hole.give (p : Hole) : Hole := { p with taken := p.taken - 1 }

/-- Whether `phpost` may post a reserved slot: not posted, not marked, and not reserved with AP = 1. -/
def HoleSlot.postable (r : HoleSlot) : Bool := !r.posted && !r.auto && !r.postOnDone

/-- The first slot of a list that `phpost` may post, posted, or marked while the copy that fills it is in flight (12 R224). -/
def postFirst (rs : List HoleSlot) : Option (List HoleSlot) :=
  match rs with
  | [] => none
  | r :: rest =>
    if r.postable then some ((if r.op.isSome then { r with postOnDone := true } else { r with posted := true }) :: rest)
    else (postFirst rest).map (r :: ·)

/-- A slot whose operation `op` completed is no longer filled by it, and is posted where it is automatic or marked. -/
def HoleSlot.opDone (op : Nat) (r : HoleSlot) : HoleSlot :=
  if r.op = some op then { r with op := none, posted := r.posted || r.auto || r.postOnDone } else r

/-- A ring whose operation `op` completed: an automatic or marked slot is posted. -/
def Hole.opDone (p : Hole) (op : Nat) : Hole :=
  Hole.settled { p with resv := p.resv.map (HoleSlot.opDone op) }

/-- A pigeonhole of a team. -/
def Team.hole (t : Team) (n : Nat) : Hole := t.ph.toList.getD n blankHole

/-- A team with a pigeonhole replaced. -/
def Team.setHole (t : Team) (n : Nat) (p : Hole) : Team := if h : n < 16 then { t with ph := t.ph.set n p h } else t

/-- The focused team's rings after an engine operation of its completed. -/
def State.holesDone (s : State) (op : Nat) : State :=
  s.setTeam { s.cur.team with ph := s.cur.team.ph.map fun p => p.opDone op }

/-! ### Copies (12 R230) -/

/-- The translation kept for an address. -/
def tlbOf (ps : List Tlb) (va : Nat) : Option Tlb := ps.find? fun t => t.va ≤ va && va < t.va + t.size

/-- The page kept for an address. -/
def pageOf (ps : List Tlb) (va : Nat) : Option Page := (tlbOf ps va).map Tlb.page

/-- The bytes of the descriptor of a bref as an operation's checks found it. -/
def keptBytes (ds : List (Nat × List Byte)) (b : Word) : List Byte :=
  match ds.find? fun x => x.1 == brefIndex b with
  | some x => x.2
  | none => []

/-- The descriptor of a bref as an operation's checks found it. -/
def keptDesc (ds : List (Nat × List Byte)) (b : Word) : Desc := parseDesc (keptBytes ds b)

/-- The virtual address of a bref as an operation's checks found it. -/
def keptVa (ds : List (Nat × List Byte)) (b : Word) : Nat := (keptDesc ds b).vbase + brefOff b

/-- The bytes of a descriptor in a context's table. -/
def State.descBytes (s : State) (cid : Nat) (b : Word) : List Byte :=
  match s.ctx? cid with
  | some c => s.fwRead (c.bdt + 64 * brefIndex b) 64
  | none => []

/-- The descriptors of some brefs, kept by an operation already checked (19 R325). -/
def State.keepDescs (s : State) (cid : Nat) (bs : List Word) : List (Nat × List Byte) :=
  (bs.map brefIndex).dedup.map fun i => (i, s.descBytes cid (BitVec.ofNat 64 (i * 2 ^ 52)))

/-- The page a copy translated for an address at its checks. -/
def Copy.page (c : Copy) (va : Nat) : Option Page := pageOf c.pages va

/-- An external operation of the focused task completed: a checkpoint is due at once (20 R351). -/
def State.external (s : State) : State := { s with cur := { s.cur with extSince := true, ckptDue := true } }

/-- The focused task's core frozen until its assay resolves, for want of a free proof-store line (06 R105). -/
def State.freezeFull (s : State) : State :=
  if s.cur.proofFull then s else { s with cur := { s.cur with proofFull := true, fullAt := s.hub.time } }

/-- The access of a copy: through the caches of the focused task's cluster, but for `cprem` (12 R233). -/
def State.copyAcc (s : State) (c : Copy) : Acc := { s.memberAcc with cid := c.cid }

/-- The cluster cache a copy uses. -/
def State.copyCluster (s : State) (c : Copy) : Option Nat := if c.remote then none else some s.cur.cluster

/-- The bref of the byte at a virtual address of a range that a bref of some kept descriptors starts. -/
def keptBref (ds : List (Nat × List Byte)) (b : Word) (va : Nat) : Word := b + BitVec.ofNat 64 va - BitVec.ofNat 64 (keptVa ds b)

/-- The bytes of one line piece of a copy's buffer source; a line in error reads as zeros, and the copy posts KIND 2 for it once
(18 R316). -/
def State.copyPiece (s : State) (c : Copy) (b : Word) (va n : Nat) : State × Copy × List Byte :=
  match c.page va with
  | none => (s, c, List.replicate n 0)
  | some p =>
    let x := s.copyRead (s.copyCluster c) (s.copyAcc c) (keptDesc c.descs b) p va n
    let y : State × Copy := match x.2.2 with
      | none => (x.1, c)
      | some e =>
        if c.bad.contains (p.at va / 64) then (x.1, c)
        else (x.1.postError 2 c.cid e c.cls (lineBref (keptBref c.descs b va) va) c.num 0 (p.at va), { c with bad := p.at va / 64 :: c.bad })
    (y.1, y.2, if c.remote then x.2.1 else y.1.cur.overlay va x.2.1)

/-- Successive bytes of local space as an engine reads them: a line that cannot be read gives zeros (04 R72). -/
def State.engineBytes (s : State) (a n : Nat) : List Byte :=
  if s.clusBad.isEmpty then (List.range n).map fun i => s.storedByte (a + i)
  else (List.range n).map fun i => if s.clusBadAt (a + i) then 0 else s.storedByte (a + i)

/-- The bytes a move reads. -/
def State.moveRead (s : State) (c : Copy) (m : Move) : State × Copy × List Byte :=
  match m.src with
  | .loc a => (s.rebuild a m.len, c, s.engineBytes a m.len)
  | .buf b =>
    (pieces (keptVa c.descs b) m.len).foldl (fun (x : State × Copy × List Byte) p =>
      let y := x.1.copyPiece x.2.1 b p.1 p.2
      (y.1, y.2.1, x.2.2 ++ y.2.2)) (s, c, [])

/-- Bytes of one line piece of a copy's buffer destination; none when the proof store has no room (06 R105). The old bytes at home
are logged first (20 R350), and `cprem` writes its home after the dirty bytes the cluster still holds there (05 R82, 12 R233). -/
def State.copyPut (s : State) (c : Copy) (b : Word) (va : Nat) (bs : List Byte) : Option State :=
  match tlbOf c.pages va with
  | none => some s
  | some t =>
    let name := keptBref c.descs b va
    if s.cur.spec then s.proofWrite name (keptBytes c.descs b) t va bs
    else
      let a := s.copyAcc c
      let d := keptDesc c.descs b
      let s0 := if c.remote then s.invRange s.cur.cluster c.cid va bs.length else s
      let old := (s0.copyRead none a d t.page (va / 64 * 64) 64).2.1
      let s1 := s0.logItem (.buf (va / 64) (lineBref name va) (BitVec.ofNat 512 (leNat old)) (maskOf (va % 64) bs.length) true)
      some (s1.copyWrite (s.copyCluster c) a d t.page name va bs)

/-- A move's bytes written. -/
def State.moveWrite (s : State) (c : Copy) (m : Move) (bs : List Byte) : Option State :=
  match m.dst with
  | .loc a => some (s.setLocalBytes a bs)
  | .buf b =>
    let va := keptVa c.descs b
    (pieces va m.len).foldl (fun (u : Option State) p =>
      match u with
      | none => none
      | some u => u.copyPut c b p.1 ((bs.drop (p.1 - va)).take p.2)) (some s)

/-- Bytes with those read earlier in their places. -/
def putEarly (bs : List Byte) (early : List (Nat × Byte)) : List Byte :=
  bs.zipIdx.map fun b => match early.find? fun e => e.1 == b.2 with
    | some e => e.2
    | none => b.1

/-- Some moves of a copy performed in order, each with the source bytes already read. -/
def State.moveAll (s : State) (c : Copy) (ms : List (Move × List (Nat × Byte))) : Option (State × Copy) :=
  ms.foldl (fun (u : Option (State × Copy)) m =>
    match u with
    | none => none
    | some u =>
      let x := u.1.moveRead u.2 m.1
      (x.1.moveWrite x.2.1 m.1 (putEarly x.2.2 m.2)).map fun v => (v, x.2.1)) (some (s, c))

/-- A buffer range that a copy writes. -/
def Copy.bufWrites (c : Copy) : List (Word × Nat) :=
  c.moves.filterMap fun m => match m.dst with
    | .buf b => some (b, m.len)
    | .loc _ => none

/-- A copy of the focused task completes: the rest of its bytes moves, `cprem` invalidates its destination, its slot is posted, and its
number completes, unless the task is speculative (12 R230, R233, 05 R84). None when the proof store has no room. -/
def State.finishCopy (s : State) (c : Copy) : Option State :=
  match s.moveAll c c.todo with
  | none => none
  | some (u, _) =>
    let u1 := if c.remote then (c.bufWrites.foldl (fun (x : State) r => x.invRange x.cur.cluster c.cid (keptVa c.descs r.1) r.2) u).external else u
    let u2 := { u1.holesDone c.id with copies := u1.copies.filter fun k => k.id != c.id }
    some (if u2.cur.spec then u2 else u2.completePm c.cid c.vdie c.cls c.num)

/-- Every copy of the focused task in flight completes (05 R84). -/
def State.finishCopies (s : State) : State :=
  (s.copies.filter fun c => c.task == s.cur.id).foldl (fun (u : State) c => (u.finishCopy c).getD u) s

/-! ### A copy seen while it moves (04 R69, 05 R80) -/

/-- What of a copy is still to be performed: moves, each with the source bytes already read, by offset. -/
abbrev Todo := List (Move × List (Nat × Byte))

/-- A place some bytes further on. -/
def Place.plus (p : Place) (n : Nat) : Place :=
  match p with
  | .loc a => .loc (a + n)
  | .buf b => .buf (b + BitVec.ofNat 64 n)

/-- Part of a move, with what was already read of it. -/
def partOfMove (m : Move × List (Nat × Byte)) (off n : Nat) : List (Move × List (Nat × Byte)) :=
  if n = 0 then []
  else [(⟨m.1.src.plus off, m.1.dst.plus off, n⟩,
    (m.2.filter fun e => off ≤ e.1 && e.1 < off + n).map fun e => (e.1 - off, e.2))]

/-- What of a move writes the bytes of a virtual range, and what of it does not; of a move into local space, nothing. -/
def cutBuf (ds : List (Nat × List Byte)) (va n : Nat) (m : Move × List (Nat × Byte)) : Todo × Todo :=
  match m.1.dst with
  | .loc _ => ([], [m])
  | .buf b =>
    let lo := max va (keptVa ds b)
    let hi := min (va + n) (keptVa ds b + m.1.len)
    if lo < hi then (partOfMove m (lo - keptVa ds b) (hi - lo), partOfMove m 0 (lo - keptVa ds b) ++ partOfMove m (hi - keptVa ds b) (keptVa ds b + m.1.len - hi))
    else ([], [m])

/-- The writes that a copy performs as one, where a byte at an offset of its `i`-th move is to be written, and what then is still to be
performed. Of local space that is the byte. Of a buffer it is all that the copy writes in the byte's line, in the order of the moves, which
no other agent sees in parts (05 R80). -/
def Copy.atom (c : Copy) (i off : Nat) (m : Move × List (Nat × Byte)) : Todo × Todo :=
  match m.1.dst with
  | .loc _ => (partOfMove m off 1, c.todo.take i ++ partOfMove m 0 off ++ partOfMove m (off + 1) (m.1.len - (off + 1)) ++ c.todo.drop (i + 1))
  | .buf b =>
    let cuts := c.todo.map (cutBuf c.descs ((keptVa c.descs b + off) / 64 * 64) 64)
    (cuts.flatMap Prod.fst, cuts.flatMap Prod.snd)

/-- Whether near-bank scans see a copy as one: at most 512 bytes into one aligned block of 512 on a near-bank page (05 R80). -/
def Copy.whole (c : Copy) : Bool :=
  c.moves.any fun m => match m.dst with
    | .loc _ => false
    | .buf b => (c.moves.foldl (fun n m => n + m.len) 0) ≤ 512 && ((c.page (keptVa c.descs b)).any fun p => p.nb)

/-- The source of a move read ahead in a virtual line: the bytes of the line, which no read sees in parts (05 R80). -/
def State.readLine (x : State × Copy) (line : Nat) (m : Move × List (Nat × Byte)) : (State × Copy) × (Move × List (Nat × Byte)) :=
  match m.1.src with
  | .loc _ => (x, m)
  | .buf b =>
    let va := keptVa x.2.descs b
    let lo := max va (64 * line)
    let hi := min (va + m.1.len) (64 * line + 64)
    if hi ≤ lo || m.2.any fun e => va + e.1 == lo then (x, m)
    else
      let y := x.1.moveRead x.2 ⟨m.1.src.plus (lo - va), m.1.dst.plus (lo - va), hi - lo⟩
      ((y.1, y.2.1), (m.1, (y.2.2.zipIdx.map fun e => (lo - va + e.2, e.1)) ++ m.2))

/-- The whole of a virtual line that a copy still has to read, read ahead for every move of it. -/
def State.readAhead (s : State) (c : Copy) (line : Nat) : State × Copy :=
  let x := c.todo.foldl (fun (x : (State × Copy) × Todo) m =>
    let y := State.readLine x.1 line m
    (y.1, x.2 ++ [y.2])) ((s, c), [])
  (x.1.1, { x.1.2 with todo := x.2 })

/-- The virtual lines of the buffer sources of some moves. -/
def sourceLines (ds : List (Nat × List Byte)) (ms : Todo) : List Nat :=
  ms.flatMap fun m => match m.1.src with
    | .loc _ => []
    | .buf b => (pieces (keptVa ds b) m.1.len).map fun p => p.1 / 64

/-- One atom of a copy's writes performed ahead of the rest, as the lines and local bytes of a copy have no order among them; what it
reads of a buffer it reads by whole lines. -/
def State.copyAhead (s : State) (c : Copy) (i off : Nat) : State :=
  match c.todo[i]? with
  | none => s
  | some m =>
    if m.1.len ≤ off || c.whole then s
    else
      let x := (sourceLines c.descs (c.atom i off m).1).foldl (fun (x : State × Copy) l => x.1.readAhead x.2 l) (s, c)
      match x.2.todo[i]? with
      | none => s
      | some m' =>
        let a := x.2.atom i off m'
        match x.1.moveAll x.2 a.1 with
        | none => s
        | some (u, c') => { u with copies := u.copies.map fun k => if k.id = c.id then { c' with todo := a.2 } else k }

/-- Part of a copy's source read ahead of the rest: a byte of local space, or a line of a buffer. -/
def State.copyEarly (s : State) (c : Copy) (i off : Nat) : State :=
  match c.todo[i]? with
  | none => s
  | some m =>
    if m.1.len ≤ off || c.whole || m.2.any fun e => e.1 == off then s
    else
      let y : State × Copy := match m.1.src with
        | .loc _ =>
          let x := s.moveRead c ⟨m.1.src.plus off, m.1.dst.plus off, 1⟩
          (x.1, { x.2.1 with todo := c.todo.set i (m.1, (off, x.2.2.getD 0 0) :: m.2) })
        | .buf b => s.readAhead c ((keptVa c.descs b + off) / 64)
      { y.1 with copies := y.1.copies.map fun k => if k.id = c.id then y.2 else k }

/-! ### Hazards of a member's own copies (12 R234) -/

/-- Whether a side of a move is a local range that meets [a, a + n). -/
def Place.meetsLocal (p : Place) (len a n : Nat) : Bool :=
  match p with
  | .loc b => meets a n b len
  | .buf _ => false

/-- Whether a side of a move is a buffer range that meets a virtual range. -/
def Place.meetsBuf (ds : List (Nat × List Byte)) (p : Place) (len va n : Nat) : Bool :=
  match p with
  | .loc _ => false
  | .buf b => meets va n (keptVa ds b) len

/-- The focused task's copies of a member in flight. -/
def State.ownCopies (s : State) (w : Who) : List Copy := s.copies.filter fun c => c.task == s.cur.id && c.who == w

/-- Whether a move has still to read its source. -/
def unreadMove (m : Move × List (Nat × Byte)) : Bool := (List.range m.1.len).any fun i => !m.2.any fun e => e.1 == i

/-- Whether a copy has still to read some of its source (05 R83). -/
def Copy.unread (c : Copy) : Bool := c.todo.any unreadMove

/-- Whether a move has still to read bytes of [a, a + n) of its source, which starts at `base`. -/
def unreadIn (m : Move × List (Nat × Byte)) (base a n : Nat) : Bool :=
  meets a n base m.1.len && (List.range m.1.len).any fun i => a ≤ base + i && base + i < a + n && !m.2.any fun e => e.1 == i

/-- Whether a move has still to read bytes of a local range. -/
def unreadLocal (m : Move × List (Nat × Byte)) (a n : Nat) : Bool :=
  match m.1.src with
  | .loc b => unreadIn m b a n
  | .buf _ => false

/-- Whether a move has still to read bytes of a virtual range. -/
def unreadBuf (ds : List (Nat × List Byte)) (m : Move × List (Nat × Byte)) (va n : Nat) : Bool :=
  match m.1.src with
  | .loc _ => false
  | .buf b => unreadIn m (keptVa ds b) va n

/-- Whether a local access must wait for bytes that an earlier copy of the member has not finished with. -/
def State.localHazard (s : State) (w : Who) (a n : Nat) (write : Bool) : Bool :=
  (s.ownCopies w).any fun c => c.todo.any fun m => m.1.dst.meetsLocal m.1.len a n || (write && unreadLocal m a n)

/-- Whether a send of a collective that a member of the focused task issued has still to read or write bytes of a range (05 R82). -/
def State.sendHazard (s : State) (w : Who) (va n : Nat) (write : Bool) : Bool :=
  s.colls.any fun c => c.issued.any fun m => m.task == s.cur.id && m.who == w && c.sends.any fun x =>
    x.sender == m.rank && !x.done
      && (meets va n (keptVa x.descs x.dst) x.len || (write && meets va n (keptVa x.descs x.src) x.len))

/-- Whether a buffer access must wait for bytes that an earlier copy or collective send of the member has not finished with. -/
def State.bufHazard (s : State) (w : Who) (va n : Nat) (write : Bool) : Bool :=
  s.sendHazard w va n write || (s.ownCopies w).any fun c => c.todo.any fun m =>
    m.1.dst.meetsBuf c.descs m.1.len va n || (write && unreadBuf c.descs m va n)

/-- Whether a new move must wait for an earlier copy of the member. -/
def State.moveHazard (s : State) (w : Who) (m : Move) : Bool :=
  let one (p : Place) (write : Bool) : Bool := match p with
    | .loc a => s.localHazard w a m.len write
    | .buf b => s.bufHazard w (s.vaOf s.cur.cid b) m.len write
  one m.src false || one m.dst true

/-! ### The sync-object directory (05 R87, R88) -/

/-- A directory entry after the grant of its head, and of every shared request directly behind a shared grant. -/
def Sync.grant (y : Sync) : Sync :=
  match y.queue with
  | [] => y
  | (id, w, excl) :: rest =>
    if excl then
      (if y.excl.isNone && y.shared.isEmpty then { y with excl := some id, queue := rest, changes := y.changes + 1 } else y)
    else if y.excl.isSome then y
    else
      let same := (id, w, excl) :: rest.takeWhile fun q => !q.2.2
      { y with shared := y.shared ++ same.map (·.1), queue := rest.dropWhile fun q => !q.2.2, changes := y.changes + 1 }

/-- Whether a task holds an object. -/
def Sync.holds (y : Sync) (id : Nat) : Bool := y.excl == some id || y.shared.contains id

/-- A directory entry after a task's hold on it ends. -/
def Sync.drop (y : Sync) (id : Nat) : Sync :=
  if y.holds id then
    { y with excl := if y.excl = some id then none else y.excl, shared := y.shared.filter (· != id), changes := y.changes + 1 }
  else y

/-- The directory's entry of an object. -/
def State.sync? (s : State) (cid va : Nat) : Option Sync := s.syncs.find? fun y => y.cid == cid && y.va == va

/-- The directory with an entry replaced, or retired when nobody holds it or waits (05 R87). -/
def State.setSync (s : State) (y : Sync) : State :=
  let rest := s.syncs.filter fun z => !(z.cid == y.cid && z.va == y.va)
  { s with syncs := if y.excl.isNone && y.shared.isEmpty && y.queue.isEmpty then rest else y :: rest }

end Sys2Proof.Machine
end

