-- ==== Sys2Proof/Machine/NearBank.lean ====
section
/-! DEFINITION. Near-bank queries at their memory die: what the bank engines compute, when a query is accepted, and how its records
reach their slots (07 R114-R131). -/

namespace Sys2Proof.Machine

/-- Bytes of an element of a query's format. -/
def queryElt (fmt : Nat) : Nat := if fmt = 2 then 2 else 1

/-- The state with a pigeonhole of the focused team replaced. -/
def State.setHole (s : State) (n : Nat) (p : Hole) : State := s.setTeam (s.cur.team.setHole n p)

/-! ### Near-bank queries (07 R114-R129) -/

/-- An FP32 code as a value. -/
def f32 (c : Nat) : Val := fp32.decode c

/-- A value rounded to FP32 under RNE with IEEE overflow (07 R120). -/
def nbRound (v : Val) : Nat := (fp32.round 0 true 0 v).1

/-- E2 of 07 R120. -/
def e2Of (c : Nat) : Nat :=
  match f32 c with
  | .nan => 0x7FC00000
  | .inf true => 0
  | .inf false => 0x7F800000
  | .num n m e =>
    let x := exp2Num n m e
    (fp32.roundNum 0 true 0 false x.1 x.2.1 x.2.2).1

/-- The FP32 difference of two codes. -/
def sub32 (a b : Nat) : Nat := nbRound ((f32 a).add false (f32 b).flip).1

/-- The registers of a bank engine: M, S, the keys counted, ACC, and whether a score was not finite (07 R120). -/
structure EngineRun where
  m : Nat
  s : Nat
  n : Nat
  acc : List Nat
  bad : Bool
deriving DecidableEq, Repr

/-- A bank engine before its first key. -/
def freshRun (dim : Nat) : EngineRun := ⟨0xFF800000, 0, 0, List.replicate dim 0, false⟩

/-- The score of a key: the fused dot product from the first element on, scaled (07 R120). -/
def scoreOf (fmt scale : Nat) (q k : List Nat) : Nat :=
  let dot := (q.zip k).foldl (fun acc p => nbRound ((decodeElem fmt p.1).fma false (decodeElem fmt p.2) (f32 acc)).1) 0
  nbRound ((f32 dot).mul (f32 scale)).1

/-- One key of the loop of 07 R120. -/
def EngineRun.key (fmt scale : Nat) (q : List Nat) (r : EngineRun) (kv : List Nat × List Nat) : EngineRun :=
  let sc := scoreOf fmt scale q kv.1
  if !(f32 sc).finite then { r with n := r.n + 1, bad := true }
  else
    let up := (f32 sc).cmp (f32 r.m) > 0
    let f := e2Of (sub32 r.m sc)
    let s1 := if up then nbRound ((f32 r.s).mul (f32 f)).1 else r.s
    let acc1 := if up then r.acc.map fun a => nbRound ((f32 a).mul (f32 f)).1 else r.acc
    let m := if up then sc else r.m
    let w := e2Of (sub32 sc m)
    { r with m := m, s := nbRound ((f32 s1).add false (f32 w)).1, n := r.n + 1,
             acc := (acc1.zip kv.2).map fun p => nbRound ((f32 w).fma false (decodeElem fmt p.2) (f32 p.1)).1 }

/-- The bytes of a record (07 R121). -/
def recordBytes (m s status row bank keys : Nat) (acc : List Nat) : List Byte :=
  leBytes 4 m ++ leBytes 4 s ++ leBytes 2 (status + 16 * row) ++ leBytes 2 bank ++ leBytes 4 keys ++ acc.flatMap (leBytes 4)

/-- A record that adds nothing to a merge (07 R121). -/
def emptyRecord (status row bank dim : Nat) : List Byte := recordBytes 0xFF800000 0 status row bank 0 (List.replicate dim 0)

/-- The record spacing of a query. -/
def Query.rs (q : Query) : Nat := 2 ^ q.rslog

/-- The bytes of a record that an engine reads. -/
def Query.used (q : Query) : Nat := q.dim * queryElt q.fmt

/-- The keys that an engine holds, ascending (07 R115, R116). -/
def Query.keysOf (q : Query) (e : Nat) : List Nat :=
  (List.range q.nkeys).filter fun j => (q.koff + j * q.rs) / 512 % 256 == e

/-- The element codes of a record at a page offset. -/
def State.nbCodes (s : State) (q : Query) (off : Nat) : List Nat :=
  let k := queryElt q.fmt
  (List.range q.dim).map fun i => leNat (bytesAt s.mem (q.frame + off + k * i) k)

/-- Why one half of a line fails for a bank engine: an error correction of the other half is not its own (07 R115, R126). -/
def State.atomError (s : State) (cid slot pa : Nat) (hi : Bool) : Option Nat :=
  if s.damageAt pa = some (.eccAtom !hi) then (s.heal pa).readError cid slot pa else s.readError cid slot pa

/-- The atoms of a query's records in an engine that fail: row index, page offset of the line, and the line's failure (07 R115, R123, R126). -/
def State.nbAtoms (s : State) (q : Query) (e : Nat) : List (Nat × Nat × Nat) :=
  let at_ (b : Word) (off : Nat) : List (Nat × Nat × Nat) :=
    let atoms := (List.range ((off + q.used - 1) / 32 - off / 32 + 1)).map fun i => off / 32 + i
    atoms.filterMap fun a => match s.atomError q.cid (keptDesc q.descs b).keyslot (q.frame + a / 2 * 64) (a % 2 == 1) with
      | some code => some (4 * e + a % 4, a / 2 * 64, code)
      | none => none
  (q.keysOf e).flatMap fun j => at_ q.kref (q.koff + j * q.rs) ++ at_ q.vref (q.voff + j * q.rs)

/-- The record an engine forms (07 R120, R126). Where the lowest failing row has both MAC and counter failures, ERROR names the first of
them in the order of the keys, a key's record before its value; the row's first failing line is the one of the lowest offset in the page
(DESIGN CHOICE, log 76). -/
def State.nbForm (s : State) (q : Query) (e : Nat) : NbRecord :=
  match s.nbAtoms q e with
  | a :: rest =>
    let row := rest.foldl (fun m x => min m x.1) a.1
    let fails := (a :: rest).filter fun x => x.1 == row
    let line := fails.foldl (fun m x => min m x.2.1) (fails.headD a).2.1
    let kinds := (fails.filter fun x => x.2.2 != 1).map fun x => x.2.2
    let status := if kinds.isEmpty then 2 else 3
    ⟨e, status, row, 0, emptyRecord status row e q.dim, kinds.headD 1, line, false⟩
  | [] =>
    let k := queryElt q.fmt
    let qs := (List.range q.dim).map fun i => leNat ((q.q.drop (k * i)).take k)
    let r := (q.keysOf e).foldl (fun (r : EngineRun) j =>
      r.key q.fmt q.scale.toNat qs (s.nbCodes q (q.koff + j * q.rs), s.nbCodes q (q.voff + j * q.rs))) (freshRun q.dim)
    if r.bad then ⟨e, 1, 0, r.n, recordBytes 0x7FC00000 0x7FC00000 1 0 e r.n (List.replicate q.dim 0x7FC00000), 0, 0, false⟩
    else ⟨e, 0, 0, r.n, recordBytes r.m r.s 0 0 e r.n r.acc, 0, 0, false⟩

/-- The state with a query replaced. -/
def State.setQuery (s : State) (q : Query) : State := { s with queries := s.queries.map fun r => if r.id = q.id then q else r }

/-- Accepted queries of a stack. -/
def State.nbLoad (s : State) (stack : Nat) : Nat := (s.queries.filter fun q => q.accepted && stackOf q.frame == stack).length

/-- A reserved slot of a query posted. -/
def HoleSlot.fillOf (op slot : Nat) (r : HoleSlot) : HoleSlot :=
  if r.op = some op ∧ r.slot = slot then { r with op := none, posted := true } else r

/-- A record of a query written into its slot and the slot posted, where the focused team still reserves it (07 R119). -/
def State.fillSlot (s : State) (q : Query) (i : Nat) (bs : List Byte) : State :=
  let slot := q.slots.getD i 0
  let p := s.cur.team.hole q.hole
  if p.resv.any fun r => r.op == some q.id && r.slot == slot then
    (s.setLocalBytes (p.slotAddr slot) bs).setHole q.hole (Hole.settled { p with resv := p.resv.map (HoleSlot.fillOf q.id slot) })
  else s

/-- The bref of a line of a page, as the query named it (07 R126): of a line that begins before KREF, KREF less the difference (DESIGN CHOICE,
log 97). -/
def Query.lineRef (q : Query) (line : Nat) : Word :=
  if line < q.koff + q.nkeys * q.rs ∧ q.koff < line + 64 then q.kref + BitVec.ofNat 64 line - BitVec.ofNat 64 q.koff
  else q.vref + BitVec.ofNat 64 line - BitVec.ofNat 64 q.voff

/-- The package time of an engine cycle, in units of 1/16 ns (07 R114). -/
def engineCycle : Nat := 20

/-- A stack whose scan credit has been refilled to the present (07 R129). -/
def Stack.refilled (m : Stack) (now : Nat) : Stack :=
  let rate := if m.halved then 64 else 128
  { m with credit := min 409600 (m.credit + ((now - m.creditAt) * rate / engineCycle : Nat)), creditAt := now }

/-- The engine cycles of a scan: four atoms a cycle from four banks, keys and values (07 R114). The manual gives no amount of the
credit that a scan spends (DESIGN CHOICE, log 75). -/
def Query.cycles (q : Query) (e : Nat) : Nat := (2 * (q.keysOf e).length * ((q.used + 31) / 32) + 3) / 4

/-- One engine's record of an accepted query written (07 R119, R121, R126, R127). -/
def State.nbPost (s : State) (q : Query) (i : Nat) (r : NbRecord) : State :=
  let r1 : NbRecord := if q.cancelled then { r with status := 4, row := 0, keys := 0, bytes := emptyRecord 4 0 r.engine q.dim } else r
  let s1 := if r1.status = 2 ∨ r1.status = 3 then
      s.postError 4 q.cid r1.error 3 (q.lineRef r1.line) q.num r1.row (q.frame + r1.line)
    else s
  let rs := q.records.map fun x => if x.engine = r.engine then { r1 with posted := true } else x
  (s1.setQuery { q with records := rs }).withTask q.task fun u => u.fillSlot q i r1.bytes

/-- The summary record of a query (07 R121). -/
def Query.summary (q : Query) : List Byte :=
  let part := q.records.any fun r => r.status == 2 || r.status == 3
  recordBytes 0 0 (if q.cancelled then 2 else if part then 1 else 0) 0 0xFFFF ((q.records.map NbRecord.keys).sum) (List.replicate q.dim 0)

/-- The lines of the records of a query that an engine reads, as physical addresses. -/
def Query.lines (q : Query) : List Nat :=
  (List.range q.nkeys).flatMap fun j =>
    ((pieces (q.koff + j * q.rs) q.used) ++ pieces (q.voff + j * q.rs) q.used).map fun p => q.frame + p.1

/-- A query accepted, behind those accepted earlier: its engines' records are formed from memory as it stands, after what reached its
lines before (07 R125). -/
def State.nbAccept (s : State) (q : Query) : State :=
  let s0 := q.lines.foldl State.settle (s.cross q.cid (s.dieOf q.cid q.vdie) q.frame)
  let m := s0.mdie (stackOf q.frame)
  let s1 := s0.setMdie (stackOf q.frame) { m with refreshed := m.refreshed.filter fun b => !q.engines.contains b.1 }
  { s1 with queries := (s1.queries.filter fun r => r.id != q.id) ++ [{ q with accepted := true, records := q.engines.map (s1.nbForm q) }] }

/-- Whether an engine has served every query of its stack accepted before one (07 R125). -/
def State.nbTurn (s : State) (q : Query) (e : Nat) : Bool :=
  (s.queries.takeWhile fun r => r.id != q.id).all fun r =>
    !r.accepted || stackOf r.frame != stackOf q.frame || r.records.all fun x => x.engine != e || x.posted

/-- The next record of a query written, where it is that engine's turn and credit is left (07 R119, R125, R129). The scan spends its
cycles even where less credit is left, so that the next engine waits for it to be earned. -/
def State.nbEngine (s : State) (q : Query) (e : Nat) : State :=
  let stack := stackOf q.frame
  let m := (s.mdie stack).refilled s.hub.time
  match q.records.find? fun r => !r.posted with
  | none => s
  | some r =>
    if r.engine = e ∧ s.nbTurn q e ∧ (q.cancelled ∨ 0 < m.credit) then
      let used : Int := if q.cancelled then 0 else q.cycles e
      (s.setMdie stack { m with credit := m.credit - used }).nbPost q (q.engines.findIdx (· == e)) r
    else s

/-- A query completed (07 R119). -/
def State.nbFinish (s : State) (q : Query) : State :=
  let s1 := s.withTask q.task fun u => u.fillSlot q q.engines.length q.summary
  ({ s1 with queries := s1.queries.filter fun r => r.id != q.id }).completePm q.cid q.vdie 3 q.num

/-- The queries of the focused task go on without it: a discarded team does not abandon them, they are served in their turn, and their
records find no slot of a team left to be seen in (05 R84, 07 R125, R131). The number they then name their task by is no task's. -/
def State.leaveQueries (s : State) : State :=
  if s.queries.any fun q => q.task == s.cur.id then
    { s with nextId := s.nextId + 1, queries := s.queries.map fun q => if q.task = s.cur.id then { q with task := s.nextId } else q }
  else s

/-- What a memory die that fails had accepted of queries: the records still to be formed are ERR (07 R126, 19 R335, 21 R364). -/
def State.failQueries (s : State) (m : Nat) : State :=
  { s with queries := s.queries.map fun q =>
      if q.accepted ∧ stackOf q.frame = m then { q with records := q.records.map fun r => if r.posted then r else s.nbForm q r.engine }
      else q }

end Sys2Proof.Machine
end

