-- ==== Sys2Proof/Machine/Crypto.lean ====
section
/-! DEFINITION. The published algorithms the keys and images use: SHAKE256 and its kin (FIPS 202), AES-256 (FIPS 197) and GCM
(NIST SP 800-38D), as 13 R263 and 22 R367 name them. -/

namespace Sys2Proof.Machine

/-! ### SHAKE256 -/

/-- The round constants of Keccak-f[1600]. -/
def keccakRc : List Word :=
  [0x0000000000000001, 0x0000000000008082, 0x800000000000808A, 0x8000000080008000, 0x000000000000808B, 0x0000000080000001,
   0x8000000080008081, 0x8000000000008009, 0x000000000000008A, 0x0000000000000088, 0x0000000080008009, 0x000000008000000A]
  ++ [0x000000008000808B, 0x800000000000008B, 0x8000000000008089, 0x8000000000008003, 0x8000000000008002, 0x8000000000000080,
   0x000000000000800A, 0x800000008000000A, 0x8000000080008081, 0x8000000000008080, 0x0000000080000001, 0x8000000080008008]

/-- The rotation of lane x + 5 y. -/
def keccakRho : List Nat :=
  [0, 1, 62, 28, 27, 36, 44, 6, 55, 20, 3, 10, 43, 25, 39, 41, 45, 15, 21, 8, 18, 2, 61, 56, 14]

/-- A lane of a state. -/
def lane (a : List Word) (x y : Nat) : Word := a.getD (x % 5 + 5 * (y % 5)) 0

/-- One round: theta, rho and pi, chi, iota. -/
def keccakRound (a : List Word) (rc : Word) : List Word :=
  let c := (List.range 5).map fun x => lane a x 0 ^^^ lane a x 1 ^^^ lane a x 2 ^^^ lane a x 3 ^^^ lane a x 4
  let d := (List.range 5).map fun x => c.getD ((x + 4) % 5) 0 ^^^ (c.getD ((x + 1) % 5) 0).rotateLeft 1
  let t := (List.range 25).map fun i => a.getD i 0 ^^^ d.getD (i % 5) 0
  -- B[y, 2x + 3y] = rot(A[x, y]): lane (x', y') comes from x = x' + 3 y', y = x'
  let b := (List.range 25).map fun i =>
    let x := (i % 5 + 3 * (i / 5)) % 5
    let y := i % 5
    (t.getD (x + 5 * y) 0).rotateLeft (keccakRho.getD (x + 5 * y) 0)
  (List.range 25).map fun i =>
    let v := lane b (i % 5) (i / 5) ^^^ (~~~(lane b (i % 5 + 1) (i / 5)) &&& lane b (i % 5 + 2) (i / 5))
    if i = 0 then v ^^^ rc else v

/-- The permutation. -/
def keccakF (a : List Word) : List Word := keccakRc.foldl keccakRound a

/-- A block of at most 200 bytes mixed into a state. -/
def keccakAbsorb (a : List Word) (bs : List Byte) : List Word :=
  keccakF (a.zipIdx.map fun vi => vi.1 ^^^ BitVec.ofNat 64 (leNat ((bs.drop (8 * vi.2)).take 8)))

/-- The blocks of a message padded for a rate, the byte `dom` standing behind its end. -/
def spongeBlocks (rate : Nat) (dom : Byte) (fuel : Nat) (bs : List Byte) : List (List Byte) :=
  match fuel with
  | 0 => []
  | fuel + 1 =>
    if bs.length < rate then
      let p := bs ++ [dom] ++ List.replicate (rate - 1 - bs.length) 0
      [p.take (rate - 1) ++ [p.getD (rate - 1) 0 ||| 0x80]]
    else bs.take rate :: spongeBlocks rate dom fuel (bs.drop rate)

/-- The bytes of a state. -/
def keccakBytes (a : List Word) : List Byte := a.flatMap fun v => leBytes 8 v.toNat

/-- `k` blocks of the output that a state gives. -/
def squeeze (rate k : Nat) (a : List Word) : List Byte :=
  match k with
  | 0 => []
  | k + 1 => (keccakBytes a).take rate ++ squeeze rate k (keccakF a)

/-- The sponge of a rate: the first `n` bytes of output. -/
def sponge (rate : Nat) (dom : Byte) (bs : List Byte) (n : Nat) : List Byte :=
  let a := (spongeBlocks rate dom (bs.length / rate + 1) bs).foldl keccakAbsorb (List.replicate 25 0)
  (squeeze rate ((n + rate - 1) / rate) a).take n

/-- SHAKE256 of some bytes: the first `n` bytes of output. -/
def shake256 (bs : List Byte) (n : Nat) : List Byte := sponge 136 0x1F bs n

/-- SHAKE128 of some bytes. -/
def shake128 (bs : List Byte) (n : Nat) : List Byte := sponge 168 0x1F bs n

/-- SHA3-256 and SHA3-512 of some bytes. -/
def sha3 (bits : Nat) (bs : List Byte) : List Byte := sponge (200 - bits / 4) 0x06 bs (bits / 8)

/-! ### AES-256 -/

/-- A byte doubled in GF(2^8). -/
def gfDouble (a : Byte) : Byte := (a <<< 1) ^^^ (if a.getLsbD 7 then 0x1B else 0)

/-- The product in GF(2^8), bit by bit of the second factor. -/
def gfMul (k : Nat) (a b : Byte) : Byte :=
  match k with
  | 0 => 0
  | k + 1 => (if b.getLsbD 0 then a else 0) ^^^ gfMul k (gfDouble a) (b >>> 1)

/-- A power in GF(2^8). -/
def gfPow (a : Byte) (n : Nat) : Byte :=
  match n with
  | 0 => 1
  | n + 1 => gfMul 8 a (gfPow a n)

/-- SubBytes of one byte: the inverse, then the affine map. -/
def aesSub (a : Byte) : Byte :=
  let b := gfPow a 254
  b ^^^ b.rotateLeft 1 ^^^ b.rotateLeft 2 ^^^ b.rotateLeft 3 ^^^ b.rotateLeft 4 ^^^ 0x63

/-- The key schedule: words from the eight of the key, most recent first. -/
def aesSchedule (n : Nat) (rcon : Byte) (ws : List (List Byte)) : List (List Byte) :=
  match n with
  | 0 => ws
  | n + 1 =>
    let i := ws.length
    let t := ws.getD 0 []
    let t := if i % 8 = 0 then
        let r := (t.drop 1 ++ t.take 1).map aesSub
        match r with
        | x :: rest => (x ^^^ rcon) :: rest
        | [] => []
      else if i % 8 = 4 then t.map aesSub else t
    let w := List.zipWith (· ^^^ ·) (ws.getD 7 []) t
    aesSchedule n (if i % 8 = 0 then gfDouble rcon else rcon) (w :: ws)

/-- The round keys of a 32-byte key, sixteen bytes each. -/
def aesKeys (key : List Byte) : List (List Byte) :=
  let ws := ((List.range 8).map fun i => (key.drop (4 * i)).take 4).reverse
  let all := (aesSchedule 52 1 ws).reverse
  (List.range 15).map fun r => ((all.drop (4 * r)).take 4).flatten

/-- SubBytes and ShiftRows: byte r + 4 c comes from column c + r. -/
def aesShift (s : List Byte) : List Byte :=
  (List.range 16).map fun i => aesSub (s.getD (i % 4 + 4 * ((i / 4 + i % 4) % 4)) 0)

/-- MixColumns. -/
def aesMix (s : List Byte) : List Byte :=
  (List.range 16).map fun i =>
    let g (k : Nat) := s.getD (i / 4 * 4 + (i + k) % 4) 0
    gfDouble (g 0) ^^^ (gfDouble (g 1) ^^^ g 1) ^^^ g 2 ^^^ g 3

/-- Two blocks added. -/
def addBytes (a b : List Byte) : List Byte := List.zipWith (· ^^^ ·) a b

/-- AES-256 of a 16-byte block. -/
def aes256 (key block : List Byte) : List Byte :=
  match aesKeys key with
  | [] => []
  | k0 :: ks =>
    let s := (ks.take 13).foldl (fun s k => addBytes (aesMix (aesShift s)) k) (addBytes block k0)
    addBytes (aesShift s) (ks.getD 13 [])

/-! ### GCM -/

/-- A block as a number, its first byte the most significant. -/
def beNat (bs : List Byte) : Nat := bs.foldl (fun n b => 256 * n + b.toNat) 0

/-- A number as `n` bytes, the first the most significant. -/
def beBytes (n v : Nat) : List Byte := (leBytes n v).reverse

/-- The product of GHASH: `x` taken from its first bit on. -/
def ghashMul (k : Nat) (x v z : BitVec 128) : BitVec 128 :=
  match k with
  | 0 => z
  | k + 1 =>
    ghashMul k (x <<< 1) ((v >>> 1) ^^^ (if v.getLsbD 0 then (0xE1 : BitVec 128) <<< 120 else 0)) (if x.getLsbD 127 then z ^^^ v else z)

/-- Bytes cut into blocks of sixteen, the last padded with zeros. -/
def blocks16 (fuel : Nat) (bs : List Byte) : List (List Byte) :=
  match fuel with
  | 0 => []
  | fuel + 1 => if bs.isEmpty then [] else (bs.take 16 ++ List.replicate (16 - bs.length) 0) :: blocks16 fuel (bs.drop 16)

/-- GHASH of additional data and ciphertext under a hash key. -/
def ghash (h : BitVec 128) (aad ct : List Byte) : BitVec 128 :=
  let step (y : BitVec 128) (b : List Byte) : BitVec 128 := ghashMul 128 (y ^^^ BitVec.ofNat 128 (beNat b)) h 0
  let y := (blocks16 (aad.length + 1) aad).foldl step 0
  let y := (blocks16 (ct.length + 1) ct).foldl step y
  step y (beBytes 8 (8 * aad.length) ++ beBytes 8 (8 * ct.length))

/-- Counter-mode bytes from block counter `n` of a 12-byte IV. -/
def gcmStream (key iv : List Byte) (n : Nat) (bs : List Byte) : List Byte :=
  ((blocks16 (bs.length + 1) bs).zipIdx.flatMap fun b => addBytes b.1 (aes256 key (iv ++ beBytes 4 (n + b.2)))).take bs.length

/-- The GCM tag of a ciphertext. -/
def gcmTag (key iv aad ct : List Byte) : List Byte :=
  let h := BitVec.ofNat 128 (beNat (aes256 key (List.replicate 16 0)))
  addBytes (beBytes 16 (ghash h aad ct).toNat) (aes256 key (iv ++ beBytes 4 1))

/-- Authenticated encryption: the ciphertext and its tag. -/
def gcmSeal (key iv aad pt : List Byte) : List Byte × List Byte :=
  let ct := gcmStream key iv 2 pt
  (ct, gcmTag key iv aad ct)

/-- The plaintext of a ciphertext. -/
def gcmOpen (key iv ct : List Byte) : List Byte := gcmStream key iv 2 ct

end Sys2Proof.Machine
end

