-- ==== Sys2Proof/Machine/Lattice.lean ====
section
/-! DEFINITION. The two lattice algorithms that 22 R378 and R379 name: ML-KEM-1024 (FIPS 203) and ML-DSA-65 (FIPS 204), by the names and
parameters of those standards. A polynomial is the list of its 256 coefficients, each below the modulus. -/

namespace Sys2Proof.Machine

/-! ### Bits, and polynomials modulo q -/

/-- The numbers of `d` bits each that some bytes hold, the least significant bit first. -/
def unpackBits (d count : Nat) (bs : List Byte) : List Nat :=
  let v := leNat bs
  (List.range count).map fun i => v / 2 ^ (d * i) % 2 ^ d

/-- Numbers of `d` bits each as bytes. -/
def packBits (d : Nat) (ns : List Nat) : List Byte :=
  leBytes (d * ns.length / 8) (ns.foldr (fun n v => n % 2 ^ d + 2 ^ d * v) 0)

/-- The `bits` low bits of a number in reversed order. -/
def bitReverse (bits n : Nat) : Nat := (List.range bits).foldl (fun v i => 2 * v + n / 2 ^ i % 2) 0

/-- A power modulo q. -/
def powMod (q a n : Nat) : Nat :=
  match n with
  | 0 => 1
  | n + 1 => a * powMod q a n % q

/-- The sum of two polynomials. -/
def polyAdd (q : Nat) (a b : List Nat) : List Nat := List.zipWith (fun x y => (x + y) % q) a b

/-- Their difference. -/
def polySub (q : Nat) (a b : List Nat) : List Nat := List.zipWith (fun x y => (x + (q - y % q)) % q) a b

/-- The value at a point of the polynomial with some coefficients. -/
def polyAt (q r : Nat) (f : List Nat) : Nat := f.foldr (fun c v => (c + r * v) % q) 0

/-- The sums of v r^j over some pairs (v, r), for j below `n`. -/
def powerSums (q n : Nat) (vs : List (Nat × Nat)) : List Nat :=
  match n with
  | 0 => []
  | n + 1 => vs.foldl (fun t v => (t + v.1) % q) 0 :: powerSums q n (vs.map fun v => (v.1 * v.2 % q, v.2))

/-- The coefficients of the polynomial below a degree that has some values at the roots `rs`, which are the inverses of `inv`. -/
def interpolate (q scale : Nat) (inv vs : List Nat) : List Nat := (powerSums q vs.length (vs.zip inv)).map fun v => v * scale % q

/-- The sum of products, entry by entry, of a row and a vector of polynomials. -/
def rowTimes (q : Nat) (mul : List Nat → List Nat → List Nat) (row v : List (List Nat)) : List Nat :=
  (List.zipWith mul row v).foldl (polyAdd q) (List.replicate 256 0)

/-! ### ML-KEM-1024 -/

/-- The modulus of ML-KEM. -/
def kemQ : Nat := 3329

/-- The roots of FIPS 203's transform: 17^(2 BitRev7(i) + 1). -/
def kemRoots : List Nat := (List.range 128).map fun i => powMod kemQ 17 (2 * bitReverse 7 i + 1)

/-- Their inverses, 17 being of order 256. -/
def kemInverses : List Nat := (List.range 128).map fun i => powMod kemQ 17 (255 - 2 * bitReverse 7 i)

/-- Every second coefficient, from the first or from the second. -/
def alternate (k : Nat) (f : List Nat) : List Nat := (List.range 128).map fun i => f.getD (2 * i + k) 0

/-- Two lists of 128 woven into one. -/
def weave (a b : List Nat) : List Nat := (List.zipWith (fun x y => [x, y]) a b).flatten

/-- NTT: the residues of a polynomial modulo X^2 - r for the 128 roots r. -/
def kemNtt (f : List Nat) : List Nat :=
  weave (kemRoots.map fun r => polyAt kemQ r (alternate 0 f)) (kemRoots.map fun r => polyAt kemQ r (alternate 1 f))

/-- The inverse of NTT; 3303 is the inverse of 128. -/
def kemInverse (f : List Nat) : List Nat :=
  weave (interpolate kemQ 3303 kemInverses (alternate 0 f)) (interpolate kemQ 3303 kemInverses (alternate 1 f))

/-- MultiplyNTTs: the products modulo X^2 - r. -/
def kemMul (f g : List Nat) : List Nat :=
  (List.range 128).flatMap fun i =>
    let a (k : Nat) := f.getD (2 * i + k) 0
    let b (k : Nat) := g.getD (2 * i + k) 0
    [(a 0 * b 0 + a 1 * b 1 % kemQ * kemRoots.getD i 0) % kemQ, (a 0 * b 1 + a 1 * b 0) % kemQ]

/-- Bytes cut by threes. -/
def threes (n : Nat) (bs : List Byte) : List (Nat × Nat × Nat) :=
  (List.range n).map fun i => ((bs.getD (3 * i) 0).toNat, (bs.getD (3 * i + 1) 0).toNat, (bs.getD (3 * i + 2) 0).toNat)

/-- SampleNTT, from at most 280 triples of bytes (FIPS 203, Appendix B). -/
def kemSample (seed : List Byte) : List Nat :=
  let ds := (threes 280 (shake128 seed 840)).flatMap fun c => [c.1 + 256 * (c.2.1 % 16), c.2.1 / 16 + 16 * c.2.2]
  (ds.filter fun d => d < kemQ).take 256

/-- The matrix of a seed: entry (i, j) from the seed, j and i. -/
def kemMatrix (rho : List Byte) : List (List (List Nat)) :=
  (List.range 4).map fun i => (List.range 4).map fun j => kemSample (rho ++ leBytes 1 j ++ leBytes 1 i)

/-- SamplePolyCBD of PRF, both for 2. -/
def kemNoise (seed : List Byte) (n : Nat) : List Nat :=
  let bs := unpackBits 1 1024 (shake256 (seed ++ leBytes 1 n) 128)
  (List.range 256).map fun i => (bs.getD (4 * i) 0 + bs.getD (4 * i + 1) 0 + kemQ - bs.getD (4 * i + 2) 0 - bs.getD (4 * i + 3) 0) % kemQ

/-- Four noise polynomials from a number on. -/
def kemNoises (seed : List Byte) (n : Nat) : List (List Nat) := (List.range 4).map fun i => kemNoise seed (n + i)

/-- Compress to `d` bits. -/
def kemCompress (d x : Nat) : Nat := (2 ^ (d + 1) * x + kemQ) / (2 * kemQ) % 2 ^ d

/-- Decompress from `d` bits. -/
def kemDecompress (d y : Nat) : Nat := (2 * kemQ * y + 2 ^ d) / 2 ^ (d + 1)

/-- The four polynomials of `d` bits a coefficient that some bytes hold. -/
def kemVector (d : Nat) (bs : List Byte) : List (List Nat) :=
  (List.range 4).map fun i => unpackBits d 256 ((bs.drop (32 * d * i)).take (32 * d))

/-- The encapsulation key and the decryption key of a seed (K-PKE.KeyGen). -/
def kemKeys (d : List Byte) : List Byte × List Byte :=
  let g := sha3 512 (d ++ [4])
  let rho := g.take 32
  let s := (kemNoises (g.drop 32) 0).map kemNtt
  let e := (kemNoises (g.drop 32) 4).map kemNtt
  let t := List.zipWith (fun row e => polyAdd kemQ (rowTimes kemQ kemMul row s) e) (kemMatrix rho) e
  (t.flatMap (packBits 12) ++ rho, s.flatMap (packBits 12))

/-- K-PKE.Encrypt of 32 bytes. -/
def kemEncrypt (ek m r : List Byte) : List Byte :=
  let t := kemVector 12 ek
  let a := kemMatrix (ek.drop 1536)
  let y := (kemNoises r 0).map kemNtt
  let column (i : Nat) : List (List Nat) := a.map fun row => row.getD i []
  let u := (List.range 4).map fun i => polyAdd kemQ (kemInverse (rowTimes kemQ kemMul (column i) y)) (kemNoise r (4 + i))
  let mu := (unpackBits 1 256 m).map (kemDecompress 1)
  let v := polyAdd kemQ (polyAdd kemQ (kemInverse (rowTimes kemQ kemMul t y)) (kemNoise r 8)) mu
  u.flatMap (fun f => packBits 11 (f.map (kemCompress 11))) ++ packBits 5 (v.map (kemCompress 5))

/-- K-PKE.Decrypt. -/
def kemDecrypt (dk c : List Byte) : List Byte :=
  let u := (kemVector 11 c).map fun f => f.map (kemDecompress 11)
  let v := (unpackBits 5 256 (c.drop 1408)).map (kemDecompress 5)
  let w := polySub kemQ v (kemInverse (rowTimes kemQ kemMul (kemVector 12 dk) (u.map kemNtt)))
  packBits 1 (w.map (kemCompress 1))

/-- Whether an encapsulation key passes FIPS 203's check: its length, and every coefficient below the modulus. -/
def kemKeyOk (ek : List Byte) : Bool := ek.length == 1568 && (kemVector 12 ek).all fun f => f.all fun c => c < kemQ

/-- ML-KEM.Encaps with 32 random bytes: the ciphertext and the shared secret. -/
def kemEncaps (ek m : List Byte) : List Byte × List Byte :=
  let g := sha3 512 (m ++ sha3 256 ek)
  (kemEncrypt ek m (g.drop 32), g.take 32)

/-- ML-KEM.Decaps under the keys of a seed: the shared secret, or, for a ciphertext that is not the one its plaintext gives, what `z` and
the ciphertext give. -/
def kemDecaps (d z c : List Byte) : List Byte :=
  let k := kemKeys d
  let m := kemDecrypt k.2 c
  let x := kemEncaps k.1 m
  if x.1 == c then x.2 else shake256 (z ++ c) 32

/-! ### ML-DSA-65 -/

/-- The modulus of ML-DSA. -/
def dsaQ : Nat := 8380417

/-- The roots of FIPS 204's transform: 1753^(2 BitRev8(i) + 1). -/
def dsaRoots : List Nat := (List.range 256).map fun i => powMod dsaQ 1753 (2 * bitReverse 8 i + 1)

/-- Their inverses, 1753 being of order 512. -/
def dsaInverses : List Nat := (List.range 256).map fun i => powMod dsaQ 1753 (511 - 2 * bitReverse 8 i)

/-- NTT: the values of a polynomial at the roots. -/
def dsaNtt (f : List Nat) : List Nat := dsaRoots.map fun r => polyAt dsaQ r f

/-- The inverse of NTT; 8347681 is the inverse of 256. -/
def dsaInverse (f : List Nat) : List Nat := interpolate dsaQ 8347681 dsaInverses f

/-- The product of two transforms. -/
def dsaMul (f g : List Nat) : List Nat := List.zipWith (fun a b => a * b % dsaQ) f g

/-- How far a coefficient lies from 0 modulo q. -/
def dsaNorm (a : Nat) : Nat := min (a % dsaQ) (dsaQ - a % dsaQ)

/-- Whether every coefficient of some polynomials lies less than a bound from 0. -/
def dsaBelow (bound : Nat) (fs : List (List Nat)) : Bool := fs.all fun f => f.all fun a => dsaNorm a < bound

/-- RejNTTPoly, from at most 298 triples of bytes (FIPS 204, Appendix C). -/
def dsaSample (seed : List Byte) : List Nat :=
  let cs := (threes 298 (shake128 seed 894)).map fun b => b.1 + 256 * b.2.1 + 65536 * (b.2.2 % 128)
  (cs.filter fun c => c < dsaQ).take 256

/-- ExpandA: entry (r, s) from the seed, s and r. -/
def dsaMatrix (rho : List Byte) : List (List (List Nat)) :=
  (List.range 6).map fun r => (List.range 5).map fun c => dsaSample (rho ++ leBytes 1 c ++ leBytes 1 r)

/-- RejBoundedPoly for 4, from at most 481 bytes: half bytes below 9, taken from 4. -/
def dsaShort (seed : List Byte) (n : Nat) : List Nat :=
  let zs := (shake256 (seed ++ leBytes 2 n) 481).flatMap fun b => [b.toNat % 16, b.toNat / 16]
  ((zs.filter fun z => z < 9).take 256).map fun z => (dsaQ + 4 - z) % dsaQ

/-- ExpandMask: five polynomials of 20 bits a coefficient, taken from 2^19. -/
def dsaMask (seed : List Byte) (kappa : Nat) : List (List Nat) :=
  (List.range 5).map fun r => (unpackBits 20 256 (shake256 (seed ++ leBytes 2 (kappa + r)) 640)).map fun v => (dsaQ + 524288 - v) % dsaQ

/-- Power2Round: the high part, and the low part modulo q. -/
def dsaRound (r : Nat) : Nat × Nat :=
  let hi := (r + 4095) / 8192
  (hi, (r + dsaQ - 8192 * hi) % dsaQ)

/-- Decompose by twice 261,888: the high part, and the low part modulo q. -/
def dsaParts (r : Nat) : Nat × Nat :=
  let hi := (r + 261887) / 523776
  if hi = 16 then (0, (r + dsaQ - 8380416 + (dsaQ - 1)) % dsaQ) else (hi, (r + dsaQ - 523776 * hi) % dsaQ)

/-- HighBits. -/
def dsaHigh (r : Nat) : Nat := (dsaParts r).1

/-- LowBits, modulo q. -/
def dsaLow (r : Nat) : Nat := (dsaParts r).2

/-- UseHint. -/
def dsaUse (h : Bool) (r : Nat) : Nat :=
  let x := dsaParts r
  if !h then x.1 else if x.2 ≠ 0 ∧ x.2 ≤ 261888 then (x.1 + 1) % 16 else (x.1 + 15) % 16

/-- w1Encode: four bits a coefficient. -/
def dsaHighBytes (w : List (List Nat)) : List Byte := w.flatMap (packBits 4)

/-- The part of SampleInBall that places the n-th of 49 signs, as each place above it has been: `bs` are the bytes left to draw from. -/
def dsaPlace (signs : Nat) (n : Nat) (bs : List Byte) (c : List Nat) : List Nat :=
  match n with
  | 0 => c
  | n + 1 =>
    let i := 255 - n
    let rest := bs.dropWhile fun b => i < b.toNat
    let j := (rest.headD 0).toNat
    dsaPlace signs n (rest.drop 1) ((c.set i (c.getD j 0)).set j (if signs / 2 ^ (48 - n) % 2 = 1 then dsaQ - 1 else 1))

/-- SampleInBall, from at most 272 bytes: 49 coefficients of 1 or -1. -/
def dsaBall (seed : List Byte) : List Nat :=
  let bs := shake256 seed 272
  dsaPlace (leNat (bs.take 8)) 49 (bs.drop 8) (List.replicate 256 0)

/-- The parts of a key pair made of a seed: the two public ones, K, TR, and the secret vectors. -/
structure DsaKey where
  rho : List Byte
  t1 : List (List Nat)
  k : List Byte
  tr : List Byte
  s1 : List (List Nat)
  s2 : List (List Nat)
  t0 : List (List Nat)
deriving DecidableEq, Repr

/-- A matrix times a vector of transforms, brought back. -/
def dsaApply (a : List (List (List Nat))) (v : List (List Nat)) : List (List Nat) := a.map fun row => rowTimes dsaQ dsaMul row v

/-- pkEncode: 1,952 bytes. -/
def dsaPublic (rho : List Byte) (t1 : List (List Nat)) : List Byte := rho ++ t1.flatMap (packBits 10)

/-- ML-DSA.KeyGen from a seed of 32 bytes. -/
def dsaKeys (seed : List Byte) : DsaKey :=
  let g := shake256 (seed ++ [6, 5]) 128
  let rho := g.take 32
  let rest := (g.drop 32).take 64
  let s1 := (List.range 5).map fun r => dsaShort rest r
  let s2 := (List.range 6).map fun r => dsaShort rest (5 + r)
  let t := List.zipWith (fun f e => polyAdd dsaQ (dsaInverse f) e) (dsaApply (dsaMatrix rho) (s1.map dsaNtt)) s2
  let t1 := t.map fun f => f.map fun c => (dsaRound c).1
  { rho := rho, t1 := t1, k := (g.drop 96).take 32, tr := shake256 (dsaPublic rho t1) 64, s1 := s1, s2 := s2,
    t0 := t.map fun f => f.map fun c => (dsaRound c).2 }

/-- HintBitPack: the places of the ones, and where each polynomial's end. -/
def dsaHintBytes (h : List (List Bool)) : List Byte :=
  let places := h.map fun f => (f.zipIdx.filter fun b => b.1).map fun b => b.2
  let all := places.flatten
  let ends := (List.range 6).map fun i => ((places.take (i + 1)).flatten).length
  (all ++ List.replicate (55 - all.length) 0 ++ ends).map fun n => BitVec.ofNat 8 n

/-- One round of signing, the message's representative given: the signature, or none where the round is rejected. -/
def dsaTry (key : DsaKey) (a : List (List (List Nat))) (mu seed : List Byte) (kappa : Nat) : Option (List Byte) :=
  let y := dsaMask seed kappa
  let w := (dsaApply a (y.map dsaNtt)).map dsaInverse
  let ct := shake256 (mu ++ dsaHighBytes (w.map fun f => f.map dsaHigh)) 48
  let c := dsaNtt (dsaBall ct)
  let times (v : List (List Nat)) : List (List Nat) := v.map fun f => dsaInverse (dsaMul c (dsaNtt f))
  let z := List.zipWith (polyAdd dsaQ) y (times key.s1)
  let low := List.zipWith (polySub dsaQ) w (times key.s2)
  if !dsaBelow (524288 - 196) z || !dsaBelow (261888 - 196) (low.map fun f => f.map dsaLow) then none
  else
    let ct0 := times key.t0
    let h := List.zipWith (List.zipWith fun r t => dsaHigh ((r + t) % dsaQ) != dsaHigh r) low ct0
    if !dsaBelow 261888 ct0 || 55 < (h.flatten.filter fun b => b).length then none
    else some (ct ++ z.flatMap (fun f => packBits 20 (f.map fun v => (dsaQ + 524288 - v) % dsaQ)) ++ dsaHintBytes h)

/-- The first of some rounds that is not rejected. -/
def dsaRounds (key : DsaKey) (a : List (List (List Nat))) (mu seed : List Byte) (fuel kappa : Nat) : List Byte :=
  match fuel with
  | 0 => []
  | fuel + 1 =>
    match dsaTry key a mu seed kappa with
    | some sig => sig
    | none => dsaRounds key a mu seed fuel (kappa + 5)

/-- The representative of a message with an empty context string, under the digest of a public key. -/
def dsaMu (tr m : List Byte) : List Byte := shake256 (tr ++ [0, 0] ++ m) 64

/-- ML-DSA.Sign of a message with 32 random bytes, 3,309 bytes: at most 814 rounds (FIPS 204, Appendix C). -/
def dsaSign (seed rnd m : List Byte) : List Byte :=
  let key := dsaKeys seed
  let mu := dsaMu key.tr m
  dsaRounds key (dsaMatrix key.rho) mu (shake256 (key.k ++ rnd ++ mu) 64) 814 0

/-- HintBitUnpack: the places of each polynomial's ones, or none where the bytes are not in their one form. -/
def dsaHints (bs : List Byte) : Option (List (List Nat)) :=
  let ns := bs.map BitVec.toNat
  let start (i : Nat) : Nat := if i = 0 then 0 else ns.getD (54 + i) 0
  let one (i : Nat) : List Nat := (ns.drop (start i)).take (start (i + 1) - start i)
  if (List.range 6).all (fun i => start i ≤ start (i + 1) && start (i + 1) ≤ 55 && ((one i).zip ((one i).drop 1)).all fun p => p.1 < p.2)
      && (((ns.take 55).drop (start 6)).all fun n => n == 0) then
    some ((List.range 6).map one)
  else none

/-- ML-DSA.Verify of a signature of a message under a public key. -/
def dsaVerify (pk m sig : List Byte) : Bool :=
  let rho := pk.take 32
  let t1 := (List.range 6).map fun i => unpackBits 10 256 ((pk.drop (32 + 320 * i)).take 320)
  let ct := sig.take 48
  let z := (List.range 5).map fun i => (unpackBits 20 256 ((sig.drop (48 + 640 * i)).take 640)).map fun v => (dsaQ + 524288 - v) % dsaQ
  match dsaHints (sig.drop 3248) with
  | none => false
  | some h =>
    let mu := dsaMu (shake256 pk 64) m
    let c := dsaNtt (dsaBall ct)
    let az := dsaApply (dsaMatrix rho) (z.map dsaNtt)
    let w := List.zipWith (fun f t => dsaInverse (polySub dsaQ f (dsaMul c (dsaNtt (t.map fun x => 8192 * x % dsaQ))))) az t1
    let w1 := List.zipWith (fun f places => f.zipIdx.map fun x => dsaUse (places.contains x.2) x.1) w h
    pk.length == 1952 && sig.length == 3309 && dsaBelow (524288 - 196) z && ct == shake256 (mu ++ dsaHighBytes w1) 48

end Sys2Proof.Machine
end

