-- ==== Sys2Proof/Machine/Protect.lean ====
section
/-! DEFINITION. Keys and what they protect: key derivation, the stored form of lines, counter lines and tree nodes, bursts on the links,
save images, and measurements (20 R348, 22 R366-R378). -/

namespace Sys2Proof.Machine

/-- Bytes of a digest or a key. -/
def digestBytes {w : Nat} (d : BitVec w) : List Byte := leBytes (w / 8) d.toNat

/-- ASCII bytes of a label. -/
def labelBytes (s : String) : List Byte := s.toList.map fun c => BitVec.ofNat 8 c.toNat

/-- The number that some bytes hold, as a vector of bits. -/
def bytesVal (w : Nat) (bs : List Byte) : BitVec w := BitVec.ofNat w (leNat bs)

/-! ### Key derivation (22 R367) -/

/-- The root that a partition's keys come from: its tenant's, or the device secret where it has none. -/
def State.rootKey (s : State) (part : Nat) : BitVec 256 :=
  match (s.part part).tenant with
  | some t => t.trk
  | none => Config.deviceSecret

/-- KD and KM of a memory key. -/
def MemKey.keys (k : MemKey) : List Byte × List Byte :=
  let bs := shake256 (labelBytes "G7/mem" ++ digestBytes (k.trk.getD Config.deviceSecret) ++ leBytes 1 k.slot ++ leBytes 4 k.gen) 64
  (bs.take 32, bs.drop 32)

/-- KS, the seal key of a partition's tenant under the touchmark digest of an image header. -/
def State.sealKey (s : State) (part : Nat) (digest : List Byte) : List Byte :=
  shake256 (labelBytes "G7/seal" ++ digestBytes (s.rootKey part) ++ digest) 32

/-- KV, the save key of a context. -/
def State.saveKey (s : State) (cid : Nat) : List Byte :=
  shake256 (labelBytes "G7/save" ++ digestBytes (s.rootKey (partOf cid)) ++ leBytes 2 cid) 32

/-- The path key of a pair of dies for a partition's traffic, or, for 8 and above, for traffic that carries no CID. -/
def State.pathKey (s : State) (part src dst : Nat) : List Byte :=
  shake256 (labelBytes "G7/path" ++ digestBytes (if part < 8 then s.rootKey part else Config.deviceSecret) ++ leBytes 1 src ++ leBytes 1 dst
    ++ leBytes 4 (if part < 8 then (s.part part).pathEpoch else s.hub.pathEpoch)) 32

/-- KT, the tree key of a stack. -/
def State.treeKey (s : State) (stack : Nat) : List Byte :=
  shake256 (labelBytes "G7/tree" ++ digestBytes Config.deviceSecret ++ leBytes 1 stack ++ leBytes 8 s.hub.bootNonce) 32

/-! ### Lines as they are stored (22 R369-R371) -/

/-- The 128-bit counter value of a line's chunk, or of its MAC. -/
def counterValue (mac : Bool) (chunk pa : Nat) (major : BitVec 64) (minor : Nat) : BitVec 128 :=
  BitVec.ofNat 128 ((if mac then 2 ^ 127 else 0) + chunk % 4 * 2 ^ 125 + pa / 64 % 2 ^ 54 * 2 ^ 71 + major.toNat * 2 ^ 7 + minor % 128)

/-- Sixteen bytes of a counter value, the first the most significant. -/
def counterBytes (v : BitVec 128) : List Byte := beBytes 16 v.toNat

/-- The GCM counter block that an IV of 16 bytes gives (NIST SP 800-38D): GHASH of the IV and its length. -/
def gcmJ0 (key iv : List Byte) : List Byte :=
  beBytes 16 (ghash (BitVec.ofNat 128 (beNat (aes256 key (List.replicate 16 0)))) [] iv).toNat

/-- The GCM tag of additional data alone under an IV of 16 bytes. -/
def gcmMac (key iv aad : List Byte) : List Byte :=
  addBytes (beBytes 16 (ghash (BitVec.ofNat 128 (beNat (aes256 key (List.replicate 16 0)))) aad []).toNat) (aes256 key (gcmJ0 key iv))

/-- The minor counter of the line of an address. -/
def Block.minor (b : Block) (pa : Nat) : Nat := Sparse.get 0 b.minors (pa / 64 % 64)

/-- The 64 bytes of a line's ciphertext under a key and the counters of its block. -/
def Block.cipher (b : Block) (k : MemKey) (pa : Nat) (plain : List Byte) : List Byte :=
  (List.range 4).flatMap fun c =>
    addBytes ((plain.drop (16 * c)).take 16) (aes256 k.keys.1 (counterBytes (counterValue false c pa b.major (b.minor pa))))

/-- The 7 bytes of a line's MAC. -/
def Block.lineMac (b : Block) (k : MemKey) (pa : Nat) (cipher : List Byte) : List Byte :=
  (gcmMac k.keys.2 (counterBytes (counterValue true 0 pa b.major (b.minor pa))) cipher).take 7

/-- A line as the stack stores it: ciphertext and MAC under the key it was written with; none of a dead block, which stores nothing. -/
def State.storedLine (s : State) (pa : Nat) : Option (List Byte × List Byte) :=
  let b := s.block pa
  match b.dead, b.lineKey (pa / 64 % 64) with
  | false, some k =>
    let c := b.cipher k pa (s.rawLine pa)
    some (c, b.lineMac k pa c)
  | _, _ => none

/-- The 64 bytes of a block's counter line (22 R370). -/
def Block.counterLine (b : Block) : List Byte :=
  leBytes 64 ((List.range 64).foldl (fun n j => n + Sparse.get 0 b.minors j % 128 * 2 ^ (64 + 7 * j)) b.major.toNat)

/-- The metadata group of a block: the MACs of its 64 lines, and its counter line (22 R369). -/
def State.metadata (s : State) (pa : Nat) : List Byte :=
  let base := pa / 4096 * 4096
  ((List.range 64).flatMap fun j => match s.storedLine (base + 64 * j) with
    | some x => x.2
    | none => List.replicate 7 0) ++ (s.block pa).counterLine

/-- A stack's counter-tree node of a level, 7 just above the counter lines and 1 on top. -/
def State.treeNode (s : State) (stack level index : Nat) : Node := Sparse.get freshNode s.nodes ((stack * 8 + (7 - level)) * 2 ^ 24 + index)

/-- The address, as a number of lines, of a child of a level in the metadata of a stack of a package: the counter line of a block, or a
node (22 R369, R371). -/
def childAddress (pkg stack level index : Nat) : Nat :=
  pkg * 2 ^ 34 + stack * 2 ^ 30 + (if level = 8 then (56 * 2 ^ 30 + 512 * index + 448) / 64 else (Config.nodeAddress level index).toNat)

/-- The 48-bit MAC of a child under its parent's MAJOR and entry minor (22 R371). -/
def State.childMac (s : State) (stack level index major minor : Nat) (bytes : List Byte) : List Byte :=
  let iv := BitVec.ofNat 128 (2 ^ 127 + childAddress s.hub.pkgid.toNat stack level index % 2 ^ 54 * 2 ^ 71 + major % 2 ^ 64 * 2 ^ 7 + minor % 128)
  (gcmMac (s.treeKey stack) (counterBytes iv) bytes).take 6

/-- The 64 bytes of the counter line, for `up` 0, or of the node `up` levels above it, with the MACs of its children (22 R371). -/
def State.nodeBytes (up : Nat) (s : State) (stack index : Nat) : List Byte :=
  match up with
  | 0 => (s.block (s.hub.pkgid.toNat * 2 ^ 40 + stack * 2 ^ 36 + 4096 * index)).counterLine
  | k + 1 =>
    let n := s.treeNode stack (8 - (k + 1)) index
    let entry (c : Nat) : Nat :=
      let m := Sparse.get 0 n.minors c
      m % 128 + leNat (s.childMac stack (8 - k) (8 * index + c) n.major m (State.nodeBytes k s stack (8 * index + c))) * 2 ^ 7
    leBytes 64 ((List.range 8).foldl (fun t c => t + entry c * 2 ^ (64 + 55 * c)) (n.major % 2 ^ 64))

/-- A counter of the root of a stack and the 48-bit MAC of the top node it stands over (22 R371). -/
def State.rootEntry (s : State) (stack index : Nat) : Nat × List Byte :=
  let major := (Sparse.get freshNode s.nodes ((stack * 8 + 7) * 2 ^ 24 + index)).major
  (major, s.childMac stack 1 index major 0 (State.nodeBytes 7 s stack index))

/-! ### Transactions and bursts on the links (22 R375, 24 R399) -/

/-- TYPE of a transaction's slots. -/
def TxnKind.type (k : TxnKind) : Nat :=
  match k with
  | .read _ => 0
  | .write _ _ => 1
  | .atomic _ _ _ => 2
  | .completion _ => 3
  | .ack => 4
  | .directory => 5
  | .time _ => 6
  | .mgmt => 7

/-- The payload of a transaction in the clear. -/
def TxnKind.payload (k : TxnKind) : List Byte :=
  match k with
  | .read _ => []
  | .write d _ => leBytes 64 d.toNat
  | .atomic _ n v => leBytes n v.toNat
  | .completion v => leBytes 64 v.toNat
  | .ack => []
  | .mgmt => []
  | .directory => []
  | .time count => leBytes 8 count

/-- The 16-byte plaintext header of a slot, of its fields (24 R399). -/
def slotHeader (cid src dst type pa len tag frag : Nat) : List Byte :=
  leBytes 16 (cid % 4096 + src % 32 * 2 ^ 12 + dst % 32 * 2 ^ 17 + type % 64 * 2 ^ 22 + pa / 64 % 2 ^ 54 * 2 ^ 28
    + len % 64 * 2 ^ 82 + pa % 64 * 2 ^ 88 + tag % 2 ^ 16 * 2 ^ 94 + frag % 2 ^ 18 * 2 ^ 110)

/-- The header of a transaction's slot; LENGTH holds one less than its length. -/
def Txn.header (t : Txn) (frag : Nat) : List Byte := slotHeader t.cid t.src t.dst t.kind.type t.pa (t.len + 63) t.tag frag

/-- The TYPE of a slot's header. -/
def slotType (h : List Byte) : Nat := leNat (h.take 16) / 2 ^ 22 % 64

/-- Whether a TYPE is one of the nine that are not reserved. -/
def typeOk (type : Nat) : Bool := type ≤ 8

/-- A slot: its header, and up to 64 bytes of payload. -/
def slotBytes (header payload : List Byte) : List Byte := header ++ payload ++ List.replicate (64 - payload.length) 0

/-- The slot of TYPE 8 that closes a burst with its tag; address, length and tag fields are zero. -/
def closingSlot (cid src dst seq : Nat) (tag : List Byte) : List Byte := slotBytes (slotHeader cid src dst 8 0 0 0 seq) tag

/-- A flit: a header of its sequence number and acknowledgement, three slots, and UCIe's CRC and reserved bytes. -/
def flitBytes (seq ack : Nat) (slots : List (List Byte)) : List Byte :=
  let body := [BitVec.ofNat 8 seq, BitVec.ofNat 8 ack] ++ ((slots ++ List.replicate (3 - slots.length) (List.replicate 80 0)).take 3).flatten
  body ++ digestBytes (Config.flitTail body)

/-- Slots cut into flits of three, numbered from one on. -/
def flitsFrom (fuel seq ack : Nat) (slots : List (List Byte)) : List (List Byte) :=
  match fuel with
  | 0 => []
  | fuel + 1 => if slots.isEmpty then [] else flitBytes seq ack (slots.take 3) :: flitsFrom fuel (seq + 1) ack (slots.drop 3)

/-- The 96-bit IV of a burst: source, destination, and the burst sequence number (22 R375). -/
def burstIv (src dst seq : Nat) : List Byte := beBytes 12 (src % 32 * 2 ^ 91 + dst % 32 * 2 ^ 86 + seq % 2 ^ 86)

/-- A burst of transactions as it goes over a link: its payloads encrypted under the path key, and its closing tag, with the headers as
additional authenticated data (22 R375). -/
def State.burst (s : State) (part src dst seq : Nat) (ts : List Txn) : List Byte × List Byte :=
  gcmSeal (s.pathKey part src dst) (burstIv src dst seq) (ts.flatMap fun t => t.header seq) (ts.flatMap fun t => t.kind.payload)

/-- The ciphertext of a burst cut into the payloads of its transactions. -/
def cutPayloads (ts : List Txn) (ct : List Byte) : List (List Byte) :=
  match ts with
  | [] => []
  | t :: rest => ct.take t.kind.payload.length :: cutPayloads rest (ct.drop t.kind.payload.length)

/-- The flits of a burst: a slot for each transaction, and the closing slot (24 R399). -/
def State.burstFlits (s : State) (part src dst seq flit ack : Nat) (ts : List Txn) : List (List Byte) :=
  let x := s.burst part src dst seq ts
  let cid := match ts with
    | [] => 0
    | t :: _ => t.cid
  flitsFrom (ts.length + 1) flit ack
    (List.zipWith (fun t p => slotBytes (t.header seq) p) ts (cutPayloads ts x.1) ++ [closingSlot cid src dst seq x.2])

/-! ### Transactions over UALink (22 R376, 24 R403) -/

/-- The header of a UALink transaction, which is authenticated: kind, address, size, CID, slot, and the page and line of the access. -/
def ualinkHeader (kind pa size cid slot : Nat) (nb : Bool) (b : Word) : List Byte :=
  leBytes 1 kind ++ leBytes 8 pa ++ leBytes 1 size ++ leBytes 2 cid ++ leBytes 1 slot ++ leBytes 1 (if nb then 1 else 0) ++ leBytes 8 b.toNat

/-- The bytes of payload of a UALink transaction: none of a read, the data of a write, an operand, or the two of a compare and swap. -/
def ualinkLength (kind size : Nat) : Nat :=
  match kind with
  | 0 => 0
  | 11 => 2 * size
  | _ => size

/-- The payload of a transaction that arrives under a key, decrypted; none where its tag fails. -/
def LinkKey.opens (k : LinkKey) (header cipher tag : List Byte) : Option (List Byte) :=
  let iv := digestBytes (Config.ualinkIv k.seq)
  if gcmTag k.key iv header cipher = tag then some (gcmOpen k.key iv cipher) else none

/-- A payload sealed under a key: ciphertext and tag. -/
def LinkKey.seals (k : LinkKey) (header plain : List Byte) : List Byte :=
  let x := gcmSeal k.key (digestBytes (Config.ualinkIv k.seq)) header plain
  x.1 ++ x.2

/-! ### Save images (20 R348) -/

/-- SIZE of a header. -/
def imageLen (h : List Byte) : Nat := leNat ((h.drop 8).take 4)

/-- An image: its header, its payload sealed under the save key, and the tag. The payload's layout is not architectural. -/
def State.imageOf (s : State) (part cid : Nat) (h : List Byte) : List Byte :=
  let pt := (List.range (imageLen h - 144)).map fun i => Config.imageByte part (s.part part).saveCtr i
  let x := gcmSeal (s.saveKey cid) ((h.drop 52).take 12) h pt
  h ++ x.1 ++ x.2

/-! ### The device key and chains (22 R378, R380) -/

/-- The device's ML-DSA-65 signature of a message. -/
def deviceSign (m : List Byte) : List Byte := dsaSign (digestBytes Config.deviceSeed) (digestBytes (Config.signRandom m)) m

/-- Whether a signature of a message verifies under the key that a chain certifies. -/
def chainVerifies (chain m sig : List Byte) : Bool := dsaVerify (Config.chainKey chain) m sig

/-! ### Measurements (22 R378) -/

/-- What block 6 measures: a partition's slices, its key-slot assignment and its scheduling block, as it was last written, so that its coming
into force at a tick changes nothing that is measured (20 R336, 22 R377; DEDUCED, log 84). -/
def State.block6Now (s : State) (part : Nat) : List Nat :=
  let p := s.part part
  let slots := (List.range 64).filter fun n => (s.keySlot n).part == part
  let b := p.pendingSched.getD (p.teamWait, p.hang, p.drainMax, p.ckptInt, p.proofsz)
  [p.slices.length] ++ p.slices ++ [slots.length] ++ slots ++ [b.1, b.2.1, b.2.2.1, b.2.2.2.1, b.2.2.2.2]

/-- Block 6 as it stands: frozen while the TDI is locked (22 R377). -/
def State.block6 (s : State) (part : Nat) : List Nat := ((s.part part).block6).getD (s.block6Now part)

/-- What a measurement block measures. -/
def State.measured (s : State) (part index : Nat) : List Byte :=
  match index with
  | 5 => Config.measuredCode 5 ++ s.dies.toList.flatMap fun d => (d.remap.flatMap (leBytes 1)) ++ leBytes 4 d.remapOk.toNat
  | 6 => (s.block6 part).flatMap (leBytes 4)
  | k => Config.measuredCode k

/-- The type of a block's measurement in DMTF form: immutable ROM 0, mutable firmware 1, hardware configuration 2, firmware
configuration 3. -/
def measurementType (index : Nat) : Nat :=
  match index with
  | 1 => 0
  | 5 => 2
  | 6 => 3
  | _ => 1

/-- A measurement block in DMTF measurement-block form: index, specification 1, size, type, size of the value, and the value, which is
a SHAKE256 digest of 64 bytes (PRESUMED of DSP0274, log 80). -/
def State.measurementBlock (s : State) (part index : Nat) : List Byte :=
  leBytes 1 index ++ leBytes 1 1 ++ leBytes 2 67 ++ leBytes 1 (measurementType index) ++ leBytes 2 64 ++ shake256 (s.measured part index) 64

/-- The measurement blocks 1 to 6 of a partition. -/
def State.measurements (s : State) (part : Nat) : List Byte := (List.range 6).flatMap fun i => s.measurementBlock part (i + 1)

/-- The touchmark digest of a partition: SHAKE256 over its blocks in index order. -/
def State.ownDigest (s : State) (part : Nat) : BitVec 512 := bytesVal 512 (shake256 (s.measurements part) 64)

/-! ### The peer handshake (22 R379) -/

/-- A JOIN message's header. -/
def joinHeader (type src dst part : Nat) : List Byte :=
  leBytes 2 type ++ leBytes 2 1 ++ leBytes 4 (src % 2 ^ 20) ++ leBytes 4 dst ++ leBytes 2 part ++ leBytes 2 0

/-- The seeds d and z of the ephemeral key of the n-th handshake (FIPS 203). -/
def kemSeed (n : Nat) : List Byte × List Byte :=
  let x := digestBytes (Config.kemSeed n)
  (x.take 32, x.drop 32)

/-- JOIN_HELLO of a partition to a peer, the n-th handshake. -/
def State.joinHello (s : State) (part peer n : Nat) : List Byte :=
  joinHeader 1 s.hub.pkgid.toNat peer part ++ digestBytes (Config.freeNonce n) ++ (kemKeys (kemSeed n).1).1
    ++ digestBytes (s.ownDigest part) ++ shake256 Config.ownChain 64

/-- TH1, of JOIN_HELLO and JOIN_REPLY without its signature. -/
def joinTh1 (hello reply : List Byte) : List Byte := shake256 (hello ++ reply.take 1744) 64

/-- TH2, of both whole. -/
def joinTh2 (hello reply : List Byte) : List Byte := shake256 (hello ++ reply) 64

/-- JOIN_REPLY of a responder: its message, and the secret it shares. -/
def State.joinReply (s : State) (part peer n : Nat) (hello : List Byte) : List Byte × List Byte :=
  let kem := kemEncaps ((hello.drop 48).take 1568) (digestBytes (Config.kemRandom n))
  let body := joinHeader 2 s.hub.pkgid.toNat peer part ++ digestBytes (Config.freeNonce n) ++ kem.1 ++ digestBytes (s.ownDigest part)
    ++ shake256 Config.ownChain 64
  (body ++ deviceSign (labelBytes "G7 join R" ++ joinTh1 hello body), kem.2)

/-- The 128 derived bytes: the wrap key, the done key, and the UALinkSec keys from I to R and from R to I. -/
def joinKeys (secret hello reply : List Byte) : List Byte × List Byte × List Byte × List Byte :=
  let k := shake256 (labelBytes "G7/join" ++ secret ++ joinTh2 hello reply) 128
  (k.take 32, (k.drop 32).take 32, (k.drop 64).take 32, (k.drop 96).take 32)

/-- A zero IV. -/
def zeroIv : List Byte := List.replicate 12 0

/-- What WRAP carries: TRK, TENANT_ID, the number of PEERS and their digests. -/
def Tenant.wrapped (t : Tenant) : List Byte :=
  digestBytes t.trk ++ leBytes 8 t.id.toNat ++ leBytes 2 t.peers.length ++ leBytes 6 0 ++ t.peers.flatMap digestBytes

/-- JOIN_FINISH of an initiator to a peer. -/
def State.joinFinish (s : State) (part peer : Nat) (t : Tenant) (secret hello reply : List Byte) : List Byte :=
  let h := joinHeader 3 s.hub.pkgid.toNat peer part
  let w := gcmSeal (joinKeys secret hello reply).1 zeroIv h t.wrapped
  h ++ deviceSign (labelBytes "G7 join I" ++ joinTh2 hello reply) ++ w.1 ++ w.2

/-- The record that the WRAP of a JOIN_FINISH carries; none where its tag fails or its fields break 22 R379. -/
def joinUnwrap (key msg : List Byte) : Option Tenant :=
  let h := msg.take 16
  let w := msg.drop 3325
  let ct := w.take (w.length - 16)
  if gcmTag key zeroIv h ct != w.drop (w.length - 16) then none
  else
    let pt := gcmOpen key zeroIv ct
    let n := leNat ((pt.drop 40).take 2)
    if 16 < n || pt.length != 48 + 64 * n || leNat ((pt.drop 42).take 6) != 0 then none
    else
      some ⟨bytesVal 256 (pt.take 32), bytesVal 64 ((pt.drop 32).take 8),
        (List.range n).map fun i => bytesVal 512 ((pt.drop (48 + 64 * i)).take 64), []⟩

/-- DONE_TAG. -/
def joinDoneTag (secret hello reply : List Byte) : List Byte :=
  gcmTag (joinKeys secret hello reply).2.1 zeroIv (joinTh2 hello reply) []

/-- JOIN_DONE of a responder to a peer. -/
def State.joinDone (s : State) (part peer : Nat) (secret hello reply : List Byte) : List Byte :=
  joinHeader 4 s.hub.pkgid.toNat peer part ++ joinDoneTag secret hello reply

/-- Whether a message has the header of a type from a peer package to this one, and its length. -/
def State.joinShape (s : State) (type peer len : Nat) (msg : List Byte) : Bool :=
  msg.length == len && leNat (msg.take 2) == type && leNat ((msg.drop 2).take 2) == 1 && leNat ((msg.drop 4).take 4) == peer
    && leNat ((msg.drop 8).take 4) == s.hub.pkgid.toNat && leNat ((msg.drop 14).take 2) == 0

/-- The touchmark digest that a JOIN_HELLO or JOIN_REPLY shows. -/
def joinDigest (msg : List Byte) : BitVec 512 := bytesVal 512 ((msg.drop 1616).take 64)

/-- The checks of 22 R380 on who sent a JOIN_HELLO or JOIN_REPLY: its chain digest is that of the fetched chain, which leads to the
Dratur root, and its touchmark digest is that of the fresh touchmark fetched, the n-th. -/
def joinSender (peer n : Nat) (msg : List Byte) : Bool :=
  (msg.drop 1680).take 64 == shake256 (Config.peerChain peer) 64 && Config.chainRooted (Config.peerChain peer)
    && joinDigest msg == Config.peerTouchmark peer (leNat ((msg.drop 12).take 2)) n

end Sys2Proof.Machine
end

