-- ==== Sys2Proof/Machine/Ops.lean ====
section
/-! DEFINITION. Taking a trap, stopping a team, saving, discarding and re-queueing a task, squashing, and the return from a
trap (02 R29-R34, 06 R107-R111, 18 R304-R314, 20 R342-R355); and how an instruction of the agent in focus ends. -/

namespace Sys2Proof.Machine

/-! ### Waits and records -/

/-- The swap-eligible waits (02 R34, 06 R106). -/
def Wait.swapEligible (w : Wait) : Bool :=
  match w with
  | .tqget _ => true
  | .tqput _ => true
  | .phtake _ => true
  | .phres _ => true
  | .acq _ _ _ => true
  | .twait _ _ _ _ _ => true
  | .pmwait _ _ => true
  | .counters => true
  | .spec => true
  | .slot _ => false
  | .hazard => false
  | .ecall _ => false
  | .reservePool _ => false
  | .tend => false
  | .interlock => false

/-- The waits that read 1 in MEMBERS (18 R311). -/
def Wait.inside (w : Wait) : Bool :=
  match w with
  | .ecall _ => true
  | .reservePool _ => true
  | .tend => true
  | w => w.swapEligible

/-- A member's code in MEMBERS (18 R311). -/
def Member.code4 (m : Member) (marked : Bool) : Nat :=
  if marked then 3
  else if m.ended then 2
  else
    match m.wait with
    | some w => if w.inside then 1 else 0
    | none => 0

/-- MEMBERS of a record whose faulting or stepped member is `w` (18 R311). -/
def Task.members (t : Task) (w : Option Who) : Nat :=
  t.team.seq.code4 (w == some .seq) + 16 * t.team.ld.code4 (w == some .ld) + 256 * t.team.st.code4 (w == some .st)

/-- A member's code in DETAIL1 of HANG (18 R322); `frozen` for want of a proof-store line (06 R105) or of room in the undo log (20 R350). -/
def Member.hangCode (m : Member) (frozen : Bool) : Nat :=
  if m.ended then 15
  else
    match m.wait with
    | some (.ecall _) => 1
    | some .tend => 2
    | some (.reservePool _) => 3
    | some w => if w.swapEligible then 0 else if frozen then 4 else 5
    | none => if frozen then 4 else 0

/-- DETAIL1 of HANG (18 R322). -/
def State.hangDetail (s : State) (t : Task) : Word :=
  let f := t.proofFull || s.logFull t
  BitVec.ofNat 64 (t.team.seq.hangCode f + 16 * t.team.ld.hangCode f + 256 * t.team.st.hangCode f)

/-- FAULT of a TCB (18 R307). -/
def FaultRec.word (r : FaultRec) : Word := BitVec.ofNat 64 (r.cause.toNat + r.who.num * 2 ^ 16 + r.pc * 2 ^ 18)

/-- TILE of a record (18 R311). -/
def Task.tile (t : Task) : Nat := if t.tcb = 0 then t.linear else (t.ty * 65536 + t.tx) % 2 ^ 32

/-- A record of the fault or debug queue about a task (18 R311). -/
def State.taskRecord (s : State) (t : Task) (kind cause : Nat) (fault : Word) (members : Nat) (d1 d2 : Word) : List Byte :=
  leBytes 2 kind ++ leBytes 2 cause ++ leBytes 2 t.cid ++ leBytes 2 t.vdie ++ leBytes 8 fault.toNat ++ leBytes 8 t.tcb.toNat
    ++ leBytes 8 t.launch ++ leBytes 4 t.tile ++ leBytes 4 members ++ leBytes 8 d1.toNat ++ leBytes 8 d2.toNat
    ++ leBytes 8 s.hub.time

/-- The eight-byte words of some bytes. -/
def wordsOf (bs : List Byte) (n : Nat) : List Word := (List.range n).map fun i => BitVec.ofNat 64 (leNat ((bs.drop (8 * i)).take 8))

/-- The record of a taken trap posted where it belongs: the page-fault queue for PAGE_FAULT (19 R332), the debug queue of a
context under DEBUG, the fault queue otherwise (18 R308, R319). -/
def State.postFault (s : State) (t : Task) (r : FaultRec) : State :=
  let bs := s.taskRecord t 1 r.cause.toNat r.word (t.members (some r.who)) r.d1 r.d2
  if r.cause = Cause.pageFault.code then
    let ctl := (s.part t.part).pageCtl
    if s.ringFull ctl then s.ringLost ctl else (s.ringPut ctl bs).notify t.part 3 t.cid
  else
    let debug := match s.ctx? t.cid with
      | some c => c.debug
      | none => false
    (s.post t.cid (if debug then 2 else 0) bs).1

/-! ### TCB write-back and queues -/

/-- The code of a task state (02 R27). -/
def TState.code (x : TState) : Nat :=
  match x with
  | .free => 0
  | .waiting => 1
  | .ready => 2
  | .running => 3
  | .done => 4
  | .faulted => 5
  | .squashed => 6
  | .cancelled => 7
  | .saved => 8
  | .rolledBack => 9

/-- The access of the sorter that holds the focused task (19 R326). -/
def State.sorterAcc (s : State) : Acc := ⟨s.cur.cid, none, s.cur.die⟩

/-- Some bytes of the focused task's TCB written at home; a loop-table task has none (02 R28, R29). -/
def State.tcbPut (s : State) (off : Nat) (bs : List Byte) : State :=
  if s.cur.tcb = 0 then s else s.devWrite s.sorterAcc (s.cur.tcb + BitVec.ofNat 64 off) bs

/-- A hart whose class 15 instruction waited for what just happened: its status is settled. -/
def Hart.answered (v : Hart) (f : HartWait → Option Nat) : Hart :=
  match v.wait with
  | none => v
  | some w =>
    match f w with
    | some code => { v with wait := some (.status code) }
    | none => v

/-- The harts whose waits something settles (23 R383). -/
def State.answerHarts (s : State) (f : HartWait → Option Nat) : State := { s with harts := s.harts.map fun v => v.answered f }

/-- The harts that wait for the save or the checkpoint of a task whose stop has ended otherwise or in a save (23 R386). -/
def State.answerTask (s : State) (id code : Nat) : State :=
  s.answerHarts fun w => match w with
    | .saved t => if t = id then some code else none
    | .ckpt t => if t = id then some 3 else none
    | _ => none

/-- The fields of its TCB that the sorter owns written at a transition of the focused task, so that what software wrote to them is
overwritten: DONE_PM, which is 0 before completion, FAULT, and DEP_COUNT with STATE, the last of them (02 R28). -/
def State.tcbOwned (s : State) : State :=
  let t := s.cur
  let pm := if t.state = .done then t.donePm else 0
  ((s.tcbPut 96 (leBytes 8 pm)).tcbPut 48 (leBytes 8 t.fault.word.toNat)).tcbPut 0
    (leBytes 4 (t.state.code + if t.spec then 16 else 0) ++ leBytes 2 t.deps)

/-- The focused task's STATE and SPEC, in the sorter and in its TCB (02 R27, R28); a task that is no longer RUNNING settles the
class 15 instructions that wait for it (23 R386). -/
def State.putState (s : State) (x : TState) (spec : Bool) : State :=
  let s1 := ({ s with cur := { s.cur with state := x, spec := spec } }).tcbOwned
  match x with
  | .running => s1
  | .saved => s1.answerTask s.cur.id 0
  | .rolledBack => s1.answerTask s.cur.id 0
  | _ => s1.answerTask s.cur.id 3

/-- Whether a task stands with a sorter. -/
def Task.live (t : Task) : Bool :=
  match t.state with
  | .free => false
  | .done => false
  | .cancelled => false
  | _ => true

/-- The live tasks. -/
def State.liveTasks (s : State) : List Task := s.allTasks.filter Task.live

/-- The effective ready time of the focused task at a re-queue (02 R33). -/
def State.requeueKey (s : State) : Nat :=
  (s.allTasks.filter fun u => u.state == .ready && !u.hasRun && u.launch == s.cur.launch && u.cid == s.cur.cid
      && u.die == s.cur.die && u.effPrio == s.cur.effPrio).foldl (fun m u => min m u.readyAt) s.hub.time

/-- The focused task becomes READY with the key of one that has run before, or of a first time (02 R33). -/
def State.makeReady (s : State) : State :=
  let k := if s.cur.hasRun then s.requeueKey else s.hub.time
  ({ s with cur := { s.cur with readyAt := k } }).putState .ready s.cur.spec

/-- The focused task leaves its core, whose stamps are free again (02 R30, 20 R342). Its context's dirty lines in the cluster are written
back, as they may be at any time (05 R81), so that its stores are at home wherever it runs next (05 R82). -/
def State.releaseCore (s : State) : State :=
  let t := s.cur
  match t.core with
  | none => { s with cur := { t with stop := none } }
  | some c =>
    let u := { t with core := none, lastCluster := some (c / 16), stop := none, draining := false,
                      runTime := t.runTime + (s.hub.time - t.startedAt) }
    let v := s.wbAll (c / 16) t.cid
    { v with cur := u, glances := v.glances.filter fun g => g.1 != t.id }

/-! ### Operations in flight -/

/-- Whether an open collective still has sends of a task to perform (20 R346, 12 R238). -/
def Coll.sending (c : Coll) (id : Nat) : Bool :=
  c.issued.any fun m => m.task == id && c.sends.any fun x => x.sender == m.rank && !x.done

/-- Whether engine operations of a task are in flight (02 R34, 18 R308). -/
def State.inFlight (s : State) (id : Nat) : Bool :=
  s.copies.any (fun c => c.task == id) || s.queries.any (fun q => q.task == id) || s.colls.any fun c => c.sending id

/-- Whether no copy, query or collective send of a task is incomplete: a quiet instant (20 R349). -/
def State.quiet (s : State) (id : Nat) : Bool := !s.inFlight id

/-! ### Images (20 R348) -/

/-- The 128 header bytes of the focused task's image; SIZE is free within its bound. -/
def State.imageHeader (s : State) (reason : Nat) (x : TState) : List Byte :=
  let t := s.cur
  let n := (s.part t.part).saveCtr
  let size := 144 + Config.imagePayload t.part n % 1048433
  leBytes 4 0x53564147 ++ leBytes 2 1 ++ leBytes 2 (x.code + if t.spec then 16 else 0) ++ leBytes 4 size ++ leBytes 2 t.cid
    ++ leBytes 2 t.vdie ++ leBytes 8 s.hub.time ++ leBytes 2 reason ++ leBytes 6 0 ++ leBytes 8 t.tcb.toNat
    ++ leBytes 8 t.launch ++ leBytes 4 t.linear
    ++ leBytes 12 (s.hub.pkgid.toNat * 2 ^ 76 + n % 2 ^ 76) ++ leBytes 64 0

/-- Where the focused task's save slot lies. -/
def State.slotAddr (s : State) : Option Nat :=
  match s.ctx? s.cur.cid, s.cur.slot with
  | some c, some k => some (c.savearea + 1048576 * k)
  | _, _ => none

/-- The focused task's image written into its slot; the state stays with the task, beside the bytes as they were sealed. -/
def State.writeImage (s : State) (reason : Nat) (x : TState) : State :=
  let h := s.imageHeader reason x
  let p := s.part s.cur.part
  let s1 := s.setPart s.cur.part { p with saveCtr := p.saveCtr + 1 }
  match s.slotAddr with
  | some a =>
    let b := s.imageOf s.cur.part s.cur.cid h
    let s2 := s1.fwWrite a b
    { s2 with cur := { s2.cur with image := true, sealed := b, reason := reason } }
  | none => { s1 with cur := { s1.cur with image := true, sealed := [], reason := reason } }

/-- Whether the focused task's image verifies (20 R348, R355): its header, sealed payload and tag are the bytes that were sealed, and no
line that holds them fails. -/
def State.imageGood (s : State) : Bool :=
  match s.slotAddr with
  | some a =>
    let n := s.cur.sealed.length
    s.fwRead a n == s.cur.sealed && (pieces a n).all fun p => (s.damageAt p.1).isNone
  | none => true

/-! ### Discarding and squashing -/

/-- The sync objects that the focused task holds, with the write-back of its bound ranges (05 R89 step 2), released. -/
def State.dropHolds (s : State) : State :=
  let id := s.cur.id
  let mine := s.syncs.filter fun y => y.excl == some id || y.shared.contains id
  let s1 := mine.foldl (fun (u : State) y =>
    y.ranges.foldl (fun (u : State) r => u.wbRange s.cur.cluster s.cur.cid (u.vaOf s.cur.cid r.1) r.2) u) s
  let left := s1.syncs.map fun y => { y.drop id with queue := y.queue.filter fun q => q.1 != id }
  { s1 with syncs := left.filter fun y => y.excl.isSome || !y.shared.isEmpty || !y.queue.isEmpty }

/-- The numbers of the focused team's matrix operations still in its landing queue complete: a discarded team does not abandon
them (05 R84). -/
def State.finishMx (s : State) : State :=
  let t := s.cur
  (t.team.landings.filterMap fun e => e.mx).foldl (fun (u : State) n => u.completePm t.cid t.vdie 2 n) s

/-- The focused task's team is discarded: its state, image, logs, holds and requests are gone, and it starts again from its
entry (02 R29, 18 R314, 20 R345). -/
def State.discardTeam (s : State) : State :=
  let s1 := s.finishMx.finishCopies.leaveQueries.dropHolds.releaseCore
  { s1 with cur := { s1.cur with team := blankTeam, image := false, sealed := [], ckpt := none, log := [],
                                 runTime := 0, run := s1.cur.run + 1, hung := 0,
                                 extSince := false, ckptDue := false, collTags := [], halted := false, stepping := none,
                                 parked := false, held := none, fresh := false } }

/-- The numbers a speculative task drew complete with no effect (05 R84). -/
def State.dropNumbers (s : State) : State :=
  let t := s.cur
  let s1 := t.specNums.foldl (fun (u : State) n => u.completePm t.cid t.vdie n.1 n.2) s
  { s1 with cur := { s1.cur with specNums := [] } }

/-- The focused task squashed by itself: entry, held fault and stalled instructions discarded (06 R110). -/
def State.squashOne (s : State) : State :=
  let id := s.cur.id
  let s2 := ({ s.dropNumbers with copies := s.copies.filter (fun c => c.task != id) }).discardTeam
  ({ s2 with cur := { s2.cur with proof := [], proofFull := false, slot0 := 0, slot1 := 0, assay0 := .idle, assay1 := .idle } }).putState
    .squashed true

/-- The live tasks speculating on an output of a task (06 R111). -/
def State.speculators (s : State) (id : Nat) : List Nat :=
  (s.liveTasks.filter fun u => u.spec && u.state != .squashed && (u.prod0 == some id || u.prod1 == some id)).map Task.id

/-- A task and every task that speculates on its outputs squashed, transitively (06 R111): `fuel` steps deep, which as many as there are
tasks exhaust. -/
def State.squashTree (fuel : Nat) (s : State) (id : Nat) : State :=
  match fuel with
  | 0 => s
  | fuel + 1 =>
    let deps := s.speculators id
    let s1 := s.withTask id fun u => if u.cur.spec && u.cur.state != .squashed then u.squashOne else u
    deps.foldl (State.squashTree fuel) s1

/-- Everything that speculates on a task's outputs squashed (06 R110, R111). -/
def State.squashDependants (s : State) (id : Nat) : State := (s.speculators id).foldl (State.squashTree s.allTasks.length) s

/-- Whether an input's producer, if any, is DONE. -/
def State.inputReal (s : State) (p : Option Nat) : Bool :=
  match p with
  | none => true
  | some id => s.allTasks.all fun u => u.id != id || !u.live

/-- The focused SQUASHED task: SPEC := 0, and READY or WAITING, once every input is real (02 R29). -/
def State.unsquashOne (s : State) : State :=
  if s.cur.state == .squashed && s.inputReal s.cur.prod0 && s.inputReal s.cur.prod1 then
    if s.cur.deps = 0 then ({ s with cur := { s.cur with spec := false } }).makeReady else s.putState .waiting false
  else s

/-- Every SQUASHED task whose inputs are real goes on (02 R29). -/
def State.unsquash (s : State) : State :=
  (s.allTasks.filter fun u => u.state == .squashed).foldl (fun (v : State) u => v.withTask u.id State.unsquashOne) s

/-- The focused task squashed with its dependants (06 R110). -/
def State.squash (s : State) : State := (State.squashTree s.allTasks.length s s.cur.id).unsquash

/-- KILL of the focused task (20 R346): a squash when it is speculative. -/
def State.kill (s : State) : State :=
  if s.cur.spec then s.squash
  else
    let id := s.cur.id
    let s1 := s.discardTeam.makeReady
    s1.squashDependants id

/-! ### Taking a trap (18 R308, R309) -/

/-- Steps 3 to 5 of R308 on the focused task, once nothing of it is in flight: the state is saved, FAULT then STATE written,
the record posted, the core and stamps released. A speculative task's trap is held instead (06 R107). -/
def State.finishTrap (s : State) (r : FaultRec) : State :=
  if s.cur.spec then
    let s1 := (s.writeImage 4 .running).releaseCore
    ({ s1 with cur := { s1.cur with held := some r } }).answerTask s1.cur.id 3
  else
    let s1 := (s.writeImage 4 .faulted).releaseCore
    let s2 := { s1 with cur := { s1.cur with fault := r } }
    (s2.putState .faulted false).postFault s2.cur r

/-- The service requests of the focused team withdrawn by HANG (18 R314); each member stays in its `ecall`. -/
def State.withdrawServices (s : State) : State :=
  let t := s.cur.team
  s.setTeam { t with seq := { t.seq with svc := none }, ld := { t.ld with svc := none }, st := { t.st with svc := none } }

/-- A trap of a member of the focused team (18 R308): the first trap of a stop is recorded, the faulting member stands before
its instruction, and the stop finishes at once when nothing of the task is in flight. A hang timer that has run out starts anew, for the
trap is what its expiry led to, or is recorded in its place (18 R309, R322). -/
def State.takeTrap (s : State) (w : Who) (t : Trap) : State :=
  match s.cur.stop with
  | some (.trap _) => s
  | _ =>
    let r : FaultRec := ⟨t.cause.code, w, (s.member w).pc, t.d1, t.d2⟩
    let s0 := if t.cause = .hang then s.withdrawServices else s.setMember w { s.member w with wait := none }
    let hung := if 16000 * (s.part s.cur.part).hang ≤ s0.cur.hung then 0 else s0.cur.hung
    let s1 := { s0 with cur := { s0.cur with stepping := none, hung := hung } }
    if s1.inFlight s1.cur.id then { s1 with cur := { s1.cur with stop := some (.trap r) } } else s1.finishTrap r

/-! ### The return from a trap (02 R30, 18 R313) -/

/-- A member after RESUME: past the `ebreak` it stopped at; any other instruction is executed again, an `ecall` that HANG withdrew
with a new request (18 R313, R322). Past an `ebreak` no loop's END is looked for (DEDUCED, log 96). -/
def Member.resumed (m : Member) (marked : Bool) (cause : BitVec 16) : Member :=
  if marked && cause == Cause.breakpoint.code then { m with pc := m.pc + 4 } else m

/-- RESUME of the focused task: it is READY, and its team stands where it stopped (02 R29, R30, 18 R313). -/
def State.resumeTask (s : State) : State :=
  let t := s.cur
  let c := if t.state = .faulted then t.fault.cause else 0
  let m (w : Who) : Member := (t.team.member w).resumed (t.fault.who == w) c
  let team := { t.team with seq := m .seq, ld := m .ld, st := m .st }
  ({ s with cur := { t with team := team, halted := false, stepping := none } }).makeReady

/-- RESTART of the focused task: it starts again from R26, and the next service request carries tag 1 (02 R30, 18 R314). -/
def State.restartTask (s : State) : State :=
  let id := s.cur.id
  let s1 := s.discardTeam
  ({ s1 with cur := { s1.cur with svcTag := 0 } }).makeReady.squashDependants id

/-! ### Traps of a privileged hart (18 R304, by the Privileged ISA) -/

/-- `mstatus` with a bit set or cleared. -/
def putBit (v : Word) (i : Nat) (b : Bool) : Word := (v &&& ~~~(1#64 <<< i)) ||| (if b then 1#64 <<< i else 0)

/-- A trap of a privileged hart at its pc, into S or into M, by its cause and the address its handler starts at. -/
def Hart.enter (v : Hart) (toS : Bool) (cause tval pc : Word) : Hart :=
  if toS then
    let st := putBit (putBit (putBit v.mstatus 5 (v.mstatus.getLsbD 1)) 1 false) 8 (v.mode != 0)
    { v with scause := cause, sepc := v.pc, stval := tval, mstatus := st, mode := 1, pc := pc, wait := none }
  else
    let st := putBit (putBit v.mstatus 7 (v.mstatus.getLsbD 3)) 3 false
    let st := (st &&& ~~~(3#64 <<< 11)) ||| (v.mode.setWidth 64 <<< 11)
    { v with mcause := cause, mepc := v.pc, mtval := tval, mstatus := st, mode := 3, pc := pc, wait := none }

/-- An exception of a privileged hart at its pc: to S when the hart is below M and `medeleg` delegates it, to M otherwise. -/
def Hart.take (v : Hart) (code : Nat) (tval : Word) : Hart :=
  let toS := v.mode != 3 && v.medeleg.getLsbD code
  v.enter toS (BitVec.ofNat 64 code) tval ((if toS then v.stvec else v.mtvec) &&& ~~~3#64)

/-- Whether an interrupt of a hart is pending, enabled and to be taken in its mode: into S where `mideleg` delegates it, which M does
not take, and into M otherwise. -/
def Hart.interrupts (v : Hart) (n : Nat) : Bool :=
  v.mip.getLsbD n && v.mie.getLsbD n &&
    (if v.mideleg.getLsbD n then v.mode == 0 || (v.mode == 1 && v.mstatus.getLsbD 1) else v.mode != 3 || v.mstatus.getLsbD 3)

/-- The interrupt a hart takes next, those into M first, each in the order of the Privileged ISA. -/
def Hart.irq (v : Hart) : Option Nat :=
  let order := [11, 3, 7, 9, 1, 5].filter v.interrupts
  match order.find? fun n => !v.mideleg.getLsbD n with
  | some n => some n
  | none => order.head?

/-- An interrupt taken: the handler starts at the vector base, or at its entry for the cause where the base says so. -/
def Hart.takeIrq (v : Hart) (n : Nat) : Hart :=
  let toS := v.mideleg.getLsbD n
  let tvec := if toS then v.stvec else v.mtvec
  v.enter toS (BitVec.ofNat 64 (2 ^ 63 + n)) 0 ((tvec &&& ~~~3#64) + if tvec.getLsbD 0 then BitVec.ofNat 64 (4 * n) else 0)

/-- The return of `mret`. -/
def Hart.mret (v : Hart) : Hart :=
  let mpp : BitVec 2 := v.mstatus.extractLsb' 11 2
  let st := putBit (putBit v.mstatus 3 (v.mstatus.getLsbD 7)) 7 true
  let st := st &&& ~~~(3#64 <<< 11)
  { v with mode := mpp, mstatus := if mpp = 3 then st else putBit st 17 false, pc := v.mepc }

/-- The return of `sret`. -/
def Hart.sret (v : Hart) : Hart :=
  let spp := v.mstatus.getLsbD 8
  let st := putBit (putBit (putBit v.mstatus 1 (v.mstatus.getLsbD 5)) 5 true) 8 false
  { v with mode := if spp then 1 else 0, mstatus := putBit st 17 false, pc := v.sepc }

/-! ### How an instruction ends -/

/-- The state with the member in focus blocked; a hart does not block here. -/
def State.blockWith (s : State) (w : Wait) : State :=
  match s.focus with
  | .member m => s.setMember m { s.member m with wait := some w }
  | .hart _ => s

/-- A miss as the end of an instruction: its trap, or a wait for the page that is being backed (19 R330). -/
def Miss.eff (m : Miss) : Eff :=
  match m.trap with
  | some t => .trap t m.state
  | none => .stay .interlock m.state

/-- A trap of the agent in focus. -/
def State.trapFocus (s : State) (t : Trap) : State :=
  match s.focus with
  | .member w => s.takeTrap w t
  | .hart h => s.setHart h ((s.hart h).take t.cause.code.toNat t.d1)

/-- The end of a step (18 R320, R321): when the member in focus was stepped, the team stops again and STEP is posted, to the
debug queue of a context under DEBUG. -/
def State.endStep (s : State) (d1 d2 : Word) : State :=
  match s.focus, s.cur.stepping with
  | .member w, some v =>
    if w = v then
      let s1 := (({ s with cur := { s.cur with stepping := none } }).writeImage s.cur.reason s.cur.state).releaseCore
      let f : Word := BitVec.ofNat 64 (w.num * 2 ^ 16 + (s.member w).pc * 2 ^ 18)
      (s1.post s.cur.cid 2 (s1.taskRecord s1.cur 8 0 f (s1.cur.members (some w)) d1 d2)).1
    else s
  | _, _ => s

/-- The outcome of an instruction of `len` bytes that ends as `e` says. -/
def Eff.finish (len : Nat) (e : Eff) : Host.Outcome State Fault Refusal :=
  match e with
  | .done s => .next ((s.retire (s.pc + BitVec.ofNat 64 len)).endStep 0 0)
  | .doneWith s d1 d2 => .next ((s.retire (s.pc + BitVec.ofNat 64 len)).endStep d1 d2)
  | .jump s pc => .next ((s.retire pc).endStep 0 0)
  | .stay w s => .next (s.blockWith w)
  | .drain s => .next s.drainCycle
  | .trap t s => .next (s.trapFocus t)
  | .ends s => .next s

end Sys2Proof.Machine
end

