-- ==== Sys2Proof/Machine/Operands.lean ====
section
/-! DEFINITION. Operand forms: what a member may execute (08 R138), the format in force (03 R48, R55), groups and elements
(08 R134-R140, 10 R167), the checks of 08 R139 in their order, the drains before an issue (04 R59), and the issue itself. -/

namespace Sys2Proof.Machine

/-! ### Who may execute what, and the format in force -/

/-- Whether a member may execute a CLASS/OP pair below class 15 (08 R138). -/
def permitted (cls op : Nat) (w : Who) : Bool :=
  match w with
  | .seq => cls ≤ 8 || (cls == 11 && [3, 4, 5, 8, 9, 10, 11, 12, 13, 14, 15].contains op)
      || (cls == 13 && !(([0, 3, 4] : List Nat).contains op)) || (cls == 14 && [1, 4].contains op)
  | _ => 9 ≤ cls && cls ≤ 14

/-- The format, rounding mode and overflow rule that govern an instruction (03 R48, R55). -/
structure Res where
  fmt : Nat
  rm : Nat
  ovf : Bool
deriving DecidableEq, Repr

/-- The format-table entry an instruction with FMT = 15 resolves (03 R55). -/
def Team.ftEntry (t : Team) : BitVec 8 :=
  let c := match t.selCtr with
    | none => 0
    | some n => (t.loopOf n).count.toNat
  t.ft.get ⟨(c + t.selBase.toNat) % 16, Nat.mod_lt _ (by decide)⟩

/-- What governs a long form of classes 0-8, resolved at issue. -/
def Team.res (t : Team) (o : LF) : Res :=
  if o.fmt = 15 then
    let e := t.ftEntry
    { fmt := (e.extractLsb' 0 4).toNat, rm := if o.rm = 7 then (e.extractLsb' 4 3).toNat else o.rm, ovf := e.getLsbD 7 }
  else { fmt := o.fmt.toNat, rm := if o.rm = 7 then t.rm.toNat else o.rm, ovf := o.ovf }

/-- Registers in a group (08 R133, R136). -/
def groupRegs (o : LF) : Nat := 2 ^ o.grp.toNat

/-- The element width of classes 0 and 2 to 5 (10 R166). -/
def fmtWidth (f : Nat) : Nat :=
  match f with
  | 0 => 32
  | 1 => 16
  | 2 => 16
  | 5 => 4
  | 7 => 4
  | 11 => 16
  | _ => 8

/-- The element width of class 1 (10 R166). -/
def intWidth (f : Nat) : Nat :=
  match f with
  | 0 => 32
  | 1 => 16
  | 7 => 4
  | _ => 8

/-- Elements of a group of `g` registers at a width (10 R167). -/
def elems (g w : Nat) : Nat := g * (256 / w)

/-! ### The checks of 08 R139 -/

/-- What an instruction's fields come to at issue: the registers of each vector operand (0 where it is none), whether D is
written as a vector group, the instruction's own part of checks 4 and 5, its landing and its use of the matrix engine. -/
structure Plan where
  gd : Nat := 0
  ga : Nat := 0
  gb : Nat := 0
  dest : Bool := false
  ok4 : Bool := true
  ok5 : Bool := true
  /-- Exposed latency of a result that takes a landing-queue entry. -/
  lat : Nat := 0
  entry : Bool := false
  /-- Waits for the matrix engine. -/
  matrix : Bool := false
  /-- Counts on the sequencer's tile-operation counter (05 R83). -/
  tile : Bool := false
  /-- A token queue it names, and whether it puts (04 R76). -/
  route : Option (Nat × Bool) := none
deriving DecidableEq, Repr

/-- A group base aligned to its group, every member below FS (08 R139 check 5). -/
def groupOk (fs g base : Nat) : Bool := g == 0 || (base % g == 0 && base + g ≤ fs)

/-- Whether a destination group and a source group coincide exactly or share no register (08 R140). -/
def apart (d gd a ga : Nat) : Bool := ga == 0 || (d == a && gd == ga) || a + ga ≤ d || d + gd ≤ a

/-- Whether a member writes (`put`) or reads a token queue (04 R76). -/
def onRoute (w : Who) (q : Nat) (put : Bool) : Bool :=
  match w with
  | .seq => if put then q / 2 == 0 || q / 2 == 2 else q / 2 == 1 || q / 2 == 3
  | .ld => if put then q / 2 == 1 else q / 2 == 0
  | .st => if put then q / 2 == 3 else q / 2 == 2

/-- Whether an instruction's token queue, if any, is on the member's route (08 R139 check 5). -/
def Plan.routeOk (p : Plan) (w : Who) : Bool :=
  match p.route with
  | none => true
  | some (q, put) => onRoute w q put

/-- Checks 4 to 6 on the window state: the first cause that applies (08 R139). -/
def Plan.check (p : Plan) (t : Team) (w : Who) (o : LF) (sh : Shape) : Option Cause :=
  let fmtOk := 9 ≤ sh.cls || o.fmt != 15 || sh.fmts.contains (t.res o).fmt
  if !sh.fieldsOk o || !fmtOk || !p.ok4 then some .illegalInstr
  else if !groupOk t.fs p.gd o.d.toNat || !groupOk t.fs p.ga o.a.toNat || !groupOk t.fs p.gb o.b.toNat || !p.ok5
      || !p.routeOk w then some .illegalOperand
  else if p.dest && !(apart o.d.toNat p.gd o.a.toNat p.ga && apart o.d.toNat p.gd o.b.toNat p.gb) then some .regOverlap
  else none

/-- The sequencer's tile-operation counter: matrix operations not yet landed (05 R83). -/
def Team.tileOps (t : Team) : Nat := (t.landings.filter fun e => e.matrix).length

/-- Whether the sequencer's next instruction waits in a drain cycle before it issues (04 R59). -/
def Plan.drains (p : Plan) (t : Team) : Bool :=
  t.debt != 0 || (p.entry && 48 ≤ t.landings.length) || (p.matrix && t.matBusy != 0) || (p.tile && 63 ≤ t.tileOps)

/-- A drain cycle, one owed move into spilled registers done (04 R59, R66). -/
def State.drainOwed (s : State) : State := s.setTeam { s.cur.team with debt := s.cur.team.debt - 1 }

/-- The low word of an instruction's encoding: tval of an illegal-instruction exception (18 R304). -/
def lowWord (i : Instr) : Word :=
  match encode i with
  | w :: _ => w.setWidth 64
  | [] => 0

/-- The illegal-instruction exception of a privileged hart (18 R304). -/
def illegalOnHart (i : Instr) : Trap := { cause := .hart 2, d1 := lowWord i }

/-- The issue of a Xosin instruction of classes 0 to 14 with long form `o`, in the order of 08 R139: permission, fields,
operands, overlap; then drains; then BYPASS_CONFLICT; then the instruction's own effect. -/
def issue (i : Instr) (len : Nat) (o : LF) (sh : Shape) (plan : Team → Res → Plan) (body : Who → Res → State → Eff) (s : State) :
    Host.Outcome State Fault Refusal :=
  match s.focus with
  | .hart _ => (Eff.trap (illegalOnHart i) s).finish len
  | .member w =>
    let t := s.cur.team
    let r := t.res o
    let p := plan t r
    if !permitted sh.cls sh.op w then (Eff.trap (trapOf .illegalInstr) s).finish len
    else
      match p.check t w o sh with
      | some c => (Eff.trap (trapOf c) s).finish len
      | none =>
        if w == .seq && p.drains t then (Eff.drain s.drainOwed).finish len
        else if o.t == 1 && t.bypassConflict p.lat then (Eff.trap (trapOf .bypassConflict) s).finish len
        else (body w r s).finish len

/-- The issue of a base instruction, or of a short buffer access, which has no long-form field to check. -/
def issueBase (s : State) (e : Eff) : Host.Outcome State Fault Refusal :=
  match s.focus with
  | .member .seq => if s.cur.team.debt != 0 then (Eff.drain s.drainOwed).finish 4 else e.finish 4
  | _ => e.finish 4

/-- The issue of a class 15 instruction (18 R304, 23 R382): PRIVILEGE in a team, an illegal-instruction exception in U or with
a field it does not allow; the status of one that waited is written when it is settled (R383). -/
def issueSys (i : Instr) (o : LF) (sh : Shape) (body : Fin 16 → State → Eff) (s : State) : Host.Outcome State Fault Refusal :=
  match s.focus with
  | .member _ => (Eff.trap (trapOf .privilege) s).finish 8
  | .hart h =>
    if (s.hart h).mode == 0 || !sh.fieldsOk o then (Eff.trap (illegalOnHart i) s).finish 8
    else
      match (s.hart h).wait with
      | some (.status code) => (Eff.done ((s.setHart h { s.hart h with wait := none }).setX (fieldReg o.d) (BitVec.ofNat 64 code))).finish 8
      | _ => (body h s).finish 8

/-! ### Vector groups and elements -/

/-- The registers of a group as an instruction reads them. -/
def Team.group (t : Team) (base g : Nat) : List V256 := (List.range g).map fun k => t.v (base + k)

/-- Element `i` of a group, as its code (03 R38). -/
def elemAt (regs : List V256) (w i : Nat) : Nat := ((regs.getD (i * w / 256) 0).extractLsb' (i * w % 256) w).toNat

/-- The first `n` element codes of a group. -/
def elemCodes (regs : List V256) (w n : Nat) : List Nat := (List.range n).map fun i => elemAt regs w i

/-- Active(i) (08 R145). -/
def Team.active (t : Team) (m : BitVec 1) (i : Nat) : Bool := m == 0 || ((t.masks.headD 0).getLsbD i)

/-- One register and its write mask from its element codes, lowest first; none is not written. -/
def regOfCodes (w : Nat) (cs : List (Option Nat)) : V256 × V256 :=
  let r := cs.foldr (fun c (vm : Nat × Nat) =>
    match c with
    | some x => (vm.1 * 2 ^ w + x % 2 ^ w, vm.2 * 2 ^ w + (2 ^ w - 1))
    | none => (vm.1 * 2 ^ w, vm.2 * 2 ^ w)) (0, 0)
  (BitVec.ofNat 256 r.1, BitVec.ofNat 256 r.2)

/-- The landing writes of a group of `g` registers at an absolute base from its element codes. -/
def groupWrites (abs g w : Nat) (cs : List (Option Nat)) : List LWrite :=
  (List.range g).map fun k =>
    let vm := regOfCodes w ((cs.drop (k * (256 / w))).take (256 / w))
    .v (abs + k) vm.1 vm.2

/-- Codes with the inactive ones left out. -/
def Team.masked (t : Team) (m : BitVec 1) (cs : List Nat) : List (Option Nat) :=
  cs.zipIdx.map fun ci => if t.active m ci.2 then some ci.1 else none

/-- A new landing-queue entry (04 R62, 08 R145). -/
def Team.land (t : Team) (ws : List LWrite) (flags : BitVec 6) (lat : Nat) (o : LF) : Team :=
  { t with landings := t.landings ++ [⟨ws, flags, lat, o.t == 1, false, none⟩] }

/-- Draws for `n` element positions under a mode (03 R50): only SR draws. -/
def Team.drawn (t : Team) (mode n : Nat) : List Nat × Team :=
  if mode = 4 then
    let d := srDraws n t.srseed
    (d.1, { t with srseed := d.2 })
  else (List.replicate n 0, t)

end Sys2Proof.Machine
end

