-- ==== Sys2Proof/Machine/Flags.lean ====
section
/-! DEFINITION. The sticky flags: which elements contribute, when they are set, and what a write of XFCSR or of a format-table
entry does to them and to the modes (03 R51, R54, 09 R164). -/

namespace Sys2Proof.Machine

/-- The flags of the active elements of an instruction (03 R51). -/
def activeFlags (fs : List (Option (BitVec 6))) : BitVec 6 :=
  fs.foldl (fun a f => match f with | some x => a ||| x | none => a) 0

/-- The flags of element results, taken where the element is active. -/
def Team.flagsOf (t : Team) (m : BitVec 1) (rs : List (Nat × BitVec 6)) : BitVec 6 :=
  activeFlags (rs.zipIdx.map fun ri => if t.active m ri.2 then some ri.1.2 else none)

/-- A flag set when a condition holds. -/
def flagIf (b : Bool) (f : BitVec 6) : BitVec 6 := if b then f else 0

/-- Flags raised by a scalar result, set when the scalar is written (08 R145). -/
def Team.raise (t : Team) (f : BitVec 6) : Team := { t with flags := t.flags ||| f, flagsNow := t.flagsNow ||| f }

/-- XFCSR as a read returns it (03 R51). -/
def Team.xfcsr (t : Team) : Word := (t.rm.setWidth 64 <<< 8) ||| t.flags.setWidth 64

/-- A rounding-mode field after a write: 5 to 7 leave it unchanged (03 R51, R54). -/
def writeRm (old new : BitVec 3) : BitVec 3 := if 5 ≤ new.toNat then old else new

/-- XFCSR after a write: a 1 clears its flag, but not one that landed in this issue cycle (03 R51, 09 R164). -/
def Team.writeXfcsr (t : Team) (clear : BitVec 6) (rm : BitVec 3) : Team :=
  { t with flags := (t.flags &&& ~~~clear) ||| t.flagsNow, rm := writeRm t.rm rm }

/-- A format-table entry after a write (03 R54). -/
def writeFt (old new : BitVec 8) : BitVec 8 :=
  let f := if new.extractLsb' 0 4 = 15 then old.extractLsb' 0 4 else new.extractLsb' 0 4
  new.extractLsb' 7 1 ++ (writeRm (old.extractLsb' 4 3) (new.extractLsb' 4 3) ++ f)

/-- A team with a format-table entry written. -/
def Team.setFt (t : Team) (n : Fin 16) (v : BitVec 8) : Team := { t with ft := t.ft.set n.val (writeFt (t.ft.get n) v) n.isLt }

/-- SRSEED after a write: 0 stores 1 (03 R50). -/
def writeSeed (v : Word) : Word := if v = 0 then 1 else v

end Sys2Proof.Machine
end

