-- ==== Sys2Proof/Machine/Csr.lean ====
section
/-! DEFINITION. The CSRs: the user CSRs of a team (09 R162-R164) and those of a privileged hart (18 R304, R305). -/

namespace Sys2Proof.Machine

/-- How a CSR instruction writes: the source, the bits it sets, or the bits it clears. -/
inductive CsrOp where
  | write | set | clear
deriving DecidableEq, Repr

/-- The value a CSR takes from its old value and the source. -/
def CsrOp.apply (k : CsrOp) (old src : Word) : Word :=
  match k with
  | .write => src
  | .set => old ||| src
  | .clear => old &&& ~~~src

/-- TERR of a die (01 R18, 24 R406): all ones while it is unlocked. -/
def State.terr (s : State) (d : Die) : Word :=
  if !d.clock.locked then BitVec.allOnes 64
  else if s.hub.domain && !s.hub.tmaster then BitVec.ofNat 64 s.hub.timeBound else 64

/-- A user CSR as a member reads it (09 R163); none where the number is not in its map. -/
def State.userCsr (s : State) (w : Who) (n : Nat) : Option Word :=
  let t := s.cur.team
  let d := s.die (s.cur.cluster / 32)
  if n = 0xC01 then some (BitVec.ofNat 64 d.time)
  else if n = 0xCC0 then some (s.terr d)
  else if n = 0xCC1 then some (BitVec.ofNat 64 (s.cur.vdie % 65536))
  else if n = 0xCC2 then some (BitVec.ofNat 64 (s.proofszOf s.cur))
  else if w != .seq then none
  else if n = 0x800 then some t.xfcsr
  else if n = 0x801 then some t.srseed
  else if h : 0x810 ≤ n ∧ n < 0x820 then some ((t.ft.get ⟨n - 0x810, by omega⟩).setWidth 64)
  else none

/-- A team with a user CSR written (09 R163, R164). -/
def Team.writeCsr (t : Team) (k : CsrOp) (n : Nat) (src : Word) : Team :=
  if n = 0x800 then
    let clear : BitVec 6 := if k = .clear then 0 else src.setWidth 6
    t.writeXfcsr clear ((k.apply t.xfcsr src).extractLsb' 8 3)
  else if n = 0x801 then { t with srseed := writeSeed (k.apply t.srseed src) }
  else if h : 0x810 ≤ n ∧ n < 0x820 then
    let i : Fin 16 := ⟨n - 0x810, by omega⟩
    t.setFt i ((k.apply ((t.ft.get i).setWidth 64) src).setWidth 8)
  else t

/-- A CSR instruction of a member (09 R162): `reads` and `writes` as the ratified rules say. -/
def State.memberCsr (s : State) (w : Who) (k : CsrOp) (n : Nat) (rd : Reg) (src : Word) (reads writes : Bool) : Eff :=
  match s.userCsr w n with
  | none => .trap (trapOf .illegalInstr) s
  | some old =>
    if writes && 0xC00 ≤ n then .trap (trapOf .illegalInstr) s
    else if reads && n == 0x800 && !s.cur.team.landings.isEmpty then .drain s
    else
      let s1 := if writes then s.setTeam (s.cur.team.writeCsr k n src) else s
      .done (if reads then s1.setX rd old else s1)

/-! ### Privileged harts -/

/-- The bits of `mstatus` that software writes: SUM is not among them, for `satp` is fixed at Bare (Privileged ISA, 18 R305). -/
def mstatusMask : Word := 0x00000000007A19AA
/-- The bits of `mstatus` that a write of `sstatus` reaches; a read shows UXL as well. -/
def sstatusMask : Word := 0x0000000000080122

/-- PARTID as a word (18 R305). -/
def Hart.partidWord (v : Hart) : Word := v.partid.setWidth 64

/-- A CSR of a privileged hart by number, with the least mode that reads it (Privileged ISA; 18 R305); none where absent. -/
def State.hartCsr (s : State) (h : Fin 16) (n : Nat) : Option (Nat × Word) :=
  let v := s.hart h
  match n with
  | 0x100 => some (1, v.mstatus &&& (sstatusMask ||| 0x300000000))
  | 0x104 => some (1, v.mie &&& v.mideleg)
  | 0x105 => some (1, v.stvec)
  | 0x106 => some (1, v.scounteren)
  | 0x10A => some (1, v.senvcfg)
  | 0x140 => some (1, v.sscratch)
  | 0x141 => some (1, v.sepc)
  | 0x142 => some (1, v.scause)
  | 0x143 => some (1, v.stval)
  | 0x144 => some (1, v.mip &&& v.mideleg)
  | 0x180 => some (1, v.satp)
  | 0x300 => some (3, v.mstatus)
  | 0x301 => some (3, 0x8000000000141101)
  | 0x302 => some (3, v.medeleg)
  | 0x303 => some (3, v.mideleg)
  | 0x304 => some (3, v.mie)
  | 0x305 => some (3, v.mtvec)
  | 0x306 => some (3, v.mcounteren)
  | 0x30A => some (3, v.menvcfg)
  | 0x320 => some (3, v.mcountinhibit)
  | 0x340 => some (3, v.mscratch)
  | 0x341 => some (3, v.mepc)
  | 0x342 => some (3, v.mcause)
  | 0x343 => some (3, v.mtval)
  | 0x344 => some (3, v.mip)
  | 0x7C0 => some (3, v.partidWord)
  | 0xB00 => some (3, v.mcycle)
  | 0xB02 => some (3, v.minstret)
  | 0xC01 => some (0, BitVec.ofNat 64 (if h.val < 8 then s.hub.time else (s.die (h.val - 8)).time))
  | 0xDC0 => some (1, v.partidWord)
  | 0xF11 => some (3, 0)
  | 0xF12 => some (3, 0)
  | 0xF13 => some (3, 0)
  | 0xF15 => some (3, 0)
  | 0xF14 => some (3, BitVec.ofNat 64 h.val)
  | n =>
    -- the event counters of the Privileged ISA and their selectors, which count nothing
    if (0xB03 ≤ n ∧ n ≤ 0xB1F) ∨ (0x323 ≤ n ∧ n ≤ 0x33F) then some (3, 0) else none

/-- The bits of an old value outside a mask kept. -/
def keepOutside (mask old new : Word) : Word := (old &&& ~~~mask) ||| (new &&& mask)

/-- `mstatus` after a write: MPP takes no reserved mode. -/
def writeMstatus (old new : Word) : Word :=
  let v := keepOutside mstatusMask old new
  if v.extractLsb' 11 2 = 2 then keepOutside (3 <<< 11) v old else v

/-- A hart with a CSR written. -/
def Hart.writeCsr (v : Hart) (n : Nat) (a : Word) : Hart :=
  match n with
  | 0x100 => { v with mstatus := keepOutside sstatusMask v.mstatus a }
  | 0x104 => { v with mie := keepOutside v.mideleg v.mie a }
  | 0x105 => { v with stvec := a &&& ~~~2 }
  | 0x106 => { v with scounteren := a &&& 2 }
  | 0x10A => { v with senvcfg := a &&& 1 }
  | 0x140 => { v with sscratch := a }
  | 0x141 => { v with sepc := a &&& ~~~3 }
  | 0x142 => { v with scause := a }
  | 0x143 => { v with stval := a }
  | 0x144 => { v with mip := keepOutside (v.mideleg &&& 2) v.mip a }
  | 0x180 => v
  | 0x300 => { v with mstatus := writeMstatus v.mstatus a }
  | 0x302 => { v with medeleg := a &&& 0xB3FF }
  | 0x303 => { v with mideleg := a &&& 0x222 }
  | 0x304 => { v with mie := a &&& 0xAAA }
  | 0x305 => { v with mtvec := a &&& ~~~2 }
  | 0x306 => { v with mcounteren := a &&& 2 }
  | 0x30A => { v with menvcfg := a &&& 1 }
  | 0x320 => { v with mcountinhibit := a &&& 5 }
  | 0x340 => { v with mscratch := a }
  | 0x341 => { v with mepc := a &&& ~~~3 }
  | 0x342 => { v with mcause := a }
  | 0x343 => { v with mtval := a }
  | 0x344 => { v with mip := keepOutside 0x222 v.mip a }
  | 0x7C0 => { v with partid := a.setWidth 4 }
  | 0xB00 => { v with mcycle := a }
  -- the count of the writing instruction itself is lost to the write
  | 0xB02 => { v with minstret := if v.mcountinhibit.getLsbD 2 then a else a - 1 }
  | _ => v

/-- Whether a CSR is kept from a hart below M: `satp` in S under TVM, and package time where the counter enables say so
(Privileged ISA). -/
def Hart.barred (v : Hart) (n : Nat) : Bool :=
  (n == 0x180 && v.mode == 1 && v.mstatus.getLsbD 20)
    || (n == 0xC01 && ((v.mode != 3 && !v.mcounteren.getLsbD 1) || (v.mode == 0 && !v.scounteren.getLsbD 1)))

/-- A CSR instruction of a privileged hart: an illegal-instruction exception where the number, the mode or the access is wrong. -/
def State.hartCsrOp (s : State) (i : Instr) (h : Fin 16) (k : CsrOp) (n : Nat) (rd : Reg) (src : Word) (reads writes : Bool) : Eff :=
  match s.hartCsr h n with
  | none => .trap (illegalOnHart i) s
  | some (least, old) =>
    if (s.hart h).mode.toNat < least || (writes && 0xC00 ≤ n) || (s.hart h).barred n then .trap (illegalOnHart i) s
    else
      let s1 := if writes then s.setHart h ((s.hart h).writeCsr n (k.apply old src)) else s
      .done (if reads then s1.setX rd old else s1)

/-- A CSR instruction of the agent in focus. -/
def State.csrOp (s : State) (i : Instr) (k : CsrOp) (rd : Reg) (csr : BitVec 12) (src : Word) (writes : Bool) : Eff :=
  let reads := k != .write || rd != 0
  match s.focus with
  | .member w => s.memberCsr w k csr.toNat rd src reads writes
  | .hart h => s.hartCsrOp i h k csr.toNat rd src reads writes

end Sys2Proof.Machine
end

