-- ==== Sys2Proof/Machine/Scalar.lean ====
section
/-! DEFINITION. The 71 forms of RV64I, M and Zicsr (09 R154-R164), for a team member and, by the Privileged ISA, for a hart. -/

namespace Sys2Proof.Machine

/-! ### Shared operations -/

/-- A 32-bit result sign-extended. -/
def sextW (v : BitVec 32) : Word := v.signExtend 64

/-- The low word of a register. -/
def lowW (v : Word) : BitVec 32 := v.setWidth 32

/-- A 12-bit immediate sign-extended. -/
def sext12 (imm : BitVec 12) : Word := imm.signExtend 64

/-- A U-layout immediate: 20 bits over twelve zeros, sign-extended. -/
def immU (imm : BitVec 20) : Word := (imm ++ (0 : BitVec 12)).signExtend 64

/-- A B-layout offset: 12 bits over one zero, sign-extended. -/
def immB (imm : BitVec 12) : Word := (imm ++ (0 : BitVec 1)).signExtend 64

/-- A J-layout offset: 20 bits over one zero, sign-extended. -/
def immJ (imm : BitVec 20) : Word := (imm ++ (0 : BitVec 1)).signExtend 64

/-- An instruction that writes a value to `rd` and falls through. -/
def writeRd (s : State) (rd : Reg) (v : Word) : Eff := .done (s.setX rd v)

/-- A truth value as a register value. -/
def boolWord (b : Bool) : Word := if b then 1 else 0

/-- The quotient of a signed division (09 R154). -/
def divSigned {w : Nat} (a b : BitVec w) : BitVec w := if b = 0 then BitVec.allOnes w else a.sdiv b

/-- The quotient of an unsigned division (09 R154). -/
def divUnsigned {w : Nat} (a b : BitVec w) : BitVec w := if b = 0 then BitVec.allOnes w else a / b

/-- The remainder of a signed division (09 R154). -/
def remSigned {w : Nat} (a b : BitVec w) : BitVec w := if b = 0 then a else a.srem b

/-- The remainder of an unsigned division (09 R154). -/
def remUnsigned {w : Nat} (a b : BitVec w) : BitVec w := if b = 0 then a else a % b

/-- The high half of a product of two integers. -/
def highHalf (a b : Int) : Word := BitVec.ofInt 64 (a * b / 2 ^ 64)

/-- The trap of a misaligned control transfer: ALIGN in a member (09 R156), with the target and the length of a fetch there as its details
(DESIGN CHOICE, log 74); cause 0 on a hart. -/
def State.badTarget (s : State) (target : Word) : Eff :=
  match s.focus with
  | .member _ => .trap (trapAt .align target 4) s
  | .hart _ => .trap { cause := .hart 0, d1 := target } s

/-- A taken control transfer that writes a link to `rd` (09 R156). -/
def State.jumpTo (s : State) (rd : Reg) (target : Word) : Eff :=
  if target.extractLsb' 0 2 ≠ 0 then s.badTarget target else .jump (s.setX rd (s.pc + 4)) target

/-- A conditional branch (09 R156). -/
def State.branch (s : State) (taken : Bool) (imm : BitVec 12) : Eff :=
  if taken then
    if (s.pc + immB imm).extractLsb' 0 2 ≠ 0 then s.badTarget (s.pc + immB imm) else .jump s (s.pc + immB imm)
  else .done s

/-! ### Loads and stores -/

/-- Whether [a, a + n) lies in the window of the pigeonhole control words (04 R68). -/
def inHoles (a n : Nat) : Bool := holeBase ≤ a && a + n ≤ holeBase + 256

/-- The address of a member's scalar access, with the checks of 09 R157 in their order. -/
def State.scalarAddr (s : State) (base : Word) (imm : BitVec 12) (n : Nat) (load : Bool) : Except Trap Nat :=
  match localAddr base imm.toInt with
  | none => .error (trapAt .localAddr (base + sext12 imm) n)
  | some a =>
    if !(s.inScratch a n || (load && inHoles a n)) then .error (trapAt .localAddr (BitVec.ofNat 64 a) n)
    else if a % n ≠ 0 then .error (trapAt .align (BitVec.ofNat 64 a) n)
    else .ok a

/-- The error record of LOCAL_UE, which also traps, and the compute die's count of uncorrectable errors (04 R72, 18 R317, 25 R410). -/
def State.postLocalUe (s : State) (a : Nat) : State :=
  let n := s.cur.cluster / 32
  ((s.setDie n { s.die n with errcnt := (s.die n).errcnt + 1 }).post s.cur.cid 1
    (s.errorRecord 1 (0x0100 + n) s.cur.cid 1 7 (BitVec.ofNat 64 a) 0 0)).1

/-- A member's scalar load of `n` bytes (09 R157), after its own copies that write them (12 R234). -/
def State.localLoad (s : State) (w : Who) (rd : Reg) (base : Word) (imm : BitVec 12) (n : Nat) (sx : Bool) : Eff :=
  match s.scalarAddr base imm n true with
  | .error t => .trap t s
  | .ok a =>
    if a < holeBase && s.clusBadAt a then .trap (trapAt .localUe (BitVec.ofNat 64 a) n) (s.postLocalUe a)
    else if s.localHazard w a n false then .stay .hazard s
    else
      let v : Nat := if holeBase ≤ a then (s.cur.team.holeWord a).toNat / 2 ^ (8 * (a % 8)) % 2 ^ (8 * n) else leNat (s.localBytes a n)
      writeRd (if holeBase ≤ a then s else s.rebuild a n) rd (if sx then (BitVec.ofNat (8 * n) v).signExtend 64 else BitVec.ofNat 64 v)

/-- A member's scalar store of `n` bytes (09 R157), after its own copies that read or write them (12 R234). -/
def State.localStore (s : State) (w : Who) (base v : Word) (imm : BitVec 12) (n : Nat) : Eff :=
  match s.scalarAddr base imm n false with
  | .error t => .trap t s
  | .ok a => if s.localHazard w a n true then .stay .hazard s else .done (s.setLocalBytes a (leBytes n v.toNat))

/-- The exceptions of a privileged hart's data access: misaligned, of cause 4 or 6, or none; that a hart refuses such an access is the model's
choice, for the RISC-V text leaves it to the environment (PRESUMED, logs 13 and 77). -/
def hartAlign (a : Word) (n code : Nat) : Option Trap :=
  if a.toNat % n = 0 then none else some { cause := .hart (BitVec.ofNat 16 code), d1 := a }

/-- Whether a hart's access to physical memory is answered: its home is a data frame of this package out of reset (19 R328, R335,
22 R369), and its line reads under the device's key, so that no level of a hart reaches a tenant's plaintext (18 R305). -/
def State.hartMay (s : State) (a : Nat) : Bool := s.homeOf a == .here && (s.readError 0 fwSlot a).isNone

/-- Whether a hart may act on a partition: in S with ALL = 0, only on PART (18 R305). -/
def Hart.mayActOn (v : Hart) (part : Nat) : Bool := v.mode != 1 || v.partid.getLsbD 3 || (v.partid.extractLsb' 0 3).toNat == part

/-- Whether a hart's level may write some bytes of physical memory. The buffer descriptor tables are firmware's alone, and so are, for a
supervisor held to its partition, the page tables of the others' contexts (18 R305, 19 R325); that the store is refused by an access
fault is the model's choice (DESIGN CHOICE, log 90). -/
def State.hartOwns (s : State) (h : Fin 16) (a n : Nat) : Bool :=
  let v := s.hart h
  v.mode == 3 || s.contexts.all fun c =>
    !meets a n c.bdt 262144 && (v.mayActOn (partOf c.cid) || (s.pageTables c).all fun t => !meets a n t.1 t.2)

/-- The access fault of a hart: 1 for a fetch, 5 for a load, 7 for a store or an atomic (Privileged ISA; 18 R304). -/
def accessFault (code : Nat) (a : Word) : Trap := { cause := .hart (BitVec.ofNat 16 code), d1 := a }

/-- A privileged hart's load of `n` bytes of physical memory. -/
def State.hartLoad (s : State) (rd : Reg) (base : Word) (imm : BitVec 12) (n : Nat) (sx : Bool) : Eff :=
  let a := base + sext12 imm
  match hartAlign a n 4 with
  | some t => .trap t s
  | none =>
    let u := s.settle a.toNat
    if !u.hartMay a.toNat then .trap (accessFault 5 a) u
    else writeRd u rd (if sx then (BitVec.ofNat (8 * n) (u.fwNat a.toNat n)).signExtend 64 else BitVec.ofNat 64 (u.fwNat a.toNat n))

/-- A privileged hart's store of `n` bytes of physical memory: a write at their home (22 R372). -/
def State.hartStore (s : State) (h : Fin 16) (base v : Word) (imm : BitVec 12) (n : Nat) : Eff :=
  let a := base + sext12 imm
  match hartAlign a n 6 with
  | some t => .trap t s
  | none =>
    let u := s.settle a.toNat
    if !u.hartMay a.toNat || !u.hartOwns h a.toNat n then .trap (accessFault 7 a) u else .done (u.fwWrite a.toNat (leBytes n v.toNat))

/-- A load of the agent in focus. -/
def State.load (s : State) (rd rs1 : Reg) (imm : BitVec 12) (n : Nat) (sx : Bool) : Eff :=
  match s.focus with
  | .member w => s.localLoad w rd (s.x rs1) imm n sx
  | .hart _ => s.hartLoad rd (s.x rs1) imm n sx

/-- A store of the agent in focus. -/
def State.store (s : State) (rs1 rs2 : Reg) (imm : BitVec 12) (n : Nat) : Eff :=
  match s.focus with
  | .member w => s.localStore w (s.x rs1) (s.x rs2) imm n
  | .hart h => s.hartStore h (s.x rs1) (s.x rs2) imm n

/-! ### Service requests (09 R159, 18 R314) -/

/-- The 128 bytes of a service record. -/
def State.serviceRecord (s : State) (w : Who) (tag : Nat) : List Byte :=
  let m := s.member w
  let x (n : Nat) : Nat := (regGet m.x (BitVec.ofNat 5 n)).toNat
  leBytes 2 16 ++ leBytes 1 w.num ++ leBytes 1 0 ++ leBytes 2 s.cur.cid ++ leBytes 2 s.cur.vdie ++ leBytes 8 m.pc
    ++ leBytes 8 s.cur.tcb.toNat ++ leBytes 8 s.cur.launch ++ leBytes 4 s.cur.tile ++ leBytes 4 tag ++ leBytes 8 (x 17)
    ++ leBytes 8 (x 10) ++ leBytes 8 (x 11) ++ leBytes 8 (x 12) ++ leBytes 8 (x 13) ++ leBytes 8 (x 14) ++ leBytes 8 (x 15)
    ++ leBytes 8 s.hub.time ++ leBytes 24 0

/-- A member's service request posted under the task's next tag. -/
def State.postService (s : State) (w : Who) : State :=
  let tag := s.cur.svcTag + 1
  let s1 := (s.ringPut (s.part s.cur.part).svcCtl (s.serviceRecord w tag)).notify s.cur.part 3 s.cur.cid
  let s2 := { s1 with cur := { s1.cur with svcTag := tag } }
  s2.setMember w { s2.member w with svc := some tag }

/-- `ecall`: stalled while the task is speculative; waiting while the service queue is full; posted once; blocked until answered.
On a hart, the environment call. -/
def State.ecall (s : State) : Eff :=
  match s.focus with
  | .hart h => .trap { cause := .hart (8 + (s.hart h).mode.setWidth 16) } s
  | .member w =>
    if s.cur.spec then .stay .spec s
    else
      match (s.member w).svc with
      | some tag => .stay (.ecall tag) s
      | none =>
        .stay (.ecall (s.cur.svcTag + 1)) (if s.ringFull (s.part s.cur.part).svcCtl then s else s.postService w)

/-- `ebreak`: BREAKPOINT in a member (09 R160), cause 3 on a hart. -/
def State.ebreak (s : State) : Eff :=
  match s.focus with
  | .member _ => .trap (trapOf .breakpoint) s
  | .hart _ => .trap { cause := .hart 3, d1 := s.pc } s

/-! ### The instructions -/

/-- `lui`: the upper immediate. -/
def execLui (rd : Reg) (imm : BitVec 20) (s : State) : Host.Outcome State Fault Refusal :=
  issueBase s (writeRd s rd (immU imm))

/-- `auipc`: the upper immediate added to the pc (09 R156). -/
def execAuipc (rd : Reg) (imm : BitVec 20) (s : State) : Host.Outcome State Fault Refusal :=
  issueBase s (writeRd s rd (s.pc + immU imm))

/-- `jal`: jump with link PC + 4 (09 R156). -/
def execJal (rd : Reg) (imm : BitVec 20) (s : State) : Host.Outcome State Fault Refusal :=
  issueBase s (s.jumpTo rd (s.pc + immJ imm))

/-- `jalr`: indirect jump with link PC + 4, bit 0 of the target cleared (09 R156). -/
def execJalr (rd rs1 : Reg) (imm : BitVec 12) (s : State) : Host.Outcome State Fault Refusal :=
  issueBase s (s.jumpTo rd ((s.x rs1 + sext12 imm) &&& ~~~1#64))

/-- `beq`: conditional branch (09 R156). -/
def execBeq (rs1 rs2 : Reg) (imm : BitVec 12) (s : State) : Host.Outcome State Fault Refusal :=
  issueBase s (s.branch (s.x rs1 == s.x rs2) imm)

/-- `bne`: conditional branch (09 R156). -/
def execBne (rs1 rs2 : Reg) (imm : BitVec 12) (s : State) : Host.Outcome State Fault Refusal :=
  issueBase s (s.branch (s.x rs1 != s.x rs2) imm)

/-- `blt`: conditional branch (09 R156). -/
def execBlt (rs1 rs2 : Reg) (imm : BitVec 12) (s : State) : Host.Outcome State Fault Refusal :=
  issueBase s (s.branch ((s.x rs1).slt (s.x rs2)) imm)

/-- `bge`: conditional branch (09 R156). -/
def execBge (rs1 rs2 : Reg) (imm : BitVec 12) (s : State) : Host.Outcome State Fault Refusal :=
  issueBase s (s.branch (!(s.x rs1).slt (s.x rs2)) imm)

/-- `bltu`: conditional branch (09 R156). -/
def execBltu (rs1 rs2 : Reg) (imm : BitVec 12) (s : State) : Host.Outcome State Fault Refusal :=
  issueBase s (s.branch ((s.x rs1).ult (s.x rs2)) imm)

/-- `bgeu`: conditional branch (09 R156). -/
def execBgeu (rs1 rs2 : Reg) (imm : BitVec 12) (s : State) : Host.Outcome State Fault Refusal :=
  issueBase s (s.branch (!(s.x rs1).ult (s.x rs2)) imm)

/-- `lb`: load of 1 byte, sign-extended (09 R157). -/
def execLb (rd rs1 : Reg) (imm : BitVec 12) (s : State) : Host.Outcome State Fault Refusal :=
  issueBase s (s.load rd rs1 imm 1 true)

/-- `lh`: load of 2 bytes, sign-extended (09 R157). -/
def execLh (rd rs1 : Reg) (imm : BitVec 12) (s : State) : Host.Outcome State Fault Refusal :=
  issueBase s (s.load rd rs1 imm 2 true)

/-- `lw`: load of 4 bytes, sign-extended (09 R157). -/
def execLw (rd rs1 : Reg) (imm : BitVec 12) (s : State) : Host.Outcome State Fault Refusal :=
  issueBase s (s.load rd rs1 imm 4 true)

/-- `ld`: load of 8 bytes, sign-extended (09 R157). -/
def execLd (rd rs1 : Reg) (imm : BitVec 12) (s : State) : Host.Outcome State Fault Refusal :=
  issueBase s (s.load rd rs1 imm 8 true)

/-- `lbu`: load of 1 byte, zero-extended (09 R157). -/
def execLbu (rd rs1 : Reg) (imm : BitVec 12) (s : State) : Host.Outcome State Fault Refusal :=
  issueBase s (s.load rd rs1 imm 1 false)

/-- `lhu`: load of 2 bytes, zero-extended (09 R157). -/
def execLhu (rd rs1 : Reg) (imm : BitVec 12) (s : State) : Host.Outcome State Fault Refusal :=
  issueBase s (s.load rd rs1 imm 2 false)

/-- `lwu`: load of 4 bytes, zero-extended (09 R157). -/
def execLwu (rd rs1 : Reg) (imm : BitVec 12) (s : State) : Host.Outcome State Fault Refusal :=
  issueBase s (s.load rd rs1 imm 4 false)

/-- `sb`: store of 1 byte (09 R157). -/
def execSb (rs1 rs2 : Reg) (imm : BitVec 12) (s : State) : Host.Outcome State Fault Refusal :=
  issueBase s (s.store rs1 rs2 imm 1)

/-- `sh`: store of 2 bytes (09 R157). -/
def execSh (rs1 rs2 : Reg) (imm : BitVec 12) (s : State) : Host.Outcome State Fault Refusal :=
  issueBase s (s.store rs1 rs2 imm 2)

/-- `sw`: store of 4 bytes (09 R157). -/
def execSw (rs1 rs2 : Reg) (imm : BitVec 12) (s : State) : Host.Outcome State Fault Refusal :=
  issueBase s (s.store rs1 rs2 imm 4)

/-- `sd`: store of 8 bytes (09 R157). -/
def execSd (rs1 rs2 : Reg) (imm : BitVec 12) (s : State) : Host.Outcome State Fault Refusal :=
  issueBase s (s.store rs1 rs2 imm 8)

/-- `addi`: sum with the immediate. -/
def execAddi (rd rs1 : Reg) (imm : BitVec 12) (s : State) : Host.Outcome State Fault Refusal :=
  issueBase s (writeRd s rd (s.x rs1 + sext12 imm))

/-- `slti`: signed less than the immediate. -/
def execSlti (rd rs1 : Reg) (imm : BitVec 12) (s : State) : Host.Outcome State Fault Refusal :=
  issueBase s (writeRd s rd (boolWord ((s.x rs1).slt (sext12 imm))))

/-- `sltiu`: unsigned less than the immediate. -/
def execSltiu (rd rs1 : Reg) (imm : BitVec 12) (s : State) : Host.Outcome State Fault Refusal :=
  issueBase s (writeRd s rd (boolWord ((s.x rs1).ult (sext12 imm))))

/-- `xori`: exclusive or. -/
def execXori (rd rs1 : Reg) (imm : BitVec 12) (s : State) : Host.Outcome State Fault Refusal :=
  issueBase s (writeRd s rd (s.x rs1 ^^^ sext12 imm))

/-- `ori`: inclusive or. -/
def execOri (rd rs1 : Reg) (imm : BitVec 12) (s : State) : Host.Outcome State Fault Refusal :=
  issueBase s (writeRd s rd (s.x rs1 ||| sext12 imm))

/-- `andi`: and. -/
def execAndi (rd rs1 : Reg) (imm : BitVec 12) (s : State) : Host.Outcome State Fault Refusal :=
  issueBase s (writeRd s rd (s.x rs1 &&& sext12 imm))

/-- `slli`: left shift. -/
def execSlli (rd rs1 : Reg) (sh : BitVec 6) (s : State) : Host.Outcome State Fault Refusal :=
  issueBase s (writeRd s rd (s.x rs1 <<< sh.toNat))

/-- `srli`: logical right shift. -/
def execSrli (rd rs1 : Reg) (sh : BitVec 6) (s : State) : Host.Outcome State Fault Refusal :=
  issueBase s (writeRd s rd (s.x rs1 >>> sh.toNat))

/-- `srai`: arithmetic right shift. -/
def execSrai (rd rs1 : Reg) (sh : BitVec 6) (s : State) : Host.Outcome State Fault Refusal :=
  issueBase s (writeRd s rd ((s.x rs1).sshiftRight sh.toNat))

/-- `add`: sum. -/
def execAdd (rd rs1 rs2 : Reg) (s : State) : Host.Outcome State Fault Refusal :=
  issueBase s (writeRd s rd (s.x rs1 + s.x rs2))

/-- `sub`: difference. -/
def execSub (rd rs1 rs2 : Reg) (s : State) : Host.Outcome State Fault Refusal :=
  issueBase s (writeRd s rd (s.x rs1 - s.x rs2))

/-- `sll`: left shift. -/
def execSll (rd rs1 rs2 : Reg) (s : State) : Host.Outcome State Fault Refusal :=
  issueBase s (writeRd s rd (s.x rs1 <<< ((s.x rs2).extractLsb' 0 6).toNat))

/-- `slt`: signed less than. -/
def execSlt (rd rs1 rs2 : Reg) (s : State) : Host.Outcome State Fault Refusal :=
  issueBase s (writeRd s rd (boolWord ((s.x rs1).slt (s.x rs2))))

/-- `sltu`: unsigned less than. -/
def execSltu (rd rs1 rs2 : Reg) (s : State) : Host.Outcome State Fault Refusal :=
  issueBase s (writeRd s rd (boolWord ((s.x rs1).ult (s.x rs2))))

/-- `xor`: exclusive or. -/
def execXor (rd rs1 rs2 : Reg) (s : State) : Host.Outcome State Fault Refusal :=
  issueBase s (writeRd s rd (s.x rs1 ^^^ s.x rs2))

/-- `srl`: logical right shift. -/
def execSrl (rd rs1 rs2 : Reg) (s : State) : Host.Outcome State Fault Refusal :=
  issueBase s (writeRd s rd (s.x rs1 >>> ((s.x rs2).extractLsb' 0 6).toNat))

/-- `sra`: arithmetic right shift. -/
def execSra (rd rs1 rs2 : Reg) (s : State) : Host.Outcome State Fault Refusal :=
  issueBase s (writeRd s rd ((s.x rs1).sshiftRight ((s.x rs2).extractLsb' 0 6).toNat))

/-- `or`: inclusive or. -/
def execOr (rd rs1 rs2 : Reg) (s : State) : Host.Outcome State Fault Refusal :=
  issueBase s (writeRd s rd (s.x rs1 ||| s.x rs2))

/-- `and`: and. -/
def execAnd (rd rs1 rs2 : Reg) (s : State) : Host.Outcome State Fault Refusal :=
  issueBase s (writeRd s rd (s.x rs1 &&& s.x rs2))

/-- `fence`: waits for earlier scalar stores, which each step has already written (09 R158). -/
def execFence (_rd _rs1 : Reg) (_imm : BitVec 12) (s : State) : Host.Outcome State Fault Refusal :=
  issueBase s (.done s)

/-- `ecall` (09 R159). -/
def execEcall (s : State) : Host.Outcome State Fault Refusal :=
  issueBase s s.ecall

/-- `ebreak` (09 R160). -/
def execEbreak (s : State) : Host.Outcome State Fault Refusal :=
  issueBase s s.ebreak

/-- `addiw`: 32-bit sum with the immediate. -/
def execAddiw (rd rs1 : Reg) (imm : BitVec 12) (s : State) : Host.Outcome State Fault Refusal :=
  issueBase s (writeRd s rd (sextW (lowW (s.x rs1 + sext12 imm))))

/-- `slliw`: 32-bit left shift. -/
def execSlliw (rd rs1 : Reg) (sh : BitVec 5) (s : State) : Host.Outcome State Fault Refusal :=
  issueBase s (writeRd s rd (sextW (lowW (s.x rs1) <<< sh.toNat)))

/-- `srliw`: 32-bit logical right shift. -/
def execSrliw (rd rs1 : Reg) (sh : BitVec 5) (s : State) : Host.Outcome State Fault Refusal :=
  issueBase s (writeRd s rd (sextW (lowW (s.x rs1) >>> sh.toNat)))

/-- `sraiw`: 32-bit arithmetic right shift. -/
def execSraiw (rd rs1 : Reg) (sh : BitVec 5) (s : State) : Host.Outcome State Fault Refusal :=
  issueBase s (writeRd s rd (sextW ((lowW (s.x rs1)).sshiftRight sh.toNat)))

/-- `addw`: 32-bit sum. -/
def execAddw (rd rs1 rs2 : Reg) (s : State) : Host.Outcome State Fault Refusal :=
  issueBase s (writeRd s rd (sextW (lowW (s.x rs1) + lowW (s.x rs2))))

/-- `subw`: 32-bit difference. -/
def execSubw (rd rs1 rs2 : Reg) (s : State) : Host.Outcome State Fault Refusal :=
  issueBase s (writeRd s rd (sextW (lowW (s.x rs1) - lowW (s.x rs2))))

/-- `sllw`: 32-bit left shift. -/
def execSllw (rd rs1 rs2 : Reg) (s : State) : Host.Outcome State Fault Refusal :=
  issueBase s (writeRd s rd (sextW (lowW (s.x rs1) <<< ((s.x rs2).extractLsb' 0 5).toNat)))

/-- `srlw`: 32-bit logical right shift. -/
def execSrlw (rd rs1 rs2 : Reg) (s : State) : Host.Outcome State Fault Refusal :=
  issueBase s (writeRd s rd (sextW (lowW (s.x rs1) >>> ((s.x rs2).extractLsb' 0 5).toNat)))

/-- `sraw`: 32-bit arithmetic right shift. -/
def execSraw (rd rs1 rs2 : Reg) (s : State) : Host.Outcome State Fault Refusal :=
  issueBase s (writeRd s rd (sextW ((lowW (s.x rs1)).sshiftRight ((s.x rs2).extractLsb' 0 5).toNat)))

/-- `mul`: low half of the product. -/
def execMul (rd rs1 rs2 : Reg) (s : State) : Host.Outcome State Fault Refusal :=
  issueBase s (writeRd s rd (s.x rs1 * s.x rs2))

/-- `mulh`: high half, signed by signed. -/
def execMulh (rd rs1 rs2 : Reg) (s : State) : Host.Outcome State Fault Refusal :=
  issueBase s (writeRd s rd (highHalf (s.x rs1).toInt (s.x rs2).toInt))

/-- `mulhsu`: high half, signed by unsigned. -/
def execMulhsu (rd rs1 rs2 : Reg) (s : State) : Host.Outcome State Fault Refusal :=
  issueBase s (writeRd s rd (highHalf (s.x rs1).toInt (s.x rs2).toNat))

/-- `mulhu`: high half, unsigned. -/
def execMulhu (rd rs1 rs2 : Reg) (s : State) : Host.Outcome State Fault Refusal :=
  issueBase s (writeRd s rd (highHalf (s.x rs1).toNat (s.x rs2).toNat))

/-- `div`: signed quotient (09 R154). -/
def execDiv (rd rs1 rs2 : Reg) (s : State) : Host.Outcome State Fault Refusal :=
  issueBase s (writeRd s rd (divSigned (s.x rs1) (s.x rs2)))

/-- `divu`: unsigned quotient (09 R154). -/
def execDivu (rd rs1 rs2 : Reg) (s : State) : Host.Outcome State Fault Refusal :=
  issueBase s (writeRd s rd (divUnsigned (s.x rs1) (s.x rs2)))

/-- `rem`: signed remainder (09 R154). -/
def execRem (rd rs1 rs2 : Reg) (s : State) : Host.Outcome State Fault Refusal :=
  issueBase s (writeRd s rd (remSigned (s.x rs1) (s.x rs2)))

/-- `remu`: unsigned remainder (09 R154). -/
def execRemu (rd rs1 rs2 : Reg) (s : State) : Host.Outcome State Fault Refusal :=
  issueBase s (writeRd s rd (remUnsigned (s.x rs1) (s.x rs2)))

/-- `mulw`: 32-bit product (09 R154). -/
def execMulw (rd rs1 rs2 : Reg) (s : State) : Host.Outcome State Fault Refusal :=
  issueBase s (writeRd s rd (sextW (lowW (s.x rs1) * lowW (s.x rs2))))

/-- `divw`: 32-bit signed quotient (09 R154). -/
def execDivw (rd rs1 rs2 : Reg) (s : State) : Host.Outcome State Fault Refusal :=
  issueBase s (writeRd s rd (sextW (divSigned (lowW (s.x rs1)) (lowW (s.x rs2)))))

/-- `divuw`: 32-bit unsigned quotient (09 R154). -/
def execDivuw (rd rs1 rs2 : Reg) (s : State) : Host.Outcome State Fault Refusal :=
  issueBase s (writeRd s rd (sextW (divUnsigned (lowW (s.x rs1)) (lowW (s.x rs2)))))

/-- `remw`: 32-bit signed remainder (09 R154). -/
def execRemw (rd rs1 rs2 : Reg) (s : State) : Host.Outcome State Fault Refusal :=
  issueBase s (writeRd s rd (sextW (remSigned (lowW (s.x rs1)) (lowW (s.x rs2)))))

/-- `remuw`: 32-bit unsigned remainder (09 R154). -/
def execRemuw (rd rs1 rs2 : Reg) (s : State) : Host.Outcome State Fault Refusal :=
  issueBase s (writeRd s rd (sextW (remUnsigned (lowW (s.x rs1)) (lowW (s.x rs2)))))

/-- `csrrw`: CSR write (09 R162). -/
def execCsrrw (rd rs1 : Reg) (csr : BitVec 12) (s : State) : Host.Outcome State Fault Refusal :=
  issueBase s (s.csrOp (.csrrw rd rs1 csr) .write rd csr (s.x rs1) true)

/-- `csrrs`: CSR set (09 R162). -/
def execCsrrs (rd rs1 : Reg) (csr : BitVec 12) (s : State) : Host.Outcome State Fault Refusal :=
  issueBase s (s.csrOp (.csrrs rd rs1 csr) .set rd csr (s.x rs1) (rs1 != 0))

/-- `csrrc`: CSR clear (09 R162). -/
def execCsrrc (rd rs1 : Reg) (csr : BitVec 12) (s : State) : Host.Outcome State Fault Refusal :=
  issueBase s (s.csrOp (.csrrc rd rs1 csr) .clear rd csr (s.x rs1) (rs1 != 0))

/-- `csrrwi`: CSR write by the five-bit immediate in rs1 (09 R162). -/
def execCsrrwi (rd rs1 : Reg) (csr : BitVec 12) (s : State) : Host.Outcome State Fault Refusal :=
  issueBase s (s.csrOp (.csrrwi rd rs1 csr) .write rd csr (rs1.setWidth 64) true)

/-- `csrrsi`: CSR set by the five-bit immediate in rs1 (09 R162). -/
def execCsrrsi (rd rs1 : Reg) (csr : BitVec 12) (s : State) : Host.Outcome State Fault Refusal :=
  issueBase s (s.csrOp (.csrrsi rd rs1 csr) .set rd csr (rs1.setWidth 64) (rs1 != 0))

/-- `csrrci`: CSR clear by the five-bit immediate in rs1 (09 R162). -/
def execCsrrci (rd rs1 : Reg) (csr : BitVec 12) (s : State) : Host.Outcome State Fault Refusal :=
  issueBase s (s.csrOp (.csrrci rd rs1 csr) .clear rd csr (rs1.setWidth 64) (rs1 != 0))

end Sys2Proof.Machine
end

