-- ==== Sys2Proof/Machine/VecOps.lean ====
section
/-! DEFINITION. The element computations of the vector classes: arithmetic, comparison, integer and logic, conversion, packing,
special functions, reductions, permutes and masked local accesses (10 R171-R197). -/

namespace Sys2Proof.Machine

/-- A code with its flags. -/
abbrev Elt := Nat × BitVec 6

/-! ### Landing a vector result -/

/-- Element results land on the D group of `g` registers, active elements only (08 R145). -/
def landElems (s : State) (t : Team) (o : LF) (w g lat : Nat) (rs : List Elt) : Eff :=
  .done (s.setTeam (t.land (groupWrites (t.wb + o.d.toNat) g w (t.masked o.m (rs.map (·.1)))) (t.flagsOf o.m rs) lat o))

/-- Codes without flags. -/
def plain (cs : List Nat) : List Elt := cs.map fun c => (c, 0)

/-- Whole registers land on the D group, every element written. -/
def landRegs (s : State) (t : Team) (o : LF) (lat : Nat) (rs : List V256) (flags : BitVec 6) : Eff :=
  .done (s.setTeam (t.land (rs.zipIdx.map fun vi => .v (t.wb + o.d.toNat + vi.2) vi.1 (BitVec.allOnes 256)) flags lat o))

/-- A plan of one group size with `a` and `b` as vector sources, masked elements limited to 64 (10 R167). -/
def ewPlan (o : LF) (w lat : Nat) (a b : Bool) : Plan :=
  let g := (groupRegs o)
  { gd := g, ga := if a then g else 0, gb := if b then g else 0, dest := true, ok4 := o.m == 0 || elems g w ≤ 64, lat := lat,
    entry := true }

/-! ### Class 0 -/

/-- A rounded result; a created NaN sets NV (10 R170, 03 R51). -/
def roundFp (r : Res) (draw : Nat) (v : Val × Bool) : Elt :=
  let e := roundElem r.fmt r.rm true draw v.1
  (e.1, e.2 ||| flagIf v.2 fNV)

/-- The four arithmetic operations of class 0 (10 R172). -/
def fpExact (k : Nat) (rdn : Bool) (a b d : Val) : Val × Bool :=
  match k with
  | 0 => a.add rdn b
  | 1 => a.add rdn b.flip
  | 2 => a.mul b
  | _ => Val.fma rdn a b d

/-- `vadd`, `vsub`, `vmul`, `vfma` (10 R172). -/
def fpArith (k : Nat) (o : LF) (r : Res) (s : State) : Eff :=
  let t := s.cur.team
  let g := (groupRegs o)
  let w := fmtWidth r.fmt
  let n := elems g w
  let a := elemCodes (t.group o.a.toNat g) w n
  let b := elemCodes (t.group o.b.toNat g) w n
  let d := elemCodes (t.group o.d.toNat g) w n
  let dr := t.drawn r.rm n
  let dec (l : List Nat) (i : Nat) : Val := decodeElem r.fmt (l.getD i 0)
  landElems s dr.2 o w g 5 ((List.range n).map fun i =>
    roundFp r (dr.1.getD i 0) (fpExact k (r.rm == 2) (dec a i) (dec b i) (dec d i)))

/-- A value's order with −0 below +0 (10 R173). -/
def Val.below (a b : Val) : Bool :=
  let c := a.cmp b
  c < 0 || (c == 0 && a.isZero && b.isZero && a.neg && !b.neg)

/-- `vmin` and `vmax` of two codes (10 R173). -/
def minmaxCode (f : Nat) (max : Bool) (a b : Nat) : Nat :=
  let x := decodeElem f a
  let y := decodeElem f b
  if x = .nan then (if y = .nan then (roundElem f 0 true 0 .nan).1 else b)
  else if y = .nan then a
  else if max then (if x.below y then b else a) else if y.below x then b else a

/-- Two vector sources, element by element, without flags. -/
def map2 (o : LF) (w lat : Nat) (s : State) (f : Nat → Nat → Nat) : Eff :=
  let t := s.cur.team
  let g := (groupRegs o)
  let n := elems g w
  let a := elemCodes (t.group o.a.toNat g) w n
  let b := elemCodes (t.group o.b.toNat g) w n
  landElems s t o w g lat (plain ((List.range n).map fun i => f (a.getD i 0) (b.getD i 0)))

/-- One vector source, element by element, without flags. -/
def map1 (o : LF) (w lat : Nat) (s : State) (f : Nat → Nat) : Eff :=
  let t := s.cur.team
  let g := (groupRegs o)
  landElems s t o w g lat (plain ((elemCodes (t.group o.a.toNat g) w (elems g w)).map f))

/-- The element of `vsgn` (10 R174). -/
def sgnCode (w sub a b : Nat) : Nat :=
  let h := 2 ^ (w - 1)
  let sa := a / h % 2
  let sb := b / h % 2
  let n := match sub with
    | 0 => sb
    | 1 => 1 - sb
    | 2 => (sa + sb) % 2
    | _ => 0
  a % h + n * h

/-- The condition of `vcmp` (10 R175). -/
def cmpHolds (sub : Nat) (a b : Val) : Bool :=
  if a = .nan ∨ b = .nan then sub == 3
  else
    let c := a.cmp b
    match sub with
    | 0 => c == 0
    | 1 => c < 0
    | 2 => c ≤ 0
    | _ => c != 0

/-- `vcmp` (10 R175). -/
def vecCompare (o : LF) (r : Res) (s : State) : Eff :=
  let t := s.cur.team
  let g := (groupRegs o)
  let w := fmtWidth r.fmt
  let n := elems g w
  let a := (elemCodes (t.group o.a.toNat g) w n).map (decodeElem r.fmt)
  let b := (elemCodes (t.group o.b.toNat g) w n).map (decodeElem r.fmt)
  let bits := (List.range n).foldl (fun x i =>
    if t.active o.m i && cmpHolds o.sub2 (a.getD i vZero) (b.getD i vZero) then x + 2 ^ i else x) 0
  let bad := (List.range n).any fun i => t.active o.m i && (a.getD i vZero == .nan || b.getD i vZero == .nan)
  let fl := flagIf (bad && (o.sub2 == 1 || o.sub2 == 2)) fNV
  .done ((s.setTeam (t.raise fl)).setX (fieldReg o.d) (BitVec.ofNat 64 bits))

/-- The class bit of a code (10 R176). -/
def classCode (f c : Nat) : Nat :=
  let e := ffmt f
  match e.decode c with
  | .nan => 256
  | .inf true => 1
  | .inf false => 128
  | .num n m _ => if m = 0 then (if n then 8 else 16) else if m < 2 ^ e.p then (if n then 4 else 32) else if n then 2 else 64

/-! ### Class 1 -/

/-- An element as UNS says (10 R178). -/
def asInt (w : Nat) (uns : Bool) (c : Nat) : Int := if uns then (c % 2 ^ w : Nat) else signedOf w c

/-- The range of a width (10 R178). -/
def intLo (w : Nat) (uns : Bool) : Int := if uns then 0 else -(2 ^ (w - 1))
/-- Its upper end. -/
def intHi (w : Nat) (uns : Bool) : Int := if uns then 2 ^ w - 1 else 2 ^ (w - 1) - 1

/-- A code from an exact integer. -/
def wrapInt (w : Nat) (e : Int) : Nat := (e % 2 ^ w).toNat

/-- An exact result bounded under SAT, then its low bits (10 R178). -/
def intResult (w : Nat) (uns sat : Bool) (e : Int) : Elt :=
  if sat && (e < intLo w uns || intHi w uns < e) then (wrapInt w (if e < intLo w uns then intLo w uns else intHi w uns), fSAT)
  else (wrapInt w e, 0)

/-- The exact result of `viadd`, `visub`, `vimul`, `vimulh`, `vimad` (10 R178). -/
def intExact (k w : Nat) (a b d : Int) : Int :=
  match k with
  | 0 => a + b
  | 1 => a - b
  | 2 => a * b
  | 3 => a * b / 2 ^ w
  | _ => a * b + d

/-- The arithmetic of class 1 (10 R178). -/
def intArith (k : Nat) (o : LF) (r : Res) (s : State) : Eff :=
  let t := s.cur.team
  let g := (groupRegs o)
  let w := intWidth r.fmt
  let n := elems g w
  let el (l : List Nat) (i : Nat) : Int := asInt w o.uns (l.getD i 0)
  let a := elemCodes (t.group o.a.toNat g) w n
  let b := elemCodes (t.group o.b.toNat g) w n
  let d := elemCodes (t.group o.d.toNat g) w n
  landElems s t o w g 3 ((List.range n).map fun i => intResult w o.uns o.sat (intExact k w (el a i) (el b i) (el d i)))

/-- `vshl` of one element (10 R179). -/
def shlElem (w : Nat) (uns sat : Bool) (a sh : Nat) : Elt :=
  let v := asInt w uns a
  if sat && (v != 0) && (w ≤ sh || v * 2 ^ sh < intLo w uns || intHi w uns < v * 2 ^ sh) then
    (wrapInt w (if v < 0 then intLo w uns else intHi w uns), fSAT)
  else (if w ≤ sh then 0 else wrapInt w (v * 2 ^ sh), 0)

/-- `vshr` of one element (10 R179). -/
def shrElem (w : Nat) (uns : Bool) (a sh : Nat) : Elt :=
  if uns then (if w ≤ sh then 0 else a % 2 ^ w / 2 ^ sh, 0)
  else (wrapInt w (asInt w false a / 2 ^ min sh w), 0)

/-- The shifts of class 1, by B's elements or its immediate (10 R179). -/
def shiftElems (o : LF) (r : Res) (s : State) (f : Nat → Nat → Nat → Elt) : Eff :=
  let t := s.cur.team
  let g := (groupRegs o)
  let w := intWidth r.fmt
  let n := elems g w
  let a := elemCodes (t.group o.a.toNat g) w n
  let b := if o.sub4 = 1 then [] else elemCodes (t.group o.b.toNat g) w n
  landElems s t o w g 3 ((List.range n).map fun i => f w (a.getD i 0) (if o.sub4 = 1 then o.b.toNat else b.getD i 0))

/-- `viminmax` of two codes (10 R180). -/
def iminmaxCode (w : Nat) (uns max : Bool) (a b : Nat) : Nat :=
  if max then (if asInt w uns a < asInt w uns b then b else a) else if asInt w uns b < asInt w uns a then b else a

/-- `vsel` (10 R180). -/
def vecSelect (o : LF) (r : Res) (s : State) : Eff :=
  let t := s.cur.team
  let g := (groupRegs o)
  let w := intWidth r.fmt
  let n := elems g w
  let a := elemCodes (t.group o.a.toNat g) w n
  let b := elemCodes (t.group o.b.toNat g) w n
  landElems s t o w g 3 (plain ((List.range n).map fun i => if (t.masks.headD 0).getLsbD i then a.getD i 0 else b.getD i 0))

/-! ### Class 2 -/

/-- Elements of a nested-block register: 32 for NB4 and NBI4, 16 for NBL6 (03 R45). -/
def nbPer (f : Nat) : Nat := if f = 11 then 16 else 32

/-- The blocks of a nested-block register (03 R45). -/
def nbOfReg (f : Nat) (v : V256) : List NBlock :=
  let x := v.toNat
  if f = 11 then [⟨(List.range 16).map fun i => x / 2 ^ (8 * i) % 64, x / 2 ^ 128 % 256, x / 2 ^ 136 % 256⟩]
  else (List.range 2).map fun k =>
    ⟨(List.range 16).map fun i => x / 2 ^ (4 * (16 * k + i)) % 16, x / 2 ^ (128 + 8 * k) % 256, x / 2 ^ (144 + 8 * k) % 256⟩

/-- A nested-block register from its blocks, reserved bits zero (03 R45). -/
def nbToReg (f : Nat) (bs : List NBlock) : V256 :=
  let b (k : Nat) : NBlock := bs.getD k ⟨[], 0, 0⟩
  let sum (w : Nat) (l : List Nat) : Nat := l.foldr (fun c a => a * 2 ^ w + c) 0
  if f = 11 then BitVec.ofNat 256 (sum 8 (b 0).elems + (b 0).e * 2 ^ 128 + (b 0).micro * 2 ^ 136)
  else BitVec.ofNat 256 (sum 4 (b 0).elems + sum 4 (b 1).elems * 2 ^ 64 + (b 0).e * 2 ^ 128 + (b 1).e * 2 ^ 136
    + (b 0).micro * 2 ^ 144 + (b 1).micro * 2 ^ 152)

/-- Whether a conversion end is a nested-block format. -/
def isNb (f : Nat) : Bool := f == 9 || f == 10 || f == 11

/-- The exact value of an element of a conversion source: integer codes 0 and 1 when `int` (10 R182). -/
def cvtDecode (f : Nat) (int : Bool) (c : Nat) : Val :=
  if int then intVal (signedOf (fmtWidth f) c) else decodeElem f c

/-- An exact value in a conversion's destination format (10 R182). -/
def cvtRound (f : Nat) (int : Bool) (r : Res) (draw : Nat) (v : Val) : Elt :=
  if int then
    let w := fmtWidth f
    let i := roundInt (intLo w false) (intHi w false) r.rm draw v
    (wrapInt w i.1, i.2)
  else roundElem f r.rm r.ovf draw v

/-- Registers of the narrower group of a conversion; 0 when it would be less than one (10 R182). -/
def narrowRegs (g wn ww : Nat) : Nat := g * wn / ww

/-- The plan of a conversion between widths `ws` and `wd`, the wider one taking GRP (10 R182). -/
def cvtPlan (o : LF) (ws wd : Nat) (ok4 ok5 : Bool) : Plan :=
  let g := (groupRegs o)
  let gs := if ws < wd then narrowRegs g ws wd else g
  let gd := if wd < ws then narrowRegs g wd ws else g
  { gd := gd, ga := gs, dest := true, ok4 := ok4 && gs != 0 && gd != 0 && (o.m == 0 || elems gd wd ≤ 64), ok5 := ok5,
    lat := 4, entry := true }

/-- Whether `vcvt`'s source and destination are integers (10 R181). -/
def srcInt (o : LF) : Bool := o.sub2 / 2 == 1
/-- The destination. -/
def dstInt (o : LF) : Bool := o.sub2 % 2 == 1

/-- The plan of `vcvt` (10 R181, R182). -/
def vcvtPlan (o : LF) (r : Res) : Plan :=
  let src := o.b.toNat
  cvtPlan o (fmtWidth src) (fmtWidth r.fmt)
    (src < 13 && (!(srcInt o) || src < 2) && (!(dstInt o) || r.fmt < 2) && (o.m == 0 || !(isNb src || isNb r.fmt))) true

/-- The values of the source group of a conversion (10 R182). -/
def cvtSource (f : Nat) (int : Bool) (regs : List V256) (n : Nat) : List Val :=
  if isNb f then regs.flatMap fun v => (nbOfReg f v).flatMap fun b => (List.range 16).map fun i => b.value f i
  else (elemCodes regs (fmtWidth f) n).map (cvtDecode f int)

/-- Values formed into nested-block registers (03 R46). -/
def blocksOf (r : Res) (draws : List Nat) (vs : List Val) : List (NBlock × List (BitVec 6)) :=
  (List.range (vs.length / 16)).map fun k =>
    blockRound r.fmt r.rm r.ovf ((draws.drop (16 * k)).take 16) ((vs.drop (16 * k)).take 16)

/-- The flags that the elements of some blocks raise. -/
def blocksFlags (bs : List (NBlock × List (BitVec 6))) : BitVec 6 := bs.foldl (fun f b => b.2.foldl (fun f x => f ||| x) f) 0

/-- A nested block with a NaN made canonical (10 R182). -/
def NBlock.canon (b : NBlock) : NBlock := if b.e = 0xFF then nanBlock else b

/-- Blocks laid out in registers, two or one in each (03 R45). -/
def nbRegs (f : Nat) (bs : List NBlock) : List V256 :=
  let per := if f = 11 then 1 else 2
  (List.range (bs.length / per)).map fun k => nbToReg f ((bs.drop (per * k)).take per)

/-- `vcvt` (10 R182). Equal nested-block formats return their blocks, one that is a NaN in the form of 03 R46 (log 18). -/
def convert (o : LF) (r : Res) (s : State) : Eff :=
  let t := s.cur.team
  let src := o.b.toNat
  let p := vcvtPlan o r
  let wd := fmtWidth r.fmt
  let n := elems p.gd wd
  let regs := t.group o.a.toNat p.ga
  let dr := t.drawn r.rm n
  if isNb r.fmt then
    if src = r.fmt then
      landRegs s dr.2 o 4 (regs.map fun v => nbToReg r.fmt ((nbOfReg r.fmt v).map NBlock.canon)) 0
    else
      let bs := blocksOf r dr.1 (cvtSource src (srcInt o) regs n)
      landRegs s dr.2 o 4 (nbRegs r.fmt (bs.map (·.1))) (blocksFlags bs)
  else
    let vs := cvtSource src (srcInt o) regs n
    landElems s dr.2 o wd p.gd 4 ((List.range n).map fun i => cvtRound r.fmt (dstInt o) r (dr.1.getD i 0) (vs.getD i vZero))

/-- The bytes of a group (10 R184). -/
def groupBytes (regs : List V256) : List Byte := regs.flatMap fun v => (List.range 32).map fun i => byteOf v i

/-- Bytes laid out in registers. -/
def bytesGroup (g : Nat) (bs : List Byte) : List V256 :=
  (List.range g).map fun k => BitVec.ofNat 256 (leNat ((bs.drop (32 * k)).take 32))

/-- Four 6-bit codes for each three bytes (03 R38). -/
def pack6 (cs : List Nat) : List Byte :=
  (List.range (cs.length / 4)).flatMap fun j =>
    leBytes 3 ((List.range 4).foldr (fun n a => a * 64 + cs.getD (4 * j + n) 0 % 64) 0)

/-- The 6-bit codes of packed bytes (03 R38). -/
def unpack6 (bs : List Byte) : List Nat :=
  (List.range (bs.length / 3)).flatMap fun j =>
    let v := leNat ((bs.drop (3 * j)).take 3)
    (List.range 4).map fun n => v / 64 ^ n % 64

/-- Two 4-bit codes a byte (03 R38). -/
def pack4 (cs : List Nat) : List Byte :=
  (List.range (cs.length / 2)).map fun j => BitVec.ofNat 8 (cs.getD (2 * j) 0 % 16 + 16 * (cs.getD (2 * j + 1) 0 % 16))

/-- The 4-bit codes of bytes (03 R38). -/
def unpack4 (bs : List Byte) : List Nat := bs.flatMap fun b => [b.toNat % 16, b.toNat / 16]

/-- A block in its memory layout (03 R45). -/
def nbToBytes (f : Nat) (b : NBlock) : List Byte :=
  (if f = 11 then pack6 b.elems else pack4 b.elems) ++ [BitVec.ofNat 8 b.e, BitVec.ofNat 8 b.micro]

/-- Bytes of a block in memory (03 R45). -/
def nbSize (f : Nat) : Nat := if f = 11 then 14 else 10

/-- A block from its memory layout (03 R45). -/
def nbOfBytes (f : Nat) (bs : List Byte) : NBlock :=
  let k := if f = 11 then 12 else 8
  ⟨if f = 11 then unpack6 (bs.take 12) else unpack4 (bs.take 8), (bs.getD k 0).toNat, (bs.getD (k + 1) 0).toNat⟩

/-- `vpack` (10 R184). -/
def packGroup (f g : Nat) (regs : List V256) : List V256 :=
  bytesGroup g (if f = 8 then pack6 ((elemCodes regs 8 (32 * g)).map (· % 64))
    else regs.flatMap fun v => (nbOfReg f v).flatMap (nbToBytes f))

/-- `vunpack` (10 R184). -/
def unpackGroup (f g : Nat) (regs : List V256) : List V256 :=
  let bs := groupBytes regs
  if f = 8 then bytesGroup g ((unpack6 (bs.take (24 * g))).map fun c => BitVec.ofNat 8 c)
  else
    let k := if f = 11 then g else 2 * g
    nbRegs f ((List.range k).map fun j => nbOfBytes f ((bs.drop (nbSize f * j)).take (nbSize f)))

/-- The product of two LN6 codes (03 R43). -/
def ln6Mul (a b : Nat) : Elt :=
  let sg := (a / 32 + b / 32) % 2 * 32
  let la : Int := (a % 32 : Nat)
  let lb : Int := (b % 32 : Nat)
  if la = 0 ∨ lb = 0 then (sg, 0)
  else
    let l := la + lb - 16
    if l > 31 then (sg + 31, fOF ||| fNX) else if l < 1 then (sg, fUF ||| fNX) else (sg + l.toNat, 0)

/-- `vlnlin` (10 R186). -/
def lnLinear (o : LF) (r : Res) (s : State) : Eff :=
  let t := s.cur.team
  let wd := fmtWidth r.fmt
  let g := (groupRegs o)
  let n := elems g wd
  let a := elemCodes (t.group o.a.toNat (narrowRegs g 8 wd)) 8 n
  let dr := t.drawn r.rm n
  landElems s dr.2 o wd g 4 ((List.range n).map fun i =>
    roundElem r.fmt r.rm r.ovf (dr.1.getD i 0) ((ln6Decode (a.getD i 0 % 64)).scale o.b.toInt))

/-! ### Class 3 -/

/-- A magnitude with its sticky part rounded under IEEE overflow (10 R188). -/
def roundSticky (r : Res) (draw : Nat) (neg : Bool) (x : Nat × Int × Bool) : Elt :=
  (ffmt r.fmt).roundNum r.rm true draw neg x.1 x.2.1 x.2.2

/-- A special function of a value (10 R188). -/
def special (k : Nat) (r : Res) (draw : Nat) (v : Val) : Elt :=
  let out (x : Val) (f : BitVec 6) : Elt := ((roundElem r.fmt 0 true 0 x).1, f)
  match v with
  | .nan => out .nan 0
  | .inf n =>
    match k with
    | 0 => if n then out vZero 0 else out (.inf false) 0
    | 1 => if n then out .nan fNV else out (.inf false) 0
    | 2 => out (.num n 0 0) 0
    | _ => if n then out .nan fNV else out vZero 0
  | .num n m e =>
    if m = 0 then
      match k with
      | 0 => out (.num false 1 0) 0
      | 1 => out (.inf true) fDZ
      | 2 => out (.inf n) fDZ
      | _ => out (.inf n) 0
    else
      match k with
      | 0 => roundSticky r draw false (exp2Num n m e)
      | 1 =>
        if n then out .nan fNV
        else
          let l := log2Num m e
          roundSticky r draw l.1 l.2
      | 2 => roundSticky r draw n (rcpNum m e)
      | _ => if n then out .nan fNV else roundSticky r draw false (rsqrtNum m e)

/-- `vexp2`, `vlog2`, `vrcp`, `vrsqrt` (10 R188). -/
def sfu (k : Nat) (o : LF) (r : Res) (s : State) : Eff :=
  let t := s.cur.team
  let g := (groupRegs o)
  let w := fmtWidth r.fmt
  let n := elems g w
  let a := elemCodes (t.group o.a.toNat g) w n
  let dr := t.drawn r.rm n
  landElems s dr.2 o w g 10 ((List.range n).map fun i => special k r (dr.1.getD i 0) (decodeElem r.fmt (a.getD i 0)))

/-- The plan of a reduction: D is one register, the mask governs A (10 R187). -/
def sumPlan (o : LF) (r : Res) : Plan :=
  { gd := 1, ga := (groupRegs o), dest := true, ok4 := o.m == 0 || elems (groupRegs o) (fmtWidth r.fmt) ≤ 64, lat := 7, entry := true }

/-- The active elements of A, decoded. -/
def activeVals (t : Team) (o : LF) (r : Res) : List Val :=
  let w := fmtWidth r.fmt
  let n := elems (groupRegs o) w
  let a := elemCodes (t.group o.a.toNat (groupRegs o)) w n
  (List.range n).filterMap fun i => if t.active o.m i then some (decodeElem r.fmt (a.getD i 0)) else none

/-- The exact sum of finite values as a signed significand at an exponent. -/
def sumFinite (vs : List Val) : Val := vs.foldl (fun a v => (a.add false v).1) vZero

/-- The value of `vsum` and whether a NaN was created (10 R189). -/
def sumVal (rdn : Bool) (vs : List Val) : Val × Bool :=
  if vs.contains .nan then (.nan, false)
  else if vs.contains (.inf false) && vs.contains (.inf true) then (.nan, true)
  else if vs.contains (.inf false) then (.inf false, false)
  else if vs.contains (.inf true) then (.inf true, false)
  else
    let x := sumFinite vs
    if x.isZero then
      let allNeg := !vs.isEmpty && vs.all fun v => v.isZero && v.neg
      (.num (allNeg || (rdn && vs.any fun v => !v.isZero)) 0 0, false)
    else (x, false)

/-- A reduction lands its FP32 code in element 0 of D and +0 elsewhere (10 R189, R190). -/
def landFirst (s : State) (t : Team) (o : LF) (e : Elt) : Eff := landRegs s t o 7 [BitVec.ofNat 256 e.1] e.2

/-- `vsum` (10 R189). -/
def vecSum (o : LF) (r : Res) (s : State) : Eff :=
  let t := s.cur.team
  let x := sumVal (r.rm == 2) (activeVals t o r)
  let dr := t.drawn r.rm 8
  let e := fp32.round r.rm true (dr.1.getD 0 0) x.1
  landFirst s dr.2 o (e.1, e.2 ||| flagIf x.2 fNV)

/-- `vrmax` (10 R190). -/
def vecMax (o : LF) (r : Res) (s : State) : Eff :=
  let t := s.cur.team
  let vs := activeVals t o r
  let nums := vs.filter (· != .nan)
  let m := nums.foldl (fun (a : Val) v => if a.below v then v else a) (.inf true)
  let x := if nums.isEmpty then (if vs.isEmpty then .inf true else .nan) else m
  landFirst s t o ((fp32.round 0 true 0 x).1, 0)

/-! ### Class 4 -/

/-- `vperm` (10 R192). -/
def permute (o : LF) (r : Res) (s : State) : Eff :=
  let t := s.cur.team
  let g := (groupRegs o)
  let w := fmtWidth r.fmt
  let n := elems g w
  let a := elemCodes (t.group o.a.toNat g) w n
  let b := elemCodes (t.group o.b.toNat g) w n
  landElems s t o w g 3 (plain ((List.range n).map fun i => a.getD (b.getD i 0) 0))

/-- One code written to every element. -/
def splat (s : State) (o : LF) (w c : Nat) : Eff :=
  landElems s s.cur.team o w (groupRegs o) 3 (plain (List.replicate (elems (groupRegs o) w) (c % 2 ^ w)))

/-- `vslide` (10 R193). -/
def slideCodes (up : Bool) (k : Nat) (a : List Nat) : List Nat :=
  if up then (List.replicate k 0 ++ a).take a.length else a.drop k ++ List.replicate (min k a.length) 0

/-! ### Class 5 -/

/-- Whether a touched range lies in the scratchpad the instruction selects (10 R195, R196). -/
def State.inSpace (s : State) (cl : Bool) (a n : Nat) : Bool := if cl then s.inClus a n else s.inCore a n

/-- The bytes an element of a width takes. -/
def eltBytes (w : Nat) : Nat := max 1 (w / 8)

/-- The address of element `i` from the address of element 0 (10 R196). -/
def eltAddr (a w i : Nat) : Nat := a + i * w / 8

/-- The checks of R196 on one access of `k` bytes at an exact sum: range, alignment, place, and a readable line. -/
def spaceAddr (base : Word) (off : Int) (k len : Nat) : Except Trap Nat :=
  match localAddr base off with
  | none => .error (trapAt .localAddr (base + BitVec.ofInt 64 off) len)
  | some a => if a % k ≠ 0 then .error (trapAt .align (BitVec.ofNat 64 a) len) else .ok a

/-- The trap of an element whose bytes are not all in the scratchpad selected. -/
def State.eltTrap (s : State) (cl : Bool) (a k : Nat) (access len : Nat) : Option Trap :=
  if s.inSpace cl a k then none else some (trapAt .localAddr (BitVec.ofNat 64 access) len)

/-- The code of an element in local space; a 4-bit one is a nibble of its byte. -/
def State.eltLoad (s : State) (a w i : Nat) : Nat :=
  if w = 4 then (s.localByte a).toNat / 16 ^ (i % 2) % 16 else leNat (s.localBytes a (w / 8))

/-- The state with an element written in local space; the other nibble of a byte keeps its contents. -/
def State.eltStore (s : State) (a w i c : Nat) : State :=
  if w = 4 then
    let b := (s.storedByte a).toNat
    s.setLocalByte a (BitVec.ofNat 8 (if i % 2 = 0 then b / 16 * 16 + c % 16 else c % 16 * 16 + b % 16))
  else s.setLocalBytes a (leBytes (w / 8) c)

/-- The addresses of the active elements of a masked access, or its trap: first that of the access, then of the lowest
failing element (10 R196). -/
def State.unitAddrs (s : State) (o : LF) (w n : Nat) (cl : Bool) : Except Trap (List (Nat × Nat)) :=
  let len := 32 * (groupRegs o)
  match spaceAddr (s.x (fieldReg o.a)) o.b.toInt (eltBytes w) len with
  | .error t => .error t
  | .ok a =>
    let act := (List.range n).filter fun i => s.cur.team.active o.m i
    match act.findSome? fun i => s.eltTrap cl (eltAddr a w i) (eltBytes w) a len with
    | some t => .error t
    | none => .ok (act.map fun i => (i, eltAddr a w i))

/-- The addresses of the active elements of a gather or scatter, or the trap of the lowest element that fails (10 R197). -/
def State.offsetAddrs (s : State) (o : LF) (w n : Nat) (cl : Bool) : Except Trap (List (Nat × Nat)) :=
  let offs := elemCodes (s.cur.team.group o.a.toNat ((groupRegs o) * 32 / w)) 32 n
  let one (i : Nat) : Except Trap (Nat × Nat) :=
    match spaceAddr (s.x (fieldReg o.b)) (signedOf 32 (offs.getD i 0)) (eltBytes w) (eltBytes w) with
    | .error t => .error t
    | .ok a =>
      match s.eltTrap cl a (eltBytes w) a (eltBytes w) with
      | some t => .error t
      | none => .ok (i, a)
  ((List.range n).filter fun i => s.cur.team.active o.m i).mapM one

/-- The first address among some accesses whose line cannot be read (04 R72). -/
def State.unreadable (s : State) (as : List (Nat × Nat)) : Option Nat := (as.map (·.2)).find? s.clusBadAt

/-- The state after some elements are read: lines in error are rebuilt (04 R72). -/
def State.readElts (s : State) (w : Nat) (as : List (Nat × Nat)) : State :=
  if s.clusBad.isEmpty then s else as.foldl (fun u ia => u.rebuild ia.2 (eltBytes w)) s

/-- The access of `vld` and `vst`: its address, and the 32G bytes it covers (10 R196, 18 R312). -/
def State.unitAccess (s : State) (o : LF) : Nat × Nat := ((s.x (fieldReg o.a) + BitVec.ofInt 64 o.b.toInt).toNat, 32 * groupRegs o)

/-- A vector load from the addresses of its active elements (10 R196, R197). Where a line cannot be read, LOCAL_UE names the whole access,
or, of a gather, which has none, the element. -/
def vecLoad (o : LF) (r : Res) (s : State) (whole : Option (Nat × Nat)) (e : Except Trap (List (Nat × Nat))) : Eff :=
  let t := s.cur.team
  let w := fmtWidth r.fmt
  let n := elems (groupRegs o) w
  match e with
  | .error tr => .trap tr s
  | .ok as =>
    match s.unreadable as with
    | some a =>
      let at_ := whole.getD (a, eltBytes w)
      .trap (trapAt .localUe (BitVec.ofNat 64 at_.1) at_.2) (s.postLocalUe a)
    | none =>
      let cs : List (Option Nat) := (List.range n).map fun i =>
        match as.find? fun ia => ia.1 == i with
        | some ia => some (s.eltLoad ia.2 w i)
        | none => none
      .done ((s.readElts w as).setTeam (t.land (groupWrites (t.wb + o.d.toNat) (groupRegs o) w cs) 0 (if o.sub = 1 then 18 else 6) o))

/-- A vector store of its active elements, lowest first (10 R196, R197). -/
def vecStore (o : LF) (r : Res) (s : State) (e : Except Trap (List (Nat × Nat))) : Eff :=
  let w := fmtWidth r.fmt
  let d := elemCodes (s.cur.team.group o.d.toNat (groupRegs o)) w (elems (groupRegs o) w)
  match e with
  | .error tr => .trap tr s
  | .ok as => .done (as.foldl (fun u ia => u.eltStore ia.2 w ia.1 (d.getD ia.1 0)) s)

/-! ### Class 6 -/

/-- The window after `wenter n`: the registers below the new resident span are spilled (04 R66). -/
def Team.spillTo (t : Team) (lo : Nat) : Team :=
  let regs := (List.range (lo - t.lo)).map fun k => t.lo + k
  { t with spilled := Sparse.setAll 0 t.spilled (regs.map fun a => (a, t.fileGet (physReg a))), lo := lo }

/-- The spilled registers from `lo` upward filled back (04 R66). -/
def Team.fillTo (t : Team) (lo : Nat) : Team :=
  let regs := (List.range (t.lo - lo)).map fun k => lo + k
  { (regs.foldl (fun (u : Team) a => u.fileSet (physReg a) (Sparse.get 0 t.spilled a)) t) with
           spilled := Sparse.clear t.spilled lo (t.lo - lo), lo := lo }

/-- The lowest resident register once a span ends at `top`. -/
def Team.spanLo (t : Team) (top : Nat) : Nat := if top - t.lo > 4096 then (top - 4096 + 31) / 32 * 32 else t.lo

/-- `wenter n` (04 R66). -/
def windowEnter (s : State) (n : Nat) : Eff :=
  let t := s.cur.team
  if 64 ≤ t.links.length then .trap (trapOf .winSpillOverflow) s
  else
    let wb := t.wb + t.fs - 32
    let lo := t.spanLo (wb + n)
    if s.cur.spill * 32 < lo then .trap (trapOf .winSpillOverflow) s
    else
      let u := if lo = t.lo then t else t.spillTo lo
      .done (s.setTeam { u with links := t.fs :: t.links, wb := wb, fs := n })

/-- `wleave` (04 R66). -/
def windowLeave (s : State) : Eff :=
  let t := s.cur.team
  match t.links with
  | [] => .trap (trapOf .winUnderflow) s
  | f :: rest =>
    let wb := t.wb + 32 - f
    let u := if wb < t.lo then t.fillTo wb else t
    .done (s.setTeam { u with links := rest, wb := wb, fs := f })

/-- A team with a new mask stack. -/
def Team.setMasks (t : Team) (ms : List Word) : Team := { t with masks := ms }

/-- `mpush` (10 R198). -/
def maskPush (s : State) (v : Word) : Eff :=
  let t := s.cur.team
  if 16 ≤ t.masks.length then .trap (trapOf .maskOverflow) s
  else .done (s.setTeam (t.setMasks ((v &&& t.masks.headD 0) :: t.masks)))

/-- `minv` (10 R198). -/
def maskInvert (s : State) : Eff :=
  let t := s.cur.team
  match t.masks with
  | top :: parent :: rest => .done (s.setTeam (t.setMasks ((parent &&& ~~~top) :: parent :: rest)))
  | _ => .trap (trapOf .maskUnderflow) s

/-- `mpop` (10 R198). -/
def maskPop (s : State) : Eff :=
  let t := s.cur.team
  match t.masks with
  | _ :: parent :: rest => .done (s.setTeam (t.setMasks (parent :: rest)))
  | _ => .trap (trapOf .maskUnderflow) s

/-- `bmz` (10 R198, 09 R156). -/
def branchMaskZero (s : State) (imm : BitVec 11) : Eff :=
  if s.cur.team.masks.headD 0 = 0 then .jump s (s.pc + (imm.signExtend 64 <<< 2)) else .done s

end Sys2Proof.Machine
end

