-- ==== Sys2Proof/Machine/MatOps.lean ====
section
/-! DEFINITION. Handles, tiles, accumulation, the down-converter, table lookup, loops and the format table (03 R47, R52, R53,
11 R201-R218). -/

namespace Sys2Proof.Machine

/-! ### Handles and tiles (11 R202, R203) -/

/-- A handle named by a field. -/
def handleOf (f : BitVec 11) : Fin 32 := ⟨(fieldReg f).toNat, (fieldReg f).isLt⟩

/-- The fields of a handle. -/
structure Tile where
  base : Nat
  rows : Nat
  cols : Nat
  pitch : Nat
  fmt : Nat
  reserved : Bool
deriving DecidableEq, Repr

/-- A field of a 256-bit handle. -/
def hField (h : V256) (lo n : Nat) : Nat := (h.extractLsb' lo n).toNat

/-- The tile a handle describes. -/
def tileOf (h : V256) : Tile :=
  { base := hField h 0 32, rows := hField h 32 16, cols := hField h 48 16, pitch := hField h 64 32, fmt := hField h 96 4,
    reserved := hField h 100 28 != 0 }

/-- S(f, C), the bytes of a packed row (11 R203). -/
def rowSize (f c : Nat) : Nat :=
  match f with
  | 0 => 4 * c
  | 1 => 2 * c
  | 2 => 2 * c
  | 5 => (c + 1) / 2
  | 7 => (c + 1) / 2
  | 8 => 3 * ((c + 3) / 4)
  | 9 => 10 * ((c + 15) / 16)
  | 10 => 10 * ((c + 15) / 16)
  | 11 => 14 * ((c + 15) / 16)
  | 13 => (c + 7) / 8
  | 14 => (c + 3) / 4
  | _ => c

/-- A tile with its format in force: the handle's, or the using instruction's when it holds 15. -/
def Tile.inForce (h : Tile) (f : Nat) : Tile := { h with fmt := if h.fmt = 15 then f else h.fmt }

/-- The effective pitch (11 R203). -/
def Tile.step (h : Tile) : Nat := if h.pitch = 0 then rowSize h.fmt h.cols else h.pitch

/-- The bytes from BASE to the end of the last row. -/
def Tile.span (h : Tile) : Nat := (h.rows - 1) * h.step + rowSize h.fmt h.cols

/-- The address of a row. -/
def Tile.row (h : Tile) (r : Nat) : Nat := h.base + r * h.step

/-- Check 1 of R203 on a tile whose format is in force: `okFmt` says that the instruction accepts the handle's format. -/
def Tile.shapeOk (h : Tile) (okFmt : Bool) (maxRows maxCols : Nat) : Bool :=
  !h.reserved && okFmt && 1 ≤ h.rows && h.rows ≤ min 4096 maxRows && 1 ≤ h.cols && h.cols ≤ min 4096 maxCols
    && (h.pitch == 0 || rowSize h.fmt h.cols ≤ h.pitch) && (!isNb h.fmt || h.cols % 16 == 0)

/-- Check 3 of R203. -/
def Tile.aligned (h : Tile) : Bool :=
  match h.fmt with
  | 0 => h.base % 4 == 0 && h.step % 4 == 0
  | 1 => h.base % 2 == 0 && h.step % 2 == 0
  | 2 => h.base % 2 == 0 && h.step % 2 == 0
  | _ => true

/-- The trap of a tile, with its base and span. -/
def Tile.trap (h : Tile) (c : Cause) : Trap := trapAt c (BitVec.ofNat 64 h.base) h.span

/-- The first line of a tile's rows that cannot be read; the bytes between two rows are not read (11 R203). -/
def State.badTileLine (s : State) (h : Tile) : Option Nat :=
  (List.range h.rows).findSome? fun r => s.badLineIn (h.row r) (rowSize h.fmt h.cols)

/-- Checks 2 and 3 of R203 over the tiles an instruction uses, each check on every tile before the next one, then lines that
cannot be read. -/
def State.tilesOk (s : State) (hs : List Tile) (reads : Bool) : Except (Trap × Option Nat) Unit :=
  match hs.find? fun h => !s.inScratch h.base h.span with
  | some h => .error (h.trap .localAddr, none)
  | none =>
    match hs.find? fun h => !h.aligned with
    | some h => .error (h.trap .align, none)
    | none =>
      match if reads then hs.findSome? fun h => (s.badTileLine h).map fun a => (h, a) else none with
      | some (h, a) => .error (h.trap .localUe, some a)
      | none => .ok ()

/-- The state after the rows of some tiles are read: lines in error are rebuilt (04 R72). -/
def State.readTiles (s : State) (hs : List Tile) : State :=
  if s.clusBad.isEmpty then s
  else hs.foldl (fun u h => (List.range h.rows).foldl (fun v r => v.rebuild (h.row r) (rowSize h.fmt h.cols)) u) s

/-- The trap of a tile check; LOCAL_UE also posts its record. -/
def State.tileTrap (s : State) (e : Trap × Option Nat) : Eff :=
  match e.2 with
  | some a => .trap e.1 (s.postLocalUe a)
  | none => .trap e.1 s

/-- The element codes of a packed row, 4-, 6-, 8-, 16- and 32-bit formats and LUT codes (03 R38). -/
def rowCodes (f c : Nat) (bs : List Byte) : List Nat :=
  match f with
  | 0 => (List.range c).map fun i => leNat ((bs.drop (4 * i)).take 4)
  | 1 => (List.range c).map fun i => leNat ((bs.drop (2 * i)).take 2)
  | 2 => (List.range c).map fun i => leNat ((bs.drop (2 * i)).take 2)
  | 5 => (unpack4 bs).take c
  | 7 => (unpack4 bs).take c
  | 8 => (unpack6 bs).take c
  | 13 => (List.range c).map fun i => (bs.getD (i / 8) 0).toNat / 2 ^ (i % 8) % 2
  | 14 => (List.range c).map fun i => (bs.getD (i / 4) 0).toNat / 4 ^ (i % 4) % 4
  | _ => (bs.take c).map BitVec.toNat

/-- The exact values of a packed row (11 R203, 03 R38-R45). -/
def rowVals (f c : Nat) (bs : List Byte) : List Val :=
  if isNb f then
    (List.range (c / 16)).flatMap fun j =>
      let b := nbOfBytes f ((bs.drop (nbSize f * j)).take (nbSize f))
      (List.range 16).map fun i => b.value f i
  else (rowCodes f c bs).map (decodeElem f)

/-- The bytes of a row of a tile. -/
def State.tileRow (s : State) (h : Tile) (r : Nat) : List Byte := s.localBytes (h.row r) (rowSize h.fmt h.cols)

/-- Every row of a tile, decoded. -/
def State.tileVals (s : State) (h : Tile) : List (List Val) :=
  (List.range h.rows).map fun r => rowVals h.fmt h.cols (s.tileRow h r)

/-! ### Accumulation (03 R52) -/

/-- NV and OF of a rounding, the only flags of the matrix engine (03 R51). -/
def engineFlags (f : BitVec 6) : BitVec 6 := f &&& (fNV ||| fOF)

/-- Rounds to FP32 under RNE with IEEE overflow. -/
def toFp32 (v : Val) : Elt := fp32.round 0 true 0 v

/-- The multiple of 2^q nearest to a number in the direction of zero. -/
def truncTo (q : Int) (v : Val) : Val :=
  match v with
  | .num n m e => if q ≤ e then v else .num n (m >>> (q - e).toNat) q
  | v => v

/-- Whether a value is a NaN or an infinity of some sign. -/
def Val.isNan (v : Val) : Bool := v == .nan

/-- The exact sum of a group, truncated at 2^-40 of its largest magnitude when `trunc` (03 R52). -/
def groupSum (trunc : Bool) (ps : List Val) : Val :=
  match topExp ps with
  | none => vZero
  | some x => sumFinite (if trunc then ps.map (truncTo (x - 40)) else ps)

/-- One group of exact products accumulated into an FP32 code (03 R52); a product's flag says that it is a NaN created here. -/
def accGroup (trunc : Bool) (acc : Elt) (ps : List (Val × Bool)) : Elt :=
  let vs := ps.map (·.1)
  let a := fp32.decode acc.1
  if vs.any Val.isNan then (0x7FC00000, acc.2 ||| flagIf (ps.any (·.2)) fNV)
  else if vs.contains (.inf false) && vs.contains (.inf true) then (0x7FC00000, acc.2 ||| fNV)
  else
    match vs.find? fun v => v == .inf false || v == .inf true with
    | some v =>
      let x := a.add false v
      let r := toFp32 x.1
      (r.1, acc.2 ||| engineFlags r.2 ||| flagIf x.2 fNV)
    | none =>
      let x := groupSum trunc vs
      if x.isZero then acc
      else
        let r := toFp32 (a.add false x).1
        (r.1, acc.2 ||| engineFlags r.2)

/-- A list in pieces of `n`. -/
def chunks {α : Type} (n : Nat) (fuel : Nat) (l : List α) : List (List α) :=
  match fuel with
  | 0 => []
  | fuel + 1 => if l.isEmpty then [] else l.take n :: chunks n fuel (l.drop n)

/-- Products accumulated in ascending k, in groups of `g`; as fused steps when `g` is 0 (03 R52). -/
def accumulate (g : Nat) (start : Nat) (ps : List (Val × Bool)) : Elt :=
  if g = 0 then
    ps.foldl (fun (a : Elt) p =>
      let x := (fp32.decode a.1).add false p.1
      let r := toFp32 x.1
      (r.1, a.2 ||| engineFlags r.2 ||| flagIf (x.2 || p.2) fNV)) (start, 0)
  else (chunks g ps.length ps).foldl (accGroup true) (start, 0)

/-- An accumulator element as an FP32 code (11 R201). -/
def Team.accElem (t : Team) (a m n : Nat) : Nat := (Sparse.get 0 t.acc (2048 * a + 64 * m + n)).toNat

/-- The landing write of an accumulator element. -/
def accWrite (a m n c : Nat) : LWrite := .acc (2048 * a + 64 * m + n) (BitVec.ofNat 32 c)

/-- The element width that counts for kstep: LN6 as 6, a nested block as its elements (11 R206). -/
def opWidth (f : Nat) : Nat :=
  match f with
  | 0 => 32
  | 1 => 16
  | 2 => 16
  | 5 => 4
  | 7 => 4
  | 8 => 6
  | 9 => 4
  | 10 => 4
  | 11 => 6
  | _ => 8

/-- The group size of R52 for an operand width; 0 for fused steps (11 R206). -/
def kGroup (w : Nat) : Nat := if w = 32 then 0 else if 8 ≤ w then 2 else 4

/-- The occupancy of the matrix engine (11 R206). -/
def occupancy (w k : Nat) : Nat := if w = 32 then 2 * k else if w = 16 then k else if w = 8 then (k + 1) / 2 else (k + 3) / 4

/-- A matrix instruction draws its pm.mx number, holds the engine and lands (11 R206, 05 R84). -/
def landMatrix (s : State) (t : Team) (ws : List LWrite) (flags : BitVec 6) (occ lat : Nat) (draw : Bool) : Eff :=
  let s1 := s.setTeam t
  let d := if draw then s1.drawPm s.cur.cid s.cur.vdie 2 else (s1, 0)
  let e : Landing := ⟨ws, flags, lat, false, true, if draw then some d.2 else none⟩
  let s2 := d.1
  let u := s2.cur.team
  let c := { s2.cur with team := { u with landings := u.landings ++ [e], matBusy := occ },
                         specNums := if draw && s.cur.spec then s2.cur.specNums ++ [(2, d.2)] else s2.cur.specNums }
  .done { s2 with cur := c }

/-- The f of a decoded LN6 significand T[f] (03 R42). -/
def ln6Frac (m : Nat) : Nat := [ln6T 1, ln6T 2, ln6T 3].countP fun c => c ≤ m

/-- The product of two decoded LN6 codes inside `mma`: T[f] × 2^k of the index L1 + L2 − 16, never narrowed (03 R43). -/
def ln6Product (a b : Val) : Val × Bool :=
  match a, b with
  | .num na ma ea, .num nb mb eb =>
    if ma = 0 || mb = 0 then (.num (na ^^ nb) 0 0, false)
    else
      let f := ln6Frac ma + ln6Frac mb
      (.num (na ^^ nb) (ln6T (f % 4)) (ea + eb + 23 + (f / 4 : Nat)), false)
  | _, _ => a.mul b

/-- Whether the elements of a format are LN6 codes, plain or in nested blocks (03 R42, R45). -/
def lnCoded (f : Nat) : Bool := f == 8 || f == 11

/-- The products of two rows in formats `fa` and `fb`: exact, and in the log domain where both elements are LN6 codes
(03 R43, R52). DEDUCED: elements of NBL6 blocks count as LN6 codes, the scales multiplying exactly; log entry 17. -/
def products (fa fb : Nat) (a b : List Val) : List (Val × Bool) :=
  List.zipWith (if lnCoded fa && lnCoded fb then ln6Product else Val.mul) a b

/-- A product of two values where 0 × infinity creates a NaN is `Val.mul`; the results of an M × N product (11 R207). -/
def matResults (fa fb g : Nat) (as bs : List (List Val)) (start : Nat → Nat → Nat) : List (Nat × Nat × Elt) :=
  as.zipIdx.flatMap fun ra => bs.zipIdx.map fun rb => (ra.2, rb.2, accumulate g (start ra.2 rb.2) (products fa fb ra.1 rb.1))

/-- The shape limits that relate the operands of a product (11 R205): the pair, the FP32 limits and the nested-block K. -/
def pairOk (fa fb k : Nat) : Bool :=
  (if fb = 0 then fa == 0 else fa != 0) && (!(isNb fa || isNb fb) || k % 16 == 0)

/-- `mma` (11 R205, R207). -/
def matMul (o : LF) (r : Res) (s : State) : Eff :=
  let t := s.cur.team
  let fb := r.fmt
  let ha := tileOf (t.h.get (handleOf o.a))
  let hb := tileOf (t.h.get (handleOf o.b))
  let a := ha.inForce fb
  let b := hb.inForce fb
  let fp := fb == 0
  if !(a.shapeOk (ha.fmt == 15 || ha.fmt ≤ 12) (if fp then 16 else 32) 4096 &&
      b.shapeOk (hb.fmt == 15 || hb.fmt == fb) (if fp then 32 else 64) 4096 && a.cols == b.cols && pairOk a.fmt fb a.cols) then
    .trap (trapOf .illegalOperand) s
  else
    match s.tilesOk [a, b] true with
    | .error e => s.tileTrap e
    | .ok _ =>
      let d := o.d.toNat
      let w := max (opWidth a.fmt) (opWidth fb)
      let res := matResults a.fmt fb (kGroup w) (s.tileVals a) (s.tileVals b)
        (fun m n => if o.sub2 % 2 = 1 then 0 else t.accElem d m n)
      let occ := occupancy w a.cols
      landMatrix (s.readTiles [a, b]) t (res.map fun x => accWrite d x.1 x.2.1 x.2.2.1) (res.foldl (fun f x => f ||| x.2.2.2) 0) occ (occ + 14) true

/-! ### The down-converter (03 R53) -/

/-- The values of a row of FP32 codes converted to a format, with flags, under the draws of its positions. -/
def downRow (r : Res) (f : Nat) (draws cs : List Nat) : List Val × BitVec 6 :=
  let vs := cs.map fp32.decode
  if isNb f then
    let bs := blocksOf { r with fmt := f } draws vs
    (bs.flatMap fun b => (List.range 16).map fun i => b.1.value f i, blocksFlags bs)
  else
    let es := vs.zipIdx.map fun vi => roundElem f r.rm r.ovf (draws.getD vi.2 0) vi.1
    (es.map fun e => decodeElem f e.1, es.foldl (fun x e => x ||| e.2) 0)

/-- The A type of `mmac` (11 R204, R205). -/
def mmacType (sub fb : Nat) : Nat :=
  match sub with
  | 0 => fb
  | 1 => 2
  | 2 => 3
  | _ => 1

/-- `mmac` (11 R208). -/
def matMulAcc (o : LF) (r : Res) (s : State) : Eff :=
  let t := s.cur.team
  let fb := r.fmt
  let fa := mmacType o.sub2 fb
  let hb := tileOf (t.h.get (handleOf o.b))
  let b := hb.inForce fb
  let fp := fb == 0
  let m := if fp then 16 else 32
  if !(b.shapeOk (hb.fmt == 15 || hb.fmt == fb) (if fp then 32 else 64) 64 && pairOk fa fb b.cols) then
    .trap (trapOf .illegalOperand) s
  else
    match s.tilesOk [b] true with
    | .error e => s.tileTrap e
    | .ok _ =>
      let k := b.cols
      let dr := t.drawn r.rm (m * k)
      let rows := (List.range m).map fun i =>
        downRow r fa ((dr.1.drop (k * i)).take k) ((List.range k).map fun j => t.accElem o.a.toNat i j)
      let w := max (opWidth fa) (opWidth fb)
      let res := matResults fa fb (kGroup w) (rows.map (·.1)) (s.tileVals b) (fun i j => t.accElem o.d.toNat i j)
      let fl := rows.foldl (fun x y => x ||| y.2) (res.foldl (fun f x => f ||| x.2.2.2) 0)
      let occ := occupancy w k
      landMatrix (s.readTiles [b]) dr.2 (res.map fun x => accWrite o.d.toNat x.1 x.2.1 x.2.2.1) fl occ (occ + 14) true

/-! ### Table lookup (03 R47, 11 R209, R210) -/

/-- An entry of a lookup table: the terms by the group rule of R52, summed exactly and rounded once. -/
def tableEntry (ps : List (Val × Bool)) : Elt := accGroup false (0, 0) ps

/-- The terms of entry `w` of a group under LUT1. -/
def lut1Terms (as : List Val) (w : Nat) : List (Val × Bool) :=
  as.zipIdx.map fun ai => (if w / 2 ^ ai.2 % 2 = 1 then ai.1 else ai.1.flip, false)

/-- The terms of entry `w` of a group under LUT2. -/
def lut2Terms (cb as : List Val) (w : Nat) : List (Val × Bool) :=
  as.zipIdx.map fun ai => (cb.getD (w / 4 ^ ai.2 % 4) vZero).mul ai.1

/-- The 64 columns of a row of tables. -/
def tableRow (q : Nat) (terms : List Val → Nat → List (Val × Bool)) (as : List Val) : List Elt :=
  let es := (chunks q as.length as).flatMap fun g => (List.range 16).map fun w => tableEntry (terms g w)
  es ++ List.replicate (64 - es.length) (0, 0)

/-- `mlutb` (11 R205, R209). -/
def lutBuild (o : LF) (r : Res) (s : State) : Eff :=
  let t := s.cur.team
  let one := r.fmt == 13
  let ha := tileOf (t.h.get (handleOf o.a))
  let a := ha.inForce r.fmt
  let kOk := if one then 4 ≤ a.cols && a.cols % 4 == 0 else 2 ≤ a.cols && a.cols % 2 == 0
  if !(a.shapeOk (([1, 2, 3, 4, 6, 12] : List Nat).contains a.fmt) 32 (if one then 16 else 8) && kOk) then
    .trap (trapOf .illegalOperand) s
  else
    match s.tilesOk [a] true with
    | .error e => s.tileTrap e
    | .ok _ =>
      let cb := (elemCodes (t.group o.b.toNat 1) 16 4).map bf16.decode
      let rows := (s.tileVals a).map fun v => if one then tableRow 4 lut1Terms v else tableRow 2 (lut2Terms cb) v
      let ws := rows.zipIdx.flatMap fun ri => ri.1.zipIdx.map fun ec => accWrite o.d.toNat ri.2 ec.2 ec.1.1
      landMatrix (s.readTiles [a]) t ws (rows.foldl (fun f x => x.foldl (fun g e => g ||| e.2) f) 0) 2 16 false

/-- The 4-bit index of each group of a row of weights (03 R47). -/
def lutIndex (one : Bool) (cs : List Nat) : List Nat :=
  if one then (chunks 4 cs.length cs).map fun g => g.foldr (fun c a => 2 * a + c) 0
  else (chunks 2 cs.length cs).map fun g => g.foldr (fun c a => 4 * a + c) 0

/-- `mlut` (11 R205, R210). -/
def lutAccum (o : LF) (r : Res) (s : State) : Eff :=
  let t := s.cur.team
  let one := r.fmt == 13
  let hb := tileOf (t.h.get (handleOf o.b))
  let b := hb.inForce r.fmt
  let kOk := if one then 4 ≤ b.cols && b.cols % 4 == 0 else 2 ≤ b.cols && b.cols % 2 == 0
  if !(b.shapeOk (hb.fmt == 15 || hb.fmt == r.fmt) 64 (if one then 16 else 8) && kOk) then .trap (trapOf .illegalOperand) s
  else
    match s.tilesOk [b] true with
    | .error e => s.tileTrap e
    | .ok _ =>
      let idx := (List.range b.rows).map fun n => lutIndex one (rowCodes r.fmt b.cols (s.tileRow b n))
      let res := (List.range 32).flatMap fun m => idx.zipIdx.map fun wn =>
        let ps := wn.1.zipIdx.map fun wg => (fp32.decode (t.accElem o.a.toNat m (16 * wg.2 + wg.1)), false)
        (m, wn.2, accumulate 8 (t.accElem o.d.toNat m wn.2) ps)
      let occ := (b.cols + 7) / 8
      landMatrix (s.readTiles [b]) t (res.map fun x => accWrite o.d.toNat x.1 x.2.1 x.2.2.1) (res.foldl (fun f x => f ||| x.2.2.2) 0) occ
        (occ + 14) true

/-! ### Accumulator transfers (11 R213, R214) -/

/-- A landing of accumulator or handle writes. -/
def landAt (s : State) (t : Team) (ws : List LWrite) (lat : Nat) : Eff :=
  .done (s.setTeam { t with landings := t.landings ++ [⟨ws, 0, lat, false, false, none⟩] })

/-- `azero`. -/
def accZero (o : LF) (s : State) : Eff :=
  landAt s s.cur.team ((List.range 2048).map fun i => .acc (2048 * o.d.toNat + i) 0) 3

/-- An exact value as an FP32 code. -/
def fp32Code (v : Val) : Nat := (toFp32 v).1

/-- `ald`. -/
def accLoad (o : LF) (r : Res) (s : State) : Eff :=
  let t := s.cur.team
  let h := tileOf (t.h.get (handleOf o.a))
  let a := h.inForce r.fmt
  if !a.shapeOk (h.fmt == 15 || h.fmt == r.fmt) 32 64 then .trap (trapOf .illegalOperand) s
  else
    match s.tilesOk [a] true with
    | .error e => s.tileTrap e
    | .ok _ =>
      let ws := (s.tileVals a).zipIdx.flatMap fun ri => ri.1.zipIdx.map fun vc => accWrite o.d.toNat ri.2 vc.2 (fp32Code vc.1)
      landAt (s.readTiles [a]) t ws (if clusBase ≤ a.base then 34 else 22)

/-- Element codes of a row in its packed layout, bits past the last element zero (03 R38). -/
def packRow (f : Nat) (cs : List Nat) : List Byte :=
  match f with
  | 0 => cs.flatMap fun c => leBytes 4 c
  | 1 => cs.flatMap fun c => leBytes 2 c
  | 2 => cs.flatMap fun c => leBytes 2 c
  | 5 => pack4 (cs ++ if cs.length % 2 = 1 then [0] else [])
  | 7 => pack4 (cs ++ if cs.length % 2 = 1 then [0] else [])
  | 8 => pack6 (cs ++ List.replicate ((4 - cs.length % 4) % 4) 0)
  | _ => cs.map fun c => BitVec.ofNat 8 c

/-- A row of FP32 codes through the down-converter, in its packed layout, with flags. -/
def downBytes (r : Res) (draws cs : List Nat) : List Byte × BitVec 6 :=
  let vs := cs.map fp32.decode
  if isNb r.fmt then
    let bs := blocksOf r draws vs
    (bs.flatMap fun b => nbToBytes r.fmt b.1, blocksFlags bs)
  else
    let es := vs.zipIdx.map fun vi => roundElem r.fmt r.rm r.ovf (draws.getD vi.2 0) vi.1
    (packRow r.fmt (es.map (·.1)), es.foldl (fun x e => x ||| e.2) 0)

/-- `ast`. -/
def accStore (o : LF) (r : Res) (s : State) : Eff :=
  let t := s.cur.team
  let h := tileOf (t.h.get (handleOf o.d))
  let d := h.inForce r.fmt
  if !d.shapeOk (h.fmt == 15 || h.fmt == r.fmt) 32 64 then .trap (trapOf .illegalOperand) s
  else
    match s.tilesOk [d] false with
    | .error e => s.tileTrap e
    | .ok _ =>
      let dr := t.drawn r.rm (d.rows * d.cols)
      let rows := (List.range d.rows).map fun i =>
        downBytes r ((dr.1.drop (d.cols * i)).take d.cols) ((List.range d.cols).map fun j => t.accElem o.a.toNat i j)
      let s1 := s.setTeam (dr.2.raise (rows.foldl (fun f x => f ||| x.2) 0))
      .done (rows.zipIdx.foldl (fun u ri => u.setLocalBytes (d.row ri.2) ri.1.1) s1)

/-- The write mask of a nested-block register whose element activity is given: an active element's code, and the exponent and
micro byte of each block with an active element (11 R214); the reserved bits with any. -/
def nbMask (f : Nat) (act : List Bool) : V256 :=
  let w := if f = 11 then 8 else 4
  let elts := act.zipIdx.foldl (fun m ai => if ai.1 then m + (2 ^ w - 1) * 2 ^ (w * ai.2) else m) 0
  let blk (k : Nat) : Bool := ((act.drop (16 * k)).take 16).any id
  let tail := if f = 11 then (if blk 0 then 0xFFFF * 2 ^ 128 else 0)
    else (if blk 0 then (0xFF + 0xFF0000) * 2 ^ 128 else 0) + (if blk 1 then (0xFF00 + 0xFF000000) * 2 ^ 128 else 0)
  let rest := if act.any id then (if f = 11 then 2 ^ 256 - 2 ^ 144 else 2 ^ 256 - 2 ^ 160) else 0
  BitVec.ofNat 256 (elts + tail + rest)

/-- `ardv` (11 R214): only active elements raise flags (03 R51). -/
def accToVec (o : LF) (r : Res) (s : State) : Eff :=
  let t := s.cur.team
  let g := groupRegs o
  let w := fmtWidth r.fmt
  let n := elems g w
  let cs := (List.range n).map fun i => (Sparse.get 0 t.acc (2048 * o.a.toNat + 64 * o.b.toNat + i)).toNat
  let dr := t.drawn r.rm n
  if isNb r.fmt then
    let bs := blocksOf r dr.1 (cs.map fp32.decode)
    let regs := nbRegs r.fmt (bs.map (·.1))
    let per := nbPer r.fmt
    let ws := regs.zipIdx.map fun vi =>
      .v (t.wb + o.d.toNat + vi.2) vi.1 (nbMask r.fmt ((List.range per).map fun i => t.active o.m (per * vi.2 + i)))
    let fl := activeFlags (bs.zipIdx.flatMap fun bi => bi.1.2.zipIdx.map fun fi =>
      if t.active o.m (16 * bi.2 + fi.2) then some fi.1 else none)
    .done (s.setTeam (dr.2.land ws fl 8 o))
  else
    landElems s dr.2 o w g 8 (cs.zipIdx.map fun ci => roundElem r.fmt r.rm r.ovf (dr.1.getD ci.2 0) (fp32.decode ci.1))

/-- `awrv` (11 R214). -/
def vecToAcc (o : LF) (r : Res) (s : State) : Eff :=
  let t := s.cur.team
  let g := groupRegs o
  let w := fmtWidth r.fmt
  let cs := elemCodes (t.group o.a.toNat g) w (elems g w)
  landAt s t (cs.zipIdx.map fun ci =>
    .acc (2048 * o.d.toNat + 64 * o.b.toNat + ci.2) (BitVec.ofNat 32 (fp32Code (decodeElem r.fmt ci.1)))) 4

/-! ### Handle instructions (11 R215) -/

/-- The landing write of word `j` of a handle. -/
def hWord (h : Fin 32) (j : Nat) (v : BitVec 32) : LWrite :=
  .h h (v.setWidth 256 <<< (32 * j)) (BitVec.ofNat 256 0xFFFFFFFF <<< (32 * j))

/-- Word `j` of a handle as `hget` returns it. -/
def hWordValue (v : V256) (j : Nat) : Word :=
  let w : BitVec 32 := v.extractLsb' (32 * j) 32
  if 4 ≤ j then w.signExtend 64 else w.setWidth 64

/-- The address of `hld` and `hst`: LOCAL_ADDR, then ALIGN. -/
def State.handleAddr (s : State) (base : Word) (imm : BitVec 11) (cl : Bool) : Except Trap Nat :=
  match localAddr base imm.toInt with
  | none => .error (trapAt .localAddr (base + imm.signExtend 64) 32)
  | some a =>
    if !s.inSpace cl a 32 then .error (trapAt .localAddr (BitVec.ofNat 64 a) 32)
    else if a % 32 ≠ 0 then .error (trapAt .align (BitVec.ofNat 64 a) 32) else .ok a

/-- `hld`. -/
def handleLoad (o : LF) (s : State) : Eff :=
  let cl := o.sub2 == 1
  match s.handleAddr (s.x (fieldReg o.a)) o.b cl with
  | .error t => .trap t s
  | .ok a =>
    if s.clusBadAt a then .trap (trapAt .localUe (BitVec.ofNat 64 a) 32) (s.postLocalUe a)
    else
      landAt (s.rebuild a 32) s.cur.team [.h (handleOf o.d) (BitVec.ofNat 256 (leNat (s.localBytes a 32))) (BitVec.allOnes 256)]
        (if cl then 18 else 6)

/-- `hst`. -/
def handleStore (o : LF) (s : State) : Eff :=
  match s.handleAddr (s.x (fieldReg o.a)) o.b (o.sub2 == 1) with
  | .error t => .trap t s
  | .ok a => .done (s.setLocalBytes a (leBytes 32 (s.cur.team.h.get (handleOf o.d)).toNat))

/-- `hadv`: BASE and the stride of the counter, both read at issue. -/
def handleAdvance (s : State) (h : Fin 32) (n : Nat) : Eff :=
  let v := s.cur.team.h.get h
  let b : BitVec 32 := v.extractLsb' 0 32
  let st : BitVec 32 := v.extractLsb' (128 + 32 * n) 32
  landAt s s.cur.team [hWord h 0 (b + st)] 3

/-! ### Loops (11 R216, R217) -/

/-- A loop counter named by a field. -/
def loopNum (f : BitVec 11) : Fin 4 := ⟨f.toNat % 4, Nat.mod_lt _ (by decide)⟩

/-- `loop` at `pc`: its three checks, then the counter. -/
def loopStart (s : State) (n : Fin 4) (bound : Word) (off : BitVec 11) : Eff :=
  let t := s.cur.team
  let pc := t.seq.pc
  let stop := pc + 4 * off.toNat
  let c := t.loopOf n
  let inside := match t.loops with
    | [] => true
    | top :: _ =>
      let k := t.loopOf top
      k.start ≤ pc && pc < k.stop && stop ≤ k.stop
  if c.active || 2 ^ 32 ≤ bound.toNat || !inside then .trap (trapOf .illegalOperand) s
  else if bound = 0 then .jump (s.setTeam (t.setLoop n { c with count := 0 })) (BitVec.ofNat 64 stop)
  else
    let u := t.setLoop n { count := 0, bound := bound.setWidth 32, start := pc + 8, stop := stop, active := true }
    .done (s.setTeam { u with loops := n :: t.loops })

/-- A team with every counter from the top down to `n` popped; unchanged when `n` is not on the stack. -/
def Team.popTo (t : Team) (n : Fin 4) (ls : List (Fin 4)) : Team :=
  match ls with
  | [] => t
  | k :: rest =>
    let u := t.setLoop k { t.loopOf k with active := false }
    let u := { u with loops := rest }
    if k = n then u else u.popTo n rest

/-- `lbrk`. -/
def loopBreak (s : State) (n : Fin 4) : Eff :=
  let t := s.cur.team
  .done (if (t.loopOf n).active then s.setTeam (t.popTo n t.loops) else s)

/-! ### The format table (11 R218) -/

/-- A format-table entry named by a field. -/
def ftNum (f : BitVec 11) : Fin 16 := ⟨f.toNat % 16, Nat.mod_lt _ (by decide)⟩

/-- `fmtsel`. -/
def formatSelect (s : State) (a b : BitVec 11) : Eff :=
  .done (s.setTeam { s.cur.team with
    selCtr := if a = 0 then none else some ⟨(a.toNat - 1) % 4, Nat.mod_lt _ (by decide)⟩, selBase := b.setWidth 4 })

end Sys2Proof.Machine
end

