-- ==== Sys2Proof/Machine/MoveOps.lean ====
section
/-! DEFINITION. What the movement, memory and synchronisation instructions do (12 R221-R248, 05 R79-R91, 07 R116-R127). -/

namespace Sys2Proof.Machine

/-! ### Operands and counters -/

/-- A signed immediate in an operand field. -/
def sext11 (f : BitVec 11) : Word := f.signExtend 64

/-- A 32-bit or shorter value extended to a register. -/
def extendTo (n : Nat) (sx : Bool) (v : Nat) : Word :=
  if sx then (BitVec.ofNat (8 * n) v).signExtend 64 else BitVec.ofNat 64 v

/-- The members of a team beside one. -/
def Who.others (w : Who) : List Who :=
  match w with
  | .seq => [.ld, .st]
  | .ld => [.seq, .st]
  | .st => [.seq, .ld]

/-- The queries of a member in flight. -/
def State.ownQueries (s : State) (w : Who) : List Query := s.queries.filter fun q => q.task == s.cur.id && q.who == w

/-- The collectives a member has issued in this run that are not complete. -/
def State.ownColls (s : State) (w : Who) : List Coll :=
  s.colls.filter fun c => c.issued.any fun m =>
    m.task == s.cur.id && m.run == s.cur.run && m.who == w && !c.completed.contains m.rank

/-- The tile-operation counter of a courier (05 R83): what this run of its team issued. -/
def State.courierTiles (s : State) (w : Who) : Nat := (s.ownQueries w).length + (s.ownColls w).length

/-- Whether a courier's new copy waits: its counter stands at 63, or a checkpoint is due (05 R83, 20 R349). -/
def State.copyHeld (s : State) (w : Who) : Bool := s.cur.ckptDue || 63 ≤ (s.ownCopies w).length

/-- Whether a courier's new query or collective waits. -/
def State.tilesHeld (s : State) (w : Who) : Bool := s.cur.ckptDue || 63 ≤ s.courierTiles w

/-- The completed value of a counter of the focused task's virtual die (05 R84). -/
def State.pmCompleted (s : State) (cls : Nat) : Nat := (s.pm s.cur.cid s.cur.vdie cls).completed

/-- A number drawn for the focused task, kept until commit while it is speculative (05 R84). -/
def State.drawFor (s : State) (cls : Nat) : State × Nat :=
  let x := s.drawPm s.cur.cid s.cur.vdie cls
  if s.cur.spec then ({ x.1 with cur := { x.1.cur with specNums := x.1.cur.specNums ++ [(cls, x.2)] } }, x.2) else x

/-- An issue that drew a number: x[D] takes it, and its STEP record carries the counter, the number and the completed value
(12 R230, 18 R321). -/
def issued (o : LF) (cls num : Nat) (s : State) : Eff :=
  .doneWith (s.setX (fieldReg o.d) (BitVec.ofNat 64 num)) (BitVec.ofNat 64 (cls * 2 ^ 61 + num)) (BitVec.ofNat 64 (s.pmCompleted cls))

/-! ### Buffer loads and stores (12 R239, R240) -/

/-- The checks of 12 R239: ALIGN, R79, translation; the pages of the access. -/
def State.bufAccess (s : State) (b : Word) (n rights : Nat) (write : Bool) : Except Miss (State × List Tlb) :=
  if brefOff b % n ≠ 0 then .error ⟨some (trapAt .align b n), s⟩
  else
    match s.check s.cur.cid b n rights with
    | .error t => .error ⟨some t, s⟩
    | .ok _ => s.translatePages s.memberAcc b n write

/-- The bref of a byte of a range at a virtual address, as the range's own bref names it. -/
def State.brefAt (s : State) (b : Word) (va : Nat) : Word := b + BitVec.ofNat 64 va - BitVec.ofNat 64 (s.vaOf s.cur.cid b)

/-- An error record of a READ for a line, by the line's bref as the access named it (18 R316, R317). -/
def State.postRead (s : State) (b : Word) (va pa code : Nat) : State :=
  s.postError 1 s.cur.cid code 7 (lineBref (s.brefAt b va) va) 0 0 pa

/-- Whether a speculative task's own entry holds every byte of a range (06 R103, R105). -/
def Task.covers (t : Task) (va n : Nat) : Bool :=
  t.spec && (List.range n).all fun i =>
    match t.proofLine ((va + i) / 64) with
    | some l => (l.written ||| l.proof).getLsbD ((va + i) % 64)
    | none => false

/-- A range read through the cluster cache: the bytes, and whether a line failed, which is reported (05 R81, 18 R316). -/
def State.cacheReads (s : State) (b : Word) (ps : List Tlb) (n : Nat) : State × List Byte × Bool :=
  let va := s.vaOf s.cur.cid b
  let d := s.desc s.cur.cid b
  (pieces va n).foldl (fun (x : State × List Byte × Bool) p =>
    match pageOf ps p.1 with
    | none => (x.1, x.2.1 ++ List.replicate p.2 0, x.2.2)
    | some pg =>
      let y := x.1.cacheRead s.cur.cluster s.memberAcc d pg (s.brefAt b p.1) p.1 p.2
      match y.2.2 with
      | none => (y.1, x.2.1 ++ y.2.1, x.2.2)
      | some e => (y.1.postRead b p.1 (pg.at p.1) e, x.2.1 ++ y.2.1, true)) (s, [], false)

/-- The value of a `bld` whose checks passed: the cache's bytes under the task's own entry; 0 where a line failed. -/
def State.bufRead (s : State) (b : Word) (ps : List Tlb) (n : Nat) : State × Nat :=
  let va := s.vaOf s.cur.cid b
  if s.cur.covers va n then (s, leNat (s.cur.overlay va (List.replicate n 0)))
  else
    let x := s.cacheReads b ps n
    (x.1, if x.2.2 then 0 else leNat (x.1.cur.overlay va x.2.1))

/-- Whether a courier's new `bld` waits: the loads counter, which counts the copies whose source is not yet read, stands at 63
(05 R83). -/
def State.loadHeld (s : State) (w : Who) : Bool := 63 ≤ ((s.ownCopies w).filter Copy.unread).length

/-- `bld` of `n` bytes from a bref. -/
def bufLoad (w : Who) (rd : Reg) (b : Word) (n : Nat) (sx : Bool) (s : State) : Eff :=
  match s.bufAccess b n rightR false with
  | .error m => m.eff
  | .ok (u, ps) =>
    if s.loadHeld w then .stay .interlock s
    else if s.bufHazard w (s.vaOf s.cur.cid b) n false then .stay .hazard s
    else
      let x := u.bufRead b ps n
      .done (x.1.setX rd (extendTo n sx x.2))

/-- Bytes written into a speculative task's entry, line by line, with the pages of their checks; none when the store has no free
line. -/
def State.proofWrites (s : State) (b : Word) (ps : List Tlb) (bs : List Byte) : Option State :=
  let va := s.vaOf s.cur.cid b
  (pieces va bs.length).foldl (fun (u : Option State) p =>
    match u, tlbOf ps p.1 with
    | none, _ => none
    | some u, none => some u
    | some u, some t => u.proofWrite (s.brefAt b p.1) (s.descBytes s.cur.cid b) t p.1 ((bs.drop (p.1 - va)).take p.2)) (some s)

/-- Bytes written through the cluster cache, the line logged first as it stood (05 R81, 20 R350). -/
def State.cacheWrites (s : State) (b : Word) (ps : List Tlb) (bs : List Byte) : State :=
  let va := s.vaOf s.cur.cid b
  let d := s.desc s.cur.cid b
  (pieces va bs.length).foldl (fun (u : State) p =>
    match pageOf ps p.1 with
    | none => u
    | some pg =>
      let old := (u.copyRead (some s.cur.cluster) s.memberAcc d pg (p.1 / 64 * 64) 64).2.1
      let name := s.brefAt b p.1
      let v := u.logItem (.buf (p.1 / 64) (lineBref name p.1) (BitVec.ofNat 512 (leNat old)) (maskOf (p.1 % 64) p.2) false)
      v.cacheWrite s.cur.cluster s.memberAcc d pg name p.1 ((bs.drop (p.1 - va)).take p.2)) s

/-- `bst` of `n` bytes to a bref. -/
def bufStore (w : Who) (b v : Word) (n : Nat) (s : State) : Eff :=
  match s.bufAccess b n rightW true with
  | .error m => m.eff
  | .ok (u, ps) =>
    if s.bufHazard w (s.vaOf s.cur.cid b) n true then .stay .hazard s
    else if s.cur.spec then
      match u.proofWrites b ps (leBytes n v.toNat) with
      | none => .stay .interlock s.freezeFull
      | some u => .done u
    else .done (u.cacheWrites b ps (leBytes n v.toNat))

/-! ### Atomics (12 R241, R242, 05 R91) -/

/-- The die of the focused task's cluster, by the numbers of 22 R375. -/
def State.ownDie (s : State) : Nat := 1 + s.cur.cluster / 32

/-- Bytes read at their home from a die, uncached, with the failing lines as (virtual address, physical address, code). -/
def State.homeReads (s : State) (src cid : Nat) (d : Desc) (ps : List Tlb) (va n : Nat) : State × List Byte × List (Nat × Nat × Nat) :=
  (pieces va n).foldl (fun (x : State × List Byte × List (Nat × Nat × Nat)) p =>
    match pageOf ps p.1 with
    | none => (x.1, x.2.1 ++ List.replicate p.2 0, x.2.2)
    | some pg =>
      let u := x.1.cross cid src (pg.at p.1)
      let h := u.homeRead cid d.keyslot (pg.at p.1)
      (u, x.2.1 ++ (h.1.drop (p.1 % 64)).take p.2, match h.2 with | some e => x.2.2 ++ [(p.1, pg.at p.1, e)] | none => x.2.2))
    (s, [], [])

/-- Bytes written at their home from a die, uncached; `b` names the first. -/
def State.homeWrites (s : State) (src cid : Nat) (d : Desc) (ps : List Tlb) (b : Word) (va : Nat) (bs : List Byte) : State :=
  (pieces va bs.length).foldl (fun (u : State) p =>
    match pageOf ps p.1 with
    | none => u
    | some pg =>
      let lm := lineOf (p.1 % 64) ((bs.drop (p.1 - va)).take p.2)
      (u.cross cid src (pg.at p.1)).lineWrite cid d.keyslot pg.nb (lineBref (b + BitVec.ofNat 64 (p.1 - va)) p.1) (pg.at p.1) lm.1 lm.2) s

/-- The indivisible operation at the home: the old word, and no write where the word stays as it is (05 R91); 0 with its
records where a line fails (18 R316). -/
def State.homeAtomic (s : State) (b : Word) (ps : List Tlb) (n : Nat) (f : Nat → Nat) : State × Nat :=
  let va := s.vaOf s.cur.cid b
  let d := s.desc s.cur.cid b
  let x := s.homeReads s.ownDie s.cur.cid d ps va n
  if x.2.2.isEmpty then
    let old := leNat x.2.1
    (if f old = old then x.1 else x.1.homeWrites s.ownDie s.cur.cid d ps b va (leBytes n (f old)), old)
  else (x.2.2.foldl (fun u e => u.postRead b e.1 e.2.1 e.2.2) x.1, 0)

/-- `bamo` and `bcas`: the scope's actions about the operation at the home (05 R91). -/
def atomic (o : LF) (w : Who) (n : Nat) (f : Nat → Nat) (s : State) : Eff :=
  let b := s.x (fieldReg o.a)
  if s.cur.spec then .stay .spec s
  else
    match s.bufAccess b n rightA true with
    | .error m => m.eff
    | .ok (u, ps) =>
      let wide := 1 ≤ o.scope
      if s.bufHazard w (s.vaOf s.cur.cid b) n true then .stay .hazard s
      else if wide && !(s.ownCopies w).isEmpty then .stay .interlock s
      else
        let c := s.cur.cluster
        let u1 := if wide then u.wbAll c s.cur.cid else u
        let x := u1.homeAtomic b ps n f
        let u2 := if wide then x.1.invAll c s.cur.cid else x.1
        .done (u2.external.setX (fieldReg o.d) (extendTo n o.sx x.2))

/-- `bamo`. -/
def bufAmo (o : LF) (w : Who) (s : State) : Eff :=
  let n := 2 ^ o.size
  atomic o w n (fun old => amoNew o.fmt.toNat n old ((s.x (fieldReg o.b)).toNat % 256 ^ n)) s

/-- `bcas`. -/
def bufCas (o : LF) (w : Who) (s : State) : Eff :=
  let n := 2 ^ o.size
  atomic o w n (fun old => if old = (s.x (fieldReg o.d)).toNat % 256 ^ n then (s.x (fieldReg o.b)).toNat % 256 ^ n else old) s

/-! ### Sync objects (12 R244, 05 R86-R89) -/

/-- A sync object's bytes: the bound ranges, and whether the reserved bytes are zero (05 R86). -/
def parseSync (bs : List Byte) : List (Word × Nat) × Bool :=
  let r := (List.range 4).map fun i => (BitVec.ofNat 64 (leNat ((bs.drop (8 * i)).take 8)), leNat ((bs.drop (32 + 4 * i)).take 4))
  (r.filter fun e => e.2 != 0, leNat (bs.drop 48) == 0)

/-- Registration of an object whose bytes the directory reads at their home, under the descriptor its checks found (05 R87, 19 R325). -/
def State.register (s : State) (d : Desc) (b : Word) : Except Miss (State × Sync) :=
  let va := d.vbase + brefOff b
  match s.translateUnder d s.memberAcc b 64 false with
  | .error m => .error m
  | .ok (u, ps) =>
    let x := u.homeReads s.ownDie s.cur.cid d ps va 64
    let y := parseSync x.2.1
    let ok := y.2 && y.1.all fun e => match x.1.check s.cur.cid e.1 e.2 rightR with
      | .ok _ => true
      | .error _ => false
    if ok then .ok (x.1, ⟨s.cur.cid, va, y.1, none, [], [], 0⟩) else .error (missOf .syncBind x.1)

/-- Whether the directory has no entry free for a new object (05 R87). -/
def State.directoryFull (s : State) : Bool := Config.syncExtra + 1 ≤ s.syncs.length

/-- Every bound range written back in the focused task's cluster (05 R89). -/
def State.rangesWb (s : State) (y : Sync) : State :=
  y.ranges.foldl (fun (u : State) r => u.wbRange s.cur.cluster y.cid (u.vaOf y.cid r.1) r.2) s

/-- Every bound range written back and invalidated in the focused task's cluster (05 R88). -/
def State.rangesInv (s : State) (y : Sync) : State :=
  y.ranges.foldl (fun (u : State) r => u.invRange s.cur.cluster y.cid (u.vaOf y.cid r.1) r.2) s

/-- Whether a member's request still waits in the queue. -/
def Sync.waiting (y : Sync) (id : Nat) (w : Who) : Bool := y.queue.any fun q => q.1 == id && q.2.1 == w

/-- `acq` on an entry: a granted request completes with its cache actions; one that waits stays; a new one is queued, and a
holder's is SYNC_STATE (05 R88). -/
def acquireAt (w : Who) (excl : Bool) (desc : List Byte) (y : Sync) (s : State) : Eff :=
  let id := s.cur.id
  let asked : Bool := match (s.member w).wait with
    | some (.acq va seen _) => va == y.va && seen.isSome
    | _ => false
  if y.waiting id w then .stay (.acq y.va (some y.changes) desc) s
  else if y.holds id then (if asked then .done (s.rangesInv y).external else .trap (trapOf .syncState) s)
  else
    let z := { y with queue := y.queue ++ [(id, w, excl)] }.grant
    let u := s.setSync z
    if z.waiting id w then .stay (.acq y.va (some z.changes) desc) u else .done (u.rangesInv z).external

/-- The descriptor that an `acq` or `rel` goes by: what its checks find, or, of an `acq` that waits, found at its first try (19 R325). -/
def State.syncDesc (s : State) (w : Who) (b : Word) : Except Trap (List Byte) :=
  match (s.member w).wait with
  | some (.acq _ _ desc) => .ok desc
  | _ =>
    if brefOff b % 64 ≠ 0 then .error (trapAt .align b 64)
    else
      match s.check s.cur.cid b 64 rightA with
      | .error t => .error t
      | .ok _ => .ok (s.descBytes s.cur.cid b)

/-- `acq`: a new object is registered once no copy of the member still writes its bytes (12 R234), and waits for a free entry of the
directory (05 R87). -/
def acquire (o : LF) (w : Who) (s : State) : Eff :=
  let b := s.x (fieldReg o.a)
  if s.cur.spec then .stay .spec s
  else
    match s.syncDesc w b with
    | .error t => .trap t s
    | .ok desc =>
      let d := parseDesc desc
      let va := d.vbase + brefOff b
      match s.sync? s.cur.cid va with
      | some y => acquireAt w (o.sub == 0) desc y s
      | none =>
        if s.directoryFull then .stay (.acq va none desc) s
        else if s.bufHazard w va 64 false then .stay .hazard s
        else
          match s.register d b with
          | .error m => m.eff
          | .ok (u, y) => acquireAt w (o.sub == 0) desc y u

/-- `rel`: SYNC_STATE without a hold; then the three steps of 05 R89. -/
def release (o : LF) (w : Who) (s : State) : Eff :=
  let b := s.x (fieldReg o.a)
  if s.cur.spec then .stay .spec s
  else if brefOff b % 64 ≠ 0 then .trap (trapAt .align b 64) s
  else
    match s.check s.cur.cid b 64 rightA with
    | .error t => .trap t s
    | .ok _ =>
      match s.sync? s.cur.cid (s.vaOf s.cur.cid b) with
      | none => .trap (trapOf .syncState) s
      | some y =>
        let id := s.cur.id
        let late := (s.ownCopies w).any fun c => c.moves.any fun m => y.ranges.any fun r =>
          m.dst.meetsBuf c.descs m.len (s.vaOf y.cid r.1) r.2
        if !y.holds id then .trap (trapOf .syncState) s
        else if late then .stay .interlock s
        else
          .done ((s.rangesWb y).setSync (y.drop id)).external

/-! ### Range fences and waits (05 R90, 12 R245-R247) -/

/-- `frange`. A length of 0 does nothing but still counts as an external operation (DEDUCED, log 24). -/
def rangeFence (o : LF) (w : Who) (s : State) : Eff :=
  let b := s.x (fieldReg o.a)
  let n := (s.x (fieldReg o.b)).toNat
  let wb := o.sub.getLsbD 0
  let inv := o.sub.getLsbD 1
  if n = 0 then .done (if o.scope = 0 then s else s.external)
  else
    match s.check s.cur.cid b n rightR with
    | .error t => .trap t s
    | .ok _ =>
      let va := s.vaOf s.cur.cid b
      if wb && s.bufHazard w va n false then .stay .interlock s
      else if o.scope = 0 then .done s
      else
        let s1 := if wb then s.wbRange s.cur.cluster s.cur.cid va n else s
        let s2 := if inv then s1.invRange s.cur.cluster s.cur.cid va n else s1
        .done s2.external

/-- `pmwait` (12 R246). -/
def postmarkWait (o : LF) (w : Who) (s : State) : Eff :=
  let n := (s.x (fieldReg o.a)).toNat
  let own := s.cur.team.landings.any fun e => match e.mx with
    | some k => k ≤ n
    | none => false
  if n = 0 then .done s
  else if w = .seq ∧ o.b = 2 ∧ own then .drain s
  else if n ≤ s.pmCompleted o.b.toNat then .done s
  else .stay (.pmwait o.b.toNat n) s

/-- `wait` (12 R247): the sequencer's counters but the last are always 0. -/
def waitCounters (o : LF) (w : Who) (s : State) : Eff :=
  match w with
  | .seq => if s.cur.team.tileOps ≤ o.sub.toNat then .done s else .drain s
  | _ =>
    let c := s.ownCopies w
    if (c.filter Copy.unread).length ≤ o.d.toNat && c.length ≤ o.b.toNat && s.courierTiles w ≤ o.sub.toNat then .done s else .stay .counters s

/-! ### Pigeonholes and token queues (12 R223-R226) -/

/-- Whether two configured rings meet. -/
def Hole.meets (p q : Hole) : Bool :=
  p.en && q.en && Machine.meets p.base (64 * p.slotsz * p.count) q.base (64 * q.slotsz * q.count)

/-- The configuration of an entry (04 R74). -/
def holeOf (e : Word) : Hole :=
  { blankHole with en := true, base := (e.extractLsb' 0 32).toNat, slotsz := (e.extractLsb' 32 16).toNat,
                   count := (e.extractLsb' 48 16).toNat }

/-- Whether a configuration is valid as pigeonhole `n` beside the others (04 R74). -/
def State.holeOk (s : State) (p : Hole) (n : Nat) : Bool :=
  p.base % 64 == 0 && 1 ≤ p.slotsz && p.slotsz ≤ 1024 && 1 ≤ p.count && p.count ≤ 256
    && s.inScratch p.base (64 * p.slotsz * p.count)
    && (List.range 16).all fun k => k == n || !p.meets (s.cur.team.hole k)

/-- Whether a copy or query naming a pigeonhole of the focused task is in flight. -/
def State.holeBusy (s : State) (n : Nat) : Bool :=
  s.copies.any (fun c => c.task == s.cur.id && c.hole == some n) || s.queries.any fun q => q.task == s.cur.id && q.hole == n

/-- `phcfg` (12 R225). -/
def holeConfig (o : LF) (s : State) : Eff :=
  let n := o.b.toNat
  let e := s.x (fieldReg o.a)
  let p := s.cur.team.hole n
  let quiet := !p.en || (p.free == p.count && !s.holeBusy n)
  if e.extractLsb' 32 16 = 0 then (if quiet then .done (s.setHole n blankHole) else .trap (trapOf .phState) s)
  else if quiet && s.holeOk (holeOf e) n then .done (s.setHole n (holeOf e))
  else .trap (trapOf .phState) s

/-- A wait on a pigeonhole that can no longer end is TEAM_ENDED (13 R253). -/
def State.holeWait (s : State) (w : Who) (n : Nat) (k : Wait) : Eff :=
  if w.others.all (fun v => (s.member v).ended) && !s.holeBusy n then .trap (trapOf .teamEnded) s else .stay k s

/-- What an instruction does with a configured pigeonhole; PH_STATE otherwise (12 R223). -/
def withHole (o : LF) (s : State) (f : Hole → Eff) : Eff :=
  let p := s.cur.team.hole o.b.toNat
  if p.en then f p else .trap (trapOf .phState) s

/-- `phtake`. -/
def holeTake (o : LF) (w : Who) (s : State) : Eff :=
  let n := o.b.toNat
  withHole o s fun p =>
    if p.filled = 0 then s.holeWait w n (.phtake n)
    else .done ((s.setHole n p.take).setX (fieldReg o.d) (BitVec.ofNat 64 (p.slotAddr p.head)))

/-- `phres`. -/
def holeReserve (o : LF) (w : Who) (s : State) : Eff :=
  let n := o.b.toNat
  withHole o s fun p =>
    if p.free = 0 then s.holeWait w n (.phres n)
    else .done ((s.setHole n (p.reserve false none)).setX (fieldReg o.d) (BitVec.ofNat 64 (p.slotAddr p.tail)))

/-- `phpost`. -/
def holePost (o : LF) (s : State) : Eff :=
  withHole o s fun p =>
    match postFirst p.resv with
    | none => .trap (trapOf .phState) s
    | some rs => .done (s.setHole o.b.toNat ({ p with resv := rs } : Hole).settled)

/-- `phgive`: waits while an earlier copy of the member reads the slot (12 R224). -/
def holeGive (o : LF) (w : Who) (s : State) : Eff :=
  withHole o s fun p =>
    let reading := (s.ownCopies w).any fun c => c.todo.any fun m => unreadLocal m (p.slotAddr p.oldest) (64 * p.slotsz)
    if p.taken = 0 then .trap (trapOf .phState) s
    else if reading then .stay .hazard s
    else .done (s.setHole o.b.toNat p.give)

/-- `phstat`. -/
def holeStat (o : LF) (s : State) : Eff := withHole o s fun p => .done (s.setX (fieldReg o.d) p.stateWord)

/-- The queue an operand names. -/
def queueNum (f : BitVec 11) : Fin 8 := ⟨f.toNat % 8, Nat.mod_lt _ (by decide)⟩

/-- The writer and the reader of a token queue (04 R76). -/
def queueEnds (q : Fin 8) : Who × Who :=
  match q.val / 2 with
  | 0 => (.seq, .ld)
  | 1 => (.ld, .seq)
  | 2 => (.seq, .st)
  | _ => (.st, .seq)

/-- The state with a token queue of the focused team replaced. -/
def State.setQueue (s : State) (q : Fin 8) (ws : List Word) : State :=
  s.setTeam { s.cur.team with tq := s.cur.team.tq.set q.val ws q.isLt }

/-- `tqput` (12 R226). -/
def queuePut (o : LF) (s : State) : Eff :=
  let q := queueNum o.b
  let ws := s.cur.team.tq.get q
  if ws.length < 16 then .done (s.setQueue q (ws ++ [s.x (fieldReg o.a)]))
  else if (s.member (queueEnds q).2).ended then .trap (trapOf .teamEnded) s
  else .stay (.tqput q.val) s

/-- `tqget` and `tqget.pk` (12 R226). -/
def queueGet (o : LF) (s : State) : Eff :=
  let q := queueNum o.b
  match s.cur.team.tq.get q with
  | [] => if (s.member (queueEnds q).1).ended then .trap (trapOf .teamEnded) s else .stay (.tqget q.val) s
  | v :: rest => .done ((if o.sub = 1 then s else s.setQueue q rest).setX (fieldReg o.d) v)

/-! ### Copies (12 R227-R234) -/

/-- What the checks of a copy give: its moves from the local base of its destination slot, 0 outside the pigeonhole form,
and its pages. -/
structure CopyPlan where
  moves : Nat → List Move
  pages : List Tlb

/-- LOCAL_ADDR for a range outside the scratchpads (12 R229 order 2). -/
def State.localOk (s : State) (a n : Nat) : Except Trap Unit := need (s.inScratch a n) (trapAt .localAddr (BitVec.ofNat 64 a) n)

/-- Order 2 for a copy's local destination: the slot's bound where it names a configured pigeonhole. -/
def State.destOk (s : State) (o : LF) (a n : Nat) : Except Trap Unit :=
  if o.isPh then
    let p := s.cur.team.hole o.fmt.toNat
    need (!p.en || a + n ≤ 64 * p.slotsz) (trapAt .localAddr (BitVec.ofNat 64 a) n)
  else s.localOk a n

/-- Order 4. -/
def State.holeNamed (s : State) (o : LF) : Except Trap Unit :=
  need (!o.isPh || (s.cur.team.hole o.fmt.toNat).en) (trapOf .phState)

/-- Order 5 over buffer ranges, in order. -/
def State.checkAll (s : State) (rs : List (Word × Nat)) (rights : Nat) : Except Trap Unit :=
  rs.foldl (fun r x => match r with | .error t => .error t | .ok _ => s.check s.cur.cid x.1 x.2 rights) (.ok ())

/-- R79 over the ranges of one access, each with the rights it needs: each of its checks is made over every byte before the next one
(05 R79). -/
def State.checkOver (s : State) (rs : List (Word × Nat × Nat)) : Except Trap Unit :=
  let fails := rs.filterMap fun r => match s.check s.cur.cid r.1 r.2.1 r.2.2 with
    | .error t => some t
    | .ok _ => none
  match ([.memUnavailable, .bufBounds, .bufRights, .bufOwner] : List Cause).findSome? fun c => fails.find? fun t => t.cause == c with
  | some t => .error t
  | none => .ok ()

/-- Order 6 over buffer ranges, in order. -/
def State.translateAll (s : State) (rs : List (Word × Nat)) (write : Bool) : Except Miss (State × List Tlb) :=
  rs.foldl (fun r x => match r with
    | .error m => .error m
    | .ok y =>
      match y.1.translatePages s.memberAcc x.1 x.2 write with
      | .error m => .error m
      | .ok z => .ok (z.1, y.2 ++ z.2)) (.ok (s, []))

/-- A source with a line that cannot be read raises LOCAL_UE, and a record names the line (04 R72, 18 R312, R317); other lines in error
are rebuilt as they are read. -/
def State.readLocal (s : State) (a n : Nat) : Except Miss State :=
  match s.badLineIn a n with
  | some k => .error ⟨some (trapAt .localUe (BitVec.ofNat 64 a) n), s.postLocalUe k⟩
  | none => .ok (s.rebuild a n)

/-- A miss after checks that failed in a state. -/
def Trap.miss (t : Trap) (s : State) : Miss := ⟨some t, s⟩

/-- Two checks in order. -/
def thenCheck (a : Except Trap Unit) (b : Except Trap Unit) : Except Trap Unit :=
  match a with
  | .error t => .error t
  | .ok _ => b

/-- The range of a local word (12 R227). -/
structure LocalWord where
  len : Nat
  laddr : Nat
  pitch : Nat
  cols : Nat
  rows : Nat
  reserved : Bool

/-- The fields of a local word. -/
def localWord (v : Word) : LocalWord :=
  { len := (v.extractLsb' 32 32).toNat, laddr := (v.extractLsb' 0 32).toNat, pitch := (v.extractLsb' 48 16).toNat,
    cols := (v.extractLsb' 40 7).toNat, rows := (v.extractLsb' 32 7).toNat, reserved := v.getLsbD 47 || v.getLsbD 39 }

/-- `cpld` (12 R229, R231): the checks, and the moves. -/
def planLoad (o : LF) (s : State) : Except Miss (State × CopyPlan) :=
  let l := localWord (s.x (fieldReg o.a))
  let b := s.x (fieldReg o.b)
  let z := o.tr
  let ok1 := if z = 0 then 1 ≤ l.len
    else !l.reserved && 1 ≤ l.cols && l.cols ≤ 64 && 1 ≤ l.rows && l.rows ≤ 64 && l.pitch % z == 0 && l.cols * z ≤ l.pitch
  let size := if z = 0 then l.len else l.rows * l.cols * z
  let ranges := if z = 0 then [(b, l.len)]
    else (List.range l.rows).map fun r => (b + BitVec.ofNat 64 (r * l.pitch), l.cols * z)
  let aligned := thenCheck (need (z == 0 || l.laddr % z == 0) (trapAt .align (BitVec.ofNat 64 l.laddr) size))
    (need (z == 0 || brefOff b % z == 0) (trapAt .align b size))
  match thenCheck (need ok1 (trapOf .illegalOperand)) (thenCheck (s.destOk o l.laddr size) (thenCheck aligned
      (thenCheck (s.holeNamed o) (s.checkOver (ranges.map fun r => (r.1, r.2, rightR)))))) with
  | .error t => .error (t.miss s)
  | .ok _ =>
    match s.translateAll ranges false with
    | .error m => .error m
    | .ok (u, ps) =>
      .ok (u, { pages := ps, moves := fun base =>
        if z = 0 then [⟨.buf b, .loc (base + l.laddr), l.len⟩]
        else (List.range l.rows).flatMap fun r => (List.range l.cols).map fun c =>
          ⟨.buf (b + BitVec.ofNat 64 (r * l.pitch + c * z)), .loc (base + l.laddr + (c * l.rows + r) * z), z⟩ })

/-- `cpst`. -/
def planStore (o : LF) (s : State) : Except Miss (State × CopyPlan) :=
  let l := localWord (s.x (fieldReg o.a))
  let b := s.x (fieldReg o.b)
  match thenCheck (need (1 ≤ l.len) (trapOf .illegalOperand)) (thenCheck (s.localOk l.laddr l.len)
      (s.checkAll [(b, l.len)] rightW)) with
  | .error t => .error (t.miss s)
  | .ok _ =>
    match s.translateAll [(b, l.len)] true with
    | .error m => .error m
    | .ok (u, ps) =>
      match u.readLocal l.laddr l.len with
      | .error m => .error m
      | .ok u => .ok (u, { pages := ps, moves := fun _ => [⟨.loc l.laddr, .buf b, l.len⟩] })

/-- The row descriptor of `cpgat` and `cpsca` (12 R232). -/
structure RowDesc where
  base : Word
  loc : Nat
  list : Nat
  nrows : Nat
  rowsz : Nat
  reserved : Bool

/-- The row descriptor at a local address. -/
def State.rowDesc (s : State) (a : Nat) : RowDesc :=
  let n (k m : Nat) := leNat (s.localBytes (a + k) m)
  { base := BitVec.ofNat 64 (n 0 8), loc := n 8 4, list := n 12 4, nrows := n 16 4, rowsz := n 20 4, reserved := n 24 8 != 0 }

/-- The buffer rows of a descriptor, in order. -/
def State.rowRanges (s : State) (d : RowDesc) : List (Word × Nat) :=
  (List.range d.nrows).map fun i => (d.base + BitVec.ofNat 64 (leNat (s.localBytes (d.list + 4 * i) 4)), d.rowsz)

/-- `cpgat`, and `cpsca` where `scatter`. -/
def planRows (o : LF) (scatter : Bool) (s : State) : Except Miss (State × CopyPlan) :=
  let a := (s.x (fieldReg o.a)).toNat
  match s.localOk a 32 with
  | .error t => .error (t.miss s)
  | .ok _ =>
    let d := s.rowDesc a
    let total := d.nrows * d.rowsz
    let ok1 := !d.reserved && 1 ≤ d.nrows && d.nrows ≤ 65536 && 1 ≤ d.rowsz && d.rowsz ≤ 65536
    let local_ := thenCheck (s.localOk d.list (4 * d.nrows)) (if scatter then s.localOk d.loc total else s.destOk o d.loc total)
    let aligned := thenCheck (need (a % 32 == 0) (trapAt .align (BitVec.ofNat 64 a) 32))
      (need (d.list % 4 == 0) (trapAt .align (BitVec.ofNat 64 d.list) (4 * d.nrows)))
    match thenCheck (need ok1 (trapOf .illegalOperand)) (thenCheck local_ (thenCheck aligned (s.holeNamed o))) with
    | .error t => .error (t.miss s)
    | .ok _ =>
      match s.readLocal a 32 with
      | .error m => .error m
      | .ok u =>
        match u.readLocal d.list (4 * d.nrows) with
        | .error m => .error m
        | .ok u =>
          let rs := u.rowRanges d
          match u.checkAll rs (if scatter then rightW else rightR) with
          | .error t => .error (t.miss u)
          | .ok _ =>
            match u.translateAll rs scatter with
            | .error m => .error m
            | .ok (u, ps) =>
              match if scatter then u.readLocal d.loc total else .ok u with
              | .error m => .error m
              | .ok u =>
                .ok (u, { pages := ps, moves := fun base => rs.zipIdx.map fun ri =>
                  if scatter then ⟨.loc (d.loc + ri.2 * d.rowsz), .buf ri.1.1, d.rowsz⟩
                  else ⟨.buf ri.1.1, .loc (base + d.loc + ri.2 * d.rowsz), d.rowsz⟩ })

/-- `cploc`; in the pigeonhole form the destination is the slot at offset 0. -/
def planLocal (o : LF) (s : State) : Except Miss (State × CopyPlan) :=
  let l := localWord (s.x (fieldReg o.a))
  let dst := if o.isPh then 0 else (s.x (fieldReg o.b)).toNat
  match thenCheck (need (1 ≤ l.len && (o.isPh || !meets l.laddr l.len dst l.len)) (trapOf .illegalOperand))
      (thenCheck (s.localOk l.laddr l.len) (thenCheck (s.destOk o dst l.len) (s.holeNamed o))) with
  | .error t => .error (t.miss s)
  | .ok _ =>
    match s.readLocal l.laddr l.len with
    | .error m => .error m
    | .ok u => .ok (u, { pages := [], moves := fun base => [⟨.loc l.laddr, .loc (base + dst), l.len⟩] })

/-- `cprem`: both ranges in buffer memory, not overlapping (12 R233). -/
def planRemote (o : LF) (s : State) : Except Miss (State × CopyPlan) :=
  let a := s.x (fieldReg o.a)
  let b := s.x (fieldReg o.b)
  let n := (s.x (fieldReg o.d)).toNat
  let ok1 := 1 ≤ n && n < 2 ^ 32 && !meets (s.vaOf s.cur.cid a) n (s.vaOf s.cur.cid b) n
  match thenCheck (need ok1 (trapOf .illegalOperand)) (s.checkOver [(a, n, rightR), (b, n, rightW)]) with
  | .error t => .error (t.miss s)
  | .ok _ =>
    match s.translateAll [(a, n)] false with
    | .error m => .error m
    | .ok (u, ps) =>
      match u.translateAll [(b, n)] true with
      | .error m => .error m
      | .ok (u, qs) => .ok (u, { pages := ps ++ qs, moves := fun _ => [⟨.buf a, .buf b, n⟩] })

/-- Whether a move's two local sides overlap. -/
def Move.overlaps (m : Move) : Bool :=
  match m.src, m.dst with
  | .loc a, .loc b => meets a m.len b m.len
  | _, _ => false

/-- The counter of a copy issued by a member (05 R84). -/
def copyClass (w : Who) : Nat := if w = .st then 1 else 0

/-- The bref of a side in buffer memory. -/
def Place.bref (p : Place) : List Word :=
  match p with
  | .buf b => [b]
  | .loc _ => []

/-- The state after a copy issues: it draws its number, and runs on its own (12 R230). -/
def State.startCopy (s : State) (o : LF) (w : Who) (moves : List Move) (pages : List Tlb) (slot : Nat) (remote : Bool) : State × Nat :=
  let id := s.nextId
  let x := ({ s with nextId := id + 1 }).drawFor (copyClass w)
  let c : Copy := { id := id, task := s.cur.id, cid := s.cur.cid, vdie := s.cur.vdie, who := w, cls := copyClass w, num := x.2,
                    moves := moves, hole := if o.isPh then some o.fmt.toNat else none, slot := slot, auto := o.ap,
                    todo := moves.map fun m => (m, []), bad := [], remote := remote, spec := s.cur.spec, pages := pages,
                    descs := s.keepDescs s.cur.cid (moves.flatMap fun m => m.src.bref ++ m.dst.bref) }
  let u := { x.1 with copies := x.1.copies ++ [c] }
  ({ u with cur := { u.cur with donePm := if copyClass w = 1 then x.2 else u.cur.donePm } }, x.2)

/-- The issue of a copy whose checks passed: it waits for room and for the member's own copies; in the pigeonhole form it
reserves a slot, and an overlap with that slot is ILLEGAL_OPERAND (12 R230, R231, R234). -/
def issueCopy (o : LF) (w : Who) (remote : Bool) (p : CopyPlan) (s u : State) : Eff :=
  let n := o.fmt.toNat
  let h := s.cur.team.hole n
  if s.copyHeld w then .stay .interlock s
  else if o.isPh && h.free == 0 then .stay (.slot n) s
  else
    let ms := p.moves (if o.isPh then h.slotAddr h.tail else 0)
    if ms.any Move.overlaps then .trap (trapOf .illegalOperand) s
    else if ms.any fun m => s.moveHazard w m then .stay .hazard s
    else
      let u1 := if o.isPh then u.setHole n (h.reserve o.ap (some u.nextId)) else u
      let x := u1.startCopy o w ms p.pages h.tail remote
      issued o (copyClass w) x.2 x.1

/-- A copy: checked, then issued. -/
def copyOf (o : LF) (w : Who) (s : State) (plan : Except Miss (State × CopyPlan)) : Eff :=
  match plan with
  | .error m => m.eff
  | .ok (u, p) => issueCopy o w false p s u

/-- Whether the row descriptor at an address, or its offset list, is still written by a copy of the member (12 R234). -/
def State.rowsHazard (s : State) (w : Who) (a : Nat) : Bool :=
  s.localHazard w a 32 false || s.localHazard w (s.rowDesc a).list (4 * (s.rowDesc a).nrows) false

/-- `cpgat` and `cpsca`: the descriptor is read once no copy of the member still writes it (12 R232, R234). -/
def copyRows (o : LF) (w : Who) (scatter : Bool) (s : State) : Eff :=
  if s.rowsHazard w (s.x (fieldReg o.a)).toNat then .stay .hazard s else copyOf o w s (planRows o scatter s)

/-- `cprem`: stalled while the task is speculative; the source's dirty lines are written back before it reads (12 R233). -/
def copyRemote (o : LF) (w : Who) (s : State) : Eff :=
  if s.cur.spec then .stay .spec s
  else
    match planRemote o s with
    | .error m => m.eff
    | .ok (u, p) =>
      let a := s.x (fieldReg o.a)
      issueCopy o w true p s (u.wbRange s.cur.cluster s.cur.cid (s.vaOf s.cur.cid a) (s.x (fieldReg o.d)).toNat)

/-! ### Collectives (12 R235-R237) -/

/-- A collective descriptor (12 R235). -/
structure CollDesc where
  src : Word
  group : Word
  bytes : Nat
  nmemb : Nat
  rank : Nat
  tag : Nat
  root : Nat
  reserved : Bool

/-- The collective descriptor at a local address. -/
def State.collDesc (s : State) (a : Nat) : CollDesc :=
  let n (k m : Nat) := leNat (s.localBytes (a + k) m)
  { src := BitVec.ofNat 64 (n 0 8), group := BitVec.ofNat 64 (n 8 8), bytes := n 16 4, nmemb := n 20 2, rank := n 22 2,
    tag := n 24 4, root := n 28 2, reserved := n 30 34 != 0 }

/-- Its fields in range; variant 1 is `.bcast`. -/
def CollDesc.ok (d : CollDesc) (variant : Nat) : Bool :=
  !d.reserved && d.bytes % 64 == 0 && 64 ≤ d.bytes && d.bytes ≤ 16777216 && 2 ≤ d.nmemb && d.nmemb ≤ 4096 && d.rank < d.nmemb
    && (if variant = 1 then d.root < d.nmemb else d.root == 0)

/-- The sends of a member: receiver, source and destination (12 R236). -/
def CollDesc.sends (d : CollDesc) (variant : Nat) (bufs : List Word) : List (Nat × Word × Word) :=
  if variant = 1 ∧ d.rank ≠ d.root then []
  else bufs.zipIdx.map fun bj => match variant with
    | 0 => (bj.2, d.src, bj.1 + BitVec.ofNat 64 (d.rank * d.bytes))
    | 1 => (bj.2, d.src, bj.1)
    | _ => (bj.2, d.src + BitVec.ofNat 64 (bj.2 * d.bytes), bj.1 + BitVec.ofNat 64 (d.rank * d.bytes))

/-- A context's collective of a tag. -/
def State.coll? (s : State) (cid tag : Nat) : Option Coll := s.colls.find? fun c => c.cid == cid && c.tag == tag

/-- The state with a collective put in place. -/
def State.setColl (s : State) (c : Coll) : State :=
  { s with colls := c :: s.colls.filter fun k => !(k.cid == c.cid && k.tag == c.tag) }

/-- Arrivals a member expects (12 R236). -/
def Coll.expected (c : Coll) : Nat := if c.variant = 1 then 1 else c.nmemb

/-- Whether a member's number completes: its sends performed, and its arrivals counted (12 R237). -/
def Coll.memberDone (c : Coll) (rank : Nat) : Bool :=
  (c.sends.all fun x => x.sender != rank || x.done) && c.expected ≤ (c.counted.filter fun p => p.2 == rank).length

/-- Whether every member's number has completed, so that the TAG may be used anew (12 R237). -/
def Coll.over (c : Coll) : Bool := c.nmemb ≤ c.completed.length

/-- The numbers of the members that are complete, each an external operation of its task (20 R351). The entry of a collective that is
over is kept while a task that issued it may be run again (12 R238). -/
def State.settleColl (s : State) (c : Coll) : State :=
  let ready := c.issued.filter fun m => !c.completed.contains m.rank && c.memberDone m.rank
  let s1 := ready.foldl (fun (u : State) m => (u.completePm c.cid m.vdie 4 m.num).withTask m.task State.external) s
  let c1 := { c with completed := c.completed ++ (ready.map CollMember.rank).dedup }
  if c1.over && !(s1.liveTasks.any fun t => c1.issued.any fun m => m.task == t.id) then
    { s1 with colls := s1.colls.filter fun k => !(k.cid == c.cid && k.tag == c.tag) }
  else s1.setColl c1

/-- Whether the focused task's issue as a rank is the repeat of one that a discarded run of it made (12 R238). -/
def State.collRepeats (s : State) (c : Coll) (rank : Nat) : Bool :=
  !s.cur.collTags.contains c.tag && c.issued.any fun m => m.rank == rank && m.task == s.cur.id && m.run != s.cur.run

/-- The hub's verdict (12 R237, R238): whether a member may issue; a rank issues again only as the re-run of the same task. -/
def State.collAllowed (s : State) (d : CollDesc) (variant : Nat) : Bool :=
  match s.coll? s.cur.cid d.tag with
  | none => true
  | some c =>
    (c.over && !s.collRepeats c d.rank) || (c.nmemb == d.nmemb && c.variant == variant && c.root == d.root
      && (s.collRepeats c d.rank || c.issued.all fun m => m.rank != d.rank))

/-- The entry that an issue joins: the hub's, or a new one where there is none or the last use of the TAG is over. -/
def State.collEntry (s : State) (d : CollDesc) (variant : Nat) : Coll :=
  let new : Coll := ⟨s.cur.cid, d.tag, d.nmemb, variant, d.root, [], [], [], []⟩
  match s.coll? s.cur.cid d.tag with
  | none => new
  | some c => if c.over && !s.collRepeats c d.rank then new else c

/-- The state after a member's collective issues; its number completes at once where nothing of it is awaited (12 R237). -/
def State.startColl (s : State) (w : Who) (d : CollDesc) (variant : Nat) (sends : List (Nat × Word × Word)) (recv : Word)
    (ps : List Tlb) : State × Nat :=
  let x := s.drawFor 4
  let c := s.collEntry d variant
  let m : CollMember := ⟨d.rank, s.cur.vdie, x.2, s.cur.id, s.cur.run, w, d.src, recv⟩
  let new : List Send := sends.map fun t => ⟨d.rank, t.1, t.2.1, t.2.2, d.bytes, false, ps, s.keepDescs s.cur.cid [t.2.1, t.2.2]⟩
  let c1 := { c with issued := c.issued ++ [m], sends := c.sends ++ new, completed := c.completed.filter (· != d.rank) }
  let u := { x.1 with cur := { x.1.cur with collTags := x.1.cur.collTags ++ [d.tag] } }
  (u.settleColl c1, x.2)

/-- The brefs of GROUP. -/
def State.groupBufs (s : State) (d : CollDesc) (ps : List Tlb) : State × List Word :=
  let x := s.homeReads s.ownDie s.cur.cid (s.desc s.cur.cid d.group) ps (s.vaOf s.cur.cid d.group) (8 * d.nmemb)
  (x.1, wordsOf x.2.1 d.nmemb)

/-- `coll` whose descriptor was read: R79 over SRC, GROUP and, from the brefs of GROUP, the receive buffers; then their translations, the
hub's verdict, and the issue. GROUP is translated before the receive buffers are known (12 R229, R236). -/
def collIssue (o : LF) (w : Who) (d : CollDesc) (s : State) : Eff :=
  let v := o.fmt.toNat
  let srcLen := if v = 2 then d.nmemb * d.bytes else if v = 1 ∧ d.rank ≠ d.root then 0 else d.bytes
  match s.checkOver [(d.src, srcLen, rightR), (d.group, 8 * d.nmemb, rightR)] with
  | .error t => .trap t s
  | .ok _ =>
    match s.translateAll [(d.group, 8 * d.nmemb)] false with
    | .error m => m.eff
    | .ok (u, ps) =>
      if s.bufHazard w (s.vaOf s.cur.cid d.group) (8 * d.nmemb) false then .stay .hazard s
      else
        let g := u.groupBufs d ps
        let sends := d.sends v g.2
        let dst := sends.map fun t => (t.2.2, d.bytes)
        match g.1.checkOver (dst.map fun r => (r.1, r.2, rightW)) with
        | .error t => .trap t g.1
        | .ok _ =>
          match g.1.translateAll [(d.src, srcLen)] false with
          | .error m => m.eff
          | .ok (u, qs) =>
            match u.translateAll dst true with
            | .error m => m.eff
            | .ok (u, rs) =>
              if !s.collAllowed d v then .trap (trapOf .collMismatch) u
              else if s.tilesHeld w then .stay .interlock s
              else if sends.any fun t => s.moveHazard w ⟨.buf t.2.1, .buf t.2.2, d.bytes⟩ then .stay .hazard s
              else
                let x := u.startColl w d v sends (g.2.getD d.rank 0) (ps ++ qs ++ rs)
                issued o 4 x.2 x.1

/-- Whether the focused task stands on a die lent to its partition (21 R361). -/
def State.onLentDie (s : State) : Bool :=
  match s.cur.core with
  | none => false
  | some c =>
    match (s.die (c / 512)).loan with
    | some l => l.borrower == s.cur.part
    | none => false

/-- The save of a borrower at `coll`, never to be placed on a lent die again (21 R361). -/
def State.leaveLentDie (s : State) : State :=
  { s with cur := { s.cur with stop := some (.save 8), anchorOnly := true } }

/-- `coll` (12 R235-R237): stalled while the task is speculative; saved first on a lent die (21 R361); its descriptor is read once the
member's own copies into it have been performed (R234), and checked in the order of R229. -/
def collective (o : LF) (w : Who) (s : State) : Eff :=
  let a := (s.x (fieldReg o.a)).toNat
  if s.cur.spec then .stay .spec s
  else if s.onLentDie then .stay .interlock s.leaveLentDie
  else
    match s.localOk a 64 with
    | .error t => .trap t s
    | .ok _ =>
      if s.localHazard w a 64 false then .stay .hazard s else
      let d := s.collDesc a
      match thenCheck (need (d.ok o.fmt.toNat) (trapOf .illegalOperand)) (need (a % 64 == 0) (trapAt .align (BitVec.ofNat 64 a) 64)) with
      | .error t => .trap t s
      | .ok _ =>
        match s.readLocal a 64 with
        | .error m => m.eff
        | .ok u => collIssue o w d u

/-! ### Near-bank queries (12 R248, 07 R116-R119, R127) -/

/-- A query descriptor (07 R117). -/
structure QueryDesc where
  kref : Word
  vref : Word
  nkeys : Nat
  dim : Nat
  fmt : Nat
  rslog : Nat
  scale : BitVec 32
  reserved : Bool
  q : List Byte

/-- The query descriptor at a local address. -/
def State.queryDesc (s : State) (a : Nat) : QueryDesc :=
  let n (k m : Nat) := leNat (s.localBytes (a + k) m)
  { kref := BitVec.ofNat 64 (n 0 8), vref := BitVec.ofNat 64 (n 8 8), nkeys := n 16 4, dim := n 20 2, fmt := n 22 1, rslog := n 23 1,
    scale := BitVec.ofNat 32 (n 24 4), reserved := n 28 4 != 0, q := s.localBytes (a + 32) 512 }

/-- Check 3 of 07 R118. -/
def QueryDesc.ok (d : QueryDesc) : Bool :=
  !d.reserved && 1 ≤ d.nkeys && d.nkeys ≤ 65536 && 16 ≤ d.dim && d.dim ≤ 256 && d.dim % 16 == 0 && 2 ≤ d.fmt && d.fmt ≤ 4
    && 5 ≤ d.rslog && d.rslog ≤ 9 && d.scale.extractLsb' 23 8 != 255 && d.dim * queryElt d.fmt ≤ 2 ^ d.rslog

/-- RS. -/
def QueryDesc.rs (d : QueryDesc) : Nat := 2 ^ d.rslog

/-- The distinct engines of the key records from a page offset, ascending (07 R115, R118). -/
def keyEngines (koff rs nkeys : Nat) : List Nat :=
  let first := koff / 512
  let count := (koff + (nkeys - 1) * rs) / 512 - first + 1
  (List.range 256).filter fun e => (e + 256 - first % 256) % 256 < count

/-- The bytes of a result record (07 R118). -/
def QueryDesc.recordSize (d : QueryDesc) : Nat := 16 + 4 * d.dim

/-- Check 4. -/
def QueryDesc.holeFits (d : QueryDesc) (p : Hole) (e : Nat) : Bool := p.en && d.recordSize ≤ 64 * p.slotsz && e + 1 ≤ p.count

/-- The page of an address as it is translated for a member: by the entry of the cluster's or the die's TLB that serves it, or as the tables map it (19 R333). -/
def State.nbPage (s : State) (va : Nat) : Option Page :=
  let a := s.memberAcc
  let hit (cl : Option Nat) := s.tlbs.find? fun t => t.serves (s.cur.cluster / 32) cl a.cid va false
  match (hit a.cluster).orElse fun _ => hit none with
  | some t => some t.page
  | none =>
    match s.ctx? s.cur.cid with
    | none => none
    | some c =>
      match s.walk c.ptroot va with
      | .leaf e size frame => some ⟨va / size * size, size, frame / size * size, pteBit (s.pte e) 62, true, true, true, e⟩
      | _ => none

/-- Whether a page is a near-bank page of this package (07 R113). -/
def State.nbHere (s : State) (p : Page) : Bool := p.nb && p.size == 0x200000 && pkgOf p.pa == s.hub.pkgid.toNat

/-- Check 6 on addresses (07 R113, R116, R118): both buffers NB and LOCAL, both ranges in one aligned 2 MiB range, KREF a
multiple of RS and VREF a multiple of 131,072 bytes away. -/
def State.nbLayoutOk (s : State) (d : QueryDesc) : Bool :=
  let cid := s.cur.cid
  let k := s.vaOf cid d.kref
  let v := s.vaOf cid d.vref
  let n := d.nkeys * d.rs
  let one (b : Word) : Bool := (s.desc cid b).nb && (s.desc cid b).ilv == 0
  one d.kref && one d.vref && (k + n - 1) / 0x200000 == k / 0x200000 && v / 0x200000 == k / 0x200000
    && (v + n - 1) / 0x200000 == k / 0x200000 && k % d.rs == 0 && v % 131072 == k % 131072

/-- Checks 6 and 7 of 07 R118 at the memory port, on the translation made there: the frame of the page. -/
def State.nbPort (s : State) (d : QueryDesc) : Except Miss (State × Nat) :=
  let n := d.nkeys * d.rs
  let fin (u : State) (down : Option Trap) : Except Miss (State × Nat) :=
    match u.nbPage (s.vaOf s.cur.cid d.kref) with
    | none => .error (down.elim (missOf .nbLayout u) fun t => t.miss u)
    | some p =>
      if !(u.nbHere p && u.nbLayoutOk d) then .error (missOf .nbLayout u)
      else
        match down with
        | some t => .error (t.miss u)
        | none => .ok (u, p.pa)
  match s.translateAll [(d.kref, n), (d.vref, n)] false with
  | .ok (u, _) => fin u none
  | .error m =>
    match m.trap with
    | some t => if t.cause = .memUnavailable then fin m.state (some t) else .error m
    | none => .error m

/-- The slots a query reserves. -/
def Hole.reserveMany (p : Hole) (op n : Nat) : Hole :=
  match n with
  | 0 => p
  | n + 1 => (p.reserve true (some op)).reserveMany op n

/-- The state after a query issues (07 R119). -/
def State.startQuery (s : State) (w : Who) (d : QueryDesc) (hole koff voff frame : Nat) (es : List Nat) : State × Nat :=
  let p := s.cur.team.hole hole
  let id := s.nextId
  let x := ({ s.setHole hole (p.reserveMany id (es.length + 1)) with nextId := id + 1 }).drawFor 3
  let q : Query := { id := id, task := s.cur.id, cid := s.cur.cid, vdie := s.cur.vdie, who := w, num := x.2, hole := hole,
                     slots := (List.range (es.length + 1)).map fun i => (p.tail + i) % p.count, engines := es, kref := d.kref,
                     vref := d.vref, nkeys := d.nkeys, dim := d.dim, fmt := d.fmt, rslog := d.rslog, scale := d.scale, q := d.q,
                     frame := frame, koff := koff, voff := voff, accepted := false, cancelled := false, records := [], descs := s.keepDescs s.cur.cid [d.kref, d.vref] }
  ({ x.1 with queries := x.1.queries ++ [q] }, x.2)

/-- `nbq` whose descriptor was read: checks 3 to 7, then its slots, its number and the query. -/
def queryIssue (o : LF) (w : Who) (d : QueryDesc) (s : State) : Eff :=
  let h := o.b.toNat
  let p := s.cur.team.hole h
  let koff := s.vaOf s.cur.cid d.kref % 0x200000
  let es := keyEngines koff d.rs d.nkeys
  let n := d.nkeys * d.rs
  match thenCheck (need d.ok (trapOf .illegalOperand)) (thenCheck (need (d.holeFits p es.length) (trapOf .phState))
      (s.checkOver [(d.kref, n, rightN), (d.vref, n, rightN)])) with
  | .error t => .trap t s
  | .ok _ =>
    match s.nbPort d with
    | .error m => m.eff
    | .ok (u, frame) =>
      let va (b : Word) := s.vaOf s.cur.cid b
      if s.tilesHeld w then .stay .interlock s
      else if p.free < es.length + 1 then .stay (.slot h) s
      else
        let x := u.startQuery w d h koff (va d.vref % 0x200000) frame es
        issued o 3 x.2 x.1

/-- `nbq` (07 R118, R119): stalled while the task is speculative. A line of the descriptor that cannot be read raises LOCAL_UE between
checks 2 and 3 (DESIGN CHOICE, log 73). -/
def bankQuery (o : LF) (w : Who) (s : State) : Eff :=
  let a := (s.x (fieldReg o.a)).toNat
  if s.cur.spec then .stay .spec s
  else
    match thenCheck (s.localOk a 544) (need (a % 32 == 0) (trapAt .align (BitVec.ofNat 64 a) 544)) with
    | .error t => .trap t s
    | .ok _ =>
      if s.localHazard w a 544 false then .stay .hazard s else
      match s.readLocal a 544 with
      | .error m => m.eff
      | .ok u => queryIssue o w (s.queryDesc a) u

/-- `nbcan` (07 R127): a query of the virtual die that is not complete is cancelled. -/
def bankCancel (o : LF) (s : State) : Eff :=
  let n := (s.x (fieldReg o.a)).toNat
  .done ({ s with queries := s.queries.map fun q =>
    if q.cid = s.cur.cid ∧ q.vdie = s.cur.vdie ∧ q.num = n then { q with cancelled := true } else q } : State).external

end Sys2Proof.Machine
end

