-- ==== Sys2Proof/Machine/Sched.lean ====
section
/-! DEFINITION. The sorters: who may start where, stamps, the order of the ready queues, policies, rollback, killing after a
failed save, loans and recalls (02 R33, 20 R342-R355, 21 R359-R363). -/

namespace Sys2Proof.Machine

/-- Package time of some microseconds: units of 1/16 ns (01 R17). -/
def microseconds (n : Nat) : Nat := 16000 * n

/-! ### Ready queues (02 R33) -/

/-- Whether a task stands in its sorter's ready queues: READY, rolled back, or saved for another reason than a swap or a halt. -/
def Task.queued (t : Task) : Bool :=
  match t.state with
  | .ready => true
  | .rolledBack => !t.halted && t.reason != 7
  | .saved => !t.halted && t.reason != 2 && t.reason != 5 && t.reason != 7
  | _ => false

/-- Whether a task precedes another in one queue: effective ready time, then one that has run, then (z, y, x). -/
def Task.before (a b : Task) : Bool :=
  a.readyAt < b.readyAt || (a.readyAt == b.readyAt && ((a.hasRun && !b.hasRun) || (a.hasRun == b.hasRun &&
    (a.tz < b.tz || (a.tz == b.tz && (a.ty < b.ty || (a.ty == b.ty && a.tx < b.tx)))))))

/-- The better of two candidates for the head: the higher effective priority, then the earlier in the queue. -/
def headOf (a b : Task) : Task :=
  if a.effPrio < b.effPrio then b else if b.effPrio < a.effPrio then a else if b.before a then b else a

/-- The head of the highest non-empty queue of a die's sorter. -/
def State.queueHead (s : State) (die : Nat) : Option Task :=
  match s.liveTasks.filter fun t => t.queued && t.die == die with
  | [] => none
  | t :: rest => some (rest.foldl headOf t)

/-! ### Stamps and cores (20 R342, R344, 21 R360, R361) -/

/-- The compute die of a core. -/
def coreDie (c : CoreId) : Nat := c / 512

/-- A task's demand. -/
def Task.demand (t : Task) : Nat := max 1 t.stamps

/-- Whether some task occupies a core. -/
def State.occupied (s : State) (c : CoreId) : Bool := s.allTasks.any fun t => t.core == some c

/-- The reservations that hold against a task: those of the other tasks that wait in a queue. -/
def State.reservedAgainst (s : State) (t : Task) : List (CoreId × Nat) :=
  (s.liveTasks.filter fun u => u.queued && u.id != t.id).flatMap Task.reserves

/-- The stamps of a die that are not free for a task. -/
def State.stampsTaken (s : State) (t : Task) (die : Nat) : Nat :=
  let on := s.allTasks.filter fun u => match u.core with
    | some c => coreDie c == die
    | none => false
  let held := (s.reservedAgainst t).filter fun r => coreDie r.1 == die && !s.occupied r.1
  on.foldl (fun n u => n + u.demand) 0 + held.foldl (fun n r => n + r.2) 0

/-- Whether a task's stamps are free on a die. -/
def State.stampsFree (s : State) (t : Task) (die : Nat) : Bool := s.stampsTaken t die + t.demand ≤ (s.die die).pool

/-- Whether a loan lets a task be placed on the lent die (21 R360, R361): the anchor's, not recalled, and a policy that can end
in time. -/
def Loan.admits (l : Loan) (t : Task) : Bool :=
  l.borrower == t.part && l.anchor == t.vdie && l.recalledAt.isNone && !t.anchorOnly &&
    (t.policy.getLsbD 3 || t.policy.getLsbD 2 || (t.policy.getLsbD 1 && 140 ≤ l.deadline)
      || (t.policy.getLsbD 0 && 1024 * t.est ≤ microseconds (l.deadline - 20)))

/-- Whether a die serves a task, its clusters' key slots being of its partition: its own while it is not lent, or a lent one (21 R360). -/
def State.dieServes (s : State) (t : Task) (n : Nat) : Bool :=
  let d := s.die n
  d.present && !d.inReset && !d.orphan &&
    match d.loan with
    | none => n == t.die && d.keys.isNone
    | some l => l.admits t && d.keys == some t.part

/-- The cluster to which a task with an image goes back: the one in which its team last ran, unless that lies on a die from which its
virtual die was rebound, or on a lent die that no longer takes it (02 R33, 04 R77, 21 R358, R361, R362). -/
def State.homeCluster (s : State) (t : Task) : Option Nat :=
  if !t.image then none
  else
    match t.lastCluster with
    | none => none
    | some k =>
      if k / 32 = t.die then some k
      else
        match (s.die (k / 32)).loan with
        | some l => if l.admits t then some k else none
        | none => none

/-- Whether a task may start on a core: it is free and not reserved for another, its die serves the task, and a task with an
image stays in its cluster (02 R33, 04 R77). -/
def State.mayStartOn (s : State) (t : Task) (c : CoreId) : Bool :=
  c < 4096 && !s.occupied c && !((s.reservedAgainst t).any fun r => r.1 == c) && s.dieServes t (coreDie c)
    && (s.homeCluster t).all fun k => k == c / 16

/-- Whether a task could start now on some core. -/
def State.startable (s : State) (t : Task) : Bool :=
  (List.range 8).any fun d => s.dieServes t d && s.stampsFree t d &&
    (List.range 512).any fun k => s.mayStartOn t (512 * d + k)

/-! ### Rollback (20 R350-R352) -/

/-- An undo entry applied: only bytes the task wrote are restored (20 R352 step 3). One of a proof store goes back into the entry, whether or
not the task has committed since (DESIGN CHOICE, log 95). -/
def State.undo (s : State) (e : LogEntry) : State :=
  match e with
  | .clus line old mask => { s with clus := putMasked s.clus (64 * line) old mask }
  | .proof line old =>
    let t := { s.cur with proof := s.cur.proof.filter fun l => l.line != line }
    { s with cur := match old with
        | some l => t.putProof l
        | none => t }
  | .buf line b old mask home =>
    let a := s.memberAcc
    let d := s.desc a.cid b
    match s.translate a d (64 * line) true with
    | .error m => m.state
    | .ok (u, p) =>
      if home then u.copyLine (some u.cur.cluster) a d p b (64 * line) old mask
      else u.cacheLine u.cur.cluster a d p b (64 * line) old mask

/-- Whether a task has an open collective (12 R237, R238). -/
def State.openColl (s : State) (id : Nat) : Bool :=
  s.colls.any fun c => c.issued.any fun m => m.task == id && !c.completed.contains m.rank

/-- Whether a member stands inside an external operation that is not complete (20 R351, 18 R314). -/
def Member.externalOpen (m : Member) : Bool :=
  m.svc.isSome || match m.wait with
    | some (.acq _ _ _) => true
    | some (.twait _ _ _ _ _) => true
    | some (.reservePool _) => true
    | _ => false

/-- Whether a task is rollback-eligible (20 R351; 06 R112 for a speculative one; 18 R314 while a request is outstanding). -/
def State.rollbackable (s : State) (t : Task) : Bool :=
  t.ckpt.isSome && !t.extSince && !(s.copies.any fun c => c.task == t.id && c.remote) && !s.openColl t.id
    && !t.team.seq.externalOpen && !t.team.ld.externalOpen && !t.team.st.externalOpen

/-- A checkpoint of the focused task as it stands (20 R349). -/
def State.checkpointHere (s : State) : State :=
  { s with cur := { s.cur with ckpt := some s.cur.team, log := [], extSince := false, ckptDue := false, ckptAt := s.hub.time } }

/-- Whether a speculative task's checkpoint came after its speculative start (06 R112). -/
def Task.ckptInSpec (t : Task) : Bool := !t.spec || t.specAt < t.ckptAt

/-- The focused task's copies and queries stopped; their numbers complete as if they had completed (20 R352 step 2). -/
def State.stopEngines (s : State) : State :=
  let id := s.cur.id
  let cs := s.copies.filter fun c => c.task == id
  let qs := s.queries.filter fun q => q.task == id
  let s1 := { s with copies := s.copies.filter (fun c => c.task != id), queries := s.queries.filter fun q => q.task != id }
  if s.cur.spec then s1
  else
    let s2 := cs.foldl (fun (u : State) c => u.completePm c.cid c.vdie c.cls c.num) s1
    qs.foldl (fun (u : State) q => u.completePm q.cid q.vdie 3 q.num) s2

/-- The pm.mx numbers drawn since the checkpoint complete (20 R352 step 2); those of a speculative task pass only at its commit or
squash (05 R84). -/
def State.dropMx (s : State) (snap : Team) : State :=
  if s.cur.spec then s else
  let kept := snap.landings.filterMap fun e => e.mx
  let now := s.cur.team.landings.filterMap fun e => e.mx
  (now.filter fun n => !kept.contains n).foldl (fun (u : State) n => u.completePm s.cur.cid s.cur.vdie 2 n) s

/-- ROLLBACK of the focused task (20 R352): operations stopped, logs undone newest first, the snapshot reinstated, saved. A parked or held
task runs on from its checkpoint, and a held fault is gone (06 R110). -/
def State.rollback (s : State) (reason : Nat) : State :=
  match s.cur.ckpt with
  | none => s
  | some snap =>
    let s1 := s.stopEngines.dropMx snap
    let s2 := s1.cur.log.reverse.foldl State.undo s1
    let s3 := { s2 with cur := { s2.cur with team := snap, log := [], stop := none, parked := false, held := none } }
    let s4 := (s3.writeImage reason .rolledBack).releaseCore
    let s5 := { s4 with cur := { s4.cur with readyAt := s4.requeueKey } }
    s5.putState .rolledBack s5.cur.spec

/-! ### Killing after a failed save, recall or reset (20 R354, R355, 21 R363) -/

/-- A task none of whose slots is on a proof. -/
def Task.offProof (t : Task) : Task := { t with slot0 := 0, slot1 := 0, assay0 := .idle, assay1 := .idle }

/-- The focused task FAULTED with HANG and no image: its team is discarded and its scratch state zeroed; a record is posted. -/
def State.killHang (s : State) (detail : Word) : State :=
  let t := s.cur
  let r : FaultRec := ⟨Cause.hang.code, .seq, 0, detail, 0⟩
  let s1 := s.dropNumbers.discardTeam
  let s2 := { s1 with cur := { (if t.spec then s1.cur.offProof else s1.cur) with proof := [], proofFull := false, fault := r } }
  (s2.putState .faulted false).postFault t r

/-- Whether every member of a team has ended. -/
def Task.allEnded (t : Task) : Bool := t.team.seq.ended && t.team.ld.ended && t.team.st.ended

/-- A task that a reset die or a missed deadline takes off its core: READY where its POLICY allows KILL, which squashes a speculative one,
and killed otherwise. One whose last
`tend` has completed only leaves the core, and becomes DONE (18 R309, 21 R363). -/
def State.takeOff (s : State) (detail : Word) : State :=
  if s.cur.core.isNone then s
  else if s.cur.allEnded then s.releaseCore
  else if s.cur.policy.getLsbD 3 then s.kill
  else s.killHang detail

/-! ### Policies (20 R345, R346) -/

/-- The four policies. -/
inductive Policy where
  | drain | save | rollback | kill
deriving DecidableEq, Repr

/-- Package time of a task's run to date: what it ran before, and since it took its core. -/
def State.ran (s : State) (t : Task) : Nat := t.runTime + (if t.core.isSome then s.hub.time - t.startedAt else 0)

/-- The remaining estimate. -/
def State.remaining (s : State) (t : Task) : Nat := 1024 * t.est - s.ran t

/-- Whether a policy is allowed by a task's POLICY. -/
def Policy.allowed (p : Policy) (t : Task) : Bool :=
  match p with
  | .drain => t.policy.getLsbD 0
  | .save => t.policy.getLsbD 1
  | .rollback => t.policy.getLsbD 2
  | .kill => t.policy.getLsbD 3

/-- Whether a policy is eligible, DRAIN within a bound of package time. -/
def Policy.eligible (p : Policy) (s : State) (t : Task) (drain : Option Nat) : Bool :=
  match p with
  | .drain => match drain with
    | some n => s.remaining t ≤ n
    | none => false
  | .rollback => s.rollbackable t
  | _ => true

/-- The order of 20 R345. -/
def policyOrder (urgent : Bool) : List Policy :=
  if urgent then [.kill, .rollback, .save, .drain] else [.drain, .save, .rollback, .kill]

/-- The policy for a victim, if any; 06 R112 decides in the place of ROLLBACK for a speculative one. -/
def State.choose (s : State) (t : Task) (urgent : Bool) (drain : Option Nat) : Option Policy :=
  match (policyOrder urgent).find? fun p => p.allowed t && p.eligible s t drain with
  | some .rollback => some (if t.ckptInSpec then .rollback else if t.policy.getLsbD 3 then .kill else .save)
  | r => r

/-- A policy applied to the focused task, with the REASON of its image (20 R346). -/
def State.applyPolicy (s : State) (p : Policy) (reason : Nat) : State :=
  match p with
  | .drain => { s with cur := { s.cur with draining := true, preemptAt := s.hub.time } }
  | .save => if s.cur.stop.isSome then s else { s with cur := { s.cur with stop := some (.save reason), preemptAt := s.hub.time } }
  | .rollback => s.rollback (if reason = 1 then 3 else reason)
  | .kill => s.kill

/-! ### Saves -/

/-- HALT about the focused task, to the debug queue, with the next instruction of its lowest-numbered member that has not ended
(18 R311, R319). -/
def State.postHalt (s : State) : State :=
  let w := (([.seq, .ld, .st] : List Who).find? fun w => !(s.member w).ended).getD .seq
  let f : Word := BitVec.ofNat 64 (w.num * 2 ^ 16 + (s.member w).pc * 2 ^ 18)
  (s.post s.cur.cid 2 (s.taskRecord s.cur 9 0 f (s.cur.members none) 0 0)).1

/-- The focused task's save finished once nothing of it is in flight (20 R346, R348): the image, SAVED, the core released. -/
def State.finishSave (s : State) (reason : Nat) : State :=
  let s1 := (s.writeImage reason .saved).releaseCore
  let s2 := { s1 with cur := { s1.cur with readyAt := s1.requeueKey, swappedAt := s1.hub.time, reason := reason,
                                           halted := s1.cur.halted || reason == 5 } }
  let s3 := s2.putState .saved s2.cur.spec
  if reason = 5 then s3.postHalt else s3

/-! ### Recalls (21 R362) -/

/-- The borrower's tasks that occupy cores of a die. -/
def State.borrowers (s : State) (die : Nat) (part : Nat) : List Nat :=
  (s.allTasks.filter fun t => t.part == part && match t.core with
    | some c => coreDie c == die
    | none => false).map Task.id

/-- The member states of some tasks. -/
def State.membersOn (s : State) (ids : List Nat) : List (Nat × Word) :=
  (s.allTasks.filter fun t => ids.contains t.id).map fun t => (t.id, s.hangDetail t)

/-- DETAIL1 of a task: its member states as they were noted, or as they stand where it had none noted. -/
def State.detailIn (s : State) (ms : List (Nat × Word)) (t : Task) : Word :=
  match ms.find? fun m => m.1 == t.id with
  | some m => m.2
  | none => s.hangDetail t

/-- Whether a task is past stopping: it has trapped, or its last `tend` has completed (18 R309), or it stands on the core for one step of
a debugger, which ends by itself (18 R320). -/
def Task.settling (t : Task) : Bool :=
  t.stepping.isSome || t.allEnded || match t.stop with
    | some (.trap _) => true
    | some (.save _) => false
    | none => false

/-- What a recall does to the focused borrower task, by the deadline `d` of package time; a task that has trapped or ended first becomes
FAULTED or DONE (21 R363). -/
def State.recallTask (s : State) (d : Nat) : State :=
  let s0 := { s with cur := { s.cur with anchorOnly := true } }
  if s.cur.core.isNone || s.cur.settling then s0
  else if s.cur.spec then s0.squash
  else
    match s0.choose s0.cur true (some (d - s0.hub.time)) with
    | some p => s0.applyPolicy p 8
    | none => s0

/-- A recall of a lent die starts (21 R362). -/
def State.startRecall (s : State) (die : Nat) : State :=
  match (s.die die).loan with
  | none => s
  | some l =>
    if l.recalledAt.isSome then s
    else
      let s1 := s.setDie die { s.die die with loan := some { l with recalledAt := some s.hub.time, members := s.membersOn (s.borrowers die l.borrower) } }
      let by_ := s.hub.time + microseconds (l.deadline - 20)
      (s1.borrowers die l.borrower).foldl (fun u id => u.withTask id fun v => v.recallTask by_) s1

/-- The tasks that are READY and were not before. -/
def State.newlyReady (s : State) (before : State) : List Nat :=
  (s.liveTasks.filter fun t => t.state == .ready && match before.task? t.id with
    | some u => u.state != .ready
    | none => true).map Task.id

/-- Tasks that became READY: one of a lender for its lent die starts an automatic recall (21 R362). -/
def State.readied (s : State) (ids : List Nat) : State :=
  ids.foldl (fun u id =>
    match u.task? id with
    | none => u
    | some t =>
      match (u.die t.die).loan with
      | some l => if l.automatic && l.lender == t.part && t.state == .ready then u.startRecall t.die else u
      | none => u) s

/-- A state with the automatic recalls that what became READY since an earlier one starts (21 R362). -/
def State.noted (s before : State) : State := s.readied (s.newlyReady before)

end Sys2Proof.Machine
end

