-- ==== Sys2Proof/Machine/TaskOps.lean ====
section
/-! DEFINITION. What the task, launch, speculation and tenant security instructions do (13, 02 R20-R27, 06 R98-R101). -/

namespace Sys2Proof.Machine

/-! ### Kernel descriptors (02 R22, R23) -/

/-- A kernel descriptor. -/
structure Kernel where
  version : Nat
  nlevels : Nat
  stamps : Nat
  vframe : Nat
  seqCode : Word
  ldcCode : Word
  stcCode : Word
  seqLen : Nat
  ldcLen : Nat
  stcLen : Nat
  phcfg : Word
  prio : Nat
  policy : Nat
  spill : Nat
  est : Nat
  /-- Trip, kind, axis and reserved half-word of each level. -/
  levels : List (Nat × Nat × Nat × Nat)
  reserved : Bool
deriving DecidableEq, Repr

/-- The descriptor of 128 bytes. -/
def parseKernel (bs : List Byte) : Kernel :=
  let n (o k : Nat) := leNat ((bs.drop o).take k)
  let w (o : Nat) : Word := BitVec.ofNat 64 (n o 8)
  { version := n 0 2, nlevels := n 2 1, stamps := n 4 2, vframe := n 6 2, seqCode := w 8, ldcCode := w 16, stcCode := w 24,
    seqLen := n 32 4, ldcLen := n 36 2, stcLen := n 38 2, phcfg := w 40, prio := n 48 1, policy := n 49 1, spill := n 50 2,
    est := n 52 4, levels := (List.range 6).map fun i => (n (64 + 8 * i) 4, n (68 + 8 * i) 1, n (69 + 8 * i) 1, n (70 + 8 * i) 2),
    reserved := n 3 1 != 0 || n 56 8 != 0 || n 112 16 != 0 }

/-- The levels below NLEVELS. -/
def Kernel.used (k : Kernel) : List (Nat × Nat × Nat × Nat) := k.levels.take k.nlevels

/-- Check 2 of 02 R23. -/
def Kernel.check2 (k : Kernel) : Bool := k.version == 1 && !k.reserved && k.used.all fun l => l.2.2.2 == 0

/-- The code images and their lengths. -/
def Kernel.images (k : Kernel) : List (Word × Nat) := [(k.seqCode, k.seqLen), (k.ldcCode, k.ldcLen), (k.stcCode, k.stcLen)]

/-- A code length in its range. -/
def codeLenOk (n max : Nat) : Bool := 4 ≤ n && n ≤ max && n % 4 == 0

/-- Whether a check passes. -/
def State.passes (s : State) (cid : Nat) (b : Word) (len rights : Nat) : Bool :=
  match s.check cid b len rights with
  | .ok _ => true
  | .error _ => false

/-- Check 5 of 02 R23. -/
def State.kernelCheck5 (s : State) (cid : Nat) (k : Kernel) : Bool :=
  codeLenOk k.seqLen 65536 && codeLenOk k.ldcLen 32768 && codeLenOk k.stcLen 32768
    && k.images.all fun c => s.passes cid c.1 c.2 rightR

/-! ### Task control blocks (02 R27) -/

/-- The fields of a TCB. -/
structure Tcb where
  state : Nat
  depCount : Nat
  succCount : Nat
  succ : Word
  code : Word
  args : Word
  tx : Nat
  ty : Nat
  tz : Nat
  vdie : Nat
  prio : Nat
  policy : Nat
  stamps : Nat
  est : Nat
  specIn : BitVec 32
  predOut : BitVec 32
  tol : Word
  hist : Word
  vframe : Nat
  spill : Nat
  phcfg : Word
  reserved : Bool
deriving DecidableEq, Repr

/-- The TCB of 128 bytes. -/
def parseTcb (bs : List Byte) : Tcb :=
  let n (o k : Nat) := leNat ((bs.drop o).take k)
  let w (o : Nat) : Word := BitVec.ofNat 64 (n o 8)
  { state := n 0 4 % 32, depCount := n 4 2, succCount := n 6 2, succ := w 8, code := w 16, args := w 24, tx := n 32 2,
    ty := n 34 2, tz := n 36 2, vdie := n 38 2, prio := n 40 1, policy := n 41 1, stamps := n 42 2, est := n 44 4,
    specIn := BitVec.ofNat 32 (n 56 4), predOut := BitVec.ofNat 32 (n 60 4), tol := w 64, hist := w 72, vframe := n 80 2,
    spill := n 82 2, phcfg := w 88, reserved := n 0 4 / 32 != 0 || n 84 4 != 0 || n 104 24 != 0 }

/-- The virtual dies of a context. -/
def State.vdies (s : State) (cid : Nat) : List Nat :=
  match s.ctx? cid with
  | some c => c.vdies
  | none => []

/-- Check 3 of 13 R250. -/
def State.tcbOk (s : State) (cid : Nat) (t : Tcb) : Bool :=
  let k := parseKernel (s.devRead s.sorterAcc t.code 128)
  !t.reserved && t.prio ≤ 15 && 1 ≤ t.policy && t.policy ≤ 15 && (t.vdie < (s.vdies cid).length || t.vdie == 0xFFFF)
    && t.vframe % 32 == 0 && 32 ≤ t.vframe && t.vframe ≤ 2048 && t.spill ≤ 256 && t.stamps ≤ 1360
    && s.passes cid t.succ (8 * t.succCount) rightR && s.passes cid t.code 128 rightR && k.check2 && s.kernelCheck5 cid k

/-! ### Speculation declarations (06 R98-R101) -/

/-- A history record (06 R98). -/
structure Hist where
  versions : Nat
  fmt : Nat
  newest : Nat
  elems : Nat
  tile : Word
  slot0 : Word
  slot1 : Word
  reserved : Bool
deriving DecidableEq, Repr

/-- The history record of 64 bytes. -/
def parseHist (bs : List Byte) : Hist :=
  let n (o k : Nat) := leNat ((bs.drop o).take k)
  let w (o : Nat) : Word := BitVec.ofNat 64 (n o 8)
  { versions := n 0 4, fmt := n 4 1, newest := n 5 1, elems := n 8 4, tile := w 16, slot0 := w 24, slot1 := w 32,
    reserved := n 6 2 != 0 || n 12 4 != 0 || n 40 24 != 0 }

/-- Bytes of an element of a history record's format. -/
def Hist.elt (h : Hist) : Nat := if h.fmt = 0 then 4 else 2

/-- Bytes of the tile. -/
def Hist.size (h : Hist) : Nat := h.elems * h.elt

/-- The slot of version a, and of version b. -/
def Hist.slotA (h : Hist) : Word := if h.newest = 0 then h.slot0 else h.slot1
/-- The other slot. -/
def Hist.slotB (h : Hist) : Word := if h.newest = 0 then h.slot1 else h.slot0

/-- Whether a record keeps 06 R98. -/
def Hist.ok (h : Hist) : Bool := !h.reserved && h.fmt ≤ 2 && h.newest ≤ 1 && 1 ≤ h.elems && h.elems ≤ 16384

/-- The history record a bref names, read at its home. -/
def State.hist (s : State) (cid : Nat) (b : Word) : Hist := parseHist (s.devRead { s.sorterAcc with cid := cid } b 64)

/-- Whether a history record at a bref keeps 06 R98: aligned to 64 bytes, its fields in range. -/
def Hist.kept (h : Hist) (b : Word) : Bool := h.ok && brefOff b % 64 == 0

/-- Whether a history record at a bref and its tile and slots pass (06 R98, R101). -/
def State.histOk (s : State) (cid : Nat) (b : Word) (h : Hist) : Bool :=
  h.kept b && [h.tile, h.slot0, h.slot1].all fun t => s.passes cid t h.size (rightR ||| rightW)

/-- A slot declaration of SPEC_IN (06 R100). -/
def slotDecl (v : BitVec 32) (i : Nat) : BitVec 16 := v.extractLsb' (16 * i) 16

/-- MODE of a declaration. -/
def declMode (d : BitVec 16) : Nat := (d.extractLsb' 1 2).toNat

/-- A tolerance record (06 R100). -/
structure Tol where
  hist : Word
  metric : Nat
  fmt : Nat
  atol : Nat
  rtol : Nat
  reserved : Bool
deriving DecidableEq, Repr

/-- The tolerance record of a slot. -/
def State.tolOf (s : State) (cid : Nat) (tol : Word) (i : Nat) : Tol :=
  let bs := s.devRead { s.sorterAcc with cid := cid } (tol + BitVec.ofNat 64 (32 * i)) 32
  let n (o k : Nat) := leNat ((bs.drop o).take k)
  { hist := BitVec.ofNat 64 (n 0 8), metric := n 8 1, fmt := n 9 1, atol := n 16 4, rtol := n 20 4,
    reserved := n 10 2 != 0 || n 12 4 != 0 || n 24 8 != 0 }

/-- A tolerance that is a finite number of at least zero. -/
def tolValueOk (c : Nat) : Bool := c / 0x800000 % 256 != 255 && (c < 0x80000000 || c == 0x80000000)

/-- Whether an enabled slot's declaration is valid (06 R101). -/
def State.slotOk (s : State) (cid : Nat) (t : Tcb) (i : Nat) : Bool :=
  let d := slotDecl t.specIn i
  let r := s.tolOf cid t.tol i
  let h := s.hist cid r.hist
  d.toNat < 8 && s.passes cid t.tol 64 rightR && !r.reserved && r.metric ≤ 2 && s.passes cid r.hist 64 rightR
    && r.fmt == h.fmt && tolValueOk r.atol && tolValueOk r.rtol && s.histOk cid r.hist h

/-- Whether another live task of the context claims a history record as its producer (06 R100). -/
def State.claimed (s : State) (cid : Nat) (hist : Word) : Bool :=
  s.liveTasks.any fun u => u.cid == cid && u.tcb != 0 && u.predOut.getLsbD 0 && u.hist == hist

/-- Whether PRED_OUT is valid: reserved bits zero; with EN, a history record no other producer claims (06 R101). -/
def State.predOk (s : State) (cid : Nat) (t : Tcb) : Bool :=
  t.predOut.toNat / 2 == 0 && (!t.predOut.getLsbD 0 ||
    (t.hist != 0 && s.passes cid t.hist 64 rightR && (s.hist cid t.hist).kept t.hist && !s.claimed cid t.hist))

/-- SPEC_DECL for a task's declaration (18 R312). -/
def State.postSpecDecl (s : State) (t : Task) (slot when_ : Nat) : State :=
  (s.post t.cid 0 (s.taskRecord t 2 0 0 (t.members none) (BitVec.ofNat 64 slot) (BitVec.ofNat 64 when_))).1

/-! ### Launches (02 R20-R24, R35) -/

/-- A launch of a context. -/
def State.launch? (s : State) (cid id : Nat) : Option Launch := s.launches.find? fun l => l.cid == cid && l.id == id

/-- The state with a launch replaced. -/
def State.setLaunch (s : State) (l : Launch) : State :=
  { s with launches := s.launches.map fun k => if k.cid = l.cid ∧ k.id = l.id then l else k }

/-- A queue of a partition. -/
def Part.queue (p : Part) (q : Nat) : Option Queue := (p.queues.find? fun kv => kv.1 == q).map (·.2)

/-- A partition with a queue replaced. -/
def Part.setQueue (p : Part) (q : Nat) (v : Queue) : Part :=
  { p with queues := (q, v) :: p.queues.filter fun kv => kv.1 != q }

/-- A queue as its descriptor first names it: empty at a segment, and disabled; the counts of its window's status register go on
(24 R396; DESIGN CHOICE, log 51). -/
def Queue.fresh (cid : Nat) (seg : Word) (accepted refused : Nat) : Queue :=
  { headSeg := seg, tailSeg := seg, head := 0, tail := 0, cid := cid, weight := 0, prio := 0, urgent := false, tokens := 0, tokcap := 0,
    refill := 0, refillAt := 0, credit := 0, accepted := accepted, refused := refused, stall := false, posted := [] }

/-- A dispatch charged to a queue (20 R340). -/
def State.charge (s : State) (part q est : Nat) : State :=
  match (s.part part).queue q with
  | none => s
  | some v => s.setPart part ((s.part part).setQueue q { v with credit := v.credit - max (est * 64) 1000 })

/-- The priority of a launch's queue: the cap of its tasks' effective priority (02 R33). -/
def State.queuePrio (s : State) (l : Launch) : Nat :=
  match (s.part l.part).queue l.queue with
  | some q => q.prio
  | none => 15

/-! ### `tenq` (13 R250, R251) -/

/-- The trips of the TEMPORAL levels, outermost first. -/
def Kernel.temporal (k : Kernel) : List Nat := (k.used.filter fun l => l.2.1 == 0).map (·.1)

/-- A task of a TCB, as the sorter registers it (13 R251). Its effective priority is fixed here, from the PRIO that its launch's queue has
at this moment, and its ready time is the hub's package time (DESIGN CHOICE, log 69). -/
def State.tcbTask (s : State) (b : Word) (t : Tcb) : Task :=
  let c := s.cur
  let v := if t.vdie = 0xFFFF then c.vdie else t.vdie
  let k := parseKernel (s.devRead s.sorterAcc t.code 128)
  let cap := match s.launch? c.cid c.launch with
    | some l => s.queuePrio l
    | none => 15
  { blankTask with
    part := c.part, cid := c.cid, tcb := b, launch := c.launch, tx := t.tx, ty := t.ty, tz := t.tz, vdie := v,
    die := (s.vdies c.cid).getD v 0, state := if t.depCount = 0 then .ready else .waiting, prio := t.prio,
    effPrio := min t.prio cap, policy := BitVec.ofNat 4 t.policy, stamps := t.stamps, est := t.est, vframe := t.vframe,
    spill := t.spill, phcfg := t.phcfg, args := t.args, code := t.code, trips := k.temporal, deps := t.depCount,
    nsucc := t.succCount, succ := t.succ, specIn := t.specIn, predOut := t.predOut, tol := t.tol, hist := t.hist,
    readyAt := s.hub.time }

/-- Whether an enabled slot is invalid. Of a slot with EN = 0 nothing is checked (DEDUCED, log 94). -/
def State.slotBad (s : State) (cid : Nat) (t : Tcb) (i : Nat) : Bool :=
  (slotDecl t.specIn i).getLsbD 0 && !s.slotOk cid t i

/-- A task with its invalid declarations taken as EN = 0, each reported (06 R101). -/
def State.declared (s : State) (t : Tcb) (u : Task) : State × Task :=
  let one (x : State × Task) (i : Nat) : State × Task :=
    if s.slotBad u.cid t i then
      (x.1.postSpecDecl u i 0, { x.2 with specIn := x.2.specIn &&& ~~~(0xFFFF#32 <<< (16 * i)) })
    else x
  let x := one (one (s, u) 0) 1
  if s.predOk u.cid t then x else (x.1.postSpecDecl u 2 0, { x.2 with predOut := 0 })

/-- The registration of a task: the sorter's writes to the TCB, the task, its launch's count and its queue's charge. -/
def State.registerTask (s : State) (b : Word) (t : Tcb) : State :=
  let x := s.declared t (s.tcbTask b t)
  let id := x.1.nextId
  let a := x.1.sorterAcc
  let s1 := ((x.1.devWrite a (b + 48) (leBytes 8 0)).devWrite a (b + 96) (leBytes 8 0)).devWrite a b (leBytes 4 x.2.state.code)
  let s2 := s1.addTask x.2
  let s3 := match s2.launch? s.cur.cid s.cur.launch with
    | some l => (s2.setLaunch { l with left := l.left + 1 }).charge l.part l.queue t.est
    | none => s2
  s3.readied [id]

/-- The sorter of a TCB's virtual die (13 R251, 19 R326). -/
def State.tcbAcc (s : State) (t : Tcb) : Acc :=
  { s.sorterAcc with die := if t.vdie = 0xFFFF then s.cur.die else (s.vdies s.cur.cid).getD t.vdie s.cur.die }

/-- The records that a TCB's declarations name, as its sorter reads them (06 R101, 19 R329, R330). -/
def State.touchDecls (s : State) (t : Tcb) : State :=
  let a := s.tcbAcc t
  let slots := ([0, 1] : List Nat).filter fun i => (slotDecl t.specIn i).getLsbD 0
  let s1 := if slots.isEmpty then s else s.devTouch a t.tol 64
  let s2 := slots.foldl (fun (u : State) i => u.devTouch a (u.tolOf u.cur.cid t.tol i).hist 64) s1
  if t.predOut.getLsbD 0 then s2.devTouch a t.hist 64 else s2

/-- `tenq`. What its actions before the checks wrote back stays written (13 R250). -/
def taskEnqueue (o : LF) (w : Who) (s : State) : Eff :=
  let b := s.x (fieldReg o.a)
  if s.cur.spec then .stay .spec s
  else if !(s.ownCopies w).isEmpty then .stay .interlock s
  else
    let s1 := s.wbAll s.cur.cluster s.cur.cid
    if brefOff b % 128 ≠ 0 then .trap (trapAt .align b 128) s1
    else
      match s1.check s1.cur.cid b 128 (rightR ||| rightW) with
      | .error t => .trap t s1
      | .ok _ =>
        match s1.translatePages s1.memberAcc b 128 true with
        | .error m => m.eff
        | .ok (u, _) =>
          let u := u.devTouch u.sorterAcc b 128
          let t := parseTcb (u.devRead u.sorterAcc b 128)
          let s2 := u.devTouch (u.tcbAcc t) t.code 128
          let state : Word := BitVec.ofNat 64 t.state
          if !s2.tcbOk s.cur.cid t then .trap { cause := .taskDesc, d1 := b, d2 := state } s2
          else if !([0, 4, 7] : List Nat).contains (t.state % 16) then .trap { cause := .taskState, d1 := b, d2 := state } s2
          else .done ((s2.touchDecls t).registerTask b t).external

/-! ### `tend`, `tyield`, `tabort` (13 R252-R255) -/

/-- The end of a member; the last one parks a speculative task, or leaves the team with its token queues discarded until the
sorter completes the task (13 R252, 06 R107). -/
def State.endMember (s : State) (w : Who) : State :=
  let s1 := s.setMember w { s.member w with ended := true }
  if w.others.all fun v => (s.member v).ended then
    s1.setTeam { s1.cur.team with tq := Vector.replicate 8 [] }
  else s1

/-- The parking of a speculative task whose members have all ended (06 R107). -/
def State.park (s : State) : State :=
  if s.cur.spec && s.cur.team.seq.ended && s.cur.team.ld.ended && s.cur.team.st.ended then
    let s1 := s.releaseCore
    ({ s1 with cur := { s1.cur with parked := true } }).answerTask s1.cur.id 3
  else s

/-- Whether the focused task holds a sync object. -/
def State.holding (s : State) : Bool := s.syncs.any fun y => y.holds s.cur.id

/-- `tend`. -/
def taskEnd (w : Who) (s : State) : Eff :=
  let t := s.cur.team
  let busy := match w with
    | .seq => !t.landings.isEmpty || t.matBusy != 0
    | _ => !(s.ownCopies w).isEmpty || s.courierTiles w != 0
  if busy then (match w with | .seq => .drain (s.blockWith .tend) | _ => .stay .tend s)
  else if w.others.all (fun v => (s.member v).ended) && s.holding then .trap (trapOf .syncState) s
  else .done (s.endMember w).park

/-- Whether the focused task's sorter holds a READY task of equal or higher priority that waits for stamps or a core. -/
def State.othersWait (s : State) : Bool :=
  s.liveTasks.any fun u => u.id != s.cur.id && u.queued && u.die == s.cur.die && s.cur.effPrio ≤ u.effPrio && !s.startable u

/-- `tyield`: a save as for a team swap where another task waits, and no effect otherwise (13 R254). -/
def taskYield (s : State) : Eff :=
  if s.othersWait then .done { s with cur := { s.cur with stop := some (.save 6) } } else .done s

/-- `tabort`. -/
def taskAbort (o : LF) (s : State) : Eff := .trap { cause := .taskAbort, d1 := s.x (fieldReg o.a) } s

/-! ### `lnch` (13 R256) -/

/-- The visibility ranges of a launch record (02 R20). -/
def visRanges (bs : List Byte) : List (Word × Nat) :=
  (List.range 4).map fun i => (BitVec.ofNat 64 (leNat ((bs.drop (16 + 8 * i)).take 8)), leNat ((bs.drop (48 + 4 * i)).take 4))

/-- A partition with what stands behind the records of its queues changed. -/
def Part.mapPosted (p : Part) (f : Posted → Posted) : Part :=
  { p with queues := p.queues.map fun kv => (kv.1, { kv.2 with posted := kv.2.posted.map f }) }

/-- How many records a debugger holds for the focused task (18 R321). -/
def State.heldChildren (s : State) : Nat :=
  ((s.part s.cur.part).queues.map fun kv => (kv.2.posted.filter fun x => x.holder == some s.cur.id).length).sum

/-- A queue assigned to a context, which owns it (20 R337, R338). -/
def State.queueOf (s : State) (cid q : Nat) : Option Queue :=
  match s.ctx? cid, (s.part (partOf cid)).queue q with
  | some c, some v => if c.queues.getLsbD q && q < 64 && v.cid == cid then some v else none
  | _, _ => none

/-- A segment linked into a queue behind its tail (20 R339, 23 R390). -/
def State.linkSegment (s : State) (part q : Nat) (seg : Word) : State :=
  match (s.part part).queue q with
  | none => s
  | some v =>
    let s1 := s.devWrite (s.deviceAcc v.cid) (v.tailSeg + 4032) (leBytes 8 seg.toNat)
    s1.setPart part ((s1.part part).setQueue q { v with tailSeg := seg, tail := 0, stall := false })

/-- A segment taken from the reserve pool for a stalled queue; nothing while the pool is empty or the queue does not stall. -/
def State.unstall (s : State) (part q : Nat) : State :=
  match (s.part part).queue q, (s.part part).pool with
  | some v, seg :: rest => if v.stall then (s.setPart part { s.part part with pool := rest }).linkSegment part q seg else s
  | _, _ => s

/-- Whether a queue is stalled. -/
def State.stalled (s : State) (part q : Nat) : Bool :=
  match (s.part part).queue q with
  | some v => v.stall
  | none => false

/-- A launch record written at TAIL by its producer, and TAIL advanced; where TAIL would pass 62 the queue stalls until a segment of the
reserve pool is linked, which is at once while the pool holds one; the supervisor is told of an empty pool (20 R339). -/
def State.enqueueRecord (s : State) (part q : Nat) (v : Queue) (a : Acc) (p : Posted) (bs : List Byte) : State :=
  let s1 := s.devWrite a (v.tailSeg + BitVec.ofNat 64 (64 * v.tail)) bs
  let u := { v with posted := v.posted ++ [p] }
  if v.tail < 62 then s1.setPart part ((s1.part part).setQueue q { u with tail := v.tail + 1 })
  else
    let s2 := (s1.setPart part ((s1.part part).setQueue q { u with stall := true })).unstall part q
    if s2.stalled part q then s2.notify part 3 v.cid else s2

/-- One more child of a launch (02 R35). -/
def State.childAdded (s : State) (cid id : Nat) : State :=
  match s.launch? cid id with
  | some l => s.setLaunch { l with children := l.children + 1 }
  | none => s

/-- How a `lnch` ends whose record is in its queue; a step says that the child is held (18 R321). -/
def launchEnds (w : Who) (q : Nat) (s : State) : Eff :=
  if s.cur.stepping = some w then .doneWith s.external (BitVec.ofNat 64 q) 1 else .done s.external

/-- `lnch` whose checks passed: the range release, and the record in the queue, held there by a debugger that steps it (13 R256,
18 R321); a stalled queue blocks it, and one that has taken its record completes when its segment is linked. -/
def launchPost (w : Who) (q : Nat) (v : Queue) (bs : List Byte) (s : State) : Eff :=
  let ranges := (visRanges bs).filter fun r => r.2 != 0
  let late := s.copies.any fun c => c.task == s.cur.id && c.moves.any fun m => ranges.any fun r =>
    m.dst.meetsBuf c.descs m.len (s.vaOf s.cur.cid r.1) r.2
  if late then .stay .interlock s
  else
    let s1 := ranges.foldl (fun (u : State) r => u.wbRange s.cur.cluster s.cur.cid (u.vaOf s.cur.cid r.1) r.2) s
    if v.stall then .stay (.reservePool none) s1
    else
      let p : Posted := ⟨s.cur.launch, if s.cur.stepping = some w then some s.cur.id else none, false⟩
      let s2 := (s1.enqueueRecord s.cur.part q v { s1.memberAcc with cluster := none } p bs).childAdded s.cur.cid s.cur.launch
      if s2.stalled s.cur.part q then .stay (.reservePool (some v.tailSeg)) s2 else launchEnds w q s2

/-- `lnch` from its start: its checks in order (13 R256). -/
def launchNew (o : LF) (w : Who) (s : State) : Eff :=
  let a := (s.x (fieldReg o.a)).toNat
  let q := (s.x (fieldReg o.b)).toNat
  let bs := s.localBytes a 64
  if s.cur.spec then .stay .spec s
  else
    match thenCheck (s.localOk a 64) (need (a % 64 == 0) (trapAt .align (BitVec.ofNat 64 a) 64)) with
    | .error t => .trap t s
    | .ok _ =>
      if s.localHazard w a 64 false then .stay .hazard s else
      match s.readLocal a 64, s.queueOf s.cur.cid q with
      | .error m, _ => m.eff
      | .ok u, none => .trap (trapOf .illegalOperand) u
      | .ok u, some v =>
        if (visRanges bs).any fun r => r.2 == 0 && r.1 != 0 then .trap (trapOf .illegalOperand) u
        else
          match u.checkAll ((visRanges bs).filter fun r => r.2 != 0) rightR with
          | .error t => .trap t u
          | .ok _ => launchPost w q v bs u

/-- Whether a member waits in `lnch` with its record already in a queue's slot 62; the queue's answer when it does. -/
def State.launchHeld (s : State) (w : Who) (q : Nat) : Option Eff :=
  match (s.member w).wait, s.queueOf s.cur.cid q with
  | some (.reservePool (some seg)), some v =>
    some (if v.stall && v.tailSeg == seg then .stay (.reservePool (some seg)) s else launchEnds w q s)
  | _, _ => none

/-- `lnch`. -/
def launchChild (o : LF) (w : Who) (s : State) : Eff :=
  match s.launchHeld w (s.x (fieldReg o.b)).toNat with
  | some e => e
  | none => launchNew o w s

/-! ### `twait` (13 R257) -/

/-- The condition of `twait` on the masked word and the operand, both `bits` wide. -/
def waitCond (cond bits v b : Nat) : Bool :=
  match cond with
  | 0 => v == b
  | 1 => v != b
  | 2 => v < b
  | 3 => b ≤ v
  | 4 => signedOf bits v < signedOf bits b
  | _ => signedOf bits b ≤ signedOf bits v

/-- The descriptor that a `twait` goes by: what its checks find at its first try, kept while it waits (19 R325). -/
def State.waitDesc (s : State) (w : Who) (b : Word) (n : Nat) : Except Trap (List Byte) :=
  match (s.member w).wait with
  | some (.twait _ _ _ _ desc) => .ok desc
  | _ =>
    if brefOff b % n ≠ 0 then .error (trapAt .align b n)
    else
      match s.check s.cur.cid b n rightA with
      | .error t => .error t
      | .ok _ => .ok (s.descBytes s.cur.cid b)

/-- A word read at its home for `twait`, and whether its line fails: the word evaluates as 0 then, which is reported, but not again by a
wait whose last read failed too (18 R316). -/
def State.waitRead (s : State) (d : Desc) (b : Word) (ps : List Tlb) (va n : Nat) (report : Bool) : State × Nat × Bool :=
  let x := s.homeReads s.ownDie s.cur.cid d ps va n
  if x.2.2.isEmpty then (x.1, leNat x.2.1, false)
  else
    (if report then x.2.2.foldl (fun (u : State) e => u.postError 1 s.cur.cid e.2.2 7 (lineBref b va) 0 0 e.2.1) x.1 else x.1, 0, true)

/-- `twait`. -/
def wordWait (o : LF) (w : Who) (s : State) : Eff :=
  let n := if o.sub.getLsbD 3 then 8 else 4
  let b := s.x (fieldReg o.a)
  let m := 256 ^ n
  if s.cur.spec then .stay .spec s
  else
    match s.waitDesc w b n with
    | .error t => .trap t s
    | .ok desc =>
      let d := parseDesc desc
      let va := d.vbase + brefOff b
      match s.translateUnder d s.memberAcc b n false with
      | .error m => m.eff
      | .ok (u, ps) =>
        if !(s.ownCopies w).isEmpty then .stay .interlock s
        else
          let report := match (s.member w).wait with
            | some (.twait _ _ _ failed _) => !failed
            | _ => true
          let x := (u.wbAll s.cur.cluster s.cur.cid).waitRead d b ps va n report
          let v := x.2.1 &&& (s.x (fieldReg o.d)).toNat % m
          if waitCond (o.sub.extractLsb' 0 3).toNat (8 * n) v ((s.x (fieldReg o.b)).toNat % m) then
            .done ((x.1.invAll s.cur.cluster s.cur.cid).external.setX (fieldReg o.d) (BitVec.ofNat 64 x.2.1))
          else .stay (.twait va n (BitVec.ofNat 64 x.2.1) x.2.2 desc) x.1

/-! ### `specq`, `vdist`, `kstat`, `scrub` (13 R258, R259, R261, R266) -/

/-- The word of `specq`. -/
def Task.specWord (t : Task) : Word :=
  if t.tcb = 0 then 0
  else BitVec.ofNat 64 (t.slot1 * 64 + t.slot0 * 16 + (if t.spec then 2 * t.depth + 1 else 0))

/-- The hop distance of two compute dies (01 R14): rim link n joins CDn to CDn+1, in ring order. -/
def State.hops (s : State) (a b : Nat) : Nat :=
  if a = b then 0
  else if b = (a + 1) % 8 then (if s.linkUp (24 + a) then 1 else 2)
  else if a = (b + 1) % 8 then (if s.linkUp (24 + b) then 1 else 2)
  else 2

/-- `vdist`. -/
def State.vdistance (s : State) (a b : Word) : Word :=
  let vs := s.vdies s.cur.cid
  if a.toNat < vs.length ∧ b.toNat < vs.length then BitVec.ofNat 64 (s.hops (vs.getD a.toNat 0) (vs.getD b.toNat 0))
  else BitVec.allOnes 64

/-- The word of `kstat` from a block, its buffer's slot and whether it lies on an NB page. -/
def State.blockWord (s : State) (b : Block) (slot : Nat) (nb : Bool) : Word :=
  let k := s.keySlot slot
  let bit (c : Bool) (n : Nat) : Nat := if c then 2 ^ n else 0
  BitVec.ofNat 64 (b.major.toNat % 2 ^ 32 * 2 ^ 32 + slot * 2 ^ 16 + bit nb 4 + bit b.dead 3
    + bit (k.h0.isSome && k.h1.isSome) 2 + bit k.cur 1 + bit b.gen 0)

/-- `kstat`. -/
def blockStat (o : LF) (s : State) : Eff :=
  let b := s.x (fieldReg o.a)
  match s.check s.cur.cid b 1 rightR with
  | .error t => .trap t s
  | .ok _ =>
    match s.translatePages s.memberAcc b 1 false with
    | .error m => m.eff
    | .ok (u, ps) =>
      match pageOf ps (s.vaOf s.cur.cid b) with
      | none => .done u
      | some p =>
        let v := u.settle (p.at (s.vaOf s.cur.cid b))
        .done (v.setX (fieldReg o.d)
          (v.blockWord (v.block (p.at (s.vaOf s.cur.cid b))) (s.desc s.cur.cid b).keyslot p.nb))

/-- `scrub`. -/
def scrubLocal (o : LF) (w : Who) (s : State) : Eff :=
  let a := (s.x (fieldReg o.a)).toNat
  let n := (s.x (fieldReg o.b)).toNat
  if n = 0 then .done s
  else
    match thenCheck (s.localOk a n) (need (a % 64 == 0 && n % 64 == 0) (trapAt .align (BitVec.ofNat 64 a) n)) with
    | .error t => .trap t s
    | .ok _ => if s.localHazard w a n true then .stay .hazard s else .done (s.setLocalBytes a (List.replicate n 0))

/-! ### `krot` and `mdead` (13 R260, R267) -/

/-- One block rotated at its home: unchanged where GEN is CUR or a line fails, which is reported and counted (13 R260). -/
def State.rotateBlock (s : State) (b : Word) (va pa slot : Nat) : State × Nat :=
  let u := s.settle pa
  let k := u.block pa
  let cur := (u.keySlot slot).cur
  if k.dead then (u.setBlock pa { k with gen := cur }, 0)
  else if k.gen = cur then (u, 0)
  else
    match u.badLines s.cur.cid slot pa with
    | a :: _ =>
      let code := (u.readError s.cur.cid slot a).getD 2
      (u.postError 5 s.cur.cid code 7 (lineBref (u.brefAt b (va + (a - pa / 4096 * 4096))) (va + (a - pa / 4096 * 4096))) 0 0 a, 1)
    | [] =>
      match u.keyOf s.cur.cid slot cur with
      | none => (u.postError 5 s.cur.cid 2 7 (lineBref (u.brefAt b va) va) 0 0 pa, 1)
      | some key => ((u.setBlock pa { k with major := k.major + 1, minors := [], gen := cur, key := some key, odd := [] }).bump pa, 0)

/-- `krot`. -/
def rotateKeys (o : LF) (w : Who) (s : State) : Eff :=
  let b := s.x (fieldReg o.a)
  let n := (s.x (fieldReg o.b)).toNat
  let va := s.vaOf s.cur.cid b
  if s.cur.spec then .stay .spec s
  else if n % 4096 ≠ 0 ∨ 1048576 < n then .trap (trapOf .illegalOperand) s
  else if n = 0 then .done (s.external.setX (fieldReg o.d) 0)
  else if va % 4096 ≠ 0 then .trap (trapAt .align b n) s
  else
    match s.check s.cur.cid b n (rightR ||| rightW) with
    | .error t => .trap t s
    | .ok _ =>
      match s.translatePages s.memberAcc b n true with
      | .error m => m.eff
      | .ok (u, ps) =>
        if s.bufHazard w va n true then .stay .hazard s
        else
          let slot := (s.desc s.cur.cid b).keyslot
          let x := (blockStarts va n).foldl (fun (x : State × Nat) a =>
            match pageOf ps a with
            | none => x
            | some p =>
              let y := x.1.rotateBlock b a (p.at a) slot
              (y.1, x.2 + y.2)) (u, 0)
          .done (x.1.external.setX (fieldReg o.d) (BitVec.ofNat 64 x.2))

/-- Whether an address lies on a near-bank page as the tables stand (07 R113). -/
def State.onNbPage (s : State) (va : Nat) : Bool :=
  match s.ctx? s.cur.cid with
  | none => false
  | some c =>
    match s.walk c.ptroot va with
    | .leaf e _ _ => pteBit (s.pte e) 62
    | _ => false

/-- `mdead`; a descriptor without DE fails in the place of the rights (05 R79). -/
def markDeadRange (o : LF) (w : Who) (s : State) : Eff :=
  let b := s.x (fieldReg o.a)
  let n := (s.x (fieldReg o.b)).toNat
  let va := s.vaOf s.cur.cid b
  let d := s.desc s.cur.cid b
  if s.cur.spec then .stay .spec s
  else if n = 0 then .done s.external
  else if va % 4096 ≠ 0 ∨ n % 4096 ≠ 0 then .trap (trapAt .align b n) s
  else
    match s.check s.cur.cid b n rightW with
    | .error t => .trap (if t.cause = .bufOwner && !d.de then trapAt .bufRights b n else t) s
    | .ok _ =>
      if !d.de then .trap (trapAt .bufRights b n) s
      else if (blockStarts va n).any s.onNbPage then .trap (trapOf .nbLayout) s
      else
        match s.translatePages s.memberAcc b n true with
        | .error m => m.eff
        | .ok (u, ps) =>
          if s.bufHazard w va n true then .stay .hazard s
          else
            let u1 := u.wbRange s.cur.cluster s.cur.cid va n
            let u2 := (blockStarts va n).foldl (fun (x : State) a => match pageOf ps a with
              | none => x
              | some p => x.killBlock (p.at a)) u1
            .done (u2.invRange s.cur.cluster s.cur.cid va n).external

/-! ### `seal` and `unseal` (13 R262-R265) -/

/-- The ranges of a descriptor or table: bref, length and reserved word. -/
def parseRanges (bs : List Byte) (n : Nat) : List (Word × Nat × Nat) :=
  (List.range n).map fun i => (BitVec.ofNat 64 (leNat ((bs.drop (16 * i)).take 8)), leNat ((bs.drop (16 * i + 8)).take 4),
    leNat ((bs.drop (16 * i + 12)).take 4))

/-- Whether a range entry is within 13 R262. -/
def rangeOk (r : Word × Nat × Nat) : Bool := 64 ≤ r.2.1 && r.2.1 % 64 == 0 && r.2.2 == 0

/-- The bytes of the table and the postmarks, padded. -/
def tableSize (n : Nat) : Nat := (16 * n + 40 + 63) / 64 * 64

/-- SIZE of an image. -/
def imageSize (rs : List (Word × Nat × Nat)) : Nat := 128 + tableSize rs.length + rs.foldl (fun n r => n + r.2.1) 0 + 16

/-- The descriptor at a local address: IMAGE, IMAGE_LEN, NRANGES, whether a reserved byte is set. -/
def State.sealDesc (s : State) (a : Nat) : Word × Nat × Nat × Bool :=
  let n (o k : Nat) := leNat (s.localBytes (a + o) k)
  (BitVec.ofNat 64 (n 0 8), n 8 4, n 12 2, n 14 50 != 0)

/-- The bytes of a descriptor and its ranges. -/
def State.sealSize (s : State) (a : Nat) : Nat := 64 + 16 * (s.sealDesc a).2.2.1

/-- LOCAL_ADDR and ALIGN on a descriptor of 64 bytes and its ranges. -/
def State.sealPlace (s : State) (a : Nat) : Except Trap Unit :=
  match s.localOk a 64 with
  | .error t => .error t
  | .ok _ => thenCheck (s.localOk a (s.sealSize a)) (need (a % 64 == 0) (trapAt .align (BitVec.ofNat 64 a) (s.sealSize a)))

/-- The header of an image (13 R263). -/
def State.sealHeader (s : State) (n size : Nat) : List Byte :=
  let p := s.part s.cur.part
  leBytes 4 0x49374753 ++ leBytes 2 1 ++ leBytes 2 n ++ leBytes 8 size ++ leBytes 2 s.cur.cid ++ leBytes 2 0
    ++ leBytes 4 s.hub.pkgid.toNat ++ leBytes 8 s.hub.time ++ digestBytes (s.ownDigest s.cur.part)
    ++ leBytes 12 (s.hub.pkgid.toNat * 2 ^ 76 + p.sealCtr % 2 ^ 76) ++ leBytes 20 0

/-- A range read line by line at its home; a line that fails is taken as zeros and reported (13 R264). -/
def State.sealRead (s : State) (b : Word) (ps : List Tlb) (n : Nat) : State × List Byte :=
  let x := s.homeReads s.ownDie s.cur.cid (s.desc s.cur.cid b) ps (s.vaOf s.cur.cid b) n
  (x.2.2.foldl (fun u e => u.postRead b e.1 e.2.1 e.2.2) x.1, x.2.1)

/-- The image of some ranges: read at their homes, sealed, written at its home after the dirty bytes that the cluster still holds there
(05 R82, 13 R263, R264). -/
def State.sealImage (s : State) (img : Word) (rs : List (Word × Nat × Nat)) (ps : List Tlb) : State :=
  let size := imageSize rs
  let cid := s.cur.cid
  let table := rs.flatMap fun r => leBytes 8 r.1.toNat ++ leBytes 4 r.2.1 ++ leBytes 4 r.2.2
  let marks := (List.range 5).flatMap fun k => leBytes 8 (s.pmCompleted k)
  let head := table ++ marks
  let x := rs.foldl (fun (x : State × List Byte) r =>
    let y := x.1.sealRead r.1 ps r.2.1
    (y.1, x.2 ++ y.2)) (s, head ++ List.replicate (tableSize rs.length - head.length) 0)
  let h := x.1.sealHeader rs.length size
  let e := gcmSeal (x.1.sealKey s.cur.part (digestBytes (x.1.ownDigest s.cur.part))) ((h.drop 96).take 12) h x.2
  let p := x.1.part s.cur.part
  let s1 := x.1.setPart s.cur.part { p with sealCtr := p.sealCtr + 1 }
  let s2 := s1.wbRange s1.cur.cluster cid (s1.vaOf cid img) size
  let s3 := s2.homeWrites s.ownDie cid (s2.desc cid img) ps img (s2.vaOf cid img) (h ++ e.1 ++ e.2)
  s3.invRange s3.cur.cluster cid (s3.vaOf cid img) size

/-- `seal` whose descriptor was read: the other checks, the range release, and the image (13 R264). -/
def sealIssue (o : LF) (w : Who) (a : Nat) (s : State) : Eff :=
  let cid := s.cur.cid
  let d := s.sealDesc a
  let rs := parseRanges (s.localBytes (a + 64) (16 * d.2.2.1)) d.2.2.1
  let size := imageSize rs
  let clash := rs.any fun r => meets (s.vaOf cid d.1) size (s.vaOf cid r.1) r.2.1
  if d.2.2.2 || d.2.2.1 == 0 || 8 < d.2.2.1 || !(rs.all rangeOk) || d.2.1 < size || clash then .trap (trapOf .illegalOperand) s
  else
    let ranges := rs.map fun r => (r.1, r.2.1)
    match thenCheck (s.checkAll ranges rightR) (s.check cid d.1 size rightW) with
    | .error t => .trap t s
    | .ok _ =>
      match s.translateAll ranges false with
      | .error m => m.eff
      | .ok (u, ps) =>
        match u.translateAll [(d.1, size)] true with
        | .error m => m.eff
        | .ok (u, qs) =>
          let late := s.copies.any fun c => c.task == s.cur.id && c.moves.any fun m => ranges.any fun r =>
            m.dst.meetsBuf c.descs m.len (s.vaOf cid r.1) r.2
          if late then .stay .interlock s
          else if s.bufHazard w (s.vaOf cid d.1) size true then .stay .hazard s
          else
            let u1 := ranges.foldl (fun (v : State) r => v.wbRange s.cur.cluster cid (v.vaOf cid r.1) r.2) u
            .done (((u1.sealImage d.1 rs (ps ++ qs)).external).setX (fieldReg o.d) (BitVec.ofNat 64 size))

/-- `seal`. -/
def sealRanges (o : LF) (w : Who) (s : State) : Eff :=
  let a := (s.x (fieldReg o.a)).toNat
  if s.cur.spec then .stay .spec s
  else if s.localHazard w a 64 false then .stay .hazard s
  else
    match s.sealPlace a with
    | .error t => .trap t s
    | .ok _ =>
      if s.localHazard w a (s.sealSize a) false then .stay .hazard s else
      match s.readLocal a (s.sealSize a) with
      | .error m => m.eff
      | .ok u => sealIssue o w a u

/-- The header fields of an image. -/
def headerBad (h : List Byte) (avail : Nat) : Bool :=
  let n (o k : Nat) := leNat ((h.drop o).take k)
  let least := 128 + tableSize (n 6 2) + 64 * n 6 2 + 16
  n 0 4 != 0x49374753 || n 4 2 != 1 || n 18 2 != 0 || n 108 20 != 0 || n 6 2 == 0 || 8 < n 6 2 || avail < n 8 8
    || n 8 8 < least || n 8 8 % 64 != 16

/-- Whether a digest is this package's or that of an admitted peer (13 R265, 22 R379). -/
def State.digestKnown (s : State) (part : Nat) (digest : List Byte) : Bool :=
  digest == digestBytes (s.ownDigest part) ||
    match (s.part part).tenant with
    | some t => t.admitted.any fun k => digest == digestBytes k
    | none => false

/-- The verdicts of `unseal` in order (13 R265): a failure's code, or the ranges with their contents. -/
def State.unsealVerdict (s : State) (img : List Byte) (avail : Nat) : Except Nat (List ((Word × Nat × Nat) × List Byte)) :=
  let h := img.take 128
  let n := leNat ((h.drop 6).take 2)
  let size := leNat ((h.drop 8).take 8)
  let digest := (h.drop 32).take 64
  if headerBad h avail then .error 1
  else if !s.digestKnown s.cur.part digest then .error 2
  else
    let key := s.sealKey s.cur.part digest
    let iv := (h.drop 96).take 12
    let ct := (img.drop 128).take (size - 144)
    if gcmTag key iv h ct != (img.drop (size - 16)).take 16 then .error 3
    else
      let pt := gcmOpen key iv ct
      let rs := parseRanges pt n
      if !(rs.all rangeOk) || imageSize rs != size then .error 1
      else if rs.any fun r => !s.passes s.cur.cid r.1 r.2.1 rightW then .error 4
      else
        .ok (rs.foldl (fun (x : List ((Word × Nat × Nat) × List Byte) × List Byte) r =>
          (x.1 ++ [(r, x.2.take r.2.1)], x.2.drop r.2.1)) ([], pt.drop (tableSize n))).1

/-- The second pass of `unseal`: the ranges written at their homes, after the dirty bytes the cluster still holds there, and invalidated in
the issuer's cluster (05 R82). -/
def State.unsealWrite (s : State) (ps : List Tlb) (rs : List ((Word × Nat × Nat) × List Byte)) : State :=
  rs.foldl (fun (u : State) r =>
    let va := u.vaOf s.cur.cid r.1.1
    let v := u.wbRange s.cur.cluster s.cur.cid va r.1.2.1
    (v.homeWrites s.ownDie s.cur.cid (v.desc s.cur.cid r.1.1) ps r.1.1 va r.2).invRange s.cur.cluster s.cur.cid va r.1.2.1) s

/-- `unseal` whose image was read. -/
def unsealImageOf (o : LF) (w : Who) (img : List Byte) (avail : Nat) (s : State) : Eff :=
  match s.unsealVerdict img avail with
  | .error code => .done (s.external.setX (fieldReg o.d) (BitVec.ofNat 64 code))
  | .ok rs =>
    match s.translateAll (rs.map fun r => (r.1.1, r.1.2.1)) true with
    | .error m => m.eff
    | .ok (u, ps) =>
      if rs.any fun r => s.bufHazard w (s.vaOf s.cur.cid r.1.1) r.1.2.1 true then .stay .hazard s
      else .done ((u.unsealWrite ps rs).external.setX (fieldReg o.d) 0)

/-- `unseal`: the image is read at its home, after the dirty bytes of it that the cluster still holds (05 R82). -/
def unsealRanges (o : LF) (w : Who) (s : State) : Eff :=
  let a := (s.x (fieldReg o.a)).toNat
  let d := s.sealDesc a
  if s.cur.spec then .stay .spec s
  else
    match thenCheck (s.localOk a 64) (need (a % 64 == 0) (trapAt .align (BitVec.ofNat 64 a) 64)) with
    | .error t => .trap t s
    | .ok _ =>
      if s.localHazard w a 64 false then .stay .hazard s else
      match s.readLocal a 64 with
      | .error m => m.eff
      | .ok s1 =>
        if d.2.2.2 || d.2.2.1 != 0 then .trap (trapOf .illegalOperand) s1
        else
          match s1.check s1.cur.cid d.1 d.2.1 rightR with
          | .error t => .trap t s1
          | .ok _ =>
            match s1.translatePages s1.memberAcc d.1 d.2.1 false with
            | .error m => m.eff
            | .ok (u, ps) =>
              if s.bufHazard w (s.vaOf s.cur.cid d.1) d.2.1 false then .stay .hazard s
              else
                let x := (u.wbRange s.cur.cluster s.cur.cid (s.vaOf s.cur.cid d.1) d.2.1).sealRead d.1 ps d.2.1
                unsealImageOf o w x.2 d.2.1 x.1

end Sys2Proof.Machine
end

