-- ==== Sys2Proof/Machine/Graph.lean ====
section
/-! DEFINITION. The task graph: completion of tasks and launches, successors, history records, commits of speculative tasks, and
the CANCEL cascade (02 R31, R32, R35, 06 R99, R108, R110). -/

namespace Sys2Proof.Machine

/-! ### Launches that complete (02 R21, R35) -/

/-- A launch that has nothing left gets its final STATUS and DETAIL, and its parent one child less. -/
def State.settleLaunch (fuel : Nat) (s : State) (cid id : Nat) : State :=
  match fuel, s.launch? cid id with
  | fuel + 1, some l =>
    if l.left == 0 && l.children == 0 then
      let s1 := s.devWrite (s.deviceAcc cid) l.args (leBytes 4 (if l.cancelled = 0 then 1 else 3) ++ leBytes 4 l.cancelled)
      let s2 := { s1 with launches := s1.launches.filter fun k => !(k.cid == cid && k.id == id) }
      match l.parent with
      | none => s2
      | some p =>
        match s2.launch? cid p with
        | none => s2
        | some k => State.settleLaunch fuel (s2.setLaunch { k with children := k.children - 1 }) cid p
    else s
  | _, _ => s

/-- Every launch that has nothing left completes; launches nest at most 8 deep. -/
def State.settleLaunches (s : State) : State := s.launches.foldl (fun u l => u.settleLaunch 9 l.cid l.id) s

/-- The focused task's launch with a task less, and some CANCELLED tasks more. -/
def State.taskGone (s : State) (cancelled : Nat) : State :=
  match s.launch? s.cur.cid s.cur.launch with
  | none => s
  | some l => s.setLaunch { l with left := l.left - 1, cancelled := l.cancelled + cancelled }

/-- The focused task's save slot freed (20 R348). -/
def State.freeSlot (s : State) : State :=
  let s1 := match s.ctx? s.cur.cid, s.cur.slot with
    | some c, some k => s.setCtx { c with slots := c.slots.filter (· != k) }
    | _, _ => s
  { s1 with cur := { s1.cur with slot := none } }

/-! ### Successors (02 R31) -/

/-- The access of the focused task's assay engine (19 R326). -/
def State.assayAcc (s : State) : Acc := { s.memberAcc with cluster := none }

/-- TASK_GRAPH for a successor of the focused task (18 R312). -/
def State.postTaskGraph (s : State) (b : Word) (cause : Nat) : State :=
  (s.post s.cur.cid 0 (s.taskRecord s.cur 3 0 0 (s.cur.members none) b (BitVec.ofNat 64 cause))).1

/-- The live task of a context whose TCB a bref names. -/
def State.tcbLive (s : State) (cid : Nat) (b : Word) : Option Task := s.liveTasks.find? fun u => u.cid == cid && u.tcb == b && b != 0

/-- The brefs of a successor list, read at home after what reached it before (19 R329, R330, 24 R401). One that no longer passes its check when it is read, at completion or in a cascade, counts as empty,
and no record is posted (DESIGN CHOICE, log 68). -/
def State.succList (s : State) (cid : Nat) (a : Acc) (succ : Word) (n : Nat) : State × List Word :=
  let a := { a with cid := cid }
  if s.passes cid succ (8 * n) rightR then
    let u := s.devTouch a succ (8 * n)
    (u, wordsOf (u.devRead a succ (8 * n)) n)
  else (s, [])

/-! ### History records (06 R99) -/

/-- Whether some bytes of a context pass their check and translate, for a write or a read. -/
def State.reaches (s : State) (a : Acc) (b : Word) (n rights : Nat) (write : Bool) : Bool :=
  s.passes a.cid b n rights && match s.translatePages a b n write with
    | .ok _ => true
    | .error _ => false

/-- The producer's update of its history record, and whether the record stood: it and its slots can be written, all of it or none
(DEDUCED, log 88). -/
def State.historyUpdate (s : State) : State × Bool :=
  let t := s.cur
  if t.tcb = 0 ∨ t.predOut.getLsbD 0 = false then (s, true)
  else
    let a := s.assayAcc
    let s := s.devTouch a t.hist 64
    let h := s.hist t.cid t.hist
    if !s.reaches a t.hist 64 (rightR ||| rightW) true || !s.histOk t.cid t.hist h || !s.reaches a h.slotB h.size (rightR ||| rightW) true
      || !s.reaches a h.tile h.size rightR false then (s.postSpecDecl t 2 1, false)
    else
      let s0 := s.devTouch a h.tile h.size
      let s1 := s0.devWrite a h.slotB (s0.devRead a h.tile h.size)
      let s2 := s1.devWrite a (t.hist + 5) (leBytes 1 (1 - h.newest))
      (if h.versions = 0xFFFFFFFF then s2 else s2.devWrite a t.hist (leBytes 4 (h.versions + 1)), true)

/-! ### Commit (06 R110) -/

/-- Whether the stores that a proof-store line merged have one home and key. -/
def ProofLine.oneHome (l : ProofLine) : Bool :=
  match l.kept with
  | [] => true
  | p :: rest => rest.all fun q =>
    q.page.pa == p.page.pa && q.page.va == p.page.va && (parseDesc q.desc).keyslot == (parseDesc p.desc).keyslot

/-- Some bytes of a proof-store line drained as the checks of one of its stores found their line (19 R325, R334). -/
def State.drainPart (s : State) (l : ProofLine) (p : ProofPart) (mask : BitVec 64) : State :=
  s.copyLine (some s.cur.cluster) s.memberAcc (parseDesc p.desc) p.page.page p.bref (64 * l.line) l.data mask

/-- The bytes of a line that a speculative task wrote drained to their home, as one write where they have one; the unwritten ones are
discarded. -/
def State.drainLine (s : State) (l : ProofLine) : State :=
  match l.kept with
  | [] => s
  | p :: rest =>
    if l.oneHome then s.drainPart l p l.written else (p :: rest).foldl (fun (u : State) q => u.drainPart l q q.mask) s

/-- The numbers of a task that commits: those whose operation has completed complete as one event. -/
def State.commitNumbers (s : State) : State :=
  let t := s.cur
  let pending := (s.copies.filter fun c => c.task == t.id).map fun c => (c.cls, c.num)
  let mx := (t.team.landings.filterMap fun e => e.mx).map fun n => (2, n)
  let s1 := (t.specNums.filter fun n => !pending.contains n && !mx.contains n).foldl
    (fun (u : State) n => u.completePm t.cid t.vdie n.1 n.2) s
  { s1 with cur := { s1.cur with specNums := [] } }

/-- Whether the focused task commits: every slot on a proof has passed and no predecessor is left (06 R108). -/
def Task.commits (t : Task) : Bool := t.spec && t.state != .squashed && t.slot0 != 1 && t.slot1 != 1 && t.deps == 0

/-- The commit of the focused task: its entry drains, its numbers commit, and it is real. A checkpoint taken before it stands (DESIGN
CHOICE, log 95). -/
def State.commit (s : State) : State :=
  let s1 := ((s.cur.proof.reverse.foldl State.drainLine s).commitNumbers)
  let s2 := { s1 with cur := { s1.cur with proof := [], proofFull := false, depth := 0 } }
  s2.putState s2.cur.state false

/-- The focused task's held fault reported (06 R110). -/
def State.reportHeld (s : State) : State :=
  match s.cur.held with
  | none => s
  | some r =>
    let s1 := { s with cur := { s.cur with held := none, fault := r } }
    (s1.putState .faulted false).postFault s1.cur r

/-! ### Completion (02 R31) -/

/-- The notice of a producer's completion sent to one slot. -/
def Task.noticed (t : Task) (id : Nat) (good : Bool) : Task :=
  let t1 := if t.slot0 = 1 ∧ t.prod0 = some id then { t with assay0 := .sent good } else t
  if t1.slot1 = 1 ∧ t1.prod1 = some id then { t1 with assay1 := .sent good } else t1

/-- A team all of whose members have ended and whose state is gone. -/
def endedTeam : Team :=
  let m : Member := { blankMember with ended := true }
  { blankTeam with seq := m, ld := m, st := m }

/-- Steps 1 and 2 of R31 on the focused task: its writes at home, its history, DONE_PM, DONE; whether its history stood. -/
def State.markDone (s : State) : State × Bool :=
  let h := (s.wbAll s.cur.cluster s.cur.cid).historyUpdate
  let s1 := h.1.releaseCore
  let s2 := { s1 with cur := { s1.cur with team := endedTeam, ckpt := none, log := [], image := false, parked := false } }
  ((s2.putState .done false).freeSlot, h.2)

/-- A successor's DEP_COUNT decremented: a registered WAITING task at 0 becomes READY, a speculative one may commit. -/
def State.decrementOne (s : State) : State :=
  let n := s.cur.deps - 1
  let s1 := ({ s with cur := { s.cur with deps := n } }).tcbPut 4 (leBytes 2 n)
  if n = 0 ∧ s1.cur.state = .waiting then s1.makeReady else s1

/-- One entry of SUCC_LIST (02 R31). -/
def State.decrement (s : State) (b : Word) : State :=
  let cid := s.cur.cid
  if b = 0 then s
  else
    match s.check cid b 128 (rightR ||| rightW) with
    | .error t => s.postTaskGraph b t.cause.code.toNat
    | .ok _ =>
      if brefOff b % 128 ≠ 0 then s.postTaskGraph b 6
      else
        match s.tcbLive cid b with
        | some u => if u.deps = 0 then s.postTaskGraph b 0 else s.withTask u.id State.decrementOne
        | none =>
          let u := s.devTouch s.sorterAcc b 128
          let n := u.devNat u.sorterAcc (b + 4) 2
          if n = 0 then u.postTaskGraph b 0 else u.devWrite u.sorterAcc (b + 4) (leBytes 2 (n - 1))

/-- The focused task completes (02 R31): its writes and DONE, its successors in order, the notices to the slots on its output,
squashed tasks whose inputs are real, and its launch. -/
def State.completeTask (s : State) : State :=
  let id := s.cur.id
  let x := s.markDone
  let s1 := x.1
  let l := s1.succList s1.cur.cid s1.sorterAcc s1.cur.succ s1.cur.nsucc
  let s2 := l.2.foldl State.decrement l.1
  let s3 := { s2 with tasks := s2.tasks.map fun (u : Task) => u.noticed id x.2 }
  let s4 := (s3.unsquash.taskGone 0).settleLaunches
  s4.readied (s4.newlyReady s)

/-- What follows the commit of the focused task: a parked one completes, a held fault is reported (06 R110). -/
def State.commitEnds (s : State) : State :=
  if s.cur.state = .running ∧ s.cur.core = none then (if s.cur.parked then s.completeTask else s.reportHeld) else s

/-- The focused task commits if it can. -/
def State.commitOne (s : State) : State := if s.cur.commits then s.commit.commitEnds else s

/-- Every speculative task that can commit does: one whose slots had all passed while another predecessor was left (06 R108). -/
def State.commitAll (fuel : Nat) (s : State) : State :=
  match fuel with
  | 0 => s
  | fuel + 1 =>
    match s.allTasks.find? fun u => u.live && u.commits with
    | none => s
    | some u => State.commitAll fuel (s.withTask u.id State.commitOne)

/-- The focused task completes, and what its completion lets commit does. -/
def State.complete (s : State) : State := let u := s.completeTask; u.commitAll (u.tasks.length + 1)

/-- What follows a commit, and what that lets commit. -/
def State.afterCommit (s : State) : State := let u := s.commitEnds; u.commitAll (u.tasks.length + 1)

/-- The focused task commits if it can, and what that lets commit does. -/
def State.tryCommit (s : State) : State := let u := s.commitOne; u.commitAll (u.tasks.length + 1)

/-! ### CANCEL (02 R30, R32) -/

/-- The records that a debugger holds for the focused task discarded where they stand; they never open a launch (18 R321). -/
def State.dropHeld (s : State) : State :=
  let n := s.heldChildren
  let s1 := s.setPart s.cur.part ((s.part s.cur.part).mapPosted fun x =>
    if x.holder = some s.cur.id then { x with holder := none, dropped := true } else x)
  match s1.launch? s1.cur.cid s1.cur.launch with
  | some l => s1.setLaunch { l with children := l.children - n }
  | none => s1

/-- The focused task CANCELLED: squashed with its dependants if it is speculative, its team discarded. -/
def State.cancelOne (s : State) : State :=
  let id := s.cur.id
  let s1 := if s.cur.spec then State.squashTree s.allTasks.length s id else s.dropNumbers
  let s2 := (s1.discardTeam.dropHeld.putState .cancelled false).freeSlot
  (s2.squashDependants id).taskGone 1

/-- Whether a cascade leaves a task as it is: FAULTED, or stopping at a trap (18 R309). -/
def Task.stands (t : Task) : Bool :=
  t.state == .faulted || (match t.stop with
    | some (.trap _) => true
    | _ => false)

/-- A FREE TCB reached by the cascade: CANCELLED in memory, counted in the launch (02 R32). -/
def State.cancelFree (s : State) (cid launch : Nat) (a : Acc) (b : Word) : State :=
  let s1 := s.devWrite a b (leBytes 4 7)
  match s1.launch? cid launch with
  | some l => s1.setLaunch { l with cancelled := l.cancelled + 1 }
  | none => s1

/-- The CANCEL cascade, breadth first through the TCBs still to reach (02 R32). An entry that is 0, misaligned or fails R79 is passed
over with no record (DESIGN CHOICE, log 68). -/
def State.cascade (fuel : Nat) (s : State) (cid launch : Nat) (a : Acc) (work : List Word) : State :=
  match fuel, work with
  | fuel + 1, b :: rest =>
    if b = 0 ∨ brefOff b % 128 ≠ 0 ∨ !s.passes cid b 128 (rightR ||| rightW) then s.cascade fuel cid launch a rest
    else
      match s.tcbLive cid b with
      | some u =>
        if u.stands then s.cascade fuel cid launch a rest
        else
          let l := s.succList cid a u.succ u.nsucc
          (l.1.withTask u.id State.cancelOne).cascade fuel cid launch a (rest ++ l.2)
      | none =>
        let s := s.devTouch a b 128
        let t := parseTcb (s.devRead a b 128)
        if t.state % 16 = 0 then
          let l := s.succList cid a t.succ t.succCount
          (l.1.cancelFree cid launch a b).cascade fuel cid launch a (rest ++ l.2)
        else s.cascade fuel cid launch a rest
  | _, _ => s

/-- CANCEL of the focused task, with its cascade and the launches it completes. -/
def State.cancel (s : State) : State :=
  let t := s.cur
  let l := s.succList t.cid s.sorterAcc t.succ t.nsucc
  let u := (((l.1.cancelOne).cascade (2 ^ 48) t.cid t.launch s.sorterAcc l.2).unsquash).settleLaunches
  u.readied (u.newlyReady s)

end Sys2Proof.Machine
end

