-- ==== Sys2Proof/Machine/SysOps.lean ====
section
/-! DEFINITION. What the system instructions of class 15 do (23, 18 R305, R314, R319-R321, 19 R334, 21 R358-R362, 22 R368). -/

namespace Sys2Proof.Machine

/-! ### Status, harts and partitions (23 R382, R383; 18 R305) -/

/-- An instruction that completes with a status in x[D]. -/
def sysEnd (o : LF) (code : Nat) (s : State) : Eff := .done (s.setX (fieldReg o.d) (BitVec.ofNat 64 code))

/-- An instruction that waits; its status is written when what it waits for is settled. -/
def sysWait (h : Fin 16) (w : HartWait) (s : State) : Eff := .ends (s.setHart h { s.hart h with wait := some w })

/-- Whether a hart is the die controller's, and of which die. -/
def dieOfHart (h : Fin 16) : Option Nat := if 8 ≤ h.val then some (h.val - 8) else none

/-- REFUSED on a die-controller hart for a form marked "hub" (23 R383). -/
def hubOnly (o : LF) (h : Fin 16) (s : State) (e : Eff) : Eff := if (dieOfHart h).isSome then sysEnd o 1 s else e

/-- The partition that holds a slice. -/
def State.sliceOwner (s : State) (n : Nat) : Option Nat := (List.range 8).find? fun p => (s.part p).slices.contains n

/-- Whether a parameter block may be read at a physical address. -/
def State.blockAt (s : State) (a : Nat) : Bool := a % 8 == 0 && s.homeOf a == .here

/-- A number at a physical address. -/
def State.physNat (s : State) (a n : Nat) : Nat := s.fwNat a n

/-! ### Task selectors (23 R384) -/

/-- The latest task of a context that a TCB, or a launch and tile index, names. -/
def State.named (s : State) (cid : Nat) (tcb : Word) (launch tile : Nat) : Option Task :=
  (s.allTasks.filter fun t => t.state != .free && t.cid == cid && t.tcb == tcb && (tcb != 0 || (t.launch == launch && t.linear == tile))).foldl
    (fun (m : Option Task) t => match m with
      | some u => if u.id < t.id then some t else some u
      | none => some t) none

/-- The task a selector names, or the status. -/
def State.selected (s : State) (h : Fin 16) (a : Nat) : Except Nat Task :=
  let n (k m : Nat) := s.physNat (a + k) m
  if !s.blockAt a then .error 2
  else if !(s.hart h).mayActOn (partOf (n 0 2)) then .error 1
  else if n 2 6 != 0 || n 28 4 != 0 then .error 2
  else
    match s.named (n 0 2) (BitVec.ofNat 64 (n 8 8)) (n 16 8) (n 24 4) with
    | some t => .ok t
    | none => .error 2

/-- An instruction on the task that x[A] selects. -/
def onTask (o : LF) (h : Fin 16) (s : State) (k : Task → Eff) : Eff :=
  match s.selected h (s.x (fieldReg o.a)).toNat with
  | .error code => sysEnd o code s
  | .ok t => k t

/-- An instruction marked "hub" on the task that x[A] selects (23 R383, R385). -/
def onTaskHub (o : LF) (h : Fin 16) (s : State) (k : Task → Eff) : Eff := hubOnly o h s (onTask o h s k)

/-- A task that a debugger or trap has stopped: FAULTED or halted, and not being stepped (23 R387). -/
def Task.answerable (t : Task) : Bool :=
  t.stepping.isNone && (t.state == .faulted || (t.halted && (t.state == .saved || t.state == .rolledBack)))

/-- Whether the image of a task verifies. -/
def State.verifies (s : State) (id : Nat) : Bool := (s.focusTask id).imageGood

/-- A task whose image failed verification (20 R355). -/
def State.failedImage (s : State) (id : Nat) : State := s.withTask id fun u => u.killHang (u.hangDetail u.cur)

/-! ### Tasks: `ctxsv`, `ctxrs`, `ckpt`, `ckrb` (23 R386) -/

/-- `ctxsv` and `ctxsv.halt`, with their REASON. -/
def ctxSave (reason : Nat) (o : LF) (h : Fin 16) (s : State) : Eff :=
  onTask o h s fun t =>
    if t.state != .running then sysEnd o 3 s
    else if t.core.isNone then sysEnd o 0 (s.withTask t.id fun u => u.finishSave reason)
    else if t.stop.isSome then sysWait h (.saved t.id) s
    else sysWait h (.saved t.id) (s.withTask t.id fun u => { u with cur := { u.cur with stop := some (.save reason), preemptAt := u.hub.time } })

/-- `ctxrs`. -/
def ctxRestore (o : LF) (h : Fin 16) (s : State) : Eff :=
  onTask o h s fun t =>
    if !(t.state == .saved || t.state == .rolledBack) || !(t.halted || t.reason == 7) || t.stepping.isSome then sysEnd o 3 s
    else if !t.image then sysEnd o 4 s
    else if !s.verifies t.id then sysEnd o 6 (s.failedImage t.id)
    else sysEnd o 0 ((s.withTask t.id fun u => ({ u with cur := { u.cur with halted := false } }).makeReady).readied [t.id])

/-- `ckpt`: of any RUNNING task; the status is STATE where the task leaves RUNNING before the checkpoint is taken. -/
def ctxCheckpoint (o : LF) (h : Fin 16) (s : State) : Eff :=
  onTask o h s fun t =>
    if t.state != .running then sysEnd o 3 s
    else sysWait h (.ckpt t.id) (s.withTask t.id fun u => { u with cur := { u.cur with ckptDue := true } })

/-- `ckrb` of a RUNNING task, parked or held ones among them (06 R107, R110); for a speculative task, what 06 R112 puts in the place of a ROLLBACK behind its speculative start. -/
def ctxRollback (o : LF) (h : Fin 16) (s : State) : Eff :=
  onTask o h s fun t =>
    if t.state != .running || !s.rollbackable t then sysEnd o 3 s
    else if t.ckptInSpec then sysEnd o 0 (s.withTask t.id fun u => u.rollback 3)
    else if t.policy.getLsbD 3 then sysEnd o 0 ((s.withTask t.id State.kill).noted s)
    else if t.core.isNone then sysEnd o 0 (s.withTask t.id fun u => u.finishSave 1)
    else sysWait h (.saved t.id) (s.withTask t.id fun u => u.applyPolicy .save 1)

/-! ### Answers: `tresm` and `tcanc` (23 R387, 18 R313, R314, R320, R321) -/

/-- The focused task's held child launches released to the Postmaster: nothing holds their records any more. -/
def State.releaseHeld (s : State) : State :=
  s.setPart s.cur.part ((s.part s.cur.part).mapPosted fun x => if x.holder = some s.cur.id then { x with holder := none } else x)

/-- A member whose service request is answered: `x10` and `x11` (18 R314). -/
def Member.serviced (m : Member) (v0 v1 : Word) : Member :=
  { m with x := regSet (regSet m.x 10 v0) 11 v1, svc := none, answer := none }

/-- The kept answer of a member applied, as at a restore: its `ecall` ends at PC + 4 as any instruction does, with the sequencer's issue
cycle and loops (09 R159, 11 R216), and is an external operation (20 R351); a fault is its trap (18 R314). -/
def State.applyAnswer (s : State) (w : Who) : State :=
  let m := s.member w
  match m.answer, m.refusal with
  | some v, _ =>
    let u := ((s.setMember w (m.serviced v.1 v.2)).retireMember w (m.pc + 4)).external
    { u with cur := { u.cur with issuedAt := u.hub.time, hung := 0 } }
  | none, some f => (s.setMember w { m with refusal := none }).takeTrap w { cause := .supervisor f.1, d1 := f.2 }
  | none, none => s

/-- The kept answers of the focused team applied. -/
def State.applyAnswers (s : State) : State := ((s.applyAnswer .seq).applyAnswer .ld).applyAnswer .st

/-- A member before the instruction whose step is abandoned: blocked no more, but for an `ecall` whose request is outstanding and a `lnch`
whose record is in its queue, which are not posted again (13 R256, 18 R314, R320). -/
def Member.abandoned (m : Member) : Member :=
  { m with wait := match m.wait with
    | some (.ecall tag) => some (.ecall tag)
    | some (.reservePool (some seg)) => some (.reservePool (some seg))
    | _ => none }

/-- `tresm.resume`. -/
def tresmResume (o : LF) (h : Fin 16) (s : State) : Eff :=
  onTaskHub o h s fun t =>
    if s.x (fieldReg o.b) != 0 then sysEnd o 2 s
    else if !t.answerable then sysEnd o 3 s
    else if !t.image then sysEnd o 4 s
    else if !s.verifies t.id then sysEnd o 6 (s.failedImage t.id)
    else sysEnd o 0 ((s.withTask t.id fun u => u.releaseHeld.resumeTask).readied [t.id])

/-- `tresm.restart`. -/
def tresmRestart (o : LF) (h : Fin 16) (s : State) : Eff :=
  onTaskHub o h s fun t =>
    if s.x (fieldReg o.b) != 0 then sysEnd o 2 s
    else if !t.answerable then sysEnd o 3 s
    else sysEnd o 0 ((s.withTask t.id fun u => u.releaseHeld.restartTask).readied [t.id])

/-- The focused task takes a core; the clean bytes of its context leave the cluster cache (02 R31). -/
def State.enterCore (s : State) (c : CoreId) : State :=
  let s := s.adoptSize s.cur.part (c / 16)
  let t := { s.cur with core := some c, lastCluster := some (c / 16), startedAt := s.hub.time, issuedAt := s.hub.time, hung := 0, stop := none,
                        draining := false, reserves := [], hasRun := true, fresh := false, halted := false }
  let s1 := match s.ctx? t.cid with
    | some x => if x.used.contains (c / 16) then s else s.setCtx { x with used := x.used ++ [c / 16] }
    | none => s
  { s1 with cur := t }.dropClean (c / 16) t.cid

/-- The focused task's team restored on a core for one step, in which its answers are applied; it keeps its state and its halt, and has a
checkpoint as after every restore (18 R320, 20 R349). -/
def State.stepOn (s : State) (c : CoreId) : State :=
  let u := s.enterCore c
  ({ u with cur := { u.cur with halted := s.cur.halted, reserves := s.cur.reserves } }).applyAnswers.checkpointHere

/-- A core on which a stepped task may be restored: a free one of its cluster, with its stamps free (02 R33, 20 R342). -/
def State.stepCore (s : State) (t : Task) : Option CoreId :=
  (List.range 4096).find? fun c => s.mayStartOn t c && s.stampsFree t (coreDie c)

/-- The step of a member of the focused task: its team is restored, at once where a core and stamps are free (18 R320). -/
def State.beginStep (s : State) (w : Who) : State :=
  let u := { s with cur := { s.cur with stepping := some w } }
  match u.stepCore u.cur with
  | some c => u.stepOn c
  | none => u

/-- `tresm.step`. -/
def tresmStep (o : LF) (h : Fin 16) (s : State) : Eff :=
  let b := (s.x (fieldReg o.b)).toNat
  onTaskHub o h s fun t =>
    if 2 < b then sysEnd o 2 s
    else if !t.answerable then sysEnd o 3 s
    else if !t.image then sysEnd o 4 s
    else if (t.team.member (whoOf b)).ended then sysEnd o 2 s
    else if !s.verifies t.id then sysEnd o 6 (s.failedImage t.id)
    else sysEnd o 0 (s.withTask t.id fun u => u.beginStep (whoOf b))

/-- The focused task's step ends for a member with the DETAIL words of its STEP record. -/
def State.stepEnds (s : State) (w : Who) (d1 d2 : Word) : State :=
  { ({ s with focus := .member w }).endStep d1 d2 with focus := s.focus }

/-- `tresm.abandon`, of a step that is blocked or still waits for a core. What a blocked `acq` asked of the directory stays in the queue
of its object (DESIGN CHOICE, log 70), as does the record of a blocked `lnch`. -/
def tresmAbandon (o : LF) (h : Fin 16) (s : State) : Eff :=
  onTaskHub o h s fun t =>
    if s.x (fieldReg o.b) != 0 then sysEnd o 2 s else
    match t.stepping with
    | none => sysEnd o 3 s
    | some w =>
      if t.core.isSome && (t.team.member w).wait.isNone then sysEnd o 3 s
      else sysEnd o 0 (s.withTask t.id fun u => (u.setMember w (u.member w).abandoned).stepEnds w 0 (BitVec.allOnes 64))

/-- `tresm.rel`. -/
def tresmRelease (o : LF) (h : Fin 16) (s : State) : Eff :=
  onTaskHub o h s fun t =>
    if s.x (fieldReg o.b) != 0 then sysEnd o 2 s
    else if (s.focusTask t.id).heldChildren = 0 then sysEnd o 3 s
    else sysEnd o 0 (s.withTask t.id State.releaseHeld)

/-- An answer block (18 R314). -/
structure Answer where
  member : Nat
  action : Nat
  cause : Nat
  tag : Nat
  val0 : Word
  val1 : Word
  detail : Word
deriving DecidableEq, Repr

/-- The answer block at a physical address. -/
def State.answerAt (s : State) (a : Nat) : Answer :=
  let n (k m : Nat) := s.physNat (a + k) m
  let w (k : Nat) : Word := BitVec.ofNat 64 (n k 8)
  { member := n 0 1, action := n 1 1, cause := n 2 2, tag := n 4 4, val0 := w 8, val1 := w 16, detail := w 24 }

/-- Its fields in range. -/
def Answer.ok (r : Answer) : Bool :=
  r.member ≤ 2 && r.action ≤ 1
    && (if r.action = 0 then r.cause == 0 && r.detail == 0 else 0x8000 ≤ r.cause && r.val0 == 0 && r.val1 == 0)

/-- A return delivered to a member of the focused task: at once while its team is restored, at its next restore otherwise. -/
def State.deliverReturn (s : State) (w : Who) (r : Answer) : State :=
  let s1 := s.setMember w { s.member w with answer := some (r.val0, r.val1) }
  if s.cur.core.isNone then s1
  else if s.cur.stepping = some w then (s1.applyAnswer w).stepEnds w 0 0
  else s1.applyAnswer w

/-- Whether a team is stopping for the trap of one of its members. -/
def Task.trapping (t : Task) : Bool :=
  match t.stop with
  | some (.trap _) => true
  | some (.save _) => false
  | none => false

/-- A fault delivered to a member of the focused task: a trap at its `ecall`, kept for the next restore while the team stops for another
trap; with no core the task is FAULTED at once. -/
def State.deliverFault (s : State) (w : Who) (r : Answer) : State :=
  let t : Trap := { cause := .supervisor (BitVec.ofNat 16 r.cause), d1 := r.detail }
  let s1 := s.setMember w { s.member w with svc := none }
  if s.cur.trapping then s.setMember w { s.member w with svc := none, refusal := some (BitVec.ofNat 16 r.cause, r.detail) }
  else if s.cur.core.isSome then s1.takeTrap w t
  else
    let f : FaultRec := ⟨t.cause.code, w, (s.member w).pc, t.d1, 0⟩
    let s2 := s1.setMember w { s1.member w with wait := none }
    let s3 := { s2 with cur := { s2.cur with fault := f } }
    (s3.putState .faulted false).postFault s3.cur f

/-- `tresm.svc`. -/
def tresmService (o : LF) (h : Fin 16) (s : State) : Eff :=
  let b := (s.x (fieldReg o.b)).toNat
  onTaskHub o h s fun t =>
    let r := s.answerAt b
    let m := t.team.member (whoOf r.member)
    if !s.blockAt b || !r.ok then sysEnd o 2 s
    else if t.state == .done || t.state == .cancelled || m.svc != some r.tag || m.answer.isSome then sysEnd o 3 s
    else sysEnd o 0 (s.withTask t.id fun u =>
      if r.action = 0 then u.deliverReturn (whoOf r.member) r else u.deliverFault (whoOf r.member) r)

/-- `tcanc`. -/
def taskCancel (o : LF) (h : Fin 16) (s : State) : Eff :=
  onTaskHub o h s fun t => if !t.answerable then sysEnd o 3 s else sysEnd o 0 (s.withTask t.id State.cancel)

/-! ### `tlbir` (23 R388, 19 R334) -/

/-- Whether some translations kept by an operation map a byte of a virtual range. -/
def usesRange (ps : List Tlb) (va n : Nat) : Bool := ps.any fun t => meets t.va t.size va n

/-- Whether a query's near-bank page lies in a virtual range. -/
def Query.inRange (q : Query) (va n : Nat) : Bool := meets (keptVa q.descs q.kref / 0x200000 * 0x200000) 0x200000 va n

/-- The acceptance of an invalidation: the translations go, and the operations in flight on the range are noted. -/
def State.startInval (s : State) (h : Fin 16) (cid va n : Nat) : State :=
  let cs := (s.copies.filter fun c => c.cid == cid && usesRange c.pages va n).map Copy.id
  let qs := (s.queries.filter fun q => q.cid == cid && q.inRange va n).map Query.id
  { s with tlbs := s.tlbs.filter (fun t => !(t.cid == cid && meets t.va t.size va n)), nextId := s.nextId + 1,
           invals := s.invals ++ [⟨s.nextId, cid, va, n, h, cs, qs⟩] }

/-- `tlbir`. -/
def tlbInvalidate (o : LF) (h : Fin 16) (s : State) : Eff :=
  let va := (s.x (fieldReg o.a)).toNat
  let b := (s.x (fieldReg o.b)).toNat
  let cid := b / 2 ^ 52
  let n := b % 2 ^ 52
  hubOnly o h s (
    if !(s.hart h).mayActOn (partOf cid) then sysEnd o 1 s
    else if 2 ^ 56 ≤ va || va % 4096 != 0 || n % 4096 != 0 || n == 0 || 2 ^ 56 < va + n then sysEnd o 2 s
    else sysWait h (.tlbir s.nextId) (s.startInval h cid va n))

/-! ### Key slots (23 R389, 22 R368) -/

/-- The partition and slot of x[A]. -/
def keyArgs (a : Word) : Nat × Nat := ((a.extractLsb' 0 3).toNat, (a.extractLsb' 8 6).toNat)

/-- Whether bits that x[A] of a key instruction must have zero are zero. -/
def keyArgsOk (a : Word) : Bool := a &&& ~~~0x3F07#64 == 0

/-- The checks common to the key instructions: the hart, the restriction, the operand. -/
def onSlot (o : LF) (h : Fin 16) (s : State) (k : Nat → Nat → KeySlot → Eff) : Eff :=
  let a := s.x (fieldReg o.a)
  let p := (keyArgs a).1
  let n := (keyArgs a).2
  hubOnly o h s (
    if !(s.hart h).mayActOn p || ((s.keySlot n).part < 8 && !(s.hart h).mayActOn (s.keySlot n).part) then sysEnd o 1 s
    else if !keyArgsOk a then sysEnd o 2 s
    else k p n (s.keySlot n))

/-- The key of a slot that a partition loads next: derived from its TRK and GENNO (22 R367). -/
def State.genKey (s : State) (p n : Nat) : Option MemKey :=
  (s.part p).tenant.map fun t => ⟨some t.trk, n, (s.part p).genno.toNat⟩

/-- The next generation number of a partition taken. -/
def State.takeGen (s : State) (p : Nat) : State := s.setPart p { s.part p with genno := (s.part p).genno + 1 }

/-- `ksload.new`. -/
def keyLoadNew (o : LF) (h : Fin 16) (s : State) : Eff :=
  onSlot o h s fun p n k =>
    if s.x (fieldReg o.b) != 0 then sysEnd o 2 s
    else if (s.part p).tenant.isNone || k.part < 8 then sysEnd o 3 s
    else sysEnd o 0 ((s.setKeySlot n ⟨p, s.genKey p n, none, false⟩).takeGen p)

/-- `ksload`. -/
def keyLoad (o : LF) (h : Fin 16) (s : State) : Eff :=
  onSlot o h s fun p n k =>
    let g := s.genKey p n
    if (s.part p).tenant.isNone || k.part != p || (k.h0.isSome && k.h1.isSome) then sysEnd o 3 s
    else sysEnd o 0 ((s.setKeySlot n (if k.cur then { k with h0 := g, cur := false } else { k with h1 := g, cur := true })).takeGen p)

/-- The accesses already accepted with a slot completed (22 R368). -/
def State.settleSlot (s : State) (n : Nat) : State := s.settleWhere fun t => t.slot == n

/-- `ksclr`. -/
def keyClear (o : LF) (h : Fin 16) (s : State) : Eff :=
  onSlot o h s fun p n k =>
    let b := s.x (fieldReg o.b)
    let half := b.getLsbD 0
    if b.toNat / 2 != 0 then sysEnd o 2 s
    else if k.part != p || (k.half half).isNone then sysEnd o 3 s
    else sysEnd o 0 ((s.settleSlot n).setKeySlot n (if half then { k with h1 := none } else { k with h0 := none }))

/-- `ksclr.all`. -/
def keyClearAll (o : LF) (h : Fin 16) (s : State) : Eff :=
  onSlot o h s fun p n k =>
    if k.part != p then sysEnd o 3 s else sysEnd o 0 ((s.settleSlot n).setKeySlot n ⟨8, none, none, false⟩)

/-! ### Virtual-die tables (23 R392, 21 R358) -/

/-- The entries of a virtual-die table of 16 bytes; none where it breaks 21 R358. -/
def State.vdieTable (s : State) (part : Nat) (bs : List Byte) : Option (List Nat) :=
  let n := leNat (bs.take 1)
  let e := (List.range 8).map fun i => leNat ((bs.drop (8 + i)).take 1)
  let used := e.take n
  let ok := n == (s.part part).slices.length && leNat ((bs.drop 1).take 7) == 0 && used.all (fun d => (s.part part).slices.contains d)
    && decide used.Nodup && (e.drop n).all (· == 0)
  if ok then some used else none

/-- The cluster scratchpads of a die that tasks of a context used, zeroed (21 R358). -/
def State.zeroOldClusters (s : State) (c : Context) (die : Nat) : State :=
  (c.used.filter fun k => k / 32 == die).foldl (fun (u : State) k =>
    { u with clus := Sparse.clear u.clus (0x800000 * k) 0x800000, clusBad := u.clusBad.filter fun b => b.1 != k }) s

/-- A task of a context bound to the dies of a new table: where its die changes, or its team last ran on a lent one, it may be restored
in any cluster of the new die (04 R77, 21 R358). -/
def Task.rebound (t : Task) (cid : Nat) (new : List Nat) : Task :=
  if t.cid = cid ∧ t.live then
    { t with die := new.getD t.vdie 0, lastCluster := t.lastCluster.filter fun c => c / 32 == t.die && new.getD t.vdie 0 == t.die }
  else t

/-- The speculative tasks squashed whose proof-store entries lie in clusters about to be zeroed (21 R358, R360, R362). -/
def State.squashWhere (s : State) (p : Task → Bool) : State :=
  (s.liveTasks.filter fun t => t.spec && t.state != .squashed && p t).foldl (fun (u : State) t =>
    u.withTask t.id fun v => if v.cur.spec && v.cur.state != .squashed then v.squash else v) s

/-- Whether a task's team last ran on a die. -/
def Task.ranOn (t : Task) (die : Nat) : Bool := t.lastCluster.any fun k => k / 32 == die

/-- A context's virtual-die table written, its new entries the 16 bytes given (21 R358). -/
def State.bindVdies (s : State) (c : Context) (new : List Nat) (bs : List Byte) : State :=
  let gone := c.vdies.filter fun d => !new.contains d || c.vdies.findIdx (· == d) != new.findIdx (· == d)
  let s0 := s.squashWhere fun t => t.cid == c.cid && gone.any t.ranOn
  let s1 := gone.foldl (fun u d => u.zeroOldClusters c d) s0
  let s2 := (s1.setCtx { c with vdies := new, used := c.used.filter fun k => !gone.contains (k / 32) }).fwWrite c.vdtab bs
  { s2 with cur := s2.cur.rebound c.cid new, tasks := s2.tasks.map fun (t : Task) => t.rebound c.cid new }

/-- Whether a context has a task on a core or an operation incomplete (21 R358). -/
def State.ctxBusy (s : State) (cid : Nat) : Bool :=
  (s.allTasks.any fun t => t.cid == cid && t.core.isSome) || s.copies.any (fun c => c.cid == cid)
    || s.queries.any (fun q => q.cid == cid) || s.colls.any fun c => c.cid == cid && c.issued.any fun m => !c.completed.contains m.rank

/-- `slmap`. -/
def sliceMap (o : LF) (h : Fin 16) (s : State) : Eff :=
  let cid := (s.x (fieldReg o.a)).toNat
  let b := (s.x (fieldReg o.b)).toNat
  hubOnly o h s (
    if !(s.hart h).mayActOn (partOf cid) then sysEnd o 1 s
    else if 4096 ≤ cid || !s.blockAt b then sysEnd o 2 s
    else
      match s.ctx? cid, s.vdieTable (partOf cid) (s.fwRead b 16) with
      | some c, some new => if s.ctxBusy cid then sysEnd o 3 s else sysEnd o 0 (s.bindVdies c new (s.fwRead b 16))
      | _, _ => sysEnd o 2 s)

/-! ### Lending (23 R392, 21 R359-R362) -/

/-- The scrub of a lent die (21 R360 steps 1 and 2): caches written back and dropped, translations dropped, scratchpads zeroed, with
the proof-store entries in them, whose tasks are squashed. -/
def State.scrubDie (s : State) (die : Nat) : State :=
  let s0 := s.squashWhere fun t => t.ranOn die
  let mine := s0.cache.filter fun l => l.cluster / 32 == die
  let s1 := mine.foldl State.writeBack s0
  { s1 with cache := s1.cache.filter (fun l => l.cluster / 32 != die), tlbs := s1.tlbs.filter (fun t => t.die != die),
            clus := Sparse.clear s1.clus (0x800000 * (32 * die)) (0x800000 * 32), clusBad := s1.clusBad.filter fun b => b.1 / 32 != die }

/-- The key slots of a die rebound: each partition's path keys are loaded again (22 R367). -/
def State.rekey (s : State) (parts : List Nat) : State :=
  parts.foldl (fun u p => u.setPart p (u.part p).newKeys) s

/-- Whether a lender's die is idle (21 R359). -/
def State.dieIdle (s : State) (part die : Nat) : Bool :=
  let on (t : Task) : Bool := t.part == part && (t.die == die || t.lastCluster.any fun c => c / 32 == die)
  !(s.allTasks.any fun t => match t.core with
      | some c => coreDie c == die
      | none => on t && (t.state == .faulted || t.parked || t.held.isSome))
    && !(s.copies.any fun c => match s.task? c.task with
      | some t => on t
      | none => false)
    && !(s.queries.any fun q => match s.task? q.task with
      | some t => on t
      | none => false)
    && !(s.allTasks.any fun t => on t && s.openColl t.id)

/-- Whether a die is present and runs: neither in reset nor orphaned. -/
def Die.stands (d : Die) : Bool := d.present && !d.inReset && !d.orphan

/-- `slend`; a die that does not run is not idle (21 R356, R359, R364). -/
def sliceLend (o : LF) (h : Fin 16) (s : State) : Eff :=
  let a := (s.x (fieldReg o.a)).toNat
  let n (k m : Nat) := s.physNat (a + k) m
  let die := n 0 1
  hubOnly o h s (
    if !s.blockAt a then sysEnd o 2 s
    else
      match s.sliceOwner die with
      | none => if 8 ≤ die then sysEnd o 2 s else if (s.hart h).mayActOn 8 then sysEnd o 3 s else sysEnd o 1 s
      | some p =>
        if !(s.hart h).mayActOn p then sysEnd o 1 s
        else if 8 ≤ n 1 1 || n 1 1 == p || (s.part (n 1 1)).slices.length ≤ n 2 1 || 2 ≤ n 3 1 || n 4 4 < 140 || 10000 < n 4 4 || n 8 8 != 0 then
          sysEnd o 2 s
        else if (s.die die).loan.isSome || !(s.die die).stands || !s.dieIdle p die then sysEnd o 3 s
        else
          let s1 := (s.scrubDie die).rekey [p, n 1 1]
          sysEnd o 0 (s1.setDie die { s1.die die with loan := some ⟨p, n 1 1, n 2 1, n 4 4, n 3 1 == 1, none, []⟩, keys := some (n 1 1) }))

/-- `slrcl`. -/
def sliceRecall (o : LF) (h : Fin 16) (s : State) : Eff :=
  let die := (s.x (fieldReg o.a)).toNat
  hubOnly o h s (
    if 8 ≤ die then sysEnd o 2 s
    else if !(s.hart h).mayActOn ((s.sliceOwner die).getD 8) then sysEnd o 1 s
    else if (s.die die).loan.isNone then sysEnd o 3 s
    else sysWait h (.recall die) ((s.startRecall die).noted s))

/-! ### Queues, records, stamps and time (23 R390, R391, R393, R394) -/

/-- `qlink`. Where no producer has written slot 62, that slot is passed over (DESIGN CHOICE, log 33). -/
def queueLink (o : LF) (h : Fin 16) (s : State) : Eff :=
  let a := s.x (fieldReg o.a)
  let b := s.x (fieldReg o.b)
  let p := (keyArgs a).1
  let q := (keyArgs a).2
  hubOnly o h s (
    if !(s.hart h).mayActOn p then sysEnd o 1 s
    else if !keyArgsOk a then sysEnd o 2 s
    else
      match (s.part p).queue q with
      | none => sysEnd o 2 s
      | some v =>
        if s.vaOf v.cid b % 4096 != 0 || !s.passes v.cid b 4096 (rightR ||| rightW) then sysEnd o 2 s
        else
          let u := s.devTouch (s.deviceAcc v.cid) (b + 4032) 64
          if (u.devRead (u.deviceAcc v.cid) (b + 4032) 64).any (· != 0) then sysEnd o 2 u
          else if v.tail != 62 then sysEnd o 3 u
          else
            let u1 := if v.stall then u else u.setPart p ((u.part p).setQueue q { v with posted := v.posted ++ [⟨0, none, true⟩] })
            sysEnd o 0 (u1.linkSegment p q b))

/-- `errpost`. -/
def recordPost (o : LF) (h : Fin 16) (s : State) : Eff :=
  let cid := (s.x (fieldReg o.a)).toNat
  let b := (s.x (fieldReg o.b)).toNat
  hubOnly o h s (
    if !(s.hart h).mayActOn (partOf cid) then sysEnd o 1 s
    else if 4096 ≤ cid || !s.blockAt b || s.physNat (b + 4) 2 != cid || (s.ctx? cid).isNone then sysEnd o 2 s
    else
      let x := s.post cid o.fmt.toNat (s.fwRead b 64)
      sysEnd o (if x.2 then 0 else 5) x.1)

/-- A compute die's pool: the lower of the value set and the thermal cap (25 R409). -/
def Die.pooled (d : Die) : Die := { d with pool := min d.stampSet d.cap }

/-- `stmp`. -/
def stampSetPool (o : LF) (h : Fin 16) (s : State) : Eff :=
  let a := (s.x (fieldReg o.a)).toNat
  let b := (s.x (fieldReg o.b)).toNat
  let other := match dieOfHart h with
    | some d => d != a
    | none => false
  if 8 ≤ a then sysEnd o 2 s
  else if other || !(s.hart h).mayActOn ((s.sliceOwner a).getD 8) then sysEnd o 1 s
  else if 1360 < b then sysEnd o 2 s
  else sysEnd o 0 (s.setDie a ({ s.die a with stampSet := b }).pooled)

/-- `tset`: only while the master is not locked, and on the domain master where the package joined a domain (24 R406). -/
def timeSet (o : LF) (h : Fin 16) (s : State) : Eff :=
  hubOnly o h s (
    if s.hub.timeLocked || (s.hub.domain && !s.hub.tmaster) then sysEnd o 3 s
    else sysEnd o 0 { s with hub := { s.hub with time := (s.x (fieldReg o.a)).toNat } })

/-- `tadj`, which acts on the domain master: a package that follows one has no rate of its own to set (24 R406; DEDUCED, log 87). -/
def timeAdjust (o : LF) (h : Fin 16) (s : State) : Eff :=
  let v := (s.x (fieldReg o.a)).toInt
  hubOnly o h s (
    if v < -4194304 || 4194304 < v then sysEnd o 2 s
    else if s.hub.domain && !s.hub.tmaster then sysEnd o 3 s
    else sysEnd o 0 { s with hub := { s.hub with rate := v } })

end Sys2Proof.Machine
end

