-- ==== Sys2Proof/Machine/Starts.lean ====
section
/-! DEFINITION. Starting and restoring teams, speculative starts with their proofs, and the assay (02 R26, 04 R74, 06 R102-R109,
20 R348, R349). -/

namespace Sys2Proof.Machine

/-! ### Starting a team (02 R26) -/

/-- A task starts only where it holds a save slot or one is free (20 R348). -/
def State.slotFree (s : State) (t : Task) : Option Nat :=
  match t.slot, s.ctx? t.cid with
  | some k, _ => some k
  | none, some c => (List.range c.nslots).find? fun k => !c.slots.contains k
  | none, none => none

/-- The focused task with a save slot of its own. -/
def State.takeSlot (s : State) (k : Nat) : State :=
  match s.cur.slot, s.ctx? s.cur.cid with
  | none, some c => let s1 := s.setCtx { c with slots := c.slots ++ [k] }; { s1 with cur := { s1.cur with slot := some k } }
  | _, _ => s

/-- The instruction words of a code image. -/
def codeWords (bs : List Byte) : List (BitVec 32) :=
  (List.range (bs.length / 4)).map fun i => BitVec.ofNat 32 (leNat ((bs.drop (4 * i)).take 4))

/-- The value of `x11` at start. -/
def Task.startTile (t : Task) : Word := BitVec.ofNat 64 (t.tx + t.ty * 2 ^ 16 + t.tz * 2 ^ 32 + t.vdie * 2 ^ 48)

/-- The scalar registers at start. -/
def Task.startRegs (t : Task) : Vector Word 32 :=
  let put (v : Vector Word 32) (i : Nat) (a : Word) : Vector Word 32 := regSet v (BitVec.ofNat 5 i) a
  let trip (i : Nat) : Word := BitVec.ofNat 64 (t.trips.getD i 0)
  put (put (put (put (put (put (put (Vector.replicate 32 0) 10 t.args) 11 t.startTile) 12 t.tcb) 13 (trip 0)) 14 (trip 1)) 15 (trip 2)) 16 (trip 3)

/-- The team at start, but for its pigeonholes. -/
def State.startTeam (s : State) : Team :=
  let t := s.cur
  let k := parseKernel (s.devRead s.sorterAcc t.code 128)
  let m (code : Word) (len : Nat) : Member := { blankMember with x := t.startRegs, code := codeWords (s.devRead s.sorterAcc code len) }
  { blankTeam with seq := m k.seqCode k.seqLen, ld := m k.ldcCode k.ldcLen, st := m k.stcCode k.stcLen, fs := t.vframe,
                   srseed := writeSeed (t.startTile + 1) }

/-- The focused team's pigeonholes configured from the 16 entries of a PHCFG block; none where an entry is invalid (04 R74). -/
def State.startHoles (s : State) (es : List Word) : Option State :=
  es.zipIdx.foldl (fun (u : Option State) e =>
    match u with
    | none => none
    | some u =>
      if (e.1.extractLsb' 32 16).toNat = 0 then some u
      else if u.holeOk (holeOf e.1) e.2 then some (u.setHole e.2 (holeOf e.1)) else none) (some s)

/-- The start of the focused team's pigeonholes, or the miss that faults the task at its start or has it wait for a page (04 R74). -/
def State.applyPhcfg (s : State) : Except Miss State :=
  let b := s.cur.phcfg
  if b = 0 then .ok s
  else
    match s.check s.cur.cid b 128 rightR with
    | .error t => .error ⟨some (t.withBref b 128), s⟩
    | .ok _ =>
      match s.translatePages s.sorterAcc b 128 false with
      | .error m => .error m
      | .ok (u, _) =>
        let v := u.devTouch u.sorterAcc b 128
        match v.startHoles (wordsOf (v.devRead v.sorterAcc b 128) 16) with
        | some x => .ok x
        | none => .error (missOf .phState v)

/-- The slot states at a non-speculative start (13 R258). -/
def Task.realSlots (t : Task) : Task :=
  let st (i : Nat) : Nat := if (slotDecl t.specIn i).getLsbD 0 then 3 else 0
  { t with slot0 := st 0, slot1 := st 1, prod0 := none, prod1 := none, assay0 := .idle, assay1 := .idle, depth := 0 }

/-- What the start of the focused team reads: its kernel descriptor and its code images (19 R329, R330). A line of them that fails reads
zeros (DESIGN CHOICE, log 71). -/
def State.touchCode (s : State) : State :=
  let u := s.devTouch s.sorterAcc s.cur.code 128
  (parseKernel (u.devRead u.sorterAcc u.cur.code 128)).images.foldl (fun (v : State) c => v.devTouch v.sorterAcc c.1 c.2) u

/-- The focused task starts from its entry on a core (02 R26); a bad PHCFG block faults it at its start (04 R74). None while a page of that
block is being backed (19 R330). -/
def State.startFresh (s : State) (c : CoreId) (spec : Bool) : Option State :=
  let s1 := (s.enterCore c).touchCode
  let s2 := ({ s1 with cur := { s1.cur with team := s1.startTeam, collTags := [], runTime := 0, image := false } }).putState .running spec
  match s2.applyPhcfg with
  | .ok u => some u.checkpointHere
  | .error m => m.trap.map fun t =>
    let u := m.state.takeTrap .seq t
    { u with cur := { u.cur with fresh := true } }

/-- A pigeonhole whose ring lies in the cluster scratchpad, restored empty (04 R77). -/
def Hole.emptied (p : Hole) : Hole :=
  if p.en && clusBase ≤ p.base then { p with head := 0, tail := 0, filled := 0, taken := 0, resv := [] } else p

/-- Whether the focused task's team last ran on another die than a core's, or on one its virtual die no longer has (04 R77). -/
def Task.movesTo (t : Task) (c : CoreId) : Bool := t.lastCluster.all fun k => k / 32 != coreDie c

/-- The focused task restored on a core (20 R348, R349, R355); kept answers are applied (18 R314). On another die its rings in the cluster
scratchpad are empty, and a speculative task is squashed (04 R77). -/
def State.restoreOn (s : State) (c : CoreId) : State :=
  if !s.imageGood then s.killHang (s.hangDetail s.cur)
  else if s.cur.movesTo c && s.cur.spec then s.squash
  else
    let t := s.cur.team
    let t1 := (if s.cur.movesTo c then { t with ph := t.ph.map Hole.emptied } else t).restored s.freeCount
    let s0 := { s.setTeam t1 with freeCount := s.freeCount + 1 }
    let s1 := (s0.enterCore c).putState .running s.cur.spec
    ({ s1 with cur := { s1.cur with image := false } }).applyAnswers.checkpointHere

/-- A saved task that is parked, or holds a fault, takes no core; one that committed meanwhile completes or is reported. -/
def State.restoreIdle (s : State) : State :=
  if s.imageGood then
    let s1 := s.putState .running s.cur.spec
    if s1.cur.spec then s1 else s1.afterCommit
  else s.killHang (s.hangDetail s.cur)

/-- Whether a task may start now on a core: the head of its sorter's queues, its stamps, the core and a save slot (02 R33,
20 R342, R348). -/
def State.startsOn (s : State) (t : Task) (c : CoreId) : Bool :=
  t.queued && (s.queueHead t.die).map Task.id == some t.id && s.mayStartOn t c && s.stampsFree t (coreDie c) && (s.slotFree t).isSome

/-- The start or restore of a task on a core. -/
def State.startTask (s : State) (t : Task) (c : CoreId) : State :=
  match s.slotFree t with
  | none => s
  | some k =>
    s.withTask t.id fun u =>
      let v := u.takeSlot k
      if v.cur.parked || v.cur.held.isSome then v.restoreIdle
      else if v.cur.image && !v.cur.fresh then v.restoreOn c
      else
        let w := { v with cur := if v.cur.spec then v.cur else v.cur.realSlots }
        (w.startFresh c v.cur.spec).getD u

/-! ### Proofs (06 R102-R104) -/

/-- The format of a history record. -/
def Hist.ffmt (h : Hist) : FFmt := match h.fmt with | 0 => fp32 | 1 => fp16 | _ => bf16

/-- A value rounded to FP32 under RNE with IEEE overflow. -/
def rnd32 (v : Val) : Val := fp32.decode (fp32.round 0 true 0 v).1

/-- One element of a proof, from the codes of versions a and b. -/
def proofElem (f : FFmt) (mode a b : Nat) : Nat :=
  let va := f.decode a
  let t := rnd32 (va.add false (f.decode b).flip).1
  let p := match mode with
    | 0 => va
    | 1 => rnd32 (va.add false t).1
    | 2 => rnd32 (va.add false (rnd32 (t.scale (-1)))).1
    | _ => rnd32 (va.add false (rnd32 (t.scale (-2)))).1
  (f.round 0 false 0 p).1

/-- The element codes in some bytes. -/
def codesOf (n elt : Nat) (bs : List Byte) : List Nat := (List.range n).map fun i => leNat ((bs.drop (elt * i)).take elt)

/-- The proof of a history record under a mode, as element codes. -/
def State.proofOf (s : State) (a : Acc) (h : Hist) (mode : Nat) : List Nat :=
  let va := codesOf h.elems h.elt (s.devRead a h.slotA h.size)
  let vb := if mode = 0 then va else codesOf h.elems h.elt (s.devRead a h.slotB h.size)
  (va.zip vb).map fun ab => proofElem h.ffmt mode ab.1 ab.2

/-- The producer of an enabled slot: the live task whose HIST is the slot's (06 R100). -/
def State.producer (s : State) (t : Task) (i : Nat) : Option Task :=
  if (slotDecl t.specIn i).getLsbD 0 then
    let h := (s.tolOf t.cid t.tol i).hist
    s.liveTasks.find? fun u => u.id != t.id && u.cid == t.cid && u.tcb != 0 && u.predOut.getLsbD 0 && u.hist == h
  else none

/-- The history record of a slot. -/
def State.slotHist (s : State) (t : Task) (i : Nat) : Hist := s.hist t.cid (s.tolOf t.cid t.tol i).hist

/-- The slots on a proof. -/
def State.proofSlots (s : State) (t : Task) : List Nat := ([0, 1] : List Nat).filter fun i => (s.producer t i).isSome

/-- The depth of a speculative start (06 R104). -/
def State.specDepth (s : State) (t : Task) : Nat :=
  1 + (s.proofSlots t).foldl (fun m i => match s.producer t i with
    | some u => max m (if u.spec then u.depth else 0)
    | none => m) 0

/-- The virtual lines of the proofs. -/
def State.proofLines (s : State) (t : Task) : List Nat :=
  ((s.proofSlots t).flatMap fun i =>
    let h := s.slotHist t i
    (pieces (s.vaOf t.cid h.tile) h.size).map fun p => p.1 / 64).dedup

/-- Whether a task could start now: a core, its stamps and a save slot (20 R342, R348). -/
def State.couldStart (s : State) (t : Task) : Bool := s.startable t && (s.slotFree t).isSome

/-- The state after a task has taken a core and a save slot. -/
def State.granted (s : State) (t : Task) (c : CoreId) : State :=
  let s1 := match s.slotFree t, s.ctx? t.cid with
    | some k, some x => s.setCtx { x with slots := x.slots ++ [k] }
    | _, _ => s
  s1.setTask { t with core := some c }

/-- Whether a task is granted a speculative start on a core (06 R104). -/
def State.grants (s : State) (t : Task) (c : CoreId) : Bool :=
  let ps := s.proofSlots t
  let on := { t with core := some c }
  t.state == .waiting && !t.hasRun && t.tcb != 0 && !ps.isEmpty && t.deps == ps.length
    && (ps.all fun i => (if declMode (slotDecl t.specIn i) = 0 then 1 else 2) ≤ (s.slotHist t i).versions)
    && s.specDepth t ≤ 3 && s.mayStartOn t c && s.stampsFree t (coreDie c) && (s.slotFree t).isSome
    && (s.proofLines t).length ≤ s.proofRoom on
    && match s.queueHead t.die with
      | none => true
      | some n => n.effPrio < t.effPrio || !s.couldStart n || (s.granted t c).couldStart n

/-- A proof put into the focused task's entry, its written mask zero (06 R103). -/
def Task.putGuess (t : Task) (va : Nat) (bs : List Byte) : Task :=
  (pieces va bs.length).foldl (fun (u : Task) p =>
    let l := (u.proofLine (p.1 / 64)).getD ⟨p.1 / 64, 0, 0, 0, []⟩
    let x := lineOf (p.1 % 64) ((bs.drop (p.1 - va)).take p.2)
    let full := (List.range 64).foldl (fun d i => if x.2.getLsbD i then setByte d i (byteOf x.1 i) else d) l.data
    u.putProof { l with data := full, proof := l.proof ||| x.2 }) t

/-- One slot of the focused task as a speculative start finds it: its proof formed, or its input real. -/
def State.proveSlot (s : State) (i : Nat) : State :=
  let t := s.cur
  let set (st : Nat) (p : Option Nat) (g : List Nat) (u : Task) : Task :=
    if i = 0 then { u with slot0 := st, prod0 := p, guess0 := g, assay0 := .idle }
    else { u with slot1 := st, prod1 := p, guess1 := g, assay1 := .idle }
  match s.producer t i with
  | none => { s with cur := set (if (slotDecl t.specIn i).getLsbD 0 then 3 else 0) none [] t }
  | some p =>
    let h := s.slotHist t i
    let g := s.proofOf s.assayAcc h (declMode (slotDecl t.specIn i))
    { s with cur := (set 1 (some p.id) g t).putGuess (s.vaOf t.cid h.tile) (g.flatMap fun c => leBytes h.elt c) }

/-- What a speculative start or an assay of the focused task reads for a slot: its tolerance and history records, and for a start version a
and, unless MODE is LAST, version b, for an assay the tile (06 R102, R108, 19 R329, R330). -/
def State.touchSlot (s : State) (assay : Bool) (i : Nat) : State :=
  if !(slotDecl s.cur.specIn i).getLsbD 0 then s
  else
    let s1 := s.devTouch s.sorterAcc s.cur.tol 64
    let s2 := s1.devTouch s1.sorterAcc (s1.tolOf s1.cur.cid s1.cur.tol i).hist 64
    let h := s2.slotHist s2.cur i
    let tiles := if assay then [h.tile] else if declMode (slotDecl s.cur.specIn i) = 0 then [h.slotA] else [h.slotA, h.slotB]
    tiles.foldl (fun (u : State) b => u.devTouch u.assayAcc b h.size) s2

/-- The speculative start of a task on a core (06 R104). -/
def State.startSpec (s : State) (t : Task) (c : CoreId) : State :=
  match s.slotFree t with
  | none => s
  | some k =>
    s.withTask t.id fun u =>
      let u := u.adoptSize u.cur.part (c / 16)
      let v := { u with cur := { u.cur with core := some c, proof := [] } }.takeSlot k
      let w := { v with cur := { v.cur with depth := s.specDepth t, specAt := s.hub.time } }
      (((w.proveSlot 0).proveSlot 1).startFresh c true).getD u

/-! ### The assay (06 R108) -/

/-- Whether a magnitude is at most a bound. -/
def within (d b : Val) : Bool := match d, b with
  | .nan, _ => false
  | _, .nan => false
  | _, _ => d.cmp b != 1

/-- Whether a slot passes, from the element values of the real tile and of the proof. -/
def assayPass (metric : Nat) (atol rtol : Val) (rs ps : List Val) : Bool :=
  let pairs := rs.zip ps
  let diff (x : Val × Val) : Val := rnd32 (x.1.add false x.2.flip).1
  rs.all Val.finite && ps.all Val.finite && match metric with
    | 0 => pairs.all fun x => within (diff x).abs (rnd32 (atol.add false (rnd32 (rtol.mul x.1.abs).1)).1)
    | 1 => pairs.all fun x => within (diff x).abs atol
    | _ =>
      let sums := pairs.foldl (fun (s : Val × Val) x =>
        let d := diff x
        (rnd32 (d.fma false d s.1).1, rnd32 (x.1.fma false x.1 s.2).1)) (vZero, vZero)
      within sums.1 (rnd32 ((rnd32 (rtol.mul rtol).1).mul sums.2).1)

/-- The verdict on a slot of the focused task: the real tile read at its home against the proof. The tolerance record is read again and not
validated again, and so is the history record (DESIGN CHOICE, log 72); a line of a record or tile that fails reads zeros with no record
(DESIGN CHOICE, log 71). -/
def State.assaySlot (s : State) (i : Nat) : Bool :=
  let r := s.tolOf s.cur.cid s.cur.tol i
  let h := s.slotHist s.cur i
  let real := codesOf h.elems h.elt (s.devRead s.assayAcc h.tile h.size)
  assayPass r.metric (fp32.decode r.atol) (fp32.decode r.rtol) (real.map h.ffmt.decode)
    ((if i = 0 then s.cur.guess0 else s.cur.guess1).map h.ffmt.decode)

/-- The assay of a slot. -/
def Task.assay (t : Task) (i : Nat) : Assay := if i = 0 then t.assay0 else t.assay1

/-- A task with the assay of a slot replaced. -/
def Task.setAssay (t : Task) (i : Nat) (a : Assay) : Task := if i = 0 then { t with assay0 := a } else { t with assay1 := a }

/-- A slot marked as passed (06 R110). -/
def Task.passSlot (t : Task) (i : Nat) : Task := if i = 0 then { t with slot0 := 2 } else { t with slot1 := 2 }

end Sys2Proof.Machine
end

