-- ==== Sys2Proof/Machine/EvTask.lean ====
section
/-! DEFINITION. Events of one task: landings, traps, starts, completion, speculation, waits, saves and checkpoints (02, 04, 06, 18, 20). -/

namespace Sys2Proof.Machine

/-- An argument of the event being performed; 0 where it has none. -/
def State.arg (s : State) (i : Nat) : Nat := s.args.getD i 0

/-- What an event does to the task its first argument names; nothing when there is none. -/
def State.onArg (s : State) (f : State → State) : State := s.withTask (s.arg 0) f

/-- The members of the focused team that have not ended. -/
def State.aliveMembers (s : State) : List Member := ([.seq, .ld, .st] : List Who).map s.member |>.filter fun m => !m.ended

/-- Whether a member blocks in a swap-eligible wait (02 R34). -/
def Member.swappable (m : Member) : Bool :=
  match m.wait with
  | some w => w.swapEligible
  | none => false

/-- Whether package time has passed a threshold of microseconds since an instant. -/
def State.past (s : State) (since us : Nat) : Bool := since + microseconds us ≤ s.hub.time

/-- Whether the focused task runs on a core and is not stopping. -/
def State.running (s : State) : Bool := s.cur.state == .running && s.cur.core.isSome && s.cur.stop.isNone

/-- The focused task with a stop begun. -/
def State.beginStop (s : State) (r : Stop) : State := { s with cur := { s.cur with stop := some r, preemptAt := s.hub.time } }

/-- A word at its home under a kept descriptor, 0 where its line fails; none where its page does not translate. -/
def State.wordAtHome (s : State) (va n : Nat) (desc : List Byte) : Option Nat :=
  let d := parseDesc desc
  match s.translate s.sorterAcc d va false with
  | .error _ => none
  | .ok (_, p) => some (leNat (((s.homeRead s.cur.cid d.keyslot (p.at va)).1.drop (p.at va % 64)).take n))

/-- Whether what a swapped member awaited has changed at its home (02 R34): the word of `twait`, or the holders of the object of its `acq`,
or, where it waits for an entry of the directory, whether there is one. -/
def State.awaited (s : State) (w : Who) : Bool :=
  match (s.member w).wait with
  | some (.twait va n seen _ desc) => (s.wordAtHome va n desc).map (BitVec.ofNat 64) != some seen
  | some (.acq va seen _) =>
    match s.sync? s.cur.cid va, seen with
    | some y, some k => y.changes != k
    | some _, none => true
    | none, some _ => true
    | none, none => !s.directoryFull
  | _ => false

/-- Whether a member's wait is one that a threshold re-queues (02 R34). -/
def Member.timedWait (m : Member) : Bool :=
  match m.wait with
  | some (.twait _ _ _ _ _) => false
  | some (.acq _ _ _) => false
  | some w => w.swapEligible
  | none => false

/-- The focused task's save abandoned (20 R355): a rollback, or the end of its team, as which counts too a speculative task without a
checkpoint in its speculation (DESIGN CHOICE, log 92). -/
def State.abandonStop (s : State) : State :=
  if s.rollbackable s.cur && s.cur.ckptInSpec then s.rollback 9 else s.killHang (s.hangDetail s.cur)

/-- The member a HANG names: the lowest-numbered one that has not ended (18 R322). -/
def State.hangMember (s : State) : Option Who := (([.seq, .ld, .st] : List Who)).find? fun w => !(s.member w).ended

/-- The hang watchdog on the focused task: its timer has reached the threshold (18 R322, 20 R355). -/
def State.hang (s : State) : State :=
  if !(s.cur.core.isSome && microseconds (s.part s.cur.part).hang ≤ s.cur.hung) then s
  else if s.cur.stop.isSome then s.abandonStop
  else
    match s.hangMember with
    | none => s
    | some w => s.takeTrap w { cause := .hang, d1 := s.hangDetail s.cur }

/-- LANDING: the results of a task whose delay has run out land (04 R61); a `pm.mx` number completes with its landing (05 R84). -/
def evLanding (s : State) : State :=
  s.onArg fun u =>
    let due := (u.cur.team.landings.filter fun e => e.delay == 0).filterMap fun e => e.mx
    let v := u.setTeam u.cur.team.landDue
    if u.cur.spec then v else due.foldl (fun (x : State) n => x.completePm u.cur.cid u.cur.vdie 2 n) v

/-- The event LANDING. -/
def execLanding (s : State) : Host.Outcome State Fault Refusal := .next (evLanding s)

/-- TRAP: a trap whose stop has waited for the operations in flight is taken (18 R308). -/
def evTrap (s : State) : State :=
  s.onArg fun u =>
    match u.cur.stop with
    | some (.trap r) => if u.inFlight u.cur.id then u else u.finishTrap r
    | _ => u

/-- The event TRAP. -/
def execTrap (s : State) : Host.Outcome State Fault Refusal := .next (evTrap s)

/-- Whether a stepped task that waits for a core may take one (18 R320, 02 R33). -/
def State.stepsOn (s : State) (t : Task) (c : CoreId) : Bool :=
  t.stepping.isSome && t.core.isNone && s.mayStartOn t c && s.stampsFree t (coreDie c)

/-- TASK_START: the head task of its sorter starts or is restored on a core (02 R26, R33), or the team of a stepped task is (18 R320). -/
def evTaskStart (s : State) : State :=
  match s.task? (s.arg 0) with
  | none => s
  | some t =>
    if s.startsOn t (s.arg 1) then (s.startTask t (s.arg 1)).noted s
    else if s.stepsOn t (s.arg 1) then s.withTask t.id fun u => u.stepOn (s.arg 1)
    else s

/-- The event TASK_START. -/
def execTaskStart (s : State) : Host.Outcome State Fault Refusal := .next (evTaskStart s)

/-- Whether the focused task is at its end: all its members have ended with nothing of it in flight, and it is not a parked task that is
still to be restored (02 R29, R31). -/
def State.atEnd (s : State) : Bool :=
  s.cur.live && s.cur.allEnded && !s.cur.spec && s.cur.stepping.isNone && !s.inFlight s.cur.id && (s.cur.state == .running || !s.cur.parked)

/-- TASK_COMPLETE: a task all of whose members have ended completes (02 R31). -/
def evTaskComplete (s : State) : State :=
  s.onArg fun u => if u.atEnd then u.complete else u

/-- The event TASK_COMPLETE. -/
def execTaskComplete (s : State) : Host.Outcome State Fault Refusal := .next (evTaskComplete s)

/-- SPECULATIVE_START: a WAITING task starts on proofs of its inputs, as its sorter reads their records (06 R104). -/
def evSpeculativeStart (s : State) : State :=
  let u := s.onArg fun u => (u.touchSlot false 0).touchSlot false 1
  match u.task? (s.arg 0) with
  | none => s
  | some t => if u.grants t (s.arg 1) then u.startSpec t (s.arg 1) else s

/-- The event SPECULATIVE_START. -/
def execSpeculativeStart (s : State) : Host.Outcome State Fault Refusal := .next (evSpeculativeStart s)

/-- ASSAY_NOTICE: the notice of a producer reaches the consumer, whose assay engine compares the real tile with the proof (06 R108). -/
def evAssayNotice (s : State) : State :=
  s.onArg fun u =>
    match u.cur.assay (s.arg 1) with
    | .sent good =>
      let v := u.touchSlot true (s.arg 1)
      { v with cur := v.cur.setAssay (s.arg 1) (.formed (good && v.assaySlot (s.arg 1))) }
    | _ => u

/-- The event ASSAY_NOTICE. -/
def execAssayNotice (s : State) : Host.Outcome State Fault Refusal := .next (evAssayNotice s)

/-- ASSAY_VERDICT: the verdict on a slot reaches the sorter: the slot is real, and the task may commit; or it is squashed (06 R110). -/
def evAssayVerdict (s : State) : State :=
  (s.onArg fun u =>
    match u.cur.assay (s.arg 1) with
    | .formed true => { u with cur := (u.cur.setAssay (s.arg 1) .idle).passSlot (s.arg 1) }.tryCommit
    | .formed false => { u with cur := u.cur.setAssay (s.arg 1) .idle }.squash
    | _ => u).noted s

/-- The event ASSAY_VERDICT. -/
def execAssayVerdict (s : State) : Host.Outcome State Fault Refusal := .next (evAssayVerdict s)

/-- PROOF_STORE_TIMEOUT: a task frozen for want of a proof-store line for a team-wait threshold is squashed (06 R105). -/
def evProofStoreTimeout (s : State) : State :=
  (s.onArg fun u =>
    if u.cur.spec && u.cur.proofFull && u.past u.cur.fullAt (u.part u.cur.part).teamWait then u.squash else u).noted s

/-- The event PROOF_STORE_TIMEOUT. -/
def execProofStoreTimeout (s : State) : Host.Outcome State Fault Refusal := .next (evProofStoreTimeout s)

/-- TEAM_SWAP: a team that waits for a team-wait threshold is swapped out (02 R34). -/
def evTeamSwap (s : State) : State :=
  s.onArg fun u =>
    let waits := (u.aliveMembers.any Member.swappable) && !u.cur.proofFull
    if u.running && waits && u.past u.cur.issuedAt (u.part u.cur.part).teamWait then u.beginStop (.save 2) else u

/-- The event TEAM_SWAP. -/
def execTeamSwap (s : State) : Host.Outcome State Fault Refusal := .next (evTeamSwap s)

/-- SWAP_REQUEUE: a swapped task becomes READY when what it awaits changes, or a threshold after the swap (02 R34). -/
def evSwapRequeue (s : State) : State :=
  s.onArg fun u =>
    let ws : List Who := [.seq, .ld, .st]
    let timed := (u.aliveMembers.any Member.timedWait) && u.past u.cur.swappedAt (u.part u.cur.part).teamWait
    if u.cur.state == .saved && u.cur.reason == 2 && !u.cur.halted && (timed || ws.any u.awaited) then
      (u.makeReady).readied [u.cur.id]
    else u

/-- The event SWAP_REQUEUE. -/
def execSwapRequeue (s : State) : Host.Outcome State Fault Refusal := .next (evSwapRequeue s)

/-- HANG_TIMEOUT: the hang timer of a task reaches its threshold: HANG, or the end of a stop that does not finish (18 R322, 20 R355). -/
def evHangTimeout (s : State) : State :=
  (s.onArg State.hang).noted s

/-- The event HANG_TIMEOUT. -/
def execHangTimeout (s : State) : Host.Outcome State Fault Refusal := .next (evHangTimeout s)

/-- The tasks on the cores of a compute die, taken off them (18 R323, 21 R363). -/
def State.takeOffDie (s : State) (die : Nat) (detail : Task → Word) : State :=
  let ts := s.allTasks.filter fun t => match t.core with
    | some c => coreDie c == die
    | none => false
  ts.foldl (fun (u : State) t => u.withTask t.id fun v => v.takeOff (detail v.cur)) s

/-- FIRMWARE_WATCHDOG: the watchdog of a privileged hart runs out. Where M has serviced it since, it starts again; otherwise the hart is
reset, the event is reported, and the tasks of a die controller's slice are taken off their cores (18 R323, 21 R363, 25 R410). -/
def evFirmwareWatchdog (s : State) : State :=
  if h : s.arg 0 < 16 then
    let v := s.hart ⟨s.arg 0, h⟩
    if v.wdog then s.setHart ⟨s.arg 0, h⟩ { v with wdog := false }
    else
      let s1 := s.setHart ⟨s.arg 0, h⟩ blankHart
      if s.arg 0 < 8 then { s1 with hub := { s1.hub with evt := s1.hub.evt ||| 1 } }
      else
        let d := s.arg 0 - 8
        ((s1.setDie d { s1.die d with evt := (s1.die d).evt ||| 1 }).takeOffDie d s.hangDetail).noted s
  else s

/-- The event FIRMWARE_WATCHDOG. -/
def execFirmwareWatchdog (s : State) : Host.Outcome State Fault Refusal := .next (evFirmwareWatchdog s)

/-- SAVE_COMPLETE: a save whose operations in flight have completed is written, and the core released (20 R346, R348). -/
def evSaveComplete (s : State) : State :=
  s.onArg fun u =>
    match u.cur.stop with
    | some (.save r) => if u.inFlight u.cur.id || (u.cur.allEnded && !u.cur.spec) then u else u.finishSave r
    | _ => u

/-- The event SAVE_COMPLETE. -/
def execSaveComplete (s : State) : Host.Outcome State Fault Refusal := .next (evSaveComplete s)

/-- CHECKPOINT_DUE: a checkpoint falls due after the interval of the partition, or with seven eighths of the log area full (20 R349). -/
def evCheckpointDue (s : State) : State :=
  s.onArg fun u =>
    if u.running && (u.past u.cur.ckptAt (u.part u.cur.part).ckptInt || u.logHolds u.cur 7) then { u with cur := { u.cur with ckptDue := true } } else u

/-- The event CHECKPOINT_DUE. -/
def execCheckpointDue (s : State) : Host.Outcome State Fault Refusal := .next (evCheckpointDue s)

/-- CHECKPOINT_TAKEN: a due checkpoint is taken at a quiet instant (20 R349). -/
def evCheckpointTaken (s : State) : State :=
  s.onArg fun u =>
    if u.running && u.cur.ckptDue && u.quiet u.cur.id then
      u.checkpointHere.answerHarts fun w => match w with
        | .ckpt t => if t = u.cur.id then some 0 else none
        | _ => none
    else u

/-- The event CHECKPOINT_TAKEN. -/
def execCheckpointTaken (s : State) : Host.Outcome State Fault Refusal := .next (evCheckpointTaken s)

end Sys2Proof.Machine
end

