-- ==== Sys2Proof/Machine/EvLaunch.lean ====
section
/-! DEFINITION. Events of launches and their queues (02 R20-R24, 20 R336-R341, 24 R396). -/

namespace Sys2Proof.Machine

/-! ### Launch queues (20 R338-R341, 24 R396) -/

/-- Whether a queue holds a record to accept. -/
def Queue.pending (v : Queue) : Bool := !(v.headSeg == v.tailSeg && v.head == v.tail)

/-- Whether a queue is enabled and its context valid. -/
def State.serves (s : State) (v : Queue) : Bool :=
  v.weight != 0 && match s.ctx? v.cid with
    | some c => c.valid
    | none => false

/-- The stalled queues of a partition take the segments that its reserve pool has got (20 R339). -/
def State.linkStalled (s : State) (part : Nat) : State :=
  ((s.part part).queues.map (·.1)).foldl (fun (u : State) q => u.unstall part q) s

/-- HEAD advanced past a record; an emptied segment returns to the reserve pool (20 R339). -/
def State.advanceHead (s : State) (part q : Nat) (v : Queue) : State :=
  let u := { v with posted := v.posted.drop 1 }
  if v.head < 62 then s.setPart part ((s.part part).setQueue q { u with head := v.head + 1 })
  else
    let s1 := s.devTouch (s.deviceAcc v.cid) (v.headSeg + 4032) 8
    let next : Word := BitVec.ofNat 64 (s1.devNat (s1.deviceAcc v.cid) (v.headSeg + 4032) 8)
    let p := { s1.part part with pool := (s1.part part).pool ++ [v.headSeg] }
    (s1.setPart part (p.setQueue q { u with headSeg := next, head := 0 })).linkStalled part

/-! ### The checks of a launch (02 R23) -/

/-- Levels in the order DIES, CORES, TEMPORAL from the outermost. -/
def levelsOrdered (ks : List Nat) : Bool :=
  match ks with
  | a :: b :: rest => b ≤ a && levelsOrdered (b :: rest)
  | _ => true

/-- Check 3. -/
def Kernel.check3 (k : Kernel) : Bool :=
  let ls := k.used
  let cores (a : Nat) : Nat := (ls.filter fun l => l.2.1 == 1 && l.2.2.1 == a).length
  1 ≤ k.nlevels && k.nlevels ≤ 6 && (ls.all fun l => l.2.1 ≤ 2 && l.2.2.1 ≤ 2 && (l.2.1 != 0 || l.2.2.1 == 0))
    && levelsOrdered (ls.map fun l => l.2.1) && (ls.filter fun l => l.2.1 == 2).length ≤ 1
    && cores 0 ≤ 1 && cores 1 ≤ 1 && cores 2 ≤ 1 && (ls.filter fun l => l.2.1 == 0).length ≤ 4

/-- The trip of the CORES level on an axis (02 R24). -/
def coresTrip (ls : List (Nat × Nat × Nat)) (a : Nat) : Nat :=
  match ls.find? fun l => l.2.1 == 1 && l.2.2 == a with
  | some l => l.1
  | none => 1

/-- The DIES level: its trip and axis; trip 1 and no axis where there is none. -/
def diesLevel (ls : List (Nat × Nat × Nat)) : Nat × Nat :=
  match ls.find? fun l => l.2.1 == 2 with
  | some l => (l.1, l.2.2)
  | none => (1, 3)

/-- The extent of an axis (02 R24). -/
def extent (ls : List (Nat × Nat × Nat)) (a : Nat) : Nat :=
  if (diesLevel ls).2 = a then (diesLevel ls).1 * coresTrip ls a else coresTrip ls a

/-- Trip, kind and axis of the levels. -/
def Kernel.table (k : Kernel) : List (Nat × Nat × Nat) := k.used.map fun l => (l.1, l.2.1, l.2.2.1)

/-- Check 4. -/
def Kernel.check4 (k : Kernel) : Bool :=
  let ls := k.table
  (ls.all fun l => 1 ≤ l.1 && l.1 ≤ 65536) && extent ls 0 ≤ 65536 && extent ls 1 ≤ 65536 && extent ls 2 ≤ 65536
    && extent ls 0 * extent ls 1 * extent ls 2 ≤ 2 ^ 32

/-- Check 6. POLICY[7:4], which check 2 may count among the reserved fields, are taken as part of POLICY here, so that a nonzero bit of them
is DETAIL 6 (DESIGN CHOICE, log 67). -/
def Kernel.check6 (k : Kernel) : Bool :=
  k.vframe % 32 == 0 && 32 ≤ k.vframe && k.vframe ≤ 2048 && k.prio ≤ 15 && 1 ≤ k.policy && k.policy ≤ 15 && k.spill ≤ 256
    && k.stamps ≤ 1360

/-- The DETAIL of the first check a launch fails; 0 when it passes. -/
def State.launchVerdict (s : State) (cid : Nat) (kernel : Word) (k : Kernel) (depth : Nat) : Nat :=
  if !s.passes cid kernel 128 rightR then 1
  else if !k.check2 then 2
  else if !k.check3 then 3
  else if !k.check4 then 4
  else if !s.kernelCheck5 cid k then 5
  else if !k.check6 then 6
  else if 8 < depth then 7
  else 0

/-- The LAUNCH record of a launch whose ARGS fails check 1 (02 R23, 18 R311). -/
def State.launchRecord (s : State) (cid id : Nat) (args : Word) : List Byte :=
  leBytes 2 4 ++ leBytes 2 0 ++ leBytes 2 cid ++ leBytes 2 0 ++ leBytes 8 0 ++ leBytes 8 0 ++ leBytes 8 id ++ leBytes 8 0
    ++ leBytes 8 args.toNat ++ leBytes 8 1 ++ leBytes 8 s.hub.time

/-- A rejected child no longer holds its parent's launch open. -/
def State.childRejected (s : State) (cid : Nat) (parent : Nat) : State :=
  match s.launch? cid parent with
  | some l => (s.setLaunch { l with children := l.children - 1 }).settleLaunches
  | none => s

/-- The acceptance of a launch record of a queue (02 R21, R23). -/
def State.acceptRecord (s : State) (part q : Nat) (v : Queue) (c : Context) (bs : List Byte) : State :=
  let a := s.deviceAcc v.cid
  let kernel : Word := BitVec.ofNat 64 (leNat (bs.take 8))
  let args : Word := BitVec.ofNat 64 (leNat ((bs.drop 8).take 8))
  let id := c.launchCount + 1
  let parent := (v.posted.headD ⟨0, none, false⟩).parent
  let depth := match s.launch? v.cid parent with
    | some l => l.depth + 1
    | none => 1
  let s1 := (s.setCtx { c with launchCount := id }).advanceHead part q v
  if !s.passes v.cid args 16 rightW then (s1.post v.cid 0 (s1.launchRecord v.cid id args)).1.childRejected v.cid parent
  else
    let s1 := s1.devTouch a kernel 128
    let k := parseKernel (s1.devRead a kernel 128)
    let verdict := s1.launchVerdict v.cid kernel k depth
    let s2 := s1.devWrite a (args + 8) (leBytes 8 id)
    if verdict != 0 then (s2.devWrite a args (leBytes 4 2 ++ leBytes 4 verdict)).childRejected v.cid parent
    else
      let ls := k.table
      let n := extent ls 0 * extent ls 1 * extent ls 2
      let l : Launch := { cid := v.cid, id := id, part := part, queue := q, kernel := kernel, args := args, depth := depth,
                          parent := if parent = 0 then none else some parent, levels := ls, total := n,
                          ndies := c.vdies.length, next := [], left := n, cancelled := 0, children := 0 }
      let s3 := s2.devWrite a args (leBytes 4 0)
      { s3 with launches := s3.launches ++ [l] }

/-! ### Dispatch (02 R24, 20 R340) -/

/-- The first launch of a queue with tasks not yet dispatched. -/
def State.undispatched (s : State) (part q : Nat) : Option Launch :=
  s.launches.find? fun l => l.part == part && l.queue == q && (l.next.map (·.2)).sum < l.total

/-- How many indexes of the DIES level a virtual die takes: those congruent to it modulo the number of dies (02 R24). -/
def Launch.shares (l : Launch) (v : Nat) : Nat := ((diesLevel l.levels).1 + l.ndies - 1 - v) / l.ndies

/-- The extent on an axis of the tiles of a virtual die. -/
def Launch.ownExtent (l : Launch) (v a : Nat) : Nat :=
  if (diesLevel l.levels).2 = a then l.shares v * coresTrip l.levels a else coresTrip l.levels a

/-- The tile tasks of a virtual die; without a DIES level all are on the first. -/
def Launch.tiles (l : Launch) (v : Nat) : Nat :=
  if (diesLevel l.levels).2 = 3 ∧ v ≠ 0 then 0 else l.ownExtent v 0 * l.ownExtent v 1 * l.ownExtent v 2

/-- The coordinate on an axis of the tile at an own coordinate of a virtual die. -/
def Launch.coordinate (l : Launch) (v a i : Nat) : Nat :=
  let c := coresTrip l.levels a
  if (diesLevel l.levels).2 = a then (i / c * l.ndies + v) * c + i % c else i

/-- The coordinates of the k-th tile of a virtual die, by linear tile index. -/
def Launch.tile (l : Launch) (v k : Nat) : Nat × Nat × Nat :=
  let x := l.ownExtent v 0
  let y := l.ownExtent v 1
  (l.coordinate v 0 (k % x), l.coordinate v 1 (k / x % y), l.coordinate v 2 (k / x / y))

/-- The linear tile index of some coordinates. -/
def Launch.linear (l : Launch) (t : Nat × Nat × Nat) : Nat := (t.2.2 * extent l.levels 1 + t.2.1) * extent l.levels 0 + t.1

/-- The tasks a virtual die has been handed. -/
def Launch.sent (l : Launch) (v : Nat) : Nat := Sparse.get 0 l.next v

/-- The loop-table task of a launch for a virtual die at some coordinates (02 R24). Its effective priority is fixed here, from the PRIO that
its queue has at this moment, and its ready time is the hub's package time (DESIGN CHOICE, log 69). A virtual die that a resize has taken
away meanwhile leaves it to compute die 0 (DESIGN CHOICE, log 85). -/
def State.loopTask (s : State) (l : Launch) (k : Kernel) (v : Nat) (t : Nat × Nat × Nat) : Task :=
  { blankTask with
    part := l.part, cid := l.cid, launch := l.id, linear := l.linear t, tx := t.1, ty := t.2.1, tz := t.2.2, vdie := v,
    die := (s.vdies l.cid).getD v 0, state := .ready, prio := k.prio, effPrio := min k.prio (s.queuePrio l),
    policy := BitVec.ofNat 4 k.policy, stamps := k.stamps, est := k.est, vframe := k.vframe, spill := k.spill, phcfg := k.phcfg,
    args := l.args, code := l.kernel, trips := k.temporal, readyAt := s.hub.time }

/-- Whether a die's sorter takes another task of a partition (20 R340). -/
def State.sorterTakes (s : State) (part die : Nat) : Bool :=
  (s.liveTasks.filter fun t => t.part == part && t.die == die && t.state == .ready && !t.hasRun).length < 1024

/-- The queues of a partition that have tasks to dispatch. -/
def State.waitingQueues (s : State) (part : Nat) : List (Nat × Queue) :=
  (s.part part).queues.filter fun kv => s.serves kv.2 && (s.undispatched part kv.1).isSome

/-- The virtual die of a launch that takes its next task: the lowest linear tile index among those whose sorter takes one (02 R24,
20 R340). -/
def State.nextDie (s : State) (l : Launch) : Option Nat :=
  let open_ := (List.range l.ndies).filter fun v => l.sent v < l.tiles v && s.sorterTakes l.part ((s.vdies l.cid).getD v 0)
  let index (v : Nat) : Nat := l.linear (l.tile v (l.sent v))
  open_.foldl (fun (m : Option Nat) v => match m with
    | none => some v
    | some u => if index v < index u then some v else some u) none

/-- The launch of a queue, and the virtual die, from which its next task is dispatched; none where no sorter takes one of its tasks. -/
def State.nextTask (s : State) (part q : Nat) : Option (Launch × Nat) :=
  (s.launches.filter fun l => l.part == part && l.queue == q).findSome? fun l => (s.nextDie l).map fun v => (l, v)

/-- The queue that comes next among some of one priority: the next higher index than the one last served, or the lowest. -/
def nextQueue (last : Option Nat) (qs : List Nat) : Option Nat :=
  match last, (qs.filter fun q => last.all fun k => k < q).min? with
  | some _, some q => some q
  | _, _ => qs.min?

/-- The queue of a partition that is served next: of the highest priority of which a die takes a task, in ascending index, those with
credit before the others (20 R340). -/
def State.servedQueue (s : State) (part : Nat) : Option Nat :=
  let qs := (s.waitingQueues part).filter fun kv => (s.nextTask part kv.1).isSome
  match (qs.map fun kv => kv.2.prio).max? with
  | none => none
  | some top =>
    let mine := qs.filter fun kv => kv.2.prio == top
    let rich := mine.filter fun kv => 0 < kv.2.credit
    let turn := ((s.part part).turns.find? fun t => t.1 == top).map (·.2)
    nextQueue turn ((if rich.isEmpty then mine else rich).map (·.1))

/-- One task of a launch handed to a virtual die's sorter, as its queue's turn. -/
def State.dispatchOne (s : State) (l : Launch) (v : Nat) : State :=
  let s0 := s.devTouch (s.deviceAcc l.cid) l.kernel 128
  let k := parseKernel (s0.devRead (s0.deviceAcc l.cid) l.kernel 128)
  let p := s0.part l.part
  let prio := s0.queuePrio l
  let s1 := s0.setPart l.part { p with turns := (prio, l.queue) :: p.turns.filter fun t => t.1 != prio }
  let s2 := (s1.addTask (s1.loopTask l k v (l.tile v (l.sent v)))).setLaunch { l with next := Sparse.set 0 l.next v (l.sent v + 1) }
  (s2.charge l.part l.queue k.est).readied [s0.nextId]

/-- The credit of the queues of a partition at a quantum tick (20 R340). -/
def State.credited (s : State) (part : Nat) : State :=
  let qs := s.waitingQueues part
  let cores := 512 * (s.part part).slices.length
  qs.foldl (fun (u : State) kv =>
    let w := ((qs.filter fun k => k.2.prio == kv.2.prio).map fun k => k.2.weight).sum
    let add : Int := kv.2.weight * cores * 100000 / w
    u.setPart part ((u.part part).setQueue kv.1 { kv.2 with credit := min (kv.2.credit + add) (2 * add) })) s

/-- A waiting scheduling block put in force; a cluster in use keeps its old proof-store size (20 R336). -/
def State.applySched (s : State) (part : Nat) : State :=
  let p := s.part part
  let cs := p.slices.flatMap fun d => (List.range 32).map fun j => 32 * d + j
  let held := s.proofszHeld.filter fun kv => !(cs.contains kv.1 && s.clusterFree part kv.1)
  match p.pendingSched with
  | none => { s with proofszHeld := held }
  | some (tw, hg, dm, ci, pz) =>
    let busy := cs.filter fun c => !s.clusterFree part c && !(held.any fun kv => kv.1 == c)
    { s.setPart part { p with teamWait := tw, hang := hg, drainMax := dm, ckptInt := ci, proofsz := pz, pendingSched := none } with
      proofszHeld := held ++ busy.map fun c => (c, p.proofsz) }

/-- Whether a queue stalls the host: it waits for a segment, or its last slot would with the pool empty (20 R339, 24 R396). -/
def Part.stalls (p : Part) (v : Queue) : Bool := v.stall || (v.tail == 62 && p.pool.isEmpty)

/-- The status register of a queue window (24 R396). -/
def State.queueStatus (s : State) (part : Nat) (v : Queue) : Word :=
  BitVec.ofNat 64 ((if s.serves v then 0 else 2 ^ 49) + (if (s.part part).stalls v then 2 ^ 48 else 0) + v.refused % 2 ^ 16 * 2 ^ 32
    + v.accepted % 2 ^ 32)

/-- Whether a request to BAR 2 or BAR 4 of a TDI is served (24 R395). -/
def State.barServes (s : State) (part : Nat) : Bool := (s.part part).ideUp && (s.part part).tdi == .run

/-- A submission by the host to a queue: appended, or refused and counted, the supervisor told where the pool has run empty (20 R339); the
status register is what it can read after it. -/
def State.hostSubmit (s : State) (part q size : Nat) (v : Queue) (bs : List Byte) : State :=
  let s1 :=
    if size != 64 || !s.serves v || (s.part part).stalls v then
      let u := s.setPart part ((s.part part).setQueue q { v with refused := v.refused + 1 })
      if size == 64 && s.serves v && !v.stall then u.notify part 3 v.cid else u
    else s.enqueueRecord part q { v with accepted := v.accepted + 1 } (s.deviceAcc v.cid) ⟨0, none, false⟩ bs
  match (s1.part part).queue q with
  | some u => { s1 with reply := [s1.queueStatus part u] }
  | none => s1

/-- A launch record written by the partition supervisor, which waits while the queue stalls (20 R339; DESIGN CHOICE, log 79). -/
def State.supervisorSubmit (s : State) (part q : Nat) (v : Queue) (bs : List Byte) : State :=
  if v.stall || bs.length != 64 then s else s.enqueueRecord part q v (s.deviceAcc v.cid) ⟨0, none, false⟩ bs

/-- LAUNCH_ACCEPT: the Postmaster takes a launch record from a queue (02 R21, R23); not while a debugger holds it, and one discarded while
held is passed over (18 R321). -/
def evLaunchAccept (s : State) : State :=
  let part := s.arg 0
  let q := s.arg 1
  match (s.part part).queue q with
  | none => s
  | some v =>
    match s.ctx? v.cid with
    | none => s
    | some c =>
      let p := v.posted.headD ⟨0, none, false⟩
      let at_ := v.headSeg + BitVec.ofNat 64 (64 * v.head)
      if !v.pending || !s.serves v || p.holder.isSome then s
      else if p.dropped then s.advanceHead part q v
      else
        let u := s.devTouch (s.deviceAcc v.cid) at_ 64
        u.acceptRecord part q v c (u.devRead (u.deviceAcc v.cid) at_ 64)

/-- The event LAUNCH_ACCEPT. -/
def execLaunchAccept (s : State) : Host.Outcome State Fault Refusal := .next (evLaunchAccept s)

/-- HOST_LAUNCH_SUBMIT: the host writes a launch record to a queue window, a queue without a descriptor being a disabled one of no context
(24 R396), or, with 1 as thirteenth argument, the partition supervisor writes one to a queue (20 R339). -/
def evHostLaunchSubmit (s : State) : State :=
  let part := s.arg 0
  let q := s.arg 1
  let bs := ((s.args.drop 4).take 8).flatMap fun w => leBytes 8 w
  if s.arg 12 = 1 then
    match (s.part part).queue q with
    | none => s
    | some v => s.supervisorSubmit part q v bs
  else if s.barServes part && q < 64 && s.arg 2 < 64 then
    s.hostSubmit part q (if s.arg 2 = 0 then s.arg 3 else 0) (((s.part part).queue q).getD (.fresh 4096 0 0 0)) bs
  else s

/-- The event HOST_LAUNCH_SUBMIT. -/
def execHostLaunchSubmit (s : State) : Host.Outcome State Fault Refusal := .next (evHostLaunchSubmit s)

/-- QUANTUM_TICK: a quantum of 100 microseconds of package time has passed: scheduling blocks take effect, and queues gain credit
(20 R336, R340). -/
def evQuantumTick (s : State) : State :=
  let p := s.part (s.arg 0)
  if p.tick < s.hub.time / microseconds 100 then
    ((s.setPart (s.arg 0) { p with tick := p.tick + 1 }).applySched (s.arg 0)).credited (s.arg 0)
  else s

/-- The event QUANTUM_TICK. -/
def execQuantumTick (s : State) : Host.Outcome State Fault Refusal := .next (evQuantumTick s)

/-- DISPATCH: the Postmaster hands one loop-table task of the queue it serves next to a die sorter (20 R340). -/
def evDispatch (s : State) : State :=
  let part := s.arg 0
  match s.servedQueue part, s.nextTask part (s.arg 1) with
  | some q, some x => if q = s.arg 1 then s.dispatchOne x.1 x.2 else s
  | _, _ => s

/-- The event DISPATCH. -/
def execDispatch (s : State) : Host.Outcome State Fault Refusal := .next (evDispatch s)

/-- TOKEN_REFILL: a queue gains a priority token on its schedule (20 R341). -/
def evTokenRefill (s : State) : State :=
  let part := s.arg 0
  match (s.part part).queue (s.arg 1) with
  | none => s
  | some v =>
    if v.refill = 0 ∨ s.hub.time < v.refillAt then s
    else s.setPart part ((s.part part).setQueue (s.arg 1)
      { v with tokens := if v.tokens < v.tokcap then v.tokens + 1 else v.tokens, refillAt := v.refillAt + microseconds v.refill })

/-- The event TOKEN_REFILL. -/
def execTokenRefill (s : State) : Host.Outcome State Fault Refusal := .next (evTokenRefill s)

/-- RESERVE_POOL_REFILL: the supervisor adds segments to the reserve pool; stalled queues go on (20 R339). -/
def evReservePoolRefill (s : State) : State :=
  let part := s.arg 0
  let segs : List Word := (s.args.drop 1).map fun n => BitVec.ofNat 64 n
  (s.setPart part { s.part part with pool := (s.part part).pool ++ segs }).linkStalled part

/-- The event RESERVE_POOL_REFILL. -/
def execReservePoolRefill (s : State) : Host.Outcome State Fault Refusal := .next (evReservePoolRefill s)

end Sys2Proof.Machine
end

