-- ==== Sys2Proof/Machine/EvSched.lean ====
section
/-! DEFINITION. Events of the sorters: pre-emption, gang switches and recalls (20 R344-R354, 21 R362, R363). -/

namespace Sys2Proof.Machine

/-! ### Victims (20 R344, R345) -/

/-- Whether a candidate comes before another: lower effective priority, then the later start, then the higher core index. -/
def Task.victimBefore (a b : Task) : Bool :=
  a.effPrio < b.effPrio || (a.effPrio == b.effPrio && (b.startedAt < a.startedAt || (a.startedAt == b.startedAt
    && b.core.getD 0 % 512 < a.core.getD 0 % 512)))

/-- A task put into its place among candidates. -/
def insertVictim (t : Task) (ts : List Task) : List Task :=
  match ts with
  | [] => [t]
  | u :: rest => if t.victimBefore u then t :: u :: rest else u :: insertVictim t rest

/-- The die on which a sorter pre-empts for a newcomer: its own where that serves it, or a lent one. -/
def State.preemptDie (s : State) (n : Task) : Option Nat := (n.die :: List.range 8).find? fun d => s.dieServes n d

/-- The candidates for a newcomer on a die, in the order of R344; one that no policy can take is passed over (R345), as is one it has
already been replaced for. -/
def State.victims (s : State) (n : Task) (die : Nat) (urgent : Bool) (past : Option Nat) : List Task :=
  let on := s.allTasks.filter fun t => t.id != n.id && some t.id != past && t.state == .running && t.stop.isNone && !t.draining
    && !t.settling && t.effPrio < n.effPrio
    && (match t.core with
      | some c => coreDie c == die && (s.homeCluster n).all fun k => k == c / 16
      | none => false)
    && (s.choose t urgent (some (microseconds (s.part t.part).drainMax))).isSome
  on.foldl (fun ts t => insertVictim t ts) []

/-- The fewest candidates, at least one, whose stamps with the free ones cover a demand; none where all do not. -/
def coverDemand (ts : List Task) (free demand : Nat) : Option (List Task) :=
  match ts with
  | [] => none
  | t :: rest => if demand ≤ free + t.demand then some [t] else (coverDemand rest (free + t.demand) demand).map (t :: ·)

/-- The stamps free for a task on a die. -/
def State.stampsLeft (s : State) (t : Task) (die : Nat) : Nat := (s.die die).pool - s.stampsTaken t die

/-- A policy chosen for the focused task and applied, DRAIN within a bound. A task that no longer runs on a core, or is stopping, for one
taken before it has squashed it, is left as it is. -/
def State.preemptOne (s : State) (urgent : Bool) (drain : Option Nat) (reason : Nat) : State :=
  if s.cur.state != .running || s.cur.core.isNone || s.cur.stop.isSome then s else
  match s.choose s.cur urgent drain with
  | some p => s.applyPolicy p reason
  | none => s

/-- The stamps that a newcomer's victims are still to free for it. -/
def State.stampsDue (s : State) (n : Task) : Nat := (n.reserves.filter fun r => s.occupied r.1).foldl (fun k r => k + r.2) 0

/-- The pre-emption for a newcomer: tokens spent but for `paid` already spent, cores and stamps reserved, a policy applied to each
victim. -/
def State.preemptFor (s : State) (n : Task) (l : Launch) (q : Queue) (vs : List Task) (paid : Nat) : State :=
  let s1 := s.setPart l.part ((s.part l.part).setQueue l.queue { q with tokens := q.tokens - (vs.length - paid) })
  let s2 := s1.withTask n.id fun u => { u with cur := { u.cur with reserves := u.cur.reserves ++ vs.filterMap fun v => v.core.map fun c => (c, v.demand) } }
  vs.foldl (fun (u : State) v => u.withTask v.id fun w =>
    w.preemptOne q.urgent (some (microseconds (w.part w.cur.part).drainMax)) 1) s2

/-- Whether the victims a newcomer already has will free its demand. -/
def State.covered (s : State) (n : Task) (die : Nat) : Bool := !n.reserves.isEmpty && n.demand ≤ s.stampsLeft n die + s.stampsDue n

/-- The pre-emption of R344 for the head of its sorter's queues, one task passed over, whose token `paid` counts. -/
def State.preempt (s : State) (n : Task) (past : Option Nat) (paid : Nat) : State :=
  if !(n.queued && (s.queueHead n.die).map Task.id == some n.id && !s.startable n) || ((s.preemptDie n).any fun d => s.covered n d) then s
  else
    match s.launch? n.cid n.launch, s.preemptDie n with
    | some l, some d =>
      match (s.part l.part).queue l.queue with
      | none => s
      | some q =>
        match coverDemand (s.victims n d q.urgent past) (s.stampsLeft n d + s.stampsDue n) n.demand with
        | some vs => if vs.length - paid ≤ q.tokens then s.preemptFor n l q vs paid else s
        | none => s
    | _, _ => s

/-- The newcomer for which a task was chosen as a victim. -/
def State.newcomerOf (s : State) (t : Task) : Option Task := s.liveTasks.find? fun n => n.reserves.any fun r => some r.1 == t.core

/-- Whether a task came by an URGENT queue. -/
def State.urgentTask (s : State) (n : Task) : Bool :=
  match s.launch? n.cid n.launch with
  | some l => (match (s.part l.part).queue l.queue with
    | some q => q.urgent
    | none => false)
  | none => false

/-- A victim that no policy can take any more replaced by the next candidates: its core and stamps are reserved no longer, and the tokens
are counted again; the one spent for it is not given back, and stands for one of theirs (20 R341, R345, R346; DEDUCED, log 82). -/
def State.replaceVictim (s : State) (v : Task) : State :=
  match s.newcomerOf v with
  | none => s
  | some n =>
    let s1 := s.withTask n.id fun u => { u with cur := { u.cur with reserves := u.cur.reserves.filter fun r => some r.1 != v.core } }
    match s1.task? n.id with
    | some m => s1.preempt m (some v.id) 1
    | none => s1

/-- Whether a task stands on a die under recall, whose deadline bounds its DRAIN (21 R362). -/
def State.underRecall (s : State) (t : Task) : Bool :=
  match t.core with
  | none => false
  | some c =>
    match (s.die (coreDie c)).loan with
    | some l => l.recalledAt.isSome
    | none => false

/-! ### Gang switches (20 R353, R354) -/

/-- The running and stopping tasks of a context on a core of a die. -/
def State.gangOn (s : State) (cid die : Nat) : List Task :=
  s.allTasks.filter fun t => t.cid == cid && t.state == .running && match t.core with
    | some c => coreDie c == die
    | none => false

/-- The dies of a context's gang. -/
def State.gangDies (s : State) (cid : Nat) : List Nat := (s.part (partOf cid)).slices

/-- Whether a gang switch took a task of a context off its core. -/
def Task.ganged (t : Task) (cid : Nat) : Bool :=
  t.cid == cid && t.reason == 7 && (t.state == .saved || t.state == .rolledBack) && !t.halted

/-- The focused task goes back into its queue, SAVED or ROLLED_BACK as it is, with the key of the cycle in which it does (02 R29, R33). -/
def State.regain (s : State) : State := { s with cur := { s.cur with reason := 0, readyAt := s.requeueKey } }

/-- The tasks of an incoming gang restored (20 R353). -/
def State.restoreGang (s : State) (cid : Nat) : State :=
  (s.liveTasks.filter fun t => t.ganged cid).foldl (fun (u : State) t => u.withTask t.id State.regain) s

/-- The sixteen bytes of a virtual-die table. -/
def tableBytes (ds : List Nat) : List Byte :=
  leBytes 1 ds.length ++ leBytes 7 0 ++ (List.range 8).flatMap fun i => leBytes 1 (ds.getD i 0)

/-- The commit of a gang switch once every die has voted or was reset: the incoming context's table is bound, and its gang restored. -/
def State.commitGang (s : State) (g : Gang) (table : List Nat) : State :=
  if !((s.gangDies g.cid).all fun d => g.votes.contains d || g.resets.contains d) then { s with gang := some g }
  else
    let s1 := { s with gang := none }
    let s2 := match s1.ctx? g.incoming with
      | none => s1
      | some c =>
        match s1.vdieTable (partOf g.incoming) (tableBytes table) with
        | some new => s1.bindVdies c new (tableBytes table)
        | none => s1
    s2.restoreGang g.incoming

/-- A rollback that takes precedence over a task's POLICY and its remaining save (20 R354); for a speculative task whose
checkpoint came before its speculative start, what 06 R112 puts in its place. One whose last `tend` has completed becomes DONE. -/
def State.forceRollback (s : State) (reason : Nat) : State :=
  if s.cur.core.isNone || !s.rollbackable s.cur || s.cur.allEnded then s
  else if s.cur.ckptInSpec then s.rollback reason
  else if s.cur.policy.getLsbD 3 then s.kill
  else s.applyPolicy .save reason

/-- A compute die reset with the tasks on it taken off as 21 R363 says, the DETAIL1 of each as given, and reported (25 R409); what its
clusters had not written home is lost. -/
def State.resetDieWith (s : State) (detail : Task → Word) (die : Nat) : State :=
  let s0 := { s with cache := s.cache.filter fun l => l.cluster / 32 != die }
  let s1 := s0.takeOffDie die detail
  let s2 := { s1 with cache := s1.cache.filter (fun l => l.cluster / 32 != die), tlbs := s1.tlbs.filter (fun t => t.die != die),
                      clus := Sparse.clear s1.clus (0x800000 * (32 * die)) (0x800000 * 32), clusBad := s1.clusBad.filter fun b => b.1 / 32 != die }
  let s3 := s2.setDie die { s2.die die with inReset := true, clock := blankClock }
  let s3 := if h : 8 + die < 16 then s3.setHart ⟨8 + die, h⟩ blankHart else s3
  match s3.sliceOwner die with
  | some p => s3.notify p 3 0
  | none => s3

/-- A compute die reset now. -/
def State.resetDie (s : State) (die : Nat) : State := s.resetDieWith s.hangDetail die

/-- A slice reported to the management owner, whose channel the manual does not give: the reply names it (DESIGN CHOICE, log 83). -/
def State.tellOwner (s : State) (die : Nat) : State := { s with reply := s.reply ++ [BitVec.ofNat 64 die] }

/-! ### Recall (21 R362, R363) -/

/-- The return of a lent die to its lender, out of the reset that a missed deadline put it in (21 R362, R363); one that is orphaned holds
no key slots until it is brought back (21 R364). -/
def State.returnDie (s : State) (die : Nat) (l : Loan) : State :=
  let s1 := (s.scrubDie die).rekey [l.lender, l.borrower]
  let d := s1.die die
  (s1.setDie die { d with loan := none, inReset := false, keys := if d.orphan then d.keys else none }).answerHarts fun w => if w = .recall die then some 0 else none

/-- PREEMPT: a sorter chooses victims for a blocked newcomer (20 R344, R345). -/
def evPreempt (s : State) : State :=
  match s.task? (s.arg 0) with
  | some n => (s.preempt n none 0).noted s
  | none => s

/-- The event PREEMPT. -/
def execPreempt (s : State) : Host.Outcome State Fault Refusal := .next (evPreempt s)

/-- The focused victim's DRAIN that has not completed in time replaced by another policy, without a token; where it allows none, the next
candidate takes its place (20 R345, R346). -/
def State.drainOver (s : State) : State :=
  let u := { s with cur := { s.cur with draining := false } }
  match u.choose u.cur ((u.newcomerOf u.cur).any u.urgentTask) none with
  | some p => u.applyPolicy p 1
  | none => u.replaceVictim u.cur

/-- DRAIN_TIMEOUT: a DRAIN that has not completed DRAIN_MAX after its choice (20 R346). -/
def evDrainTimeout (s : State) : State :=
  (s.onArg fun u =>
    if u.running && u.cur.draining && !u.cur.allEnded && !u.underRecall u.cur && u.past u.cur.preemptAt (u.part u.cur.part).drainMax then u.drainOver
    else u).noted s

/-- The event DRAIN_TIMEOUT. -/
def execDrainTimeout (s : State) : Host.Outcome State Fault Refusal := .next (evDrainTimeout s)

/-- The member states of a context's tasks that occupy cores. -/
def State.gangMembers (s : State) (cid : Nat) : List (Nat × Word) :=
  (s.allTasks.filter fun t => t.cid == cid && t.state == .running && t.core.isSome).map fun t => (t.id, s.hangDetail t)

/-- GANG_SWITCH: the prepare phase of a gang switch: every running task of the context is pre-empted (20 R353). -/
def evGangSwitch (s : State) : State :=
  let cid := s.arg 0
  match s.gang, s.ctx? cid with
  | none, some c =>
    if !c.gang then s
    else
      let ts := s.allTasks.filter fun t => t.cid == cid && t.state == .running && t.core.isSome && t.stop.isNone
      let s1 := { s with gang := some ⟨cid, s.arg 1, s.hub.time, [], [], s.gangMembers cid⟩ }
      (ts.foldl (fun (u : State) t => u.withTask t.id fun v => v.preemptOne true none 7) s1).noted s
  | _, _ => s

/-- The event GANG_SWITCH. -/
def execGangSwitch (s : State) : Host.Outcome State Fault Refusal := .next (evGangSwitch s)

/-- GANG_VOTE: a die whose tasks of the gang have all left their cores votes; the last vote commits (20 R353). -/
def evGangVote (s : State) : State :=
  match s.gang with
  | none => s
  | some g =>
    let die := s.arg 1
    if g.cid != s.arg 0 || !(s.gangDies g.cid).contains die || !(s.gangOn g.cid die).isEmpty || g.votes.contains die then s
    else s.commitGang { g with votes := g.votes ++ [die] } (s.args.drop 2)

/-- The event GANG_VOTE. -/
def execGangVote (s : State) : Host.Outcome State Fault Refusal := .next (evGangVote s)

/-- GANG_VOTE_DEADLINE: a die misses the vote deadline: what still runs or stops is rolled back (20 R354). -/
def evGangVoteDeadline (s : State) : State :=
  match s.gang with
  | none => s
  | some g =>
    if g.cid != s.arg 0 || !s.past g.tick 120 then s
    else
      let ts := s.allTasks.filter fun t => t.cid == g.cid && t.state == .running && t.core.isSome
      (ts.foldl (fun (u : State) t => u.withTask t.id fun v => v.forceRollback 7) s).noted s

/-- The event GANG_VOTE_DEADLINE. -/
def execGangVoteDeadline (s : State) : Host.Outcome State Fault Refusal := .next (evGangVoteDeadline s)

/-- GANG_RESET_DEADLINE: a die that still has not voted is reset and reported, and the commit proceeds without it, with the table of the
incoming context that the Postmaster binds (20 R354). -/
def evGangResetDeadline (s : State) : State :=
  match s.gang with
  | none => s
  | some g =>
    if g.cid != s.arg 0 || !s.past g.tick 170 then s
    else
      let late := (s.gangDies g.cid).filter fun d => !g.votes.contains d && !g.resets.contains d
      let s1 := late.foldl (fun (u : State) d => (u.resetDieWith (u.detailIn g.members) d).tellOwner d) { s with reply := [] }
      (s1.commitGang { g with resets := g.resets ++ late } (s.args.drop 1)).noted s

/-- The event GANG_RESET_DEADLINE. -/
def execGangResetDeadline (s : State) : Host.Outcome State Fault Refusal := .next (evGangResetDeadline s)

/-- RECALL_DEADLINE: borrower tasks that have not left a recalled die in time are taken off, and the die is reset (21 R363). -/
def evRecallDeadline (s : State) : State :=
  let die := s.arg 0
  match (s.die die).loan with
  | none => s
  | some l =>
    match l.recalledAt with
    | none => s
    | some r =>
      if !s.past r (l.deadline - 20) || (s.borrowers die l.borrower).isEmpty then s
      else (s.resetDieWith (s.detailIn l.members) die).noted s

/-- The event RECALL_DEADLINE. -/
def execRecallDeadline (s : State) : Host.Outcome State Fault Refusal := .next (evRecallDeadline s)

/-- RECALL_RETURN: a recalled die that no borrower task occupies returns to its lender (21 R362). -/
def evRecallReturn (s : State) : State :=
  let die := s.arg 0
  match (s.die die).loan with
  | none => s
  | some l => if l.recalledAt.isSome && (s.borrowers die l.borrower).isEmpty then s.returnDie die l else s

/-- The event RECALL_RETURN. -/
def execRecallReturn (s : State) : Host.Outcome State Fault Refusal := .next (evRecallReturn s)

end Sys2Proof.Machine
end

