-- ==== Sys2Proof/Machine/EvMemory.lean ====
section
/-! DEFINITION. Events of memory: evictions, copies, grants, near-bank queries, collectives, transactions at their homes, and translations (05, 07, 12, 19, 22, 24). -/

namespace Sys2Proof.Machine

/-! ### Routes between dies (24 R399-R401, 21 R364) -/

/-- Whether a compute die is connected: its hub link is up, or a ring link to a neighbour whose hub link is up (21 R364). -/
def State.cdConnected (s : State) (n : Nat) : Bool :=
  s.linkUp n || (s.linkUp (24 + n) && s.linkUp ((n + 1) % 8)) || (s.linkUp (24 + (n + 7) % 8) && s.linkUp ((n + 7) % 8))

/-- Whether a memory die is connected: its hub link is up, or its rim link to a connected compute die (21 R364). -/
def State.mdConnected (s : State) (m : Nat) : Bool := s.linkUp (32 + m) || (s.linkUp (8 + m) && s.cdConnected (m / 2))

/-- The links by which a die reaches the hub, by the numbers of 22 R375: 0 hub, 1-8 CD0-CD7, 16-31 MD0-MD15. A compute die whose hub link is
down relays through a connected ring neighbour, and a memory die through its compute die (21 R364, 24 R401). -/
def State.hubPath (s : State) (d : Nat) : Option (List Nat) :=
  let cd (n : Nat) : Option (List Nat) :=
    if s.linkUp n then some [n]
    else if s.linkUp (24 + n) && s.linkUp ((n + 1) % 8) then some [24 + n, (n + 1) % 8]
    else if s.linkUp (24 + (n + 7) % 8) && s.linkUp ((n + 7) % 8) then some [24 + (n + 7) % 8, (n + 7) % 8]
    else none
  if d = 0 then some []
  else if d ≤ 8 then cd (d - 1)
  else if s.linkUp (16 + d) then some [16 + d]
  else if s.linkUp (d - 8) then (cd ((d - 16) / 2)).map fun p => (d - 8) :: p
  else none

/-- The rim link that joins a compute die to a home stack or to a ring neighbour (24 R401). -/
def rimLink (a b : Nat) : Option Nat :=
  if 1 ≤ a ∧ a ≤ 8 ∧ 16 ≤ b ∧ (b - 16) / 2 = a - 1 then some (b - 8)
  else if 1 ≤ a ∧ a ≤ 8 ∧ 1 ≤ b ∧ b ≤ 8 ∧ b - 1 = a % 8 then some (23 + a)
  else none

/-- The route between two dies over the hub. -/
def State.overHub (s : State) (a b : Nat) : Option (List Nat) :=
  match s.hubPath a, s.hubPath b with
  | some p, some q => some (p ++ q.reverse)
  | _, _ => none

/-- The links of the route between two dies: the rim where its link is up, the hub otherwise; none where there is no route (24 R401). -/
def State.routeOf (s : State) (a b : Nat) : Option (List Nat) :=
  match (rimLink a b).or (rimLink b a) with
  | some n => if s.linkUp n then some [n] else s.overHub a b
  | none => s.overHub a b

/-- Whether a transaction finds a route (24 R401). -/
def State.routed (s : State) (a b : Nat) : Bool := (s.routeOf a b).isSome

/-- The flits that a link's transmitter holds for a replay: those of the bursts that no receiver has accepted, one at least for each
transaction (24 R400). -/
def State.unacked (s : State) (n : Nat) : Nat :=
  (s.txns.filter fun t => !t.accepted && (s.routeOf t.src t.dst).any fun p => p.contains n).length

/-- Whether a transaction may be sent: it has a route, and each of its links has room in its replay buffer of 128 flits. -/
def State.maySend (s : State) (a b : Nat) : Bool := (s.routeOf a b).any fun p => p.all fun n => s.unacked n < 128

/-! ### Transactions on the links (24 R399, R401; 22 R371-R373) -/

/-- A transaction in flight by its tag. -/
def State.txn? (s : State) (tag : Nat) : Option Txn := s.txns.find? fun t => t.tag == tag

/-- Whether a transaction is the oldest of its pair of dies, which arrive in order (24 R401). -/
def State.txnFirst (s : State) (t : Txn) : Bool :=
  match s.txns.find? fun u => u.src == t.src && u.dst == t.dst with
  | some u => u.tag == t.tag
  | none => false

/-- A transaction that has reached a locked block, held there in the order of arrival (22 R373). -/
def State.holdTxn (s : State) (t : Txn) : State := s.setBlock t.pa { s.block t.pa with held := (s.block t.pa).held ++ [t] }

/-- What the arrival of the transaction that the first argument names does; nothing while an older one of its pair or a missing
route keeps it, or before the burst that carries it is accepted (24 R400, R401). At its home a locked block holds it. -/
def State.onTxn (s : State) (home : Bool) (f : Txn → State → State) : State :=
  match s.txn? (s.arg 0) with
  | none => s
  | some t =>
    if t.accepted && s.txnFirst t && s.routed t.src t.dst then
      let u := { s with txns := s.txns.filter fun u => u.tag != t.tag }
      if home && (s.block t.pa).locked then u.holdTxn t else f t u
    else s

/-! ### Collectives (12 R236-R238) -/

/-- The error records of source lines of a send, by its sender's number (18 R316). -/
def State.sendErrors (s : State) (cid num : Nat) (x : Send) (es : List (Nat × Nat × Nat)) : State :=
  es.foldl (fun (u : State) e =>
    u.postError 2 cid e.2.2 4 (lineBref (keptBref x.descs x.src e.1) e.1) num 0 e.2.1) s

/-- A send performed at home: its bytes read and written past every cluster cache (12 R236). -/
def State.performSend (s : State) (c : Coll) (x : Send) : State :=
  let me := c.issued.find? fun m => m.rank == x.sender
  let num := match me with
    | some m => m.num
    | none => 0
  let src := s.dieOf c.cid (match me with | some m => m.vdie | none => 0)
  let r := s.homeReads src c.cid (keptDesc x.descs x.src) x.pages (keptVa x.descs x.src) x.len
  let s1 := r.1.sendErrors c.cid num x r.2.2
  s1.homeWrites src c.cid (keptDesc x.descs x.dst) x.pages x.dst (keptVa x.descs x.dst) r.2.1

/-- The first send of a list from a sender to a receiver that is not performed, marked performed. -/
def markSend (a b : Nat) (xs : List Send) : List Send :=
  match xs with
  | [] => []
  | x :: rest => if x.sender = a ∧ x.receiver = b ∧ !x.done then { x with done := true } :: rest else x :: markSend a b rest

/-! ### Translations and invalidations (19 R333, R334) -/

/-- Whether the operations that an invalidation waits for have ended: the copies and queries noted, the collective sends of the
range, and earlier invalidations of the context that meet it. -/
def State.invalReady (s : State) (v : Inval) : Bool :=
  !(s.copies.any fun c => v.copies.contains c.id) && !(s.queries.any fun q => v.queries.contains q.id)
    && !(s.colls.any fun c => c.cid == v.cid && c.sends.any fun x => !x.done && usesRange x.pages v.va v.len)
    && !(s.invals.any fun w => w.ticket < v.ticket && w.cid == v.cid && meets w.va w.len v.va v.len)

/-- Whether a task's proof-store entry holds a line of a range. -/
def Task.proofIn (t : Task) (va n : Nat) : Bool := t.proof.any fun l => meets (64 * l.line) 64 va n

/-- Steps 3 to 5 of 19 R334. -/
def State.finishInval (s : State) (v : Inval) : State :=
  let s1 := (List.range 256).foldl (fun (u : State) c => u.invRange c v.cid v.va v.len) s
  let ids := (s1.liveTasks.filter fun t => t.cid == v.cid && t.spec && t.proofIn v.va v.len).map Task.id
  let s2 := ids.foldl (fun (u : State) id => u.withTask id fun w => if w.cur.spec then w.squash else w) s1
  (({ s2 with invals := s2.invals.filter fun w => w.ticket != v.ticket }).answerHarts fun w => match w with
    | .tlbir k => if k = v.ticket then some 0 else none
    | _ => none).noted s

/-- The access of a cluster for a context; on a lent die it touches as the anchor's (19 R326). -/
def State.clusterAcc (s : State) (cid c : Nat) : Acc :=
  { cid := cid, cluster := some c,
    die := match (s.die (c / 32)).loan with
      | none => c / 32
      | some l => match s.ctx? cid with | some x => x.vdies.getD l.anchor 0 | none => c / 32 }

/-- CACHE_EVICTION: a line leaves a cluster cache; only its dirty bytes are written back, over links that have room for them (05 R81, 24
R400). -/
def evCacheEviction (s : State) : State :=
  match s.cached (s.arg 0) (s.arg 1) (s.arg 2) with
  | none => s
  | some l =>
    let u := s.dropCache l.cluster l.cid l.va
    let dst := s.homeDie l.pa
    if l.dirty = 0 then u
    else if !s.maySend (1 + l.cluster / 32) dst then s
    else
      { u with nextId := u.nextId + 1,
               txns := u.txns ++ [⟨u.nextId, l.cid, 1 + l.cluster / 32, dst, l.pa / 64 * 64, l.va, l.slot, l.nb, l.bref, 64,
                               .write l.data l.dirty, false⟩] }

/-- The event CACHE_EVICTION. -/
def execCacheEviction (s : State) : Host.Outcome State Fault Refusal := .next (evCacheEviction s)

/-- The fault of a task whose copy has met, once it was issued, a local line that cannot be read: LOCAL_UE in the member that issued it, with
the address and length of the copy's source there, and its record (04 R72; when it is met so is the model's choice, DESIGN CHOICE, log 1). -/
def State.copyFault (s : State) (c : Copy) (ms : List Move) : State :=
  match ms.findSome? fun m => match m.src with
      | .loc a => (s.badLineIn a m.len).map fun k => (k, a, m.len)
      | .buf _ => none with
  | some (k, a, n) => if s.cur.state = .running then (s.postLocalUe k).takeTrap c.who (trapAt .localUe (BitVec.ofNat 64 a) n) else s.postLocalUe k
  | none => s

/-- COPY_COMPLETE: a copy in flight writes its last byte: its number completes and its slot is posted (12 R230). Before that, as its second
argument says, one of its writes is performed ahead (1) or a part of its source read ahead (2), which other agents may see (04 R69). -/
def evCopyComplete (s : State) : State :=
  match s.copies.find? fun c => c.id == s.arg 0 with
  | none => s
  | some c => s.withTask c.task fun u =>
    let one := (c.todo[s.arg 2]?).toList.flatMap fun m => partOfMove m (s.arg 3) 1
    match s.arg 1 with
    | 0 =>
      match u.finishCopy c with
      | some v => v.copyFault c ((c.todo.filter unreadMove).map Prod.fst)
      | none => u.freezeFull
    | 1 =>
      let atom := (c.todo[s.arg 2]?).toList.flatMap fun m => (c.atom (s.arg 2) (s.arg 3) m).1
      (u.copyAhead c (s.arg 2) (s.arg 3)).copyFault c ((atom.filter unreadMove).map Prod.fst)
    | _ => (u.copyEarly c (s.arg 2) (s.arg 3)).copyFault c ((one.filter unreadMove).map Prod.fst)

/-- The event COPY_COMPLETE. -/
def execCopyComplete (s : State) : Host.Outcome State Fault Refusal := .next (evCopyComplete s)

/-- SYNC_GRANT: the directory grants the head request of an object, and the shared requests behind it (05 R88). -/
def evSyncGrant (s : State) : State :=
  match s.sync? (s.arg 0) (s.arg 1) with
  | none => s
  | some y => s.setSync y.grant

/-- The event SYNC_GRANT. -/
def execSyncGrant (s : State) : Host.Outcome State Fault Refusal := .next (evSyncGrant s)

/-- NBQ_ACCEPT: a memory die with a free entry of 64 accepts a query (07 R119, R125). -/
def evNbqAccept (s : State) : State :=
  match s.queries.find? fun q => q.id == s.arg 0 with
  | none => s
  | some q => if !q.accepted && s.nbLoad (stackOf q.frame) < 64 then s.nbAccept q else s

/-- The event NBQ_ACCEPT. -/
def execNbqAccept (s : State) : Host.Outcome State Fault Refusal := .next (evNbqAccept s)

/-- NB_ENGINE_RECORD: a bank engine's record is written into its slot, in ascending order of the engines (07 R119, R121). -/
def evNbEngineRecord (s : State) : State :=
  match s.queries.find? fun q => q.id == s.arg 0 with
  | none => s
  | some q => if q.accepted then s.nbEngine q (s.arg 1) else s

/-- The event NB_ENGINE_RECORD. -/
def execNbEngineRecord (s : State) : Host.Outcome State Fault Refusal := .next (evNbEngineRecord s)

/-- NB_SUMMARY: the summary of a query all of whose engine records are written is posted, and its number completes (07 R119, R121). -/
def evNbSummary (s : State) : State :=
  match s.queries.find? fun q => q.id == s.arg 0 with
  | none => s
  | some q => if q.accepted && q.records.all NbRecord.posted then s.nbFinish q else s

/-- The event NB_SUMMARY. -/
def execNbSummary (s : State) : Host.Outcome State Fault Refusal := .next (evNbSummary s)

/-- SAME_BANK_REFRESH: one refresh of a bank pre-empts a scan, at most once for each bank and query (07 R128). -/
def evSameBankRefresh (s : State) : State :=
  let m := s.mdie (s.arg 0)
  if s.arg 1 < 256 && s.arg 2 < 4 && !m.refreshed.contains (s.arg 1, s.arg 2) then
    s.setMdie (s.arg 0) { m with refreshed := m.refreshed ++ [(s.arg 1, s.arg 2)] }
  else s

/-- The event SAME_BANK_REFRESH. -/
def execSameBankRefresh (s : State) : Host.Outcome State Fault Refusal := .next (evSameBankRefresh s)

/-- COLL_ARRIVAL: a contribution is performed at home, counted once for its pair, and completes the numbers it completes (12 R236, R237). -/
def evCollArrival (s : State) : State :=
  match s.coll? (s.arg 0) (s.arg 1) with
  | none => s
  | some c =>
    match c.sends.find? fun x => x.sender == s.arg 2 && x.receiver == s.arg 3 && !x.done with
    | none => s
    | some x =>
      let pair := (x.sender, x.receiver)
      (s.performSend c x).settleColl
        { c with sends := markSend x.sender x.receiver c.sends, counted := if c.counted.contains pair then c.counted else c.counted ++ [pair] }

/-- The event COLL_ARRIVAL. -/
def execCollArrival (s : State) : Host.Outcome State Fault Refusal := .next (evCollArrival s)

/-- HOME_READ: a memory die reads and verifies a line and answers with its bytes (22 R371). -/
def evHomeRead (s : State) : State :=
  s.onTxn true fun t u =>
    match t.kind with
    | .read _ => u.performTxn t
    | _ => s

/-- The event HOME_READ. -/
def execHomeRead (s : State) : Host.Outcome State Fault Refusal := .next (evHomeRead s)

/-- HOME_WRITE: a memory die applies a line write and acknowledges it (22 R372). -/
def evHomeWrite (s : State) : State :=
  s.onTxn true fun t u =>
    match t.kind with
    | .write _ _ => u.performTxn t
    | _ => s

/-- The event HOME_WRITE. -/
def execHomeWrite (s : State) : Host.Outcome State Fault Refusal := .next (evHomeWrite s)

/-- BLOCK_UNLOCK: a re-encryption or revival ends: the block unlocks, and held accesses go on (22 R373). -/
def evBlockUnlock (s : State) : State :=
  s.unlock (4096 * s.arg 0)

/-- The event BLOCK_UNLOCK. -/
def execBlockUnlock (s : State) : Host.Outcome State Fault Refusal := .next (evBlockUnlock s)

/-- HOME_ATOMIC: an atomic is performed indivisibly at its home, and its old value returned (05 R91). -/
def evHomeAtomic (s : State) : State :=
  s.onTxn true fun t u =>
    match t.kind with
    | .atomic _ _ _ => u.performTxn t
    | _ => s

/-- The event HOME_ATOMIC. -/
def execHomeAtomic (s : State) : Host.Outcome State Fault Refusal := .next (evHomeAtomic s)

/-- What an error of a line is, by the second argument of ERROR_SCRUB. -/
def damageOf (n : Nat) : Damage :=
  match n with
  | 0 => .ecc
  | 1 => .eccAtom false
  | 2 => .eccAtom true
  | 3 => .mac
  | 4 => .counter
  | _ => .node (n - 5)

/-- ERROR_SCRUB: scrubbing finds a line uncorrectable and poisons it, or a line's MAC, its counter line or a node above it (6 to 12 as second
argument, for levels 1 to 7) has failed (18 R318, 22 R371); a dead block stores nothing to fail. With 5 as second argument, a line of a
cluster scratchpad has become uncorrectable (04 R72). Uncorrectable errors are counted by their die (25 R410). -/
def evErrorScrub (s : State) : State :=
  let pa := 64 * s.arg 0
  if s.arg 1 = 5 then
    (if s.arg 0 < 256 && s.arg 2 < 131072 && !s.clusBad.contains (s.arg 0, s.arg 2) then
      let n := s.arg 0 / 32
      { s.setDie n { s.die n with errcnt := (s.die n).errcnt + 1 } with clusBad := s.clusBad ++ [(s.arg 0, s.arg 2)] }
     else s)
  else if s.arg 1 ≤ 12 && s.homeOf pa = .here && s.damageAt pa = none && !(s.block pa).dead then
    let m := s.mdie (stackOf pa)
    { s.setMdie (stackOf pa) { m with errcnt := if s.arg 1 < 3 then m.errcnt + 1 else m.errcnt } with
      damage := (s.arg 0, damageOf (s.arg 1)) :: s.damage }
  else s

/-- The event ERROR_SCRUB. -/
def execErrorScrub (s : State) : Host.Outcome State Fault Refusal := .next (evErrorScrub s)

/-- COMPLETION: a completion returns its value to the requester (24 R399). -/
def evCompletion (s : State) : State :=
  s.onTxn false fun t u =>
    match t.kind with
    | .completion v => { u with reply := (List.range 8).map fun i => v.extractLsb' (64 * i) 64 }
    | _ => s

/-- The event COMPLETION. -/
def execCompletion (s : State) : Host.Outcome State Fault Refusal := .next (evCompletion s)

/-- ACKNOWLEDGEMENT_TOKEN: an acknowledgement token arrives, ending the operation that awaited it (01 R16). -/
def evAcknowledgementToken (s : State) : State :=
  s.onTxn false fun t u =>
    match t.kind with
    | .ack => u
    | _ => s

/-- The event ACKNOWLEDGEMENT_TOKEN. -/
def execAcknowledgementToken (s : State) : Host.Outcome State Fault Refusal := .next (evAcknowledgementToken s)

/-- DIRECTORY_MESSAGE: a message reaches the sync-object directory, which serves the queue of its object (05 R87, R88). -/
def evDirectoryMessage (s : State) : State :=
  match s.sync? (s.arg 0) (s.arg 1) with
  | none => s
  | some y => s.setSync y.grant

/-- The event DIRECTORY_MESSAGE. -/
def execDirectoryMessage (s : State) : Host.Outcome State Fault Refusal := .next (evDirectoryMessage s)

/-- MANAGEMENT_MESSAGE: a management slot crosses a die link (24 R399). -/
def evManagementMessage (s : State) : State :=
  s.onTxn false fun t u =>
    match t.kind with
    | .mgmt => u
    | _ => s

/-- The event MANAGEMENT_MESSAGE. -/
def execManagementMessage (s : State) : Host.Outcome State Fault Refusal := .next (evManagementMessage s)

/-- TLBIR_ACK: the hub acknowledges a range invalidation whose operations in flight have ended (19 R334). -/
def evTlbirAck (s : State) : State :=
  match s.invals.find? fun v => v.ticket == s.arg 0 with
  | none => s
  | some v => if s.invalReady v then s.finishInval v else s

/-- The event TLBIR_ACK. -/
def execTlbirAck (s : State) : Host.Outcome State Fault Refusal := .next (evTlbirAck s)

/-- PAGE_WALK: a walker translates an address for a cluster, setting A and D, backing the page at its first touch, and installs
the entry; a walk that faults leaves what it did before (19 R327-R333). -/
def evPageWalk (s : State) : State :=
  let cid := s.arg 0
  let va := s.arg 1
  let b := s.brefOfVa cid va
  let d := s.desc cid b
  if d.length = 0 ∨ 256 ≤ s.arg 3 then s
  else
    match s.translate (s.clusterAcc cid (s.arg 3)) d va (s.arg 2 != 0) with
    | .error m => m.state
    | .ok (u, _) => u

/-- The event PAGE_WALK. -/
def execPageWalk (s : State) : Host.Outcome State Fault Refusal := .next (evPageWalk s)

end Sys2Proof.Machine
end

