-- ==== Sys2Proof/Machine/EvSecurity.lean ====
section
/-! DEFINITION. Events of confidential computing: TDISP, SPDM, tenant records and the peer handshake (22 R366-R380). -/

namespace Sys2Proof.Machine

/-! ### Records, slots and the states of a TDI (22 R366-R368, R377) -/

/-- A partition's key slots cleared, as by `ksclr`, once the accesses accepted with them have completed (22 R368). -/
def State.clearSlots (s : State) (part : Nat) : State :=
  (List.range 64).foldl (fun (u : State) n =>
    if (u.keySlot n).part = part then (u.settleSlot n).setKeySlot n ⟨8, none, none, false⟩ else u) s

/-- A port without a partition's UALinkSec keys. -/
def Port.without (p : Port) (part : Nat) : Port :=
  { p with out := p.out.filter (fun k => k.part != part), into := p.into.filter fun k => k.part != part }

/-- A partition's tenant record and key slots zeroised, with the link keys of its trust domain; its path keys are loaded again
(22 R366, R367, R376). -/
def State.zeroise (s : State) (part : Nat) : State :=
  let s1 := s.clearSlots part
  let s2 := { s1 with hub := { s1.hub with ports := s1.hub.ports.map fun (p : Port) => p.without part } }
  s2.setPart part { s2.part part with tenant := none }.newKeys

/-- Whether a TDI is CONFIG_LOCKED or RUN. -/
def Tdi.held (t : Tdi) : Bool :=
  match t with
  | .locked => true
  | .run => true
  | _ => false

/-- What moves a TDI that is CONFIG_LOCKED or RUN to ERROR (22 R377). -/
def State.tdiError (s : State) (part : Nat) : State :=
  if part < 8 && (s.part part).tdi.held then
    let s1 := s.zeroise part
    s1.setPart part { s1.part part with tdi := .error, block6 := none, ideKeys := false, ideUp := false }
  else s

/-- The code of a TDI's state. -/
def Tdi.code (t : Tdi) : Nat :=
  match t with
  | .unlocked => 0
  | .locked => 1
  | .run => 2
  | .error => 3

/-- Words of a 512-bit response. -/
def responseWords (v : BitVec 512) : List Word := (List.range 8).map fun i => v.extractLsb' (64 * i) 64

/-- The response to a request of the root of trust. -/
def State.respond (s : State) (request port nonce : Nat) : State :=
  { s with reply := responseWords (Config.attestation request port nonce) }

/-- The interface report (22 R377): the slices, the page of BAR 2, and what block 6 measures. -/
def State.report (s : State) (part : Nat) : List Word :=
  let p := s.part part
  ([p.slices.length] ++ p.slices ++ [524288 * part] ++ s.block6 part).map fun n => BitVec.ofNat 64 n

/-! ### SPDM (22 R378) -/

/-- SPDM with one requester. -/
def State.spdm (s : State) (port : Nat) : Spdm := s.hub.spdm.toList.getD port ⟨0, false⟩

/-- The state with SPDM of a requester replaced; a message over the management interface is heard from the BMC (21 R365). -/
def State.setSpdm (s : State) (port : Nat) (v : Spdm) : State :=
  if h : port < 9 then
    { s with hub := { s.hub with spdm := s.hub.spdm.set port v h, bmcAt := if port = 8 then s.hub.time else s.hub.bmcAt } }
  else s

/-- The words of a message, its last one filled up with zeros. -/
def messageWords (bs : List Byte) : List Word := wordsOf bs ((bs.length + 7) / 8)

/-- A request that comes in its turn: the connection moves to a phase, and the response is given. -/
def State.spdmMove (s : State) (port : Nat) (ok : Spdm → Bool) (f : Spdm → Spdm) (response : List Word) : State :=
  if port < 9 && ok (s.spdm port) then { s.setSpdm port (f (s.spdm port)) with reply := response } else s

/-- A request whose response is the root of trust's own. -/
def State.spdmStep (s : State) (request port nonce : Nat) (ok : Spdm → Bool) (f : Spdm → Spdm) : State :=
  s.spdmMove port ok f (responseWords (Config.attestation request port nonce))

/-- The signed measurement blocks of a partition under a requester's nonce: what a touchmark is (22 R378). -/
def State.touchmark (s : State) (part nonce : Nat) : List Byte :=
  s.measurements part ++ deviceSign (s.measurements part ++ leBytes 32 nonce)

/-- The response to CHALLENGE: the digest of the certificate chain, a nonce, and the signature over the messages of the connection with the
requester's nonce (22 R378; PRESUMED of DSP0274, log 11). -/
def State.challengeAuth (s : State) (port nonce : Nat) : List Byte :=
  let body := shake256 Config.ownChain 64 ++ digestBytes (Config.freeNonce s.freeCount)
  body ++ deviceSign (Config.spdmTranscript port s.freeCount ++ leBytes 32 nonce ++ body)

/-- The VERSION response of SPDM 1.3 (22 R378; PRESUMED of DSP0274, log 11). -/
def versionBytes : List Byte := [0x10, 0x04, 0, 0, 0, 1, 0x00, 0x13]

/-! ### Tenant records and the peer handshake (22 R366, R379, R380) -/

/-- A tenant record installed; generation numbers start at 1, and path keys are loaded (22 R366, R367). -/
def State.installRecord (s : State) (part : Nat) (t : Tenant) (genno : BitVec 32) : State :=
  let p := s.part part
  s.setPart part { p with tenant := some t, genno := genno }.newKeys

/-- The handshake of a partition ended with nothing changed; its supervisor is told that it failed. -/
def State.joinFails (s : State) (part : Nat) : State := (s.setPart part { s.part part with join := none }).notify part 3 0

/-- The handshake of a partition moved on. -/
def State.joinMoves (s : State) (part : Nat) (j : Join) : State := s.setPart part { s.part part with join := some j }

/-- Whether a handshake stands with a peer in a role and phase, and its message comes within 10 ms (22 R380). -/
def State.joinAt (s : State) (part peer : Nat) (initiator : Bool) (phase : Nat) : Bool :=
  match (s.part part).join with
  | some j => j.peer == peer && j.initiator == initiator && j.phase == phase && s.hub.time ≤ j.since + microseconds 10000
  | none => false

/-- Whether a package is a peer of the domain (24 R404). -/
def State.isPeer (s : State) (pkg : Nat) : Bool := s.hub.domain && s.hub.peers.contains pkg

/-- A digest added to those admitted. -/
def Tenant.admits (t : Tenant) (peer : BitVec 512) : Tenant := if t.admitted.contains peer then t else { t with admitted := t.admitted ++ [peer] }

/-- Whether a tenant may admit a peer: its digest among PEERS and room in ADMITTED. -/
def Tenant.mayAdmit (t : Tenant) (peer : BitVec 512) : Bool := t.peers.contains peer && (t.admitted.contains peer || t.admitted.length < 64)

/-- A port with the UALinkSec keys of a partition's trust domain towards a peer. -/
def Port.keyed (p : Port) (part peer : Nat) (mine theirs : List Byte) : Port :=
  let rest (ks : List LinkKey) : List LinkKey := ks.filter fun k => !(k.part == part && k.peer == peer)
  { p with out := rest p.out ++ [⟨part, peer, mine, 0⟩], into := rest p.into ++ [⟨part, peer, theirs, 0⟩] }

/-- The UALinkSec keys of a handshake loaded into the ports, the sending one and the receiving one (22 R376, R380). -/
def State.loadLinkKeys (s : State) (part peer : Nat) (mine theirs : List Byte) : State :=
  { s with hub := { s.hub with ports := s.hub.ports.map fun (p : Port) => p.keyed part peer mine theirs } }

/-- The handshake of a partition completed: it holds the tenant record given, and the link keys. -/
def State.joined (s : State) (part peer : Nat) (t : Tenant) (mine theirs : List Byte) : State :=
  (s.setPart part { s.part part with tenant := some t, join := none }).loadLinkKeys part peer mine theirs

/-- The record that a responder holds after a JOIN_FINISH whose WRAP carries one, the initiator's digest admitted; none where its
TDI or its own record does not allow it (22 R380). -/
def State.joinRecord (s : State) (part : Nat) (sent : Tenant) (digest : BitVec 512) : Option (Tenant × BitVec 32) :=
  let p := s.part part
  if !p.tdi.held then none
  else
    match p.tenant with
    | none => some ({ sent with admitted := [digest] }, 1)
    | some t =>
      if t.id != sent.id || !(t.admitted.contains digest || t.admitted.length < 64) then none
      else some ({ t with trk := sent.trk, peers := sent.peers }.admits digest, p.genno)

/-- TENANT_SET: a tenant installs its record in an SPDM secure session while its TDI is CONFIG_LOCKED (22 R366). -/
def evTenantSet (s : State) : State :=
  let part := s.arg 0
  if part < 8 && (s.part part).tdi == .locked && (s.spdm part).session && (s.args.drop 3).length ≤ 16 then
    s.installRecord part ⟨BitVec.ofNat 256 (s.arg 1), BitVec.ofNat 64 (s.arg 2), (s.args.drop 3).map fun n => BitVec.ofNat 512 n, []⟩ 1
  else s

/-- The event TENANT_SET. -/
def execTenantSet (s : State) : Host.Outcome State Fault Refusal := .next (evTenantSet s)

/-- GET_TDISP_VERSION: the TDISP version query (22 R377). -/
def evGetTdispVersion (s : State) : State :=
  s.respond 1 (s.arg 0) 0

/-- The event GET_TDISP_VERSION. -/
def execGetTdispVersion (s : State) : Host.Outcome State Fault Refusal := .next (evGetTdispVersion s)

/-- GET_TDISP_CAPABILITIES: the TDISP capabilities query (22 R377). -/
def evGetTdispCapabilities (s : State) : State :=
  s.respond 2 (s.arg 0) 0

/-- The event GET_TDISP_CAPABILITIES. -/
def execGetTdispCapabilities (s : State) : Host.Outcome State Fault Refusal := .next (evGetTdispCapabilities s)

/-- LOCK_INTERFACE_REQUEST: block 6 is frozen, and the TDI is CONFIG_LOCKED (22 R377). -/
def evLockInterfaceRequest (s : State) : State :=
  let part := s.arg 0
  if part < 8 && (s.part part).tdi == .unlocked then
    s.setPart part { s.part part with tdi := .locked, block6 := some (s.block6Now part) }
  else s

/-- The event LOCK_INTERFACE_REQUEST. -/
def execLockInterfaceRequest (s : State) : Host.Outcome State Fault Refusal := .next (evLockInterfaceRequest s)

/-- GET_DEVICE_INTERFACE_REPORT: the report of a TDI (22 R377). -/
def evGetDeviceInterfaceReport (s : State) : State :=
  { s with reply := s.report (s.arg 0) }

/-- The event GET_DEVICE_INTERFACE_REPORT. -/
def execGetDeviceInterfaceReport (s : State) : Host.Outcome State Fault Refusal := .next (evGetDeviceInterfaceReport s)

/-- GET_DEVICE_INTERFACE_STATE: the state of a TDI (22 R377). -/
def evGetDeviceInterfaceState (s : State) : State :=
  { s with reply := [BitVec.ofNat 64 (s.part (s.arg 0)).tdi.code] }

/-- The event GET_DEVICE_INTERFACE_STATE. -/
def execGetDeviceInterfaceState (s : State) : Host.Outcome State Fault Refusal := .next (evGetDeviceInterfaceState s)

/-- START_INTERFACE_REQUEST: a CONFIG_LOCKED TDI runs: its queues are enabled, and its IDE stream, which carries nothing before it has
keys (22 R377; DEDUCED, log 84). -/
def evStartInterfaceRequest (s : State) : State :=
  let part := s.arg 0
  if part < 8 && (s.part part).tdi == .locked then
    s.setPart part { s.part part with tdi := .run, ideUp := (s.part part).ideKeys }
  else s

/-- The event START_INTERFACE_REQUEST. -/
def execStartInterfaceRequest (s : State) : Host.Outcome State Fault Refusal := .next (evStartInterfaceRequest s)

/-- STOP_INTERFACE_REQUEST: a TDI returns to CONFIG_UNLOCKED; out of CONFIG_LOCKED or RUN its record and slots are zeroised (22 R377). -/
def evStopInterfaceRequest (s : State) : State :=
  let part := s.arg 0
  if part < 8 && (s.part part).tdi.held then
    let s1 := s.zeroise part
    s1.setPart part { s1.part part with tdi := .unlocked, block6 := none, ideKeys := false, ideUp := false }
  else if part < 8 && (s.part part).tdi == .error then s.setPart part { s.part part with tdi := .unlocked }
  else s

/-- The event STOP_INTERFACE_REQUEST. -/
def execStopInterfaceRequest (s : State) : Host.Outcome State Fault Refusal := .next (evStopInterfaceRequest s)

/-- IDE_KM: keys of an IDE stream set over the SPDM secure session of its requester: of a TDI's, which is enabled while the TDI runs, or,
for 8, of the management's (22 R377). -/
def evIdeKm (s : State) : State :=
  let part := s.arg 0
  if !(s.spdm part).session then s
  else if part < 8 then s.setPart part { s.part part with ideKeys := true, ideUp := (s.part part).tdi == .run }
  else if part = 8 then { s with hub := { s.hub with mgmtIde := true } }
  else s

/-- The event IDE_KM. -/
def execIdeKm (s : State) : Host.Outcome State Fault Refusal := .next (evIdeKm s)

/-- IDE_STREAM_FAILURE: an IDE stream fails: of a TDI, whose record and slots are zeroised, and which is in ERROR, or, for 8, the
management's (22 R377). -/
def evIdeStreamFailure (s : State) : State :=
  let s1 := s.tdiError (s.arg 0)
  if s.arg 0 = 8 then { s with hub := { s.hub with mgmtIde := false } }
  else s1.setPart (s.arg 0) { s1.part (s.arg 0) with ideKeys := false, ideUp := false }

/-- The event IDE_STREAM_FAILURE. -/
def execIdeStreamFailure (s : State) : Host.Outcome State Fault Refusal := .next (evIdeStreamFailure s)

/-- GET_VERSION: the SPDM version request, with which a connection starts anew (22 R378). -/
def evGetVersion (s : State) : State :=
  s.spdmMove (s.arg 0) (fun v => v.phase ≤ 4) (fun v => { v with phase := 1, session := false }) (messageWords versionBytes)

/-- The event GET_VERSION. -/
def execGetVersion (s : State) : Host.Outcome State Fault Refusal := .next (evGetVersion s)

/-- GET_CAPABILITIES: the SPDM capabilities request (22 R378). -/
def evGetCapabilities (s : State) : State :=
  s.spdmStep 17 (s.arg 0) 0 (fun v => v.phase == 1) (fun v => { v with phase := 2 })

/-- The event GET_CAPABILITIES. -/
def execGetCapabilities (s : State) : Host.Outcome State Fault Refusal := .next (evGetCapabilities s)

/-- NEGOTIATE_ALGORITHMS: the SPDM algorithm negotiation (22 R378). -/
def evNegotiateAlgorithms (s : State) : State :=
  s.spdmStep 18 (s.arg 0) 0 (fun v => v.phase == 2) (fun v => { v with phase := 3 })

/-- The event NEGOTIATE_ALGORITHMS. -/
def execNegotiateAlgorithms (s : State) : Host.Outcome State Fault Refusal := .next (evNegotiateAlgorithms s)

/-- GET_DIGESTS: the SPDM certificate digests (22 R378). -/
def evGetDigests (s : State) : State :=
  s.spdmMove (s.arg 0) (fun v => 3 ≤ v.phase) (fun v => v) (messageWords (shake256 Config.ownChain 64))

/-- The event GET_DIGESTS. -/
def execGetDigests (s : State) : Host.Outcome State Fault Refusal := .next (evGetDigests s)

/-- GET_CERTIFICATE: the SPDM certificate chain (22 R378). -/
def evGetCertificate (s : State) : State :=
  s.spdmMove (s.arg 0) (fun v => 3 ≤ v.phase) (fun v => v) (messageWords Config.ownChain)

/-- The event GET_CERTIFICATE. -/
def execGetCertificate (s : State) : Host.Outcome State Fault Refusal := .next (evGetCertificate s)

/-- CHALLENGE: the SPDM challenge, signed under the requester's nonce (22 R378). -/
def evChallenge (s : State) : State :=
  s.spdmMove (s.arg 0) (fun v => 3 ≤ v.phase) (fun v => v) (messageWords (s.challengeAuth (s.arg 0) (s.arg 1)))

/-- The event CHALLENGE. -/
def execChallenge (s : State) : Host.Outcome State Fault Refusal := .next (evChallenge s)

/-- GET_MEASUREMENTS: the measurement blocks of the requesting TDI's partition, or of the one named over the management interface, with the
signature under the requester's nonce (22 R378). -/
def evGetMeasurements (s : State) : State :=
  let part := if s.arg 0 < 8 then s.arg 0 else s.arg 1
  s.spdmMove (s.arg 0) (fun v => 3 ≤ v.phase) (fun v => v) (messageWords (s.touchmark part (s.arg 2)))

/-- The event GET_MEASUREMENTS. -/
def execGetMeasurements (s : State) : Host.Outcome State Fault Refusal := .next (evGetMeasurements s)

/-- KEY_EXCHANGE: the SPDM key exchange of a session (22 R378). -/
def evKeyExchange (s : State) : State :=
  s.spdmStep 23 (s.arg 0) (s.arg 1) (fun v => 3 ≤ v.phase) (fun v => { v with phase := 4, session := false })

/-- The event KEY_EXCHANGE. -/
def execKeyExchange (s : State) : Host.Outcome State Fault Refusal := .next (evKeyExchange s)

/-- FINISH: the end of a session handshake that verifies (22 R378). -/
def evFinish (s : State) : State :=
  s.spdmStep 24 (s.arg 0) 0 (fun v => v.phase == 4 && s.arg 1 != 0) (fun v => { v with session := true })

/-- The event FINISH. -/
def execFinish (s : State) : Host.Outcome State Fault Refusal := .next (evFinish s)

/-- END_SESSION: the end of an SPDM session (22 R378). -/
def evEndSession (s : State) : State :=
  s.spdmStep 25 (s.arg 0) 0 (fun v => v.session) (fun v => { v with phase := 3, session := false })

/-- The event END_SESSION. -/
def execEndSession (s : State) : Host.Outcome State Fault Refusal := .next (evEndSession s)

/-- The bytes of the message that an event's arguments carry after the partition and the peer. -/
def State.joinMessage (s : State) (skip : Nat) : List Byte := (s.args.drop skip).map fun n => BitVec.ofNat 8 n

/-- A partition sends JOIN_HELLO to a peer. -/
def State.sendHello (s : State) (part peer : Nat) : State :=
  let m := s.joinHello part peer s.freeCount
  { s.joinMoves part ⟨peer, true, 1, s.hub.time, s.freeCount, m, [], []⟩ with reply := messageWords m }

/-- A partition that may respond answers a JOIN_HELLO with JOIN_REPLY, where the message, its sender and its key pass (22 R380, FIPS 203). -/
def State.answerHello (s : State) (part peer : Nat) (m : List Byte) : State :=
  if s.joinShape 1 peer 1744 m && joinSender peer s.freeCount m && (s.part part).tdi.held && kemKeyOk ((m.drop 48).take 1568) then
    let r := s.joinReply part peer s.freeCount m
    { s.joinMoves part ⟨peer, false, 1, s.hub.time, s.freeCount, m, r.1, r.2⟩ with reply := messageWords r.1 }
  else s.joinFails part

/-- The initiator's checks of a JOIN_REPLY in order: its sender's chain, its signature, its touchmark, and the tenant's PEERS. -/
def State.replyPasses (s : State) (peer : Nat) (t : Tenant) (hello m : List Byte) : Bool :=
  s.joinShape 2 peer 5053 m && joinSender peer s.freeCount m
    && chainVerifies (Config.peerChain peer) (labelBytes "G7 join R" ++ joinTh1 hello m) (m.drop 1744) && t.mayAdmit (joinDigest m)

/-- The initiator's answer to a JOIN_REPLY that passes: JOIN_FINISH with the wrapped record. -/
def State.sendFinish (s : State) (part peer : Nat) (t : Tenant) (j : Join) (m : List Byte) : State :=
  let z := kemSeed j.number
  let secret := kemDecaps z.1 z.2 ((m.drop 48).take 1568)
  { s.joinMoves part { j with phase := 2, since := s.hub.time, reply := m, secret := secret } with
    reply := messageWords (s.joinFinish part peer t secret j.hello m) }

/-- The record that a JOIN_FINISH brings where its header, its signature and its WRAP pass. -/
def State.finishRecord (s : State) (peer : Nat) (j : Join) (m : List Byte) : Option Tenant :=
  if s.joinShape 3 peer m.length m && 3389 ≤ m.length
      && chainVerifies (Config.peerChain peer) (labelBytes "G7 join I" ++ joinTh2 j.hello j.reply) ((m.drop 16).take 3309) then
    joinUnwrap (joinKeys j.secret j.hello j.reply).1 m
  else none

/-- The responder's answer to a JOIN_FINISH: the record installed, the initiator admitted, the keys loaded, and JOIN_DONE sent; or the
handshake ends. -/
def State.answerFinish (s : State) (part peer : Nat) (j : Join) (m : List Byte) : State :=
  match (s.finishRecord peer j m).bind fun t => s.joinRecord part t (joinDigest j.hello) with
  | none => s.joinFails part
  | some (t, genno) =>
    let k := (joinKeys j.secret j.hello j.reply).2.2
    { (s.installRecord part t genno).joined part peer t k.2 k.1 with reply := messageWords (s.joinDone part peer j.secret j.hello j.reply) }

/-- JOIN_HELLO: a handshake starts: sent by a partition with a tenant record where the third argument is 2, received as the bytes of the
rest by a responder where it is 1 (22 R379). -/
def evJoinHello (s : State) : State :=
  let part := s.arg 0
  let peer := s.arg 1
  if 8 ≤ part || !s.isPeer peer || (s.part part).join.isSome then s
  else if s.arg 2 = 2 then (if (s.part part).tenant.isSome then s.sendHello part peer else s)
  else s.answerHello part peer (s.joinMessage 3)

/-- The event JOIN_HELLO. -/
def execJoinHello (s : State) : Host.Outcome State Fault Refusal := .next (evJoinHello s)

/-- JOIN_REPLY: the reply reaches the initiator, which checks it, the peer's digest among the tenant's PEERS, and answers (22 R379, R380). -/
def evJoinReply (s : State) : State :=
  let part := s.arg 0
  let peer := s.arg 1
  let m := s.joinMessage 2
  if 8 ≤ part then s
  else
    match (s.part part).join, (s.part part).tenant with
    | some j, some t =>
      if s.joinAt part peer true 1 && s.replyPasses peer t j.hello m then s.sendFinish part peer t j m else s.joinFails part
    | some _, none => s.joinFails part
    | none, _ => s

/-- The event JOIN_REPLY. -/
def execJoinReply (s : State) : Host.Outcome State Fault Refusal := .next (evJoinReply s)

/-- JOIN_FINISH: the wrapped record reaches the responder, which checks it, installs it and admits the initiator (22 R379, R380). -/
def evJoinFinish (s : State) : State :=
  let part := s.arg 0
  let peer := s.arg 1
  if 8 ≤ part then s
  else
    match (s.part part).join with
    | some j => if s.joinAt part peer false 1 then s.answerFinish part peer j (s.joinMessage 2) else s.joinFails part
    | none => s

/-- The event JOIN_FINISH. -/
def execJoinFinish (s : State) : Host.Outcome State Fault Refusal := .next (evJoinFinish s)

/-- JOIN_DONE: the done tag reaches the initiator, which admits the peer and loads the link keys (22 R380). -/
def evJoinDone (s : State) : State :=
  let part := s.arg 0
  let peer := s.arg 1
  let m := s.joinMessage 2
  if 8 ≤ part then s
  else
    match (s.part part).join, (s.part part).tenant with
    | some j, some t =>
      if s.joinAt part peer true 2 && s.joinShape 4 peer 32 m && m.drop 16 == joinDoneTag j.secret j.hello j.reply then
        let k := (joinKeys j.secret j.hello j.reply).2.2
        s.joined part peer (t.admits (joinDigest j.reply)) k.1 k.2
      else s.joinFails part
    | some _, none => s.joinFails part
    | none, _ => s

/-- The event JOIN_DONE. -/
def execJoinDone (s : State) : Host.Outcome State Fault Refusal := .next (evJoinDone s)

/-- JOIN_TIMEOUT: a handshake whose next message has not come within 10 ms ends (22 R380). -/
def evJoinTimeout (s : State) : State :=
  let part := s.arg 0
  match (s.part part).join with
  | some j => if part < 8 && s.past j.since 10000 then s.joinFails part else s
  | none => s

/-- The event JOIN_TIMEOUT. -/
def execJoinTimeout (s : State) : Host.Outcome State Fault Refusal := .next (evJoinTimeout s)

end Sys2Proof.Machine
end

