-- ==== Sys2Proof/Machine/EvLinks.lean ====
section
/-! DEFINITION. Events of the die links, package time and UALink (21 R364, 22 R375, 24 R399-R406). -/

namespace Sys2Proof.Machine

/-! ### Die links (24 R399-R401, 21 R364) -/

/-- The instants since which the dies have not been connected, each on the die's own time, noted after a change of links (21 R364). -/
def State.noteCuts (s : State) : State :=
  { s with dies := Vector.ofFn fun (i : Fin 8) =>
             { s.die i.val with cutAt := if s.cdConnected i.val then none else some ((s.die i.val).cutAt.getD (s.die i.val).time) },
           mdies := Vector.ofFn fun (i : Fin 16) =>
             { s.mdie i.val with cutAt := if s.mdConnected i.val then none else some ((s.mdie i.val).cutAt.getD (s.mdie i.val).time) } }

/-- A link taken down for retraining. -/
def State.dropLink (s : State) (n : Nat) : State :=
  (s.setLink n { s.link n with up := false, fails := 0, failing := [], downAt := s.hub.time }).noteCuts

/-- A flit or burst, which `key` names, that failed, and the replay asked for: the fourth time in succession takes the link down (24 R400). -/
def State.linkFails (s : State) (n : Nat) (key : List Nat) : State :=
  let l := s.link n
  let k := if l.failing = key then l.fails + 1 else 1
  if 4 ≤ k then s.dropLink n else s.setLink n { l with fails := k, failing := key, replays := l.replays + 1 }

/-- Whether a link has been down for 1 ms. -/
def State.longDown (s : State) (n : Nat) : Bool := !(s.link n).up && s.past (s.link n).downAt 1000

/-- Whether a compute die has not been connected for 1 ms of its own time (21 R364). -/
def State.cdCut (s : State) (n : Nat) : Bool := (s.die n).cutAt.any fun t => t + microseconds 1000 ≤ (s.die n).time

/-- Whether a memory die has not been connected for 1 ms of its own time (21 R364). -/
def State.mdCut (s : State) (m : Nat) : Bool := (s.mdie m).cutAt.any fun t => t + microseconds 1000 ≤ (s.mdie m).time

/-- The collective sends of the focused task given up, and its numbers complete with no effect (21 R364). -/
def State.dropSends (s : State) : State :=
  let id := s.cur.id
  s.colls.foldl (fun (u : State) c =>
    let mine := c.issued.filter fun m => m.task == id && !c.completed.contains m.rank
    if mine.isEmpty then u
    else
      let ranks := mine.map CollMember.rank
      let v := mine.foldl (fun (u : State) m => u.completePm c.cid m.vdie 4 m.num) u
      v.setColl { c with sends := c.sends.map (fun x => if ranks.contains x.sender then { x with done := true } else x),
                         completed := c.completed ++ ranks.dedup }) s

/-- An orphaned compute die: its tasks' operations complete with no effect, its unwritten lines are lost, its tasks are taken off, its
key slots are zeroised, it halts, and its slice's TDI fails (21 R364, 22 R377). DIESTAT reports it to the management owner (25 R410). -/
def State.orphanDie (s : State) (n : Nat) : State :=
  let ids := (s.allTasks.filter fun t => match t.core with
    | some c => coreDie c == n
    | none => false).map Task.id
  let s1 := { s with cache := s.cache.filter (fun l => l.cluster / 32 != n), txns := s.txns.filter fun t => t.src != 1 + n }
  let s2 := ids.foldl (fun (u : State) id => u.withTask id fun v => v.stopEngines.dropSends) s1
  let s3 := s2.resetDie n
  let d := s3.die n
  let s4 := s3.setDie n { d with orphan := true, inReset := false, keys := some 8, evt := d.evt ||| 4 }
  match s4.sliceOwner n with
  | some p => s4.tdiError p
  | none => s4

/-- A stack's counter-tree nodes. -/
def Node.inStack (m : Nat) (kv : Nat × Node) : Bool := kv.1 / 2 ^ 24 / 8 == m

/-- What an orphaned memory die does: its root and keys are gone (21 R364). -/
def State.orphanStack (s : State) (m : Nat) : State :=
  let d := s.mdie m
  let s1 := s.setMdie m { d with orphan := true, clock := blankClock, evt := d.evt ||| 4 }
  let s2 := ({ s1 with nodes := s1.nodes.filter fun kv => !Node.inStack m kv }.failHeld m).failQueries m
  match s2.sliceOwner (m / 2) with
  | some p => (s2.notify p 3 0).tdiError p
  | none => s2

/-! ### Package time (24 R405, R406) -/

/-- The delay of the path that an exchange finds. -/
def exchangeDelay (t1 t2 t3 t4 : Int) : Int := ((t2 - t1) + (t4 - t3)) / 2

/-- The offset of an exchange. -/
def exchangeOffset (t1 t2 t3 t4 : Int) : Int := ((t2 - t1) - (t4 - t3)) / 2

/-- A clock after an exchange: locked after 8 good exchanges in succession, unlocked after 4 bad ones; the offset is slewed over
ten intervals, within the rate its state allows. `k` scales the interval to 100 microseconds. -/
def Clock.exchange (c : Clock) (offset delay : Int) (k : Nat) : Clock :=
  let good := if offset.natAbs ≤ 32 then c.good + 1 else 0
  let bad := if 48 < offset.natAbs then c.bad + 1 else 0
  let locked := if 4 ≤ bad then false else c.locked || 8 ≤ good
  { c with slew := -offset * 16000000, rate := min (offset.natAbs * k) (if c.locked then 3200 else 8000), locked := locked,
           good := min good 8, bad := min bad 4, asked := false, delay := delay }

/-- An exchange begun, at most one in an interval (24 R405). -/
def Clock.ask (c : Clock) (interval : Nat) : Clock := { c with tick := interval, asked := true }

/-- A child's way to its parent is up: a die's link to the hub, by the numbers of 22 R375, or for 0 the time port of a package in a domain. -/
def State.timeLinkUp (s : State) (d : Nat) : Bool :=
  if d = 0 then s.hub.domain && (s.port s.hub.timePort).up
  else if d ≤ 8 then s.linkUp (d - 1) else decide (16 ≤ d ∧ d ≤ 31) && s.linkUp (32 + (d - 16))

/-- A child's clock: the package's own for 0, or a die's. -/
def State.clockOf (s : State) (d : Nat) : Clock :=
  if d = 0 then s.hub.clock else if d ≤ 8 then (s.die (d - 1)).clock else (s.mdie (d - 16)).clock

/-- The state with a child's clock replaced. -/
def State.setClock (s : State) (d : Nat) (c : Clock) : State :=
  if d = 0 then { s with hub := { s.hub with clock := c } }
  else if d ≤ 8 then s.setDie (d - 1) { s.die (d - 1) with clock := c }
  else s.setMdie (d - 16) { s.mdie (d - 16) with clock := c }

/-- The interval of package time that has come for a child's exchanges: 1 µs for a die, 100 µs for a package (24 R405). -/
def State.interval (s : State) (d : Nat) : Nat := s.hub.time / if d = 0 then 1600000 else 16000

/-- The master of a package that follows the domain's, after an exchange: stepped forward while unlocked, at half rate while
ahead and unlocked, slewed once locked (24 R406). -/
def Hub.exchange (b : Hub) (offset delay : Int) : Hub :=
  let c := b.clock.exchange offset delay 1
  let c0 := { c with slew := 0 }
  let b1 := { b with timeBound := if c.locked then 64 + 2 * min Config.timePortAsymmetry 768 else 64 }
  if b.clock.locked then { b1 with clock := c }
  else if offset < 0 then { b1 with clock := c0, time := b.time + offset.natAbs }
  else { b1 with clock := c0, ahead := offset.natAbs * 2 ^ 32 }

/-- The clock of a child after an exchange with its parent, by their times, the path's delay, the same both ways, and the time the child takes
to reply: t1 to t4 give the offset and the delay it finds (24 R402, R405). -/
def Clock.follow (c : Clock) (parent child delay turn : Nat) : Clock :=
  let t (f : Int → Int → Int → Int → Int) : Int := f parent (child + delay) (child + delay + turn) (parent + 2 * delay + turn)
  c.exchange (t exchangeOffset) (t exchangeDelay) 100

/-! ### UALink (24 R403) -/

/-- The word that an atomic over UALink leaves: kind 11 a compare and swap of two operands, and 2 + op an atomic of one. -/
def ualinkNew (kind size old : Nat) (bs : List Byte) : Nat :=
  if kind = 11 then (if old = leNat (bs.take size) then leNat ((bs.drop size).take size) else old)
  else amoNew (kind - 2) size old (leNat (bs.take size))

/-- A peer's read, write or atomic within a line performed at its home here, after the write-backs of this package to that line that are in
flight: kind 0 a read, 1 a write, and an atomic from 2 on; the bytes of its answer. `nb` says that its page is a near-bank one (24 R403,
05 R91, 07 R124). -/
def State.ualinkAt (s : State) (kind pa size : Nat) (bs : List Byte) (cid slot : Nat) (nb : Bool) (b : Word) : State × List Byte :=
  let u := s.settle pa
  let t : Txn := ⟨0, cid, 0, 0, pa, 0, slot, nb, lineBref b pa, size, .ack, true⟩
  let x := u.homeRead cid slot pa
  let old := (x.1.drop (pa % 64)).take size
  let failed : State := match x.2 with
    | some e => u.reportErrors [t.failed e]
    | none => u
  match kind with
  | 0 => (failed, old)
  | 1 =>
    let lm := lineOf (pa % 64) (bs.take size)
    (u.lineWrite cid slot nb t.bref pa lm.1 lm.2, [])
  | k =>
    if x.2.isSome then (failed, List.replicate size 0)
    else
      let new := ualinkNew k size (leNat old) bs
      let lm := lineOf (pa % 64) (leBytes size new)
      (if new = leNat old then u else u.lineWrite cid slot nb t.bref pa lm.1 lm.2, old)

/-- The key under which a port receives a partition's traffic from a peer. -/
def Port.keyFrom (p : Port) (part peer : Nat) : Option LinkKey := p.into.find? fun k => k.part == part && k.peer == peer

/-- The key under which a port sends a partition's traffic to a peer. -/
def Port.keyTo (p : Port) (part peer : Nat) : Option LinkKey := p.out.find? fun k => k.part == part && k.peer == peer

/-- An answer of a port to a peer, sealed under its key, header first (22 R376); none goes where there is no key. -/
def State.ualinkReply (s : State) (n part peer : Nat) (header bs : List Byte) : State :=
  match (s.port n).keyTo part peer with
  | none => { s with reply := [] }
  | some k => { s.setPort n { s.port n with out := usedKey (s.port n).out part peer } with reply := messageWords (k.seals header bs) }

/-- The transactions in flight that some tags name on a path of a partition's traffic, or, for 8, of traffic that carries no CID, and that no
burst has carried yet, in the order in which the source sent them. -/
def State.burstTxns (s : State) (part src dst : Nat) (tags : List Nat) : List Txn :=
  s.txns.filter fun t => t.src == src && t.dst == dst && tags.contains t.tag && !t.accepted && t.part == part

/-- The flits that carry some transactions and the slot of the closing tag, three slots each (24 R399). -/
def flitsOf (ts : List Txn) : Nat := (ts.length + 3) / 3

/-- Transactions whose burst their destination has accepted. -/
def State.accept (s : State) (ts : List Txn) : State :=
  { s with txns := s.txns.map fun t => if ts.any fun u => u.tag == t.tag then { t with accepted := true } else t }

/-- BURST_TAG: a burst's closing tag arrives over a link of its route with the tags of the transactions it closes. The burst is accepted, and
its transactions may be delivered, where it has 1 to 8 flits, comes in sequence, and the tag is the one its path key gives; an earlier
number is a duplicate, which is discarded; anything else is a failure of the burst, to be replayed (22 R375, 24 R400, R401). -/
def evBurstTag (s : State) : State :=
  let n := s.arg 0
  let seq := s.arg 1
  let part := s.arg 2
  let src := s.arg 3
  let dst := s.arg 4
  let next := s.nextBurst part src dst
  let ts := s.burstTxns part src dst (s.args.drop 6)
  if !s.linkUp n || !((s.routeOf src dst).any fun p => p.contains n) || seq < next then s
  else if !ts.isEmpty && flitsOf ts ≤ 8 && seq == next && beBytes 16 (s.arg 5) == (s.burst part src dst seq ts).2 then
    ((s.setLink n { s.link n with fails := 0, failing := [] }).burstTaken part src dst).accept ts
  else s.linkFails n [part, src, dst, seq]

/-- The event BURST_TAG. -/
def execBurstTag (s : State) : Host.Outcome State Fault Refusal := .next (evBurstTag s)

/-- REPLAY_REQUEST: a receiver finds a flit bad, by its CRC or, which counts as that, by a slot of a reserved TYPE: it discards it and what
comes after it, and asks for a go-back-N replay, in which the same flits are sent again (24 R399, R400). The arguments give the link, the
flit's sequence number, whether its CRC is right, and the TYPEs of its slots. -/
def evReplayRequest (s : State) : State :=
  if s.linkUp (s.arg 0) && (s.arg 2 = 0 || !(s.args.drop 3).all typeOk) then s.linkFails (s.arg 0) [s.arg 1 % 256] else s

/-- The event REPLAY_REQUEST. -/
def execReplayRequest (s : State) : Host.Outcome State Fault Refusal := .next (evReplayRequest s)

/-- LINK_DOWN: a link goes down for retraining (24 R400). -/
def evLinkDown (s : State) : State :=
  if s.linkUp (s.arg 0) then s.dropLink (s.arg 0) else s

/-- The event LINK_DOWN. -/
def execLinkDown (s : State) : Host.Outcome State Fault Refusal := .next (evLinkDown s)

/-- LINK_UP: a retrained link carries traffic again; retraining ends within 1 ms or does not (24 R400). -/
def evLinkUp (s : State) : State :=
  if s.longDown (s.arg 0) then s
  else (s.setLink (s.arg 0) { s.link (s.arg 0) with up := true, fails := 0, failing := [] }).noteCuts

/-- The event LINK_UP. -/
def execLinkUp (s : State) : Host.Outcome State Fault Refusal := .next (evLinkUp s)

/-- ORPHAN_TIMEOUT: a die unconnected for 1 ms is orphaned (21 R364). -/
def evOrphanTimeout (s : State) : State :=
  let d := s.arg 0
  if 1 ≤ d && d ≤ 8 && s.cdCut (d - 1) && (s.die (d - 1)).present && !(s.die (d - 1)).orphan then (s.orphanDie (d - 1)).noted s
  else if 16 ≤ d && d ≤ 31 && s.mdCut (d - 16) && (s.mdie (d - 16)).present && !(s.mdie (d - 16)).orphan then s.orphanStack (d - 16)
  else s

/-- The event ORPHAN_TIMEOUT. -/
def execOrphanTimeout (s : State) : Host.Outcome State Fault Refusal := .next (evOrphanTimeout s)

/-- TIME_EXCHANGE_TICK: a new interval has come, and the parent sends a child a time-exchange flit with its count, a burst on the path for traffic that carries no CID; for 0 the domain's master
and a package that follows it exchange theirs (24 R405). -/
def evTimeExchangeTick (s : State) : State :=
  let d := s.arg 0
  if s.timeLinkUp d && (s.clockOf d).tick < s.interval d then
    let u := { s.setClock d ((s.clockOf d).ask (s.interval d)) with reply := [BitVec.ofNat 64 s.hub.time] }
    if d = 0 then u else u.burstTaken 8 0 d
  else s

/-- The event TIME_EXCHANGE_TICK. -/
def execTimeExchangeTick (s : State) : Host.Outcome State Fault Refusal := .next (evTimeExchangeTick s)

/-- TIME_EXCHANGE: a child that was asked computes the offset of an exchange from its four times, slews, and updates its lock: the copy of a die against
the hub's master, over a path of a delay; or, for 0, the master of a package against its parent's, whose time t1 comes over the time port,
with the delays of the two directions, which differ by no more than the asymmetry configured (24 R405, R406). -/
def evTimeExchange (s : State) : State :=
  let d := s.arg 0
  if d = 0 then
    let child := s.hub.time + s.arg 2
    let t (f : Int → Int → Int → Int → Int) : Int := f (s.arg 1) child (child + s.arg 3) (s.arg 1 + s.arg 2 + s.arg 3 + s.arg 4)
    let fair := (s.arg 2 : Int) - s.arg 4 ≤ min Config.timePortAsymmetry 768 && (s.arg 4 : Int) - s.arg 2 ≤ min Config.timePortAsymmetry 768
    if s.hub.domain && !s.hub.tmaster && s.hub.clock.asked && fair then { s with hub := s.hub.exchange (t exchangeOffset) (t exchangeDelay) }
    else s
  else if !s.timeLinkUp d || !(s.clockOf d).asked then s
  else if d ≤ 8 then
    let v := s.die (d - 1)
    (s.setDie (d - 1) { v with clock := v.clock.follow s.hub.time v.time (s.arg 1) (s.arg 2) }).burstTaken 8 d 0
  else
    let v := s.mdie (d - 16)
    (s.setMdie (d - 16) { v with clock := v.clock.follow s.hub.time v.time (s.arg 1) (s.arg 2) }).burstTaken 8 d 0

/-- The event TIME_EXCHANGE. -/
def execTimeExchange (s : State) : Host.Outcome State Fault Refusal := .next (evTimeExchange s)

/-- TIME_UNLOCK_TIMEOUT: a die whose time link has been down for longer than 1 ms is unlocked (24 R405). -/
def evTimeUnlockTimeout (s : State) : State :=
  let d := s.arg 0
  if 1 ≤ d && d ≤ 8 && s.longDown (d - 1) then
    s.setDie (d - 1) { s.die (d - 1) with clock := { (s.die (d - 1)).clock with locked := false, good := 0 } }
  else if 16 ≤ d && d ≤ 31 && s.longDown (32 + (d - 16)) then
    s.setMdie (d - 16) { s.mdie (d - 16) with clock := { (s.mdie (d - 16)).clock with locked := false, good := 0 } }
  else s

/-- The event TIME_UNLOCK_TIMEOUT. -/
def execTimeUnlockTimeout (s : State) : Host.Outcome State Fault Refusal := .next (evTimeUnlockTimeout s)

/-- UALINK_TRANSACTION: a peer's read, write, atomic or compare and swap arrives on a port for a partition in whose trust domain it is: its
payload is decrypted and it is performed at its home in this package where its UALinkSec tag is right under the port's key, and it is
dropped and counted where it is not; the answer goes back sealed (22 R376, 24 R403). -/
def evUalinkTransaction (s : State) : State :=
  let n := s.arg 0
  let kind := s.arg 1
  let pa := s.arg 2
  let size := s.arg 3
  let cid := s.arg 5
  let nb := s.arg 9 != 0
  let b := BitVec.ofNat 64 (s.arg 10)
  let h := ualinkHeader kind pa size cid (s.arg 6) nb b
  let p := s.port n
  match p.keyFrom (partOf cid) (s.arg 7) with
  | none => s
  | some k =>
    if !(p.up && s.isPeer (s.arg 7) && s.homeOf pa == .here && pa % 64 + size ≤ 64 && kind ≤ 11) then s
    else
      match k.opens h (leBytes (ualinkLength kind size) (s.arg 4)) (beBytes 16 (s.arg 8)) with
      | none => { s.setPort n { p with errs := p.errs + 1 } with reply := [] }
      | some bs =>
        let x := (s.setPort n { p with into := usedKey p.into (partOf cid) (s.arg 7) }).ualinkAt kind pa size bs cid (s.arg 6) nb b
        x.1.ualinkReply n (partOf cid) (s.arg 7) h x.2

/-- The event UALINK_TRANSACTION. -/
def execUalinkTransaction (s : State) : Host.Outcome State Fault Refusal := .next (evUalinkTransaction s)

/-- UALINK_LANE_FAULT: a port loses a lane and runs as x2 or x1 (24 R403). -/
def evUalinkLaneFault (s : State) : State :=
  let p := s.port (s.arg 0)
  if p.lanes ≤ 1 then s.setPort (s.arg 0) { p with up := false, errs := p.errs + 1 }
  else s.setPort (s.arg 0) { p with lanes := p.lanes / 2, errs := p.errs + 1 }

/-- The event UALINK_LANE_FAULT. -/
def execUalinkLaneFault (s : State) : Host.Outcome State Fault Refusal := .next (evUalinkLaneFault s)

end Sys2Proof.Machine
end

