-- ==== Sys2Proof/Machine/EvPackage.lean ====
section
/-! DEFINITION. Events of the package: the host port, management, partitions, firmware records, bring-up and thermal limits (19, 20, 21, 24, 25). -/

namespace Sys2Proof.Machine

/-! ### The management owner (21 R365, 25 R410) -/

/-- A message of a master reaches the hub; one of the BMC is heard (21 R365). -/
def State.heard (s : State) (master : Nat) : State :=
  if master = 2 then { s with hub := { s.hub with bmcAt := s.hub.time } } else s

/-- Whether a master is the management owner. -/
def State.owns (s : State) (master : Nat) : Bool := (master == 1 || master == 2) && s.hub.owner.toNat == master

/-- A request honoured only from the management owner: its status is the reply, 1 for REFUSED (21 R365, 25 R410). -/
def State.byOwner (s : State) (master : Nat) (f : State → State) : State :=
  let u := s.heard master
  if u.owns master then { f u with reply := [0] } else { u with reply := [1] }

/-- OWNER as it is to be: EPOCH rises where that is a change, and no handover stands (21 R365). -/
def State.setOwner (s : State) (o : BitVec 2) : State :=
  { s with hub := { s.hub with owner := o, target := 0, epoch := if o = s.hub.owner then s.hub.epoch else s.hub.epoch + 1 } }

/-- The claim of a master: the first wins, and PREF against one of the same cycle, which the loser is told; or the target of a handover
claims in time. -/
def State.claim (s : State) (master : Nat) (rival : Bool) : State :=
  let b := s.hub
  let code : BitVec 2 := BitVec.ofNat 2 master
  let won := if rival && b.pref != 0 then b.pref else code
  if b.owner = 0 then { s.setOwner won with reply := [if won = code then 0 else 1] }
  else if b.target = code ∧ s.hub.time ≤ b.targetAt + microseconds 1000000 then { s.setOwner code with reply := [0] }
  else { s with reply := [1] }

/-- PKGCFG's fields written while it is not locked (24 R404). -/
def Hub.writeConfig (b : Hub) (v : Word) : Hub :=
  if b.pkgLock then b
  else { b with pkgid := v.extractLsb' 0 20, domain := v.getLsbD 21, tmaster := v.getLsbD 23, pkgLock := v.getLsbD 22 }

/-- The number by which this model's register writes name PKGCFG, which the manual gives no offset. -/
def pkgcfgReg : Nat := 0x10000

/-- The number by which they name REMAP0 to REMAP3, which the manual gives no offset either. -/
def remapReg : Nat := 0x20000

/-- The number by which they name MGMT_OWNER, which the manual gives no offset either. -/
def ownerReg : Nat := 0x30000

/-- BOOTSTAT (25 R410). -/
def Hub.bootstat (b : Hub) : Nat := b.bootStep % 16 + b.bootFail % 256 * 2 ^ 8 + b.bootPresent.toNat * 2 ^ 16

/-- MGMT_OWNER (21 R365). -/
def Hub.mgmtOwner (b : Hub) : Nat := b.owner.toNat + b.pref.toNat * 2 ^ 2 + b.target.toNat * 2 ^ 4 + b.epoch.toNat * 2 ^ 8

/-- PKGCFG (24 R404). -/
def Hub.pkgcfg (b : Hub) : Nat :=
  b.pkgid.toNat + (if b.domain then 2 ^ 21 else 0) + (if b.pkgLock then 2 ^ 22 else 0) + (if b.tmaster then 2 ^ 23 else 0)

/-- A DIESTAT word (25 R410). -/
def diestat (temp cap evt errcnt : Nat) : Nat := temp % 256 + cap / 8 % 256 * 2 ^ 8 + evt % 16 * 2 ^ 16 + errcnt % 2 ^ 32 * 2 ^ 32

/-- DIESTAT of a die by the numbers of 22 R375; a number that names no die reads 0. -/
def State.dieStat (s : State) (d : Nat) : Nat :=
  if d = 0 then diestat (Config.hubTemperature s.freeCount).toNat 0 s.hub.evt s.hub.errcnt
  else if d ≤ 8 then let v := s.die (d - 1); diestat v.temp v.cap v.evt v.errcnt
  else if 16 ≤ d ∧ d ≤ 31 then let v := s.mdie (d - 16); diestat v.temp 0 v.evt v.errcnt
  else 0

/-- A management register as a master reads it (21 R365, 24 R404, 25 R410). -/
def State.mgmtRead (s : State) (reg : Nat) : Nat :=
  if reg = 0 then s.hub.bootstat
  else if reg = pkgcfgReg then s.hub.pkgcfg
  else if reg = ownerReg then s.hub.mgmtOwner
  else if 0x100 ≤ reg ∧ reg < 0x200 ∧ reg % 8 = 0 then s.dieStat ((reg - 0x100) / 8)
  else 0

/-- An entry of REMAP as a byte of a register: PHYS and OK (21 R356). -/
def Die.remapEntry (d : Die) (k : Nat) (v : Word) : Die :=
  let b := v.extractLsb' (8 * (k % 8)) 8
  { d with remap := d.remap.set k (b.extractLsb' 0 6).toNat,
           remapOk := if b.getLsbD 6 then d.remapOk ||| BitVec.ofNat 32 (2 ^ k) else d.remapOk &&& ~~~(BitVec.ofNat 32 (2 ^ k)) }

/-- A REMAP register of a compute die written by its firmware in M, until the registers are locked (21 R356). -/
def State.writeRemap (s : State) (die reg : Nat) (v : Word) : State :=
  let j := reg - remapReg
  if 8 ≤ die || reg < remapReg || 4 ≤ j || (s.die die).remapLock then s
  else s.setDie die ((List.range 8).foldl (fun (d : Die) k => d.remapEntry (8 * j + k) v) (s.die die))

/-- Counts and events cleared by ones, by the register of a die (25 R410). -/
def State.clearStatus (s : State) (reg : Nat) (ones : Word) : State :=
  let d := (reg - 0x100) / 8
  let e := ones.toNat / 2 ^ 32
  let v := ones.toNat / 2 ^ 16 % 16
  let off (x m : Nat) : Nat := x &&& (0xFFFFFFFF ^^^ m)
  if reg < 0x100 ∨ 0x200 ≤ reg ∨ reg % 8 ≠ 0 then s
  else if d = 0 then { s with hub := { s.hub with errcnt := off s.hub.errcnt e, evt := off s.hub.evt v } }
  else if d ≤ 8 then s.setDie (d - 1) { s.die (d - 1) with errcnt := off (s.die (d - 1)).errcnt e, evt := off (s.die (d - 1)).evt v }
  else if 16 ≤ d ∧ d ≤ 31 then
    s.setMdie (d - 16) { s.mdie (d - 16) with errcnt := off (s.mdie (d - 16)).errcnt e, evt := off (s.mdie (d - 16)).evt v }
  else s

/-! ### Memory dies (19 R335, 21 R357, R364, 22 R371) -/

/-- Every block of a stack marked dead: its bytes read zero, and no damage or tree stands (13 R267, 22 R371). -/
def State.killStack (s : State) (m : Nat) : State :=
  let base := s.hub.pkgid.toNat * 2 ^ 40 + m * 2 ^ 36
  let mine (blk : Nat) : Bool := blk * 4096 / 2 ^ 36 == base / 2 ^ 36
  { s with mem := Sparse.clear s.mem base (2 ^ 36),
           blocks := s.blocks.filterMap fun kv =>
             if mine kv.1 then
               let b := { kv.2 with dead := true, locked := false, held := [] }
               if b = freshBlock then none else some (kv.1, b)
             else some kv,
           damage := s.damage.filter fun kv => kv.1 * 64 / 2 ^ 36 != base / 2 ^ 36,
           nodes := s.nodes.filter fun kv => !Node.inStack m kv }

/-- A memory die reset: accesses answer MEM_UNAVAILABLE, its tree is lost, and what it had accepted fails as uncorrectable
(19 R335, 22 R371). -/
def State.resetStack (s : State) (m : Nat) : State :=
  let d := s.mdie m
  let s1 := s.setMdie m { d with inReset := true, clock := blankClock }
  ({ s1 with nodes := s1.nodes.filter fun kv => !Node.inStack m kv }.failHeld m).failQueries m

/-- The links of a die, by the numbers of 22 R375. -/
def linksOf (d : Nat) : List Nat :=
  if d = 0 then List.range 8 ++ (List.range 16).map (32 + ·)
  else if d ≤ 8 then [d - 1, 2 * d + 6, 2 * d + 7, 23 + d, 24 + (d + 6) % 8] else [d - 8, d + 16]

/-- The links of a die that are down retrained anew, and its time without a connection counted anew (24 R400; DESIGN CHOICE, log 43). -/
def State.retrain (s : State) (d : Nat) : State :=
  let s1 := (linksOf d).foldl (fun (u : State) n => u.setLink n { u.link n with downAt := u.hub.time }) s
  if d ≤ 8 then s1.setDie (d - 1) { s1.die (d - 1) with cutAt := (s1.die (d - 1)).cutAt.map fun _ => (s1.die (d - 1)).time }
  else s1.setMdie (d - 16) { s1.mdie (d - 16) with cutAt := (s1.mdie (d - 16)).cutAt.map fun _ => (s1.mdie (d - 16)).time }

/-- A die that firmware brings back: a compute die with nothing on it, a memory die with every block dead (21 R364). -/
def State.bringBack (s : State) (d : Nat) : State :=
  if 1 ≤ d ∧ d ≤ 8 then
    let v := s.die (d - 1)
    if v.inReset || v.orphan then
      let s1 := s.setDie (d - 1) { v with inReset := false, orphan := false, clock := blankClock, keys := v.loan.map Loan.borrower }
      (s1.rekey ((s1.sliceOwner (d - 1)).toList ++ (v.loan.map Loan.borrower).toList)).retrain d
    else s
  else if 16 ≤ d ∧ d ≤ 31 then
    let v := s.mdie (d - 16)
    if v.inReset || v.orphan then
      ((s.setMdie (d - 16) { v with inReset := false, orphan := false, clock := blankClock, refreshed := [] }).killStack (d - 16)).retrain d
    else s
  else s

/-! ### Partitions (21 R357) -/

/-- The frames of the leaves below a table of a level, 1 to 3 (19 R327). -/
def State.leafFrames (levels : Nat) (s : State) (table : Nat) : List Nat :=
  match levels with
  | 0 => []
  | k + 1 => (s.entriesIn table 4096).flatMap fun a =>
    if k = 0 || pteBit (s.pte a) 1 then [ptePfn (s.pte a)] else State.leafFrames k s (ptePfn (s.pte a))

/-- The frames of a context's pages. -/
def State.ctxFrames (s : State) (c : Context) : List Nat :=
  (s.entriesIn c.ptroot 0x100000).flatMap fun a => State.leafFrames 3 s (ptePfn (s.pte a))

/-- Whether a context of a partition has a page on some slices of this package. -/
def State.pagesOn (s : State) (part : Nat) (slices : List Nat) : Bool :=
  s.contexts.any fun c => partOf c.cid == part && (s.ctxFrames c).any fun f => pkgOf f == s.hub.pkgid.toNat && slices.contains (stackOf f / 2)

/-- Whether a set of slices may form a partition: 1, 2, 4 or 8 distinct present ones, each free or the partition's own. -/
def State.slicesOk (s : State) (part : Nat) (ns : List Nat) : Bool :=
  [1, 2, 4, 8].contains ns.length && decide ns.Nodup && ns.all fun n => n < 8 && (s.die n).present &&
    match s.sliceOwner n with
    | none => true
    | some p => p == part

/-- A slice's stacks returned to the free state. -/
def State.freeSlice (s : State) (n : Nat) : State :=
  let s1 := (s.killStack (2 * n)).killStack (2 * n + 1)
  (s1.setMdie (2 * n) { s1.mdie (2 * n) with pools := [] }).setMdie (2 * n + 1) { s1.mdie (2 * n + 1) with pools := [] }

/-- A partition created: its parameters at their defaults, its two queues where firmware keeps them, and its path keys loaded
(18 R314, 19 R332, 20 R336, 22 R367). -/
def State.createPart (s : State) (part pageCtl svcCtl : Nat) (ns : List Nat) : State :=
  let p := s.part part
  s.setPart part { blankPart with slices := ns, tick := s.hub.time / microseconds 100, pageCtl := pageCtl, svcCtl := svcCtl, pathEpoch := p.pathEpoch + 1, sealCtr := p.sealCtr, saveCtr := p.saveCtr }

/-- A partition destroyed: its record and slots zeroised, its contexts gone with their counters (05 R84, 22 R366). -/
def State.destroyPart (s : State) (part : Nat) : State :=
  let s1 := s.zeroise part
  let p := s1.part part
  { s1.setPart part { blankPart with pathEpoch := p.pathEpoch, sealCtr := p.sealCtr, saveCtr := p.saveCtr } with
    contexts := s1.contexts.filter fun c => partOf c.cid != part,
    postmarks := s1.postmarks.filter fun e => !s1.contexts.any fun c =>
      partOf c.cid == part && (List.range 8).any fun v => (List.range 5).any fun k => pmKey c.cid v k == e.1 }

/-- Whether every context of a partition may have a new virtual-die table, of some virtual dies, now: none has a task on a core or an
operation incomplete, and no live task stands on a virtual die that goes (21 R358). -/
def State.mayRebind (s : State) (part n : Nat) : Bool :=
  (s.contexts.all fun c => partOf c.cid != part || !s.ctxBusy c.cid) && s.liveTasks.all fun t => t.part != part || t.vdie < n

/-- The contexts of a partition bound to its slices: those a context had in its order, then the new ones (21 R358; DESIGN CHOICE, log 34). -/
def State.rebindAll (s : State) (part : Nat) : State :=
  (s.contexts.filter fun c => partOf c.cid == part).foldl (fun (u : State) c =>
    let ns := (u.part part).slices
    let vs := c.vdies.filter ns.contains ++ ns.filter fun n => !c.vdies.contains n
    u.bindVdies c vs (tableBytes vs)) s

/-- A request to create, resize or destroy a partition (21 R357); refused while its TDI is locked (22 R377). A creation names the
physical addresses of the control blocks of the page-fault and service queues. -/
def State.partRequest (s : State) (part pageCtl svcCtl : Nat) (ns : List Nat) : Option State :=
  let p := s.part part
  let gone := p.slices.filter fun n => !ns.contains n
  if 8 ≤ part || s.hub.bootStep != 15 || p.tdi.held || gone.any (fun n => (s.die n).loan.isSome) || s.pagesOn part gone then none
  else if ns.isEmpty then (if p.slices.isEmpty then none else some (gone.foldl State.freeSlice (s.destroyPart part)))
  else if !s.slicesOk part ns then none
  else if p.slices.isEmpty then some (s.createPart part pageCtl svcCtl ns)
  else if !s.mayRebind part ns.length then none
  else
    let s1 := s.setPart part { s.part part with slices := ns }
    some (gone.foldl State.freeSlice (s1.rebindAll part))

/-! ### Records that firmware writes (19 R325, R331, 20 R336-R338, 24 R398) -/

/-- Bytes of some words of an event's arguments. -/
def wordBytes (ns : List Nat) : List Byte := ns.flatMap fun w => leBytes 8 w

/-- A buffer descriptor written where 19 R325 allows it: OWNER within the partition, KEYSLOT loaded for it. -/
def State.writeDesc (s : State) (part cid index : Nat) (bs : List Byte) : State :=
  match s.ctx? cid with
  | none => s
  | some c =>
    let owner := leNat ((bs.drop 16).take 2)
    let slot := s.keySlot (leNat ((bs.drop 21).take 1))
    let loaded := slot.part == part && (slot.h0.isSome || slot.h1.isSome) && leNat ((bs.drop 21).take 1) < 64
    if partOf cid = part ∧ index < 4096 ∧ bs.length = 64 ∧ partOf owner = part ∧ owner < 4096 ∧ loaded then
      s.fwWrite (c.bdt + 64 * index) bs
    else s

/-- Frames added to a free pool of a stack of the partition (19 R331), as frame numbers of 4 KiB within the stack. -/
def State.addFrames (s : State) (part stack size : Nat) (ns : List Nat) : State :=
  let m := s.mdie stack
  let ok := [4096, 65536, 0x200000].contains size && stack < 16 && (s.part part).slices.contains (stack / 2)
    && ns.all fun n => 4096 * n % size == 0 && n + size / 4096 ≤ 14680064
  let old := match m.pools.find? fun p => p.1 == part && p.2.1 == size with
    | some p => (p.2.2.1, p.2.2.2)
    | none => ([], 0)
  let fs := old.1 ++ ns.map fun n => s.hub.pkgid.toNat * 2 ^ 40 + stack * 2 ^ 36 + 4096 * n
  if ok && fs.length ≤ 65536 then
    let rest := m.pools.filter fun p => !(p.1 == part && p.2.1 == size)
    s.setMdie stack { m with pools := rest ++ [(part, size, fs, max old.2 fs.length)] }
  else s

/-- A field of a scheduling block: its new value within its range, the old one otherwise (20 R336). -/
def inRangeOr (v lo hi old : Nat) : Nat := if lo ≤ v ∧ v ≤ hi then v else old

/-- A scheduling block written, to take effect at the next quantum tick; refused while the TDI is locked (20 R336, 22 R377). -/
def State.writeSched (s : State) (part tw hg dm ci pz : Nat) : State :=
  let p := s.part part
  if 8 ≤ part || p.tdi.held then s
  else
    let o := p.pendingSched.getD (p.teamWait, p.hang, p.drainMax, p.ckptInt, p.proofsz)
    s.setPart part { p with pendingSched := some (inRangeOr tw 10 10000 o.1, inRangeOr hg 1000 1000000 o.2.1,
      inRangeOr dm 0 1000 o.2.2.1, inRangeOr ci 10 1000 o.2.2.2.1, inRangeOr pz 0 2 o.2.2.2.2) }

/-- A queue descriptor in range: the queue assigned to its context, PRIO and TOKCAP within their fields (20 R337, R338). -/
def State.queueOk (s : State) (part q cid weight prio tokcap refill : Nat) : Bool :=
  part < 8 && q < 64 && weight ≤ 255 && prio < 32 && tokcap ≤ 15 && refill < 65536 && partOf cid == part && cid < 4096 &&
    match s.ctx? cid with
    | some c => c.queues.getLsbD q
    | none => false

/-- A queue with WEIGHT, PRIO, TOKCAP and REFILL written; a nonzero REFILL starts its schedule anew (20 R341). -/
def Queue.written (v : Queue) (now weight prio tokcap refill : Nat) : Queue :=
  { v with weight := weight, prio := prio % 16, urgent := prio / 16 = 1, tokcap := tokcap, refill := refill,
           refillAt := if refill = 0 then v.refillAt else now + microseconds refill }

/-- A queue descriptor written: a new queue starts empty on its first segment (20 R338). -/
def State.writeQueue (s : State) (part q cid weight prio tokcap refill : Nat) (seg : Word) : State :=
  if !s.queueOk part q cid weight prio tokcap refill then s
  else
    let v := match (s.part part).queue q with
      | some u => if u.cid = cid then u else .fresh cid seg u.accepted u.refused
      | none => .fresh cid seg 0 0
    s.setPart part ((s.part part).setQueue q (v.written s.hub.time weight prio tokcap refill))

/-- The context that 128 bytes describe; none where they break 20 R337. -/
def parseContext (bs : List Byte) (vdies : List Nat) (count : Nat) (slots used : List Nat) : Option Context :=
  let n (o k : Nat) := leNat ((bs.drop o).take k)
  let w (o : Nat) : Word := BitVec.ofNat 64 (n o 8)
  let ok := bs.length == 128 && n 0 2 < 4096 && n 2 2 < 8 && n 4 4 == 0 && n 48 8 % 1048576 == 0 && 1 ≤ n 56 4 && n 56 4 ≤ 65536
    && n 60 4 % 64 == 0 && 256 ≤ n 60 4 && n 60 4 ≤ 16384 && leNat (bs.drop 88) == 0
  if ok then
    some { cid := n 0 2, valid := n 2 2 % 2 = 1, debug := n 2 2 / 2 % 2 = 1, gang := n 2 2 / 4 = 1, bdt := n 8 8, ptroot := n 16 8,
           faultq := w 24, errq := w 32, debugq := w 40, savearea := n 48 8, nslots := n 56 4, logsz := n 60 4, logarea := w 64,
           vdtab := n 72 8, queues := w 80, vdies := vdies, launchCount := count, slots := slots, used := used }
  else none

/-- A context descriptor written; a new context gets its virtual-die table, the partition's slices in order (20 R337, 21 R358). -/
def State.writeContext (s : State) (part : Nat) (bs : List Byte) : State :=
  let cid := leNat (bs.take 2)
  if 8 ≤ part || partOf cid != part || (s.part part).slices.isEmpty then s
  else
    match s.ctx? cid with
    | some c =>
      match parseContext bs c.vdies c.launchCount c.slots c.used with
      | some d => s.setCtx d
      | none => s
    | none =>
      let vs := (s.part part).slices
      match parseContext bs vs 0 [] [] with
      | some d => ({ s with contexts := s.contexts ++ [d] }).fwWrite d.vdtab (tableBytes vs)
      | none => s

/-! ### The host's aperture (24 R395, R398) -/

/-- The entry of an aperture offset with a right: its CID and the bref of the access. -/
def State.aperture (s : State) (part off : Nat) (write : Bool) : Option (Nat × Word) :=
  match (s.part part).apertures.find? fun e => e.1 == off / 2 ^ 30 with
  | some (_, e) => if (if write then e.w else e.r) then some (e.cid, e.base + BitVec.ofNat 64 (off % 2 ^ 30)) else none
  | none => none

/-- A failed aperture access counted (24 R398). -/
def State.aperFails (s : State) (part : Nat) : State :=
  { s.setPart part { s.part part with aperr := (s.part part).aperr + 1 } with reply := [] }

/-- The checks of an aperture access, as the CID: R79 and translation; the miss of one that fails. -/
def State.aperCheck (s : State) (cid : Nat) (b : Word) (n rights : Nat) (write : Bool) : Except Miss (State × List Tlb) :=
  match s.check cid b n rights with
  | .error t => .error ⟨some t, s⟩
  | .ok _ => s.translatePages (s.deviceAcc cid) b n write

/-- An aperture access that missed: it fails, or waits for a page that is being backed (19 R330). -/
def State.aperMiss (part : Nat) (m : Miss) : State := if m.trap.isSome then m.state.aperFails part else { m.state with reply := [] }

/-- A read of the aperture, performed at home (24 R398); failing lines read as zeros and are reported (18 R316). -/
def State.aperRead (s : State) (part off n : Nat) : State :=
  match s.aperture part off false with
  | none => s.aperFails part
  | some (cid, b) =>
    match s.aperCheck cid b n rightR false with
    | .error m => State.aperMiss part m
    | .ok (u, ps) =>
      let x := u.homeReads 0 cid (u.desc cid b) ps (u.vaOf cid b) n
      let v := x.2.2.foldl (fun (u : State) e =>
        u.postError 1 cid e.2.2 7 (b + BitVec.ofNat 64 (e.1 / 64 * 64) - BitVec.ofNat 64 (u.vaOf cid b)) 0 0 e.2.1) x.1
      { v with reply := wordsOf x.2.1 ((n + 7) / 8) }

/-- A write of the aperture, performed at home (24 R398). -/
def State.aperWrite (s : State) (part off : Nat) (bs : List Byte) : State :=
  match s.aperture part off true with
  | none => s.aperFails part
  | some (cid, b) =>
    match s.aperCheck cid b bs.length rightW true with
    | .error m => State.aperMiss part m
    | .ok (u, ps) => { u.homeWrites 0 cid (u.desc cid b) ps b (u.vaOf cid b) bs with reply := [] }

/-! ### Bring-up (25 R407) -/

/-- Failures of bring-up: 64 × step + unit, the unit a die by 22 R375, a link or a port. -/
def failsAt (fs : List Nat) (step unit : Nat) : Bool := fs.contains (64 * step + unit)

/-- Whether a step fails for a compute die: for itself, for a stack at step 4, for its remap table at step 6. -/
def State.sliceFails (s : State) (fs : List Nat) (n step : Nat) : Bool :=
  let r := (s.die n).remap
  let own := failsAt fs step (1 + n) || failsAt fs step (16 + 2 * n) || failsAt fs step (17 + 2 * n)
  match step with
  | 5 => !(s.cdConnected n && s.mdConnected (2 * n) && s.mdConnected (2 * n + 1))
  | 6 => own || !(r.length == 32 && decide r.Nodup && (r.all fun p => p < 34) && (s.die n).remapOk == BitVec.allOnes 32)
  | _ => own

/-- Step 5: every link trained but those that fail. -/
def State.trainLinks (s : State) (fs : List Nat) : State :=
  ((List.range 48).foldl (fun (u : State) n => u.setLink n { downLink with up := !failsAt fs 5 n }) s).noteCuts

/-- A slice found absent: its die and both its stacks (21 R356). -/
def State.dropSlice (s : State) (n : Nat) : State :=
  let s1 := s.setDie n { s.die n with present := false, clock := blankClock, evt := 8 }
  let one (u : State) (m : Nat) : State := u.setMdie m { u.mdie m with present := false, clock := blankClock, evt := 8 }
  one (one s1 (2 * n)) (2 * n + 1)

/-- The slices that stand and fail a step made absent, which FAIL reports. -/
def State.checkSlices (s : State) (fs : List Nat) (step : Nat) : State :=
  let bad := (List.range 8).filter fun n => (s.die n).present && s.sliceFails fs n step
  let s1 := bad.foldl State.dropSlice s
  { s1 with hub := { s1.hub with bootFail := if bad.isEmpty then s1.hub.bootFail else step } }

/-- Step 3: every die measured and loaded. -/
def State.raiseDies (s : State) : State :=
  { s with dies := s.dies.map fun d => { d with present := true }, mdies := s.mdies.map fun d => { d with present := true } }

/-- Step 6: the remap tables locked. -/
def State.lockRemaps (s : State) : State := { s with dies := s.dies.map fun d => { d with remapLock := true } }

/-- Step 8: ports trained, identifiers exchanged in a domain, the routing table written, PKGCFG locked; a conflict of identifiers keeps the
ports down. A package of the domain comes with the port that leads to it, the domain's time master first (24 R403, R405; log 49). -/
def Hub.raisePorts (b : Hub) (fs peers : List Nat) : Hub :=
  let ids := peers.map fun n => n % 2 ^ 20
  let clash := b.domain && ids.contains b.pkgid.toNat
  let joins := b.domain && !clash
  { b with ports := Vector.ofFn fun (i : Fin 24) => ⟨!clash && !failsAt fs 8 i.val, 4, 0, [], []⟩,
           timePort := peers.headD 0 / 2 ^ 20 % 24, peers := if joins then ids else [], routes := if joins then peers.map (fun n => (n % 2 ^ 20, n / 2 ^ 20 % 24)) else [],
           pkgLock := true }

/-- A partition number after a reset: nothing of it but the counters that are never to repeat (13 R263, 20 R348, 22 R367). -/
def Part.wiped (p : Part) : Part := { blankPart with sealCtr := p.sealCtr, saveCtr := p.saveCtr, pathEpoch := p.pathEpoch + 1 }

/-- PHYS of a die's entries by its fuses: its lowest-numbered good clusters (21 R356). -/
def Die.fusedRemap (d : Die) : List Nat := ((List.range 34).filter fun n => !d.harvested.contains n).take 32

/-- A die before bring-up with what its fuses hold. -/
def Die.fused (d : Die) : Die := { blankDie with harvested := d.harvested, remap := d.fusedRemap }

/-- The module before bring-up, with what straps and fuses hold, the counters that are never to repeat, the nonce of this boot, and the
model's own fields; its step 1 is in progress. -/
def State.blank (s : State) : State :=
  let r := State.reset
  { r with focus := s.focus, agenda := s.agenda, args := s.args, freeCount := s.freeCount, nextId := s.nextId,
           hub := { r.hub with pref := s.hub.pref, bootNonce := (Config.freeNonce s.freeCount).toNat % 2 ^ 64,
                               pathEpoch := s.hub.pathEpoch + 1, bootStep := 1 },
           parts := s.parts.map Part.wiped,
           keySlots := Vector.replicate 64 ⟨8, none, none, false⟩,
           dies := s.dies.map Die.fused }

/-- Step 7: `tset` loads the master; the dies' copies, and what counts from a time, start there, and the dies lock. -/
def State.loadTime (s : State) (t : Nat) : State :=
  { s with hub := { s.hub with time := t, bmcAt := t, timeLocked := true }, parts := s.parts.map fun p => { p with tick := t / 1600000 },
           dies := s.dies.map fun d => { d with time := t, clock := { d.clock with locked := d.present } },
           mdies := s.mdies.map fun d => { d with time := t, clock := { d.clock with locked := d.present } } }

/-- Step 9: stamp pools at 1,360, and PRESENT. -/
def State.raisePools (s : State) : State :=
  let mask := (List.range 8).foldl (fun m n => if (s.die n).present then m + 2 ^ n else m) 0
  { s with dies := s.dies.map fun d => { d with stampSet := 1360, pool := min 1360 d.cap }, hub := { s.hub with bootPresent := BitVec.ofNat 8 mask } }

/-- What a step of bring-up does; `time` is what `tset` loads into the master in step 7 (25 R407). -/
def State.bootStage (s : State) (step time : Nat) (fs peers : List Nat) : State :=
  match step with
  | 3 => s.raiseDies.checkSlices fs 3
  | 4 => s.checkSlices fs 4
  | 5 => (s.trainLinks fs).checkSlices fs 5
  | 6 => s.lockRemaps.checkSlices fs 6
  | 7 => (s.loadTime (time % 2 ^ 64)).checkSlices fs 7
  | 8 => { s with hub := s.hub.raisePorts fs peers }
  | 9 => s.raisePools
  | _ => s

/-- The end of the step of bring-up in progress, with the units that failed in it: the next step starts, or the module is held in reset
(25 R407). -/
def State.bringUp (s : State) (time : Nat) (fs peers : List Nat) : State :=
  let k := s.hub.bootStep
  if (k = 1 && failsAt fs 1 0) || s.hub.bootFail = 2 then s
  else if k = 2 && failsAt fs 2 0 then { s with hub := { s.hub with bootFail := 2 } }
  else
    let u := s.bootStage k time fs peers
    { u with hub := { u.hub with bootStep := if k < 9 then k + 1 else 15 } }

/-- A step of bring-up with an event's arguments: the count that `tset` loads, the number of failures, the failures, the packages of the
domain. -/
def State.bootWith (s r : State) : State := r.bringUp (s.arg 0) ((s.args.drop 2).take (s.arg 1)) (s.args.drop (2 + s.arg 1))

/-- NOTIFICATION_POP: a host read of the notification register pops one entry (24 R397). -/
def evNotificationPop (s : State) : State :=
  let p := s.part (s.arg 0)
  if !s.barServes (s.arg 0) then { s with reply := [] }
  else
    let lost := if p.ovf then 2 ^ 62 else 0
    match p.fifo with
    | [] => { s.setPart (s.arg 0) { p with ovf := false } with reply := [BitVec.ofNat 64 lost] }
    | (k, cid) :: rest =>
      { s.setPart (s.arg 0) { p with ovf := false, fifo := rest } with
        reply := [BitVec.ofNat 64 (2 ^ 63 + lost + k % 4 * 4096 + cid % 4096)] }

/-- The event NOTIFICATION_POP. -/
def execNotificationPop (s : State) : Host.Outcome State Fault Refusal := .next (evNotificationPop s)

/-- APERTURE_READ: a host read through the aperture of a TDI (24 R395, R398). -/
def evApertureRead (s : State) : State :=
  if s.barServes (s.arg 0) && 1 ≤ s.arg 2 && s.arg 1 < 2 ^ 36 then s.aperRead (s.arg 0) (s.arg 1) (s.arg 2) else { s with reply := [] }

/-- The event APERTURE_READ. -/
def execApertureRead (s : State) : Host.Outcome State Fault Refusal := .next (evApertureRead s)

/-- APERTURE_WRITE: a host write through the aperture of a TDI (24 R395, R398). -/
def evApertureWrite (s : State) : State :=
  if s.barServes (s.arg 0) && s.arg 1 < 2 ^ 36 then s.aperWrite (s.arg 0) (s.arg 1) ((s.args.drop 2).map fun n => BitVec.ofNat 8 n)
  else { s with reply := [] }

/-- The event APERTURE_WRITE. -/
def execApertureWrite (s : State) : Host.Outcome State Fault Refusal := .next (evApertureWrite s)

/-- MGMT_CLAIM: a master claims management ownership, with the other's claim in the same hub cycle where the second argument says so
(21 R365). -/
def evMgmtClaim (s : State) : State :=
  let rival := s.arg 1 != 0
  if s.arg 0 = 1 ∨ s.arg 0 = 2 then (s.heard (if rival then 2 else s.arg 0)).claim (s.arg 0) rival else s

/-- The event MGMT_CLAIM. -/
def execMgmtClaim (s : State) : Host.Outcome State Fault Refusal := .next (evMgmtClaim s)

/-- MGMT_HANDOVER: the owner sets the target of a handover (21 R365). -/
def evMgmtHandover (s : State) : State :=
  s.byOwner (s.arg 0) fun u =>
    if s.arg 1 ≤ 2 then { u with hub := { u.hub with target := BitVec.ofNat 2 (s.arg 1), targetAt := u.hub.time } } else u

/-- The event MGMT_HANDOVER. -/
def execMgmtHandover (s : State) : Host.Outcome State Fault Refusal := .next (evMgmtHandover s)

/-- HANDOVER_TIMEOUT: a target that has not claimed within 1 s is forgotten (21 R365). -/
def evHandoverTimeout (s : State) : State :=
  if s.hub.target != 0 && s.past s.hub.targetAt 1000000 then { s with hub := { s.hub with target := 0 } } else s

/-- The event HANDOVER_TIMEOUT. -/
def execHandoverTimeout (s : State) : Host.Outcome State Fault Refusal := .next (evHandoverTimeout s)

/-- BMC_SILENCE_TIMEOUT: five seconds without a message of the owning BMC clear OWNER (21 R365). -/
def evBmcSilenceTimeout (s : State) : State :=
  if s.hub.owner = 2 && s.past s.hub.bmcAt 5000000 then s.setOwner 0 else s

/-- The event BMC_SILENCE_TIMEOUT. -/
def execBmcSilenceTimeout (s : State) : Host.Outcome State Fault Refusal := .next (evBmcSilenceTimeout s)

/-- HOST_LINK_DOWN: a link-down of the host port clears the host's ownership (21 R365). -/
def evHostLinkDown (s : State) : State :=
  if s.hub.owner = 1 then s.setOwner 0 else s

/-- The event HOST_LINK_DOWN. -/
def execHostLinkDown (s : State) : Host.Outcome State Fault Refusal := .next (evHostLinkDown s)

/-- PKGCFG_LOCK: the owner locks PKGCFG until reset (24 R404). -/
def evPkgcfgLock (s : State) : State :=
  s.byOwner (s.arg 0) fun u => { u with hub := { u.hub with pkgLock := true } }

/-- The event PKGCFG_LOCK. -/
def execPkgcfgLock (s : State) : Host.Outcome State Fault Refusal := .next (evPkgcfgLock s)

/-- DIESTAT_CLEAR: the owner clears error counts and events by ones (25 R410). -/
def evDiestatClear (s : State) : State :=
  s.byOwner (s.arg 0) fun u => u.clearStatus (s.arg 1) (BitVec.ofNat 64 (s.arg 2))

/-- The event DIESTAT_CLEAR. -/
def execDiestatClear (s : State) : Host.Outcome State Fault Refusal := .next (evDiestatClear s)

/-- REGISTER_WRITE: a write to a management register, honoured from the owner: PKGCFG and DIESTAT have fields so written (24 R404,
25 R410). From 16 on the writer is the firmware of a compute die in M, which writes its REMAP registers (21 R356); 8 more than a master
asks for a read, which either master may make (21 R365). -/
def evRegisterWrite (s : State) : State :=
  let v : Word := BitVec.ofNat 64 (s.arg 2)
  if 16 ≤ s.arg 0 then s.writeRemap (s.arg 0 - 16) (s.arg 1) v
  else if 8 ≤ s.arg 0 then { s.heard (s.arg 0 - 8) with reply := [BitVec.ofNat 64 (s.mgmtRead (s.arg 1))] }
  else s.byOwner (s.arg 0) fun u =>
    if s.arg 1 = pkgcfgReg then { u with hub := u.hub.writeConfig v } else u.clearStatus (s.arg 1) v

/-- The event REGISTER_WRITE. -/
def execRegisterWrite (s : State) : Host.Outcome State Fault Refusal := .next (evRegisterWrite s)

/-- PARTITION_REQUEST: the owner asks firmware to create, resize or destroy a partition (21 R357). -/
def evPartitionRequest (s : State) : State :=
  let u := s.heard (s.arg 0)
  if !u.owns (s.arg 0) then { u with reply := [1] }
  else
    match u.partRequest (s.arg 1) (s.arg 2) (s.arg 3) (s.args.drop 4) with
    | some v => { v with reply := [0] }
    | none => { u with reply := [1] }

/-- The event PARTITION_REQUEST. -/
def execPartitionRequest (s : State) : Host.Outcome State Fault Refusal := .next (evPartitionRequest s)

/-- BDT_WRITE: firmware writes a buffer descriptor (19 R325). -/
def evBdtWrite (s : State) : State :=
  s.writeDesc (s.arg 0) (s.arg 1) (s.arg 2) (wordBytes (s.args.drop 3))

/-- The event BDT_WRITE. -/
def execBdtWrite (s : State) : Host.Outcome State Fault Refusal := .next (evBdtWrite s)

/-- SCHED_BLOCK_WRITE: firmware writes a partition's scheduling block (20 R336). -/
def evSchedBlockWrite (s : State) : State :=
  s.writeSched (s.arg 0) (s.arg 1) (s.arg 2) (s.arg 3) (s.arg 4) (s.arg 5)

/-- The event SCHED_BLOCK_WRITE. -/
def execSchedBlockWrite (s : State) : Host.Outcome State Fault Refusal := .next (evSchedBlockWrite s)

/-- POOL_FRAME_ADD: the supervisor adds frames to a free pool (19 R331). -/
def evPoolFrameAdd (s : State) : State :=
  s.addFrames (s.arg 0) (s.arg 1) (s.arg 2) (s.args.drop 3)

/-- The event POOL_FRAME_ADD. -/
def execPoolFrameAdd (s : State) : Host.Outcome State Fault Refusal := .next (evPoolFrameAdd s)

/-- POWER_UP: the input has stood for 10 ms and the hub powers up: bring-up starts, PKGCFG and the owner standing as they were written
before; while it is in progress, its step ends (25 R407; log 46). -/
def evPowerUp (s : State) : State :=
  let b := s.hub
  let r := s.blank
  let r1 := { r with hub := { r.hub with pkgid := b.pkgid, domain := b.domain, tmaster := b.tmaster, owner := b.owner, epoch := b.epoch } }
  if b.bootStep = 15 then s else s.bootWith (if b.bootStep = 0 then r1 else s)

/-- The event POWER_UP. -/
def execPowerUp (s : State) : Host.Outcome State Fault Refusal := .next (evPowerUp s)

/-- MODULE_RESET: a reset, after which every step of bring-up is repeated, the first at once (25 R407; log 46). -/
def evModuleReset (s : State) : State :=
  s.bootWith s.blank

/-- The event MODULE_RESET. -/
def execModuleReset (s : State) : Host.Outcome State Fault Refusal := .next (evModuleReset s)

/-- A compute die whose junction stands above 115 degrees is reset (25 R409). -/
def State.tripped (s : State) (n : Nat) : State :=
  if 115 < (s.die n).temp && (s.die n).present then
    let u := (s.resetDie n).noted s
    u.setDie n { u.die n with evt := (u.die n).evt ||| 2 }
  else s

/-- THERMAL_CAP_STEP: each millisecond a hot compute die lowers its cap, and a cool one raises it; above 115 degrees it is reset
(25 R409). -/
def evThermalCapStep (s : State) : State :=
  let d := s.die (s.arg 0)
  let t := s.arg 1
  if 8 ≤ s.arg 0 || !s.past d.capAt 1000 then s
  else
    let cap := if 100 < t then max 680 (d.cap - 68) else if t < 95 then min 1360 (d.cap + 68) else d.cap
    (s.setDie (s.arg 0) ({ d with cap := cap, temp := t, capAt := s.hub.time }).pooled).tripped (s.arg 0)

/-- The event THERMAL_CAP_STEP. -/
def execThermalCapStep (s : State) : Host.Outcome State Fault Refusal := .next (evThermalCapStep s)

/-- THERMAL_TRIP: a die crosses a trip temperature: it is reset, or a stack doubles its refresh and halves its credit (25 R409). -/
def evThermalTrip (s : State) : State :=
  let d := s.arg 0
  let t := s.arg 1
  if 1 ≤ d && d ≤ 8 then (s.setDie (d - 1) { s.die (d - 1) with temp := t }).tripped (d - 1)
  else if 16 ≤ d && d ≤ 31 then
    let m := (s.mdie (d - 16)).refilled s.hub.time
    let s1 := s.setMdie (d - 16) { m with temp := t, halved := 85 < t, evt := if 105 < t && m.present then m.evt ||| 2 else m.evt }
    if 105 < t && m.present then s1.resetStack (d - 16) else s1
  else s

/-- The event THERMAL_TRIP. -/
def execThermalTrip (s : State) : Host.Outcome State Fault Refusal := .next (evThermalTrip s)

/-- QUEUE_DESC_WRITE: firmware writes a launch-queue descriptor (20 R338, R341). -/
def evQueueDescWrite (s : State) : State :=
  s.writeQueue (s.arg 0) (s.arg 1) (s.arg 2) (s.arg 3) (s.arg 4) (s.arg 5) (s.arg 6) (BitVec.ofNat 64 (s.arg 7))

/-- The event QUEUE_DESC_WRITE. -/
def execQueueDescWrite (s : State) : Host.Outcome State Fault Refusal := .next (evQueueDescWrite s)

/-- CONTEXT_DESC_WRITE: firmware creates or changes a context descriptor (20 R337). -/
def evContextDescWrite (s : State) : State :=
  s.writeContext (s.arg 0) (wordBytes (s.args.drop 1))

/-- The event CONTEXT_DESC_WRITE. -/
def execContextDescWrite (s : State) : Host.Outcome State Fault Refusal := .next (evContextDescWrite s)

/-- APERTURE_TABLE_WRITE: firmware writes an entry of a TDI's aperture table (24 R398). -/
def evApertureTableWrite (s : State) : State :=
  let p := s.part (s.arg 0)
  if s.arg 1 < 64 && s.arg 3 < 4096 && partOf (s.arg 3) == s.arg 0 then
    let e : ApEntry := ⟨BitVec.ofNat 64 (s.arg 2), s.arg 3, s.arg 4 % 2 = 1, s.arg 4 / 2 % 2 = 1⟩
    s.setPart (s.arg 0) { p with apertures := (p.apertures.filter fun k => k.1 != s.arg 1) ++ [(s.arg 1, e)] }
  else s

/-- The event APERTURE_TABLE_WRITE. -/
def execApertureTableWrite (s : State) : Host.Outcome State Fault Refusal := .next (evApertureTableWrite s)

/-- DIE_RESET: firmware resets a compute or memory die, or a memory die fails (19 R335). -/
def evDieReset (s : State) : State :=
  let d := s.arg 0
  if 1 ≤ d && d ≤ 8 then (s.resetDie (d - 1)).noted s else if 16 ≤ d && d ≤ 31 then s.resetStack (d - 16) else s

/-- The event DIE_RESET. -/
def execDieReset (s : State) : Host.Outcome State Fault Refusal := .next (evDieReset s)

/-- DIE_RETURN: firmware brings a reset or orphaned die back (21 R364). -/
def evDieReturn (s : State) : State :=
  s.bringBack (s.arg 0)

/-- The event DIE_RETURN. -/
def execDieReturn (s : State) : Host.Outcome State Fault Refusal := .next (evDieReturn s)

end Sys2Proof.Machine
end

