-- ==== Sys2Proof/Machine/Matrix.lean ====
section
/-! DEFINITION. Matrix, accumulator, handle, loop and format-table instructions, classes 7 and 8 (11). -/

namespace Sys2Proof.Machine

/-- `mma`: (11 R207). -/
def execMma (o : LF) (s : State) : Host.Outcome State Fault Refusal :=
  issue (.mma o) 8 o (shapeMma o) (fun _ _ => { entry := true, matrix := true, tile := true }) (fun _ r s => matMul o r s) s

/-- `mmac`: (11 R208). -/
def execMmac (o : LF) (s : State) : Host.Outcome State Fault Refusal :=
  issue (.mmac o) 8 o (shapeMmac o) (fun _ _ => { entry := true, matrix := true, tile := true }) (fun _ r s => matMulAcc o r s) s

/-- `mlutb`: (11 R209). -/
def execMlutb (o : LF) (s : State) : Host.Outcome State Fault Refusal :=
  issue (.mlutb o) 8 o (shapeMlutb o) (fun _ r => { gb := if r.fmt = 14 then 1 else 0, ok4 := r.fmt == 14 || o.b == 0, entry := true, matrix := true, tile := true }) (fun _ r s => lutBuild o r s) s

/-- `mlut`: (11 R210). -/
def execMlut (o : LF) (s : State) : Host.Outcome State Fault Refusal :=
  issue (.mlut o) 8 o (shapeMlut o) (fun _ _ => { entry := true, matrix := true, tile := true }) (fun _ r s => lutAccum o r s) s

/-- `azero`: (11 R213). -/
def execAzero (o : LF) (s : State) : Host.Outcome State Fault Refusal :=
  issue (.azero o) 8 o (shapeAzero o) (fun _ _ => { entry := true }) (fun _ _ s => accZero o s) s

/-- `ald`: (11 R213). -/
def execAld (o : LF) (s : State) : Host.Outcome State Fault Refusal :=
  issue (.ald o) 8 o (shapeAld o) (fun _ _ => { entry := true }) (fun _ r s => accLoad o r s) s

/-- `ast`: (11 R213). -/
def execAst (o : LF) (s : State) : Host.Outcome State Fault Refusal :=
  issue (.ast o) 8 o (shapeAst o) (fun _ _ => { ok5 := true }) (fun _ r s => accStore o r s) s

/-- `ardv`: (11 R214). -/
def execArdv (o : LF) (s : State) : Host.Outcome State Fault Refusal :=
  issue (.ardv o) 8 o (shapeArdv o) (fun _ r => { ewPlan o (fmtWidth r.fmt) 8 false false with ok5 := o.b.toNat ≤ 31 && 64 * o.b.toNat + elems (groupRegs o) (fmtWidth r.fmt) ≤ 2048 }) (fun _ r s => accToVec o r s) s

/-- `awrv`: (11 R214). -/
def execAwrv (o : LF) (s : State) : Host.Outcome State Fault Refusal :=
  issue (.awrv o) 8 o (shapeAwrv o) (fun _ r => { ga := groupRegs o, ok5 := o.b.toNat ≤ 31 && 64 * o.b.toNat + elems (groupRegs o) (fmtWidth r.fmt) ≤ 2048, entry := true }) (fun _ r s => vecToAcc o r s) s

/-- `hset`: (11 R215). -/
def execHset (o : LF) (s : State) : Host.Outcome State Fault Refusal :=
  issue (.hset o) 8 o (shapeHset o) (fun _ _ => { ok5 := o.b.toNat ≤ 7, entry := true }) (fun _ _ s => landAt s s.cur.team [hWord (handleOf o.d) o.b.toNat (lowW (s.x (fieldReg o.a)))] 3) s

/-- `hget`: (11 R215). -/
def execHget (o : LF) (s : State) : Host.Outcome State Fault Refusal :=
  issue (.hget o) 8 o (shapeHget o) (fun _ _ => { ok5 := o.b.toNat ≤ 7 }) (fun _ _ s => .done (s.setX (fieldReg o.d) (hWordValue (s.cur.team.h.get (handleOf o.a)) o.b.toNat))) s

/-- `hld`: (11 R215). -/
def execHld (o : LF) (s : State) : Host.Outcome State Fault Refusal :=
  issue (.hld o) 8 o (shapeHld o) (fun _ _ => { entry := true }) (fun _ _ s => handleLoad o s) s

/-- `hst`: (11 R215). -/
def execHst (o : LF) (s : State) : Host.Outcome State Fault Refusal :=
  issue (.hst o) 8 o (shapeHst o) (fun _ _ => { ok5 := true }) (fun _ _ s => handleStore o s) s

/-- `hadv` in either length: (11 R215). -/
def runHadv (i : Instr) (len : Nat) (o : LF) (s : State) : Host.Outcome State Fault Refusal :=
  issue i len o (shapeHadv o) (fun _ _ => { entry := true }) (fun _ _ s => handleAdvance s (handleOf o.a) o.b.toNat) s

/-- `hadv`. -/
def execHadv (o : LF) (s : State) : Host.Outcome State Fault Refusal := runHadv (.hadv o) 8 o s

/-- The short form of `hadv` (08 R143). -/
def execHadvShort (rd rs1 rs2 : Reg) (s : State) : Host.Outcome State Fault Refusal :=
  runHadv (.hadvShort rd rs1 rs2) 4 (shortLF rd rs1 rs2 0) s

/-- `loop`: (11 R216). -/
def execLoop (o : LF) (s : State) : Host.Outcome State Fault Refusal :=
  issue (.loop o) 8 o (shapeLoop o) (fun _ _ => { ok5 := 3 ≤ o.b.toInt }) (fun _ _ s => loopStart s (loopNum o.d) (s.x (fieldReg o.a)) o.b) s

/-- `lcrd` in either length: (11 R217). -/
def runLcrd (i : Instr) (len : Nat) (o : LF) (s : State) : Host.Outcome State Fault Refusal :=
  issue i len o (shapeLcrd o) (fun _ _ => { ok5 := true }) (fun _ _ s => .done (s.setX (fieldReg o.d) ((s.cur.team.loopOf (loopNum o.b)).count.setWidth 64))) s

/-- `lcrd`. -/
def execLcrd (o : LF) (s : State) : Host.Outcome State Fault Refusal := runLcrd (.lcrd o) 8 o s

/-- The short form of `lcrd` (08 R143). -/
def execLcrdShort (rd rs1 rs2 : Reg) (s : State) : Host.Outcome State Fault Refusal :=
  runLcrd (.lcrdShort rd rs1 rs2) 4 (shortLF rd rs1 rs2 0) s

/-- `lbrk` in either length: (11 R216). -/
def runLbrk (i : Instr) (len : Nat) (o : LF) (s : State) : Host.Outcome State Fault Refusal :=
  issue i len o (shapeLbrk o) (fun _ _ => { ok5 := true }) (fun _ _ s => loopBreak s (loopNum o.b)) s

/-- `lbrk`. -/
def execLbrk (o : LF) (s : State) : Host.Outcome State Fault Refusal := runLbrk (.lbrk o) 8 o s

/-- The short form of `lbrk` (08 R143). -/
def execLbrkShort (rd rs1 rs2 : Reg) (s : State) : Host.Outcome State Fault Refusal :=
  runLbrk (.lbrkShort rd rs1 rs2) 4 (shortLF rd rs1 rs2 0) s

/-- `fmtset`: (11 R218). -/
def execFmtset (o : LF) (s : State) : Host.Outcome State Fault Refusal :=
  issue (.fmtset o) 8 o (shapeFmtset o) (fun _ _ => { ok5 := o.d.toNat ≤ 15 && (o.sub2 == 1 || o.b.toNat ≤ 255) }) (fun _ _ s => .done (s.setTeam (s.cur.team.setFt (ftNum o.d) (if o.sub2 = 1 then (s.x (fieldReg o.a)).setWidth 8 else o.b.setWidth 8)))) s

/-- `fmtsel` in either length: (11 R218). -/
def runFmtsel (i : Instr) (len : Nat) (o : LF) (s : State) : Host.Outcome State Fault Refusal :=
  issue i len o (shapeFmtsel o) (fun _ _ => { ok5 := o.a.toNat ≤ 4 && o.b.toNat ≤ 15 }) (fun _ _ s => formatSelect s o.a o.b) s

/-- `fmtsel`. -/
def execFmtsel (o : LF) (s : State) : Host.Outcome State Fault Refusal := runFmtsel (.fmtsel o) 8 o s

/-- The short form of `fmtsel` (08 R143). -/
def execFmtselShort (rd rs1 rs2 : Reg) (s : State) : Host.Outcome State Fault Refusal :=
  runFmtsel (.fmtselShort rd rs1 rs2) 4 (shortLF rd rs1 rs2 0) s

/-- `fmtget` in either length: (11 R218). -/
def runFmtget (i : Instr) (len : Nat) (o : LF) (s : State) : Host.Outcome State Fault Refusal :=
  issue i len o (shapeFmtget o) (fun _ _ => { ok5 := o.b.toNat ≤ 15 }) (fun _ _ s => .done (s.setX (fieldReg o.d) ((s.cur.team.ft.get (ftNum o.b)).setWidth 64))) s

/-- `fmtget`. -/
def execFmtget (o : LF) (s : State) : Host.Outcome State Fault Refusal := runFmtget (.fmtget o) 8 o s

/-- The short form of `fmtget` (08 R143). -/
def execFmtgetShort (rd rs1 rs2 : Reg) (s : State) : Host.Outcome State Fault Refusal :=
  runFmtget (.fmtgetShort rd rs1 rs2) 4 (shortLF rd rs1 rs2 0) s

end Sys2Proof.Machine
end

