-- ==== Sys2Proof/Machine/Movement.lean ====
section
/-! DEFINITION. Movement, memory and synchronisation instructions, classes 9 to 12 (12). -/

namespace Sys2Proof.Machine

/-- `cpld`: buffer to local copy (12 R231). -/
def execCpld (o : LF) (s : State) : Host.Outcome State Fault Refusal :=
  issue (.cpld o) 8 o (shapeCpld o) (fun _ _ => {}) (fun w _ s => copyOf o w s (planLoad o s)) s

/-- `cpst`: local to buffer copy (12 R231). -/
def execCpst (o : LF) (s : State) : Host.Outcome State Fault Refusal :=
  issue (.cpst o) 8 o (shapeCpst o) (fun _ _ => {}) (fun w _ s => copyOf o w s (planStore o s)) s

/-- `cpgat`: row gather (12 R232). -/
def execCpgat (o : LF) (s : State) : Host.Outcome State Fault Refusal :=
  issue (.cpgat o) 8 o (shapeCpgat o) (fun _ _ => {}) (fun w _ s => copyRows o w false s) s

/-- `cpsca`: row scatter (12 R232). -/
def execCpsca (o : LF) (s : State) : Host.Outcome State Fault Refusal :=
  issue (.cpsca o) 8 o (shapeCpsca o) (fun _ _ => {}) (fun w _ s => copyRows o w true s) s

/-- `cploc`: local to local copy (12 R231). -/
def execCploc (o : LF) (s : State) : Host.Outcome State Fault Refusal :=
  issue (.cploc o) 8 o (shapeCploc o) (fun _ _ => {}) (fun w _ s => copyOf o w s (planLocal o s)) s

/-- `cprem`: buffer to buffer copy (12 R233). -/
def execCprem (o : LF) (s : State) : Host.Outcome State Fault Refusal :=
  issue (.cprem o) 8 o (shapeCprem o) (fun _ _ => {}) (fun w _ s => copyRemote o w s) s

/-- `coll`: collective (12 R235-R237). -/
def execColl (o : LF) (s : State) : Host.Outcome State Fault Refusal :=
  issue (.coll o) 8 o (shapeColl o) (fun _ _ => {}) (fun w _ s => collective o w s) s

/-- `bld`: buffer load (12 R239, R240). -/
def execBld (o : LF) (s : State) : Host.Outcome State Fault Refusal :=
  issue (.bld o) 8 o (shapeBld o) (fun _ _ => {}) (fun w _ s => bufLoad w (fieldReg o.d) (s.x (fieldReg o.a) + sext11 o.b) (2 ^ o.size) o.sx s) s

/-- `bst`: buffer store (12 R239, R240). -/
def execBst (o : LF) (s : State) : Host.Outcome State Fault Refusal :=
  issue (.bst o) 8 o (shapeBst o) (fun _ _ => {}) (fun w _ s => bufStore w (s.x (fieldReg o.a) + sext11 o.d) (s.x (fieldReg o.b)) (2 ^ o.size) s) s

/-- `bamo`: atomic (12 R241). -/
def execBamo (o : LF) (s : State) : Host.Outcome State Fault Refusal :=
  issue (.bamo o) 8 o (shapeBamo o) (fun _ _ => {}) (fun w _ s => bufAmo o w s) s

/-- `bcas`: compare and swap (12 R242). -/
def execBcas (o : LF) (s : State) : Host.Outcome State Fault Refusal :=
  issue (.bcas o) 8 o (shapeBcas o) (fun _ _ => {}) (fun w _ s => bufCas o w s) s

/-- `acq` in either length: (12 R244). -/
def runAcq (i : Instr) (len : Nat) (o : LF) (s : State) : Host.Outcome State Fault Refusal :=
  issue i len o (shapeAcq o) (fun _ _ => {}) (fun w _ s => acquire o w s) s

/-- `acq`. -/
def execAcq (o : LF) (s : State) : Host.Outcome State Fault Refusal := runAcq (.acq o) 8 o s

/-- The short form of `acq` (08 R143). -/
def execAcqShort (rd rs1 rs2 : Reg) (s : State) : Host.Outcome State Fault Refusal :=
  runAcq (.acqShort rd rs1 rs2) 4 (shortLF rd rs1 rs2 0) s

/-- The short form of `acq` (08 R143). -/
def execAcqShShort (rd rs1 rs2 : Reg) (s : State) : Host.Outcome State Fault Refusal :=
  runAcq (.acqShShort rd rs1 rs2) 4 (shortLF rd rs1 rs2 1) s

/-- `rel` in either length: (12 R244). -/
def runRel (i : Instr) (len : Nat) (o : LF) (s : State) : Host.Outcome State Fault Refusal :=
  issue i len o (shapeRel o) (fun _ _ => {}) (fun w _ s => release o w s) s

/-- `rel`. -/
def execRel (o : LF) (s : State) : Host.Outcome State Fault Refusal := runRel (.rel o) 8 o s

/-- The short form of `rel` (08 R143). -/
def execRelShort (rd rs1 rs2 : Reg) (s : State) : Host.Outcome State Fault Refusal :=
  runRel (.relShort rd rs1 rs2) 4 (shortLF rd rs1 rs2 0) s

/-- `frange`: (12 R245). -/
def execFrange (o : LF) (s : State) : Host.Outcome State Fault Refusal :=
  issue (.frange o) 8 o (shapeFrange o) (fun _ _ => {}) (fun w _ s => rangeFence o w s) s

/-- `pmrd` in either length: (12 R246). -/
def runPmrd (i : Instr) (len : Nat) (o : LF) (s : State) : Host.Outcome State Fault Refusal :=
  issue i len o (shapePmrd o) (fun _ _ => {}) (fun _ _ s => .done (s.setX (fieldReg o.d) (BitVec.ofNat 64 (s.pmCompleted o.b.toNat)))) s

/-- `pmrd`. -/
def execPmrd (o : LF) (s : State) : Host.Outcome State Fault Refusal := runPmrd (.pmrd o) 8 o s

/-- The short form of `pmrd` (08 R143). -/
def execPmrdShort (rd rs1 rs2 : Reg) (s : State) : Host.Outcome State Fault Refusal :=
  runPmrd (.pmrdShort rd rs1 rs2) 4 (shortLF rd rs1 rs2 0) s

/-- `pmwait` in either length: (12 R246). -/
def runPmwait (i : Instr) (len : Nat) (o : LF) (s : State) : Host.Outcome State Fault Refusal :=
  issue i len o (shapePmwait o) (fun _ _ => {}) (fun w _ s => postmarkWait o w s) s

/-- `pmwait`. -/
def execPmwait (o : LF) (s : State) : Host.Outcome State Fault Refusal := runPmwait (.pmwait o) 8 o s

/-- The short form of `pmwait` (08 R143). -/
def execPmwaitShort (rd rs1 rs2 : Reg) (s : State) : Host.Outcome State Fault Refusal :=
  runPmwait (.pmwaitShort rd rs1 rs2) 4 (shortLF rd rs1 rs2 0) s

/-- `wait`: (12 R247). -/
def execWait (o : LF) (s : State) : Host.Outcome State Fault Refusal :=
  issue (.wait o) 8 o (shapeWait o) (fun _ _ => { ok5 := o.d.toNat ≤ 63 && o.a.toNat ≤ 63 && o.b.toNat ≤ 63 }) (fun w _ s => waitCounters o w s) s

/-- `phcfg`: (12 R225). -/
def execPhcfg (o : LF) (s : State) : Host.Outcome State Fault Refusal :=
  issue (.phcfg o) 8 o (shapePhcfg o) (fun _ _ => {}) (fun _ _ s => holeConfig o s) s

/-- `phtake` in either length: (12 R224). -/
def runPhtake (i : Instr) (len : Nat) (o : LF) (s : State) : Host.Outcome State Fault Refusal :=
  issue i len o (shapePhtake o) (fun _ _ => {}) (fun w _ s => holeTake o w s) s

/-- `phtake`. -/
def execPhtake (o : LF) (s : State) : Host.Outcome State Fault Refusal := runPhtake (.phtake o) 8 o s

/-- The short form of `phtake` (08 R143). -/
def execPhtakeShort (rd rs1 rs2 : Reg) (s : State) : Host.Outcome State Fault Refusal :=
  runPhtake (.phtakeShort rd rs1 rs2) 4 (shortLF rd rs1 rs2 0) s

/-- `phgive` in either length: (12 R224). -/
def runPhgive (i : Instr) (len : Nat) (o : LF) (s : State) : Host.Outcome State Fault Refusal :=
  issue i len o (shapePhgive o) (fun _ _ => {}) (fun w _ s => holeGive o w s) s

/-- `phgive`. -/
def execPhgive (o : LF) (s : State) : Host.Outcome State Fault Refusal := runPhgive (.phgive o) 8 o s

/-- The short form of `phgive` (08 R143). -/
def execPhgiveShort (rd rs1 rs2 : Reg) (s : State) : Host.Outcome State Fault Refusal :=
  runPhgive (.phgiveShort rd rs1 rs2) 4 (shortLF rd rs1 rs2 0) s

/-- `phres` in either length: (12 R224). -/
def runPhres (i : Instr) (len : Nat) (o : LF) (s : State) : Host.Outcome State Fault Refusal :=
  issue i len o (shapePhres o) (fun _ _ => {}) (fun w _ s => holeReserve o w s) s

/-- `phres`. -/
def execPhres (o : LF) (s : State) : Host.Outcome State Fault Refusal := runPhres (.phres o) 8 o s

/-- The short form of `phres` (08 R143). -/
def execPhresShort (rd rs1 rs2 : Reg) (s : State) : Host.Outcome State Fault Refusal :=
  runPhres (.phresShort rd rs1 rs2) 4 (shortLF rd rs1 rs2 0) s

/-- `phpost` in either length: (12 R224). -/
def runPhpost (i : Instr) (len : Nat) (o : LF) (s : State) : Host.Outcome State Fault Refusal :=
  issue i len o (shapePhpost o) (fun _ _ => {}) (fun _ _ s => holePost o s) s

/-- `phpost`. -/
def execPhpost (o : LF) (s : State) : Host.Outcome State Fault Refusal := runPhpost (.phpost o) 8 o s

/-- The short form of `phpost` (08 R143). -/
def execPhpostShort (rd rs1 rs2 : Reg) (s : State) : Host.Outcome State Fault Refusal :=
  runPhpost (.phpostShort rd rs1 rs2) 4 (shortLF rd rs1 rs2 0) s

/-- `phstat` in either length: (12 R224). -/
def runPhstat (i : Instr) (len : Nat) (o : LF) (s : State) : Host.Outcome State Fault Refusal :=
  issue i len o (shapePhstat o) (fun _ _ => {}) (fun _ _ s => holeStat o s) s

/-- `phstat`. -/
def execPhstat (o : LF) (s : State) : Host.Outcome State Fault Refusal := runPhstat (.phstat o) 8 o s

/-- The short form of `phstat` (08 R143). -/
def execPhstatShort (rd rs1 rs2 : Reg) (s : State) : Host.Outcome State Fault Refusal :=
  runPhstat (.phstatShort rd rs1 rs2) 4 (shortLF rd rs1 rs2 0) s

/-- `tqput` in either length: (12 R226). -/
def runTqput (i : Instr) (len : Nat) (o : LF) (s : State) : Host.Outcome State Fault Refusal :=
  issue i len o (shapeTqput o) (fun _ _ => { route := some (o.b.toNat, true) }) (fun _ _ s => queuePut o s) s

/-- `tqput`. -/
def execTqput (o : LF) (s : State) : Host.Outcome State Fault Refusal := runTqput (.tqput o) 8 o s

/-- The short form of `tqput` (08 R143). -/
def execTqputShort (rd rs1 rs2 : Reg) (s : State) : Host.Outcome State Fault Refusal :=
  runTqput (.tqputShort rd rs1 rs2) 4 (shortLF rd rs1 rs2 0) s

/-- `tqget` in either length: (12 R226). -/
def runTqget (i : Instr) (len : Nat) (o : LF) (s : State) : Host.Outcome State Fault Refusal :=
  issue i len o (shapeTqget o) (fun _ _ => { route := some (o.b.toNat, false) }) (fun _ _ s => queueGet o s) s

/-- `tqget`. -/
def execTqget (o : LF) (s : State) : Host.Outcome State Fault Refusal := runTqget (.tqget o) 8 o s

/-- The short form of `tqget` (08 R143). -/
def execTqgetShort (rd rs1 rs2 : Reg) (s : State) : Host.Outcome State Fault Refusal :=
  runTqget (.tqgetShort rd rs1 rs2) 4 (shortLF rd rs1 rs2 0) s

/-- The short form of `tqget` (08 R143). -/
def execTqgetPkShort (rd rs1 rs2 : Reg) (s : State) : Host.Outcome State Fault Refusal :=
  runTqget (.tqgetPkShort rd rs1 rs2) 4 (shortLF rd rs1 rs2 1) s

/-- `nbq`: (12 R248). -/
def execNbq (o : LF) (s : State) : Host.Outcome State Fault Refusal :=
  issue (.nbq o) 8 o (shapeNbq o) (fun _ _ => {}) (fun w _ s => bankQuery o w s) s

/-- `nbcan` in either length: (12 R248). -/
def runNbcan (i : Instr) (len : Nat) (o : LF) (s : State) : Host.Outcome State Fault Refusal :=
  issue i len o (shapeNbcan o) (fun _ _ => {}) (fun _ _ s => bankCancel o s) s

/-- `nbcan`. -/
def execNbcan (o : LF) (s : State) : Host.Outcome State Fault Refusal := runNbcan (.nbcan o) 8 o s

/-- The short form of `nbcan` (08 R143). -/
def execNbcanShort (rd rs1 rs2 : Reg) (s : State) : Host.Outcome State Fault Refusal :=
  runNbcan (.nbcanShort rd rs1 rs2) 4 (shortLF rd rs1 rs2 0) s

/-- The issue of a short buffer access: couriers only (08 R138, R141). -/
def shortBuf (i : Instr) (s : State) (e : Who → Eff) : Host.Outcome State Fault Refusal :=
  match s.focus with
  | .hart _ => (Eff.trap (illegalOnHart i) s).finish 4
  | .member .seq => (Eff.trap (trapOf .illegalInstr) s).finish 4
  | .member w => (e w).finish 4

/-- `bld.b` in its short form (08 R141). -/
def execBldBShort (rd rs1 : Reg) (imm : BitVec 12) (s : State) : Host.Outcome State Fault Refusal :=
  shortBuf (.bldBShort rd rs1 imm) s fun w => bufLoad w rd (s.x rs1 + imm.signExtend 64) 1 false s

/-- `bst.b` in its short form (08 R141). -/
def execBstBShort (rs1 rs2 : Reg) (imm : BitVec 12) (s : State) : Host.Outcome State Fault Refusal :=
  shortBuf (.bstBShort rs1 rs2 imm) s fun w => bufStore w (s.x rs1 + imm.signExtend 64) (s.x rs2) 1 s

/-- `bld.h` in its short form (08 R141). -/
def execBldHShort (rd rs1 : Reg) (imm : BitVec 12) (s : State) : Host.Outcome State Fault Refusal :=
  shortBuf (.bldHShort rd rs1 imm) s fun w => bufLoad w rd (s.x rs1 + imm.signExtend 64) 2 false s

/-- `bst.h` in its short form (08 R141). -/
def execBstHShort (rs1 rs2 : Reg) (imm : BitVec 12) (s : State) : Host.Outcome State Fault Refusal :=
  shortBuf (.bstHShort rs1 rs2 imm) s fun w => bufStore w (s.x rs1 + imm.signExtend 64) (s.x rs2) 2 s

/-- `bld.w` in its short form (08 R141). -/
def execBldWShort (rd rs1 : Reg) (imm : BitVec 12) (s : State) : Host.Outcome State Fault Refusal :=
  shortBuf (.bldWShort rd rs1 imm) s fun w => bufLoad w rd (s.x rs1 + imm.signExtend 64) 4 false s

/-- `bst.w` in its short form (08 R141). -/
def execBstWShort (rs1 rs2 : Reg) (imm : BitVec 12) (s : State) : Host.Outcome State Fault Refusal :=
  shortBuf (.bstWShort rs1 rs2 imm) s fun w => bufStore w (s.x rs1 + imm.signExtend 64) (s.x rs2) 4 s

/-- `bld.d` in its short form (08 R141). -/
def execBldDShort (rd rs1 : Reg) (imm : BitVec 12) (s : State) : Host.Outcome State Fault Refusal :=
  shortBuf (.bldDShort rd rs1 imm) s fun w => bufLoad w rd (s.x rs1 + imm.signExtend 64) 8 false s

/-- `bst.d` in its short form (08 R141). -/
def execBstDShort (rs1 rs2 : Reg) (imm : BitVec 12) (s : State) : Host.Outcome State Fault Refusal :=
  shortBuf (.bstDShort rs1 rs2 imm) s fun w => bufStore w (s.x rs1 + imm.signExtend 64) (s.x rs2) 8 s

end Sys2Proof.Machine
end

