-- ==== Sys2Proof/Machine/System.lean ====
section
/-! DEFINITION. System instructions, class 15 (23). -/

namespace Sys2Proof.Machine

/-- `ctxsv`: save of a running task (23 R386). -/
def execCtxsv (o : LF) (s : State) : Host.Outcome State Fault Refusal :=
  issueSys (.ctxsv o) o (shapeCtxsv o) (fun h s => ctxSave 1 o h s) s

/-- `ctxsvHalt`: halt of a running task (23 R386, 18 R319). -/
def execCtxsvHalt (o : LF) (s : State) : Host.Outcome State Fault Refusal :=
  issueSys (.ctxsvHalt o) o (shapeCtxsvHalt o) (fun h s => ctxSave 5 o h s) s

/-- `ctxrs`: re-queue of a saved task (23 R386). -/
def execCtxrs (o : LF) (s : State) : Host.Outcome State Fault Refusal :=
  issueSys (.ctxrs o) o (shapeCtxrs o) (fun h s => ctxRestore o h s) s

/-- `ckpt`: a checkpoint (23 R386). -/
def execCkpt (o : LF) (s : State) : Host.Outcome State Fault Refusal :=
  issueSys (.ckpt o) o (shapeCkpt o) (fun h s => ctxCheckpoint o h s) s

/-- `ckrb`: ROLLBACK (23 R386). -/
def execCkrb (o : LF) (s : State) : Host.Outcome State Fault Refusal :=
  issueSys (.ckrb o) o (shapeCkrb o) (fun h s => ctxRollback o h s) s

/-- `tlbir`: range invalidation (23 R388). -/
def execTlbir (o : LF) (s : State) : Host.Outcome State Fault Refusal :=
  issueSys (.tlbir o) o (shapeTlbir o) (fun h s => tlbInvalidate o h s) s

/-- `ksload`: the next key generation (23 R389). -/
def execKsload (o : LF) (s : State) : Host.Outcome State Fault Refusal :=
  issueSys (.ksload o) o (shapeKsload o) (fun h s => keyLoad o h s) s

/-- `ksloadNew`: a free key slot assigned (23 R389). -/
def execKsloadNew (o : LF) (s : State) : Host.Outcome State Fault Refusal :=
  issueSys (.ksloadNew o) o (shapeKsloadNew o) (fun h s => keyLoadNew o h s) s

/-- `ksclr`: half of a key slot zeroised (23 R389). -/
def execKsclr (o : LF) (s : State) : Host.Outcome State Fault Refusal :=
  issueSys (.ksclr o) o (shapeKsclr o) (fun h s => keyClear o h s) s

/-- `ksclrAll`: a key slot zeroised and unassigned (23 R389). -/
def execKsclrAll (o : LF) (s : State) : Host.Outcome State Fault Refusal :=
  issueSys (.ksclrAll o) o (shapeKsclrAll o) (fun h s => keyClearAll o h s) s

/-- `slmap`: a virtual-die table (23 R392). -/
def execSlmap (o : LF) (s : State) : Host.Outcome State Fault Refusal :=
  issueSys (.slmap o) o (shapeSlmap o) (fun h s => sliceMap o h s) s

/-- `slend`: a loan (23 R392). -/
def execSlend (o : LF) (s : State) : Host.Outcome State Fault Refusal :=
  issueSys (.slend o) o (shapeSlend o) (fun h s => sliceLend o h s) s

/-- `slrcl`: a recall (23 R392). -/
def execSlrcl (o : LF) (s : State) : Host.Outcome State Fault Refusal :=
  issueSys (.slrcl o) o (shapeSlrcl o) (fun h s => sliceRecall o h s) s

/-- `qlink`: a segment linked (23 R390). -/
def execQlink (o : LF) (s : State) : Host.Outcome State Fault Refusal :=
  issueSys (.qlink o) o (shapeQlink o) (fun h s => queueLink o h s) s

/-- `tset`: package time loaded (23 R394). -/
def execTset (o : LF) (s : State) : Host.Outcome State Fault Refusal :=
  issueSys (.tset o) o (shapeTset o) (fun h s => timeSet o h s) s

/-- `tadj`: the rate correction (23 R394). -/
def execTadj (o : LF) (s : State) : Host.Outcome State Fault Refusal :=
  issueSys (.tadj o) o (shapeTadj o) (fun h s => timeAdjust o h s) s

/-- `errpost`: a record posted (23 R391). -/
def execErrpost (o : LF) (s : State) : Host.Outcome State Fault Refusal :=
  issueSys (.errpost o) o (shapeErrpost o) (fun h s => recordPost o h s) s

/-- `stmp`: a stamp pool (23 R393). -/
def execStmp (o : LF) (s : State) : Host.Outcome State Fault Refusal :=
  issueSys (.stmp o) o (shapeStmp o) (fun h s => stampSetPool o h s) s

/-- `tresmResume`: RESUME (23 R387). -/
def execTresmResume (o : LF) (s : State) : Host.Outcome State Fault Refusal :=
  issueSys (.tresmResume o) o (shapeTresmResume o) (fun h s => tresmResume o h s) s

/-- `tresmRestart`: RESTART (23 R387). -/
def execTresmRestart (o : LF) (s : State) : Host.Outcome State Fault Refusal :=
  issueSys (.tresmRestart o) o (shapeTresmRestart o) (fun h s => tresmRestart o h s) s

/-- `tresmStep`: one step (23 R387). -/
def execTresmStep (o : LF) (s : State) : Host.Outcome State Fault Refusal :=
  issueSys (.tresmStep o) o (shapeTresmStep o) (fun h s => tresmStep o h s) s

/-- `tresmAbandon`: a step abandoned (23 R387). -/
def execTresmAbandon (o : LF) (s : State) : Host.Outcome State Fault Refusal :=
  issueSys (.tresmAbandon o) o (shapeTresmAbandon o) (fun h s => tresmAbandon o h s) s

/-- `tresmRel`: held children released (23 R387). -/
def execTresmRel (o : LF) (s : State) : Host.Outcome State Fault Refusal :=
  issueSys (.tresmRel o) o (shapeTresmRel o) (fun h s => tresmRelease o h s) s

/-- `tresmSvc`: a service answer (23 R387). -/
def execTresmSvc (o : LF) (s : State) : Host.Outcome State Fault Refusal :=
  issueSys (.tresmSvc o) o (shapeTresmSvc o) (fun h s => tresmService o h s) s

/-- `tcanc`: CANCEL (23 R387). -/
def execTcanc (o : LF) (s : State) : Host.Outcome State Fault Refusal :=
  issueSys (.tcanc o) o (shapeTcanc o) (fun h s => taskCancel o h s) s

end Sys2Proof.Machine
end

