-- ==== Sys2Proof/Machine/Tasks.lean ====
section
/-! DEFINITION. Task, launch, speculation and tenant security instructions, classes 13 and 14 (13). -/

namespace Sys2Proof.Machine

/-- `tenq` in either length: a TCB checked and registered (13 R250, R251). -/
def runTenq (i : Instr) (len : Nat) (o : LF) (s : State) : Host.Outcome State Fault Refusal :=
  issue i len o (shapeTenq o) (fun _ _ => {}) (fun w _ s => taskEnqueue o w s) s

/-- `tenq`. -/
def execTenq (o : LF) (s : State) : Host.Outcome State Fault Refusal := runTenq (.tenq o) 8 o s

/-- The short form of `tenq` (08 R143). -/
def execTenqShort (rd rs1 rs2 : Reg) (s : State) : Host.Outcome State Fault Refusal :=
  runTenq (.tenqShort rd rs1 rs2) 4 (shortLF rd rs1 rs2 0) s

/-- `tend` in either length: the end of the member (13 R252, R253). -/
def runTend (i : Instr) (len : Nat) (o : LF) (s : State) : Host.Outcome State Fault Refusal :=
  issue i len o (shapeTend o) (fun _ _ => {}) (fun w _ s => taskEnd w s) s

/-- `tend`. -/
def execTend (o : LF) (s : State) : Host.Outcome State Fault Refusal := runTend (.tend o) 8 o s

/-- The short form of `tend` (08 R143). -/
def execTendShort (s : State) : Host.Outcome State Fault Refusal :=
  runTend (.tendShort) 4 (shortLF 0 0 0 0) s

/-- `tyield` in either length: the core given up where another task waits (13 R254). -/
def runTyield (i : Instr) (len : Nat) (o : LF) (s : State) : Host.Outcome State Fault Refusal :=
  issue i len o (shapeTyield o) (fun _ _ => {}) (fun _ _ s => taskYield s) s

/-- `tyield`. -/
def execTyield (o : LF) (s : State) : Host.Outcome State Fault Refusal := runTyield (.tyield o) 8 o s

/-- The short form of `tyield` (08 R143). -/
def execTyieldShort (s : State) : Host.Outcome State Fault Refusal :=
  runTyield (.tyieldShort) 4 (shortLF 0 0 0 0) s

/-- `lnch`: a child launch (13 R256). -/
def execLnch (o : LF) (s : State) : Host.Outcome State Fault Refusal :=
  issue (.lnch o) 8 o (shapeLnch o) (fun _ _ => {}) (fun w _ s => launchChild o w s) s

/-- `twait`: the wait on a word of a buffer (13 R257). -/
def execTwait (o : LF) (s : State) : Host.Outcome State Fault Refusal :=
  issue (.twait o) 8 o (shapeTwait o) (fun _ _ => {}) (fun w _ s => wordWait o w s) s

/-- `specq` in either length: the task as it speculates (13 R258). -/
def runSpecq (i : Instr) (len : Nat) (o : LF) (s : State) : Host.Outcome State Fault Refusal :=
  issue i len o (shapeSpecq o) (fun _ _ => {}) (fun _ _ s => .done (s.setX (fieldReg o.d) s.cur.specWord)) s

/-- `specq`. -/
def execSpecq (o : LF) (s : State) : Host.Outcome State Fault Refusal := runSpecq (.specq o) 8 o s

/-- The short form of `specq` (08 R143). -/
def execSpecqShort (rd rs1 rs2 : Reg) (s : State) : Host.Outcome State Fault Refusal :=
  runSpecq (.specqShort rd rs1 rs2) 4 (shortLF rd rs1 rs2 0) s

/-- `vdist` in either length: the hop distance of two virtual dies (13 R259). -/
def runVdist (i : Instr) (len : Nat) (o : LF) (s : State) : Host.Outcome State Fault Refusal :=
  issue i len o (shapeVdist o) (fun _ _ => {}) (fun _ _ s => .done (s.setX (fieldReg o.d) (s.vdistance (s.x (fieldReg o.a)) (s.x (fieldReg o.b))))) s

/-- `vdist`. -/
def execVdist (o : LF) (s : State) : Host.Outcome State Fault Refusal := runVdist (.vdist o) 8 o s

/-- The short form of `vdist` (08 R143). -/
def execVdistShort (rd rs1 rs2 : Reg) (s : State) : Host.Outcome State Fault Refusal :=
  runVdist (.vdistShort rd rs1 rs2) 4 (shortLF rd rs1 rs2 0) s

/-- `tabort` in either length: the deliberate trap (13 R255). -/
def runTabort (i : Instr) (len : Nat) (o : LF) (s : State) : Host.Outcome State Fault Refusal :=
  issue i len o (shapeTabort o) (fun _ _ => {}) (fun _ _ s => taskAbort o s) s

/-- `tabort`. -/
def execTabort (o : LF) (s : State) : Host.Outcome State Fault Refusal := runTabort (.tabort o) 8 o s

/-- The short form of `tabort` (08 R143). -/
def execTabortShort (rd rs1 rs2 : Reg) (s : State) : Host.Outcome State Fault Refusal :=
  runTabort (.tabortShort rd rs1 rs2) 4 (shortLF rd rs1 rs2 0) s

/-- `krot`: key rotation of blocks (13 R260). -/
def execKrot (o : LF) (s : State) : Host.Outcome State Fault Refusal :=
  issue (.krot o) 8 o (shapeKrot o) (fun _ _ => {}) (fun w _ s => rotateKeys o w s) s

/-- `kstat` in either length: the state of a block (13 R261). -/
def runKstat (i : Instr) (len : Nat) (o : LF) (s : State) : Host.Outcome State Fault Refusal :=
  issue i len o (shapeKstat o) (fun _ _ => {}) (fun _ _ s => blockStat o s) s

/-- `kstat`. -/
def execKstat (o : LF) (s : State) : Host.Outcome State Fault Refusal := runKstat (.kstat o) 8 o s

/-- The short form of `kstat` (08 R143). -/
def execKstatShort (rd rs1 rs2 : Reg) (s : State) : Host.Outcome State Fault Refusal :=
  runKstat (.kstatShort rd rs1 rs2) 4 (shortLF rd rs1 rs2 0) s

/-- `sealImage`: ranges sealed into an image (13 R264). -/
def execSealImage (o : LF) (s : State) : Host.Outcome State Fault Refusal :=
  issue (.sealImage o) 8 o (shapeSealImage o) (fun _ _ => {}) (fun w _ s => sealRanges o w s) s

/-- `unsealImage`: an image opened into its ranges (13 R265). -/
def execUnsealImage (o : LF) (s : State) : Host.Outcome State Fault Refusal :=
  issue (.unsealImage o) 8 o (shapeUnsealImage o) (fun _ _ => {}) (fun w _ s => unsealRanges o w s) s

/-- `scrub` in either length: local bytes zeroed (13 R266). -/
def runScrub (i : Instr) (len : Nat) (o : LF) (s : State) : Host.Outcome State Fault Refusal :=
  issue i len o (shapeScrub o) (fun _ _ => {}) (fun w _ s => scrubLocal o w s) s

/-- `scrub`. -/
def execScrub (o : LF) (s : State) : Host.Outcome State Fault Refusal := runScrub (.scrub o) 8 o s

/-- The short form of `scrub` (08 R143). -/
def execScrubShort (rd rs1 rs2 : Reg) (s : State) : Host.Outcome State Fault Refusal :=
  runScrub (.scrubShort rd rs1 rs2) 4 (shortLF rd rs1 rs2 0) s

/-- `mdead`: blocks declared dead (13 R267). -/
def execMdead (o : LF) (s : State) : Host.Outcome State Fault Refusal :=
  issue (.mdead o) 8 o (shapeMdead o) (fun _ _ => {}) (fun w _ s => markDeadRange o w s) s

end Sys2Proof.Machine
end

