-- ==== Sys2Proof/Machine/Vector.lean ====
section
/-! DEFINITION. Vector, mask and window instructions, classes 0 to 6 (10). -/

namespace Sys2Proof.Machine

/-- `vadd`: (10 R172). -/
def execVadd (o : LF) (s : State) : Host.Outcome State Fault Refusal :=
  issue (.vadd o) 8 o (shapeVadd o) (fun _ r => ewPlan o (fmtWidth r.fmt) 5 true true) (fun _ r s => fpArith 0 o r s) s

/-- `vsub`: (10 R172). -/
def execVsub (o : LF) (s : State) : Host.Outcome State Fault Refusal :=
  issue (.vsub o) 8 o (shapeVsub o) (fun _ r => ewPlan o (fmtWidth r.fmt) 5 true true) (fun _ r s => fpArith 1 o r s) s

/-- `vmul`: (10 R172). -/
def execVmul (o : LF) (s : State) : Host.Outcome State Fault Refusal :=
  issue (.vmul o) 8 o (shapeVmul o) (fun _ r => ewPlan o (fmtWidth r.fmt) 5 true true) (fun _ r s => fpArith 2 o r s) s

/-- `vfma`: (10 R172). -/
def execVfma (o : LF) (s : State) : Host.Outcome State Fault Refusal :=
  issue (.vfma o) 8 o (shapeVfma o) (fun _ r => ewPlan o (fmtWidth r.fmt) 5 true true) (fun _ r s => fpArith 3 o r s) s

/-- `vmin`: (10 R173). -/
def execVmin (o : LF) (s : State) : Host.Outcome State Fault Refusal :=
  issue (.vmin o) 8 o (shapeVmin o) (fun _ r => ewPlan o (fmtWidth r.fmt) 5 true true) (fun _ r s => map2 o (fmtWidth r.fmt) 5 s (minmaxCode r.fmt false)) s

/-- `vmax`: (10 R173). -/
def execVmax (o : LF) (s : State) : Host.Outcome State Fault Refusal :=
  issue (.vmax o) 8 o (shapeVmax o) (fun _ r => ewPlan o (fmtWidth r.fmt) 5 true true) (fun _ r s => map2 o (fmtWidth r.fmt) 5 s (minmaxCode r.fmt true)) s

/-- `vsgn`: (10 R174). -/
def execVsgn (o : LF) (s : State) : Host.Outcome State Fault Refusal :=
  issue (.vsgn o) 8 o (shapeVsgn o) (fun _ r => ewPlan o (fmtWidth r.fmt) 3 true (o.sub2 != 3)) (fun _ r s => map2 o (fmtWidth r.fmt) 3 s (sgnCode (fmtWidth r.fmt) o.sub2)) s

/-- `vcmp`: (10 R175). -/
def execVcmp (o : LF) (s : State) : Host.Outcome State Fault Refusal :=
  issue (.vcmp o) 8 o (shapeVcmp o) (fun _ r => { ga := groupRegs o, gb := groupRegs o, ok4 := o.m == 0 || elems (groupRegs o) (fmtWidth r.fmt) ≤ 64 }) (fun _ r s => vecCompare o r s) s

/-- `vclass`: (10 R176). -/
def execVclass (o : LF) (s : State) : Host.Outcome State Fault Refusal :=
  issue (.vclass o) 8 o (shapeVclass o) (fun _ r => ewPlan o (fmtWidth r.fmt) 3 true false) (fun _ r s => map1 o (fmtWidth r.fmt) 3 s (classCode r.fmt)) s

/-- `viadd`: (10 R178). -/
def execViadd (o : LF) (s : State) : Host.Outcome State Fault Refusal :=
  issue (.viadd o) 8 o (shapeViadd o) (fun _ r => ewPlan o (intWidth r.fmt) 3 true true) (fun _ r s => intArith 0 o r s) s

/-- `visub`: (10 R178). -/
def execVisub (o : LF) (s : State) : Host.Outcome State Fault Refusal :=
  issue (.visub o) 8 o (shapeVisub o) (fun _ r => ewPlan o (intWidth r.fmt) 3 true true) (fun _ r s => intArith 1 o r s) s

/-- `vimul`: (10 R178). -/
def execVimul (o : LF) (s : State) : Host.Outcome State Fault Refusal :=
  issue (.vimul o) 8 o (shapeVimul o) (fun _ r => ewPlan o (intWidth r.fmt) 3 true true) (fun _ r s => intArith 2 o r s) s

/-- `vimulh`: (10 R178). -/
def execVimulh (o : LF) (s : State) : Host.Outcome State Fault Refusal :=
  issue (.vimulh o) 8 o (shapeVimulh o) (fun _ r => ewPlan o (intWidth r.fmt) 3 true true) (fun _ r s => intArith 3 o r s) s

/-- `vimad`: (10 R178). -/
def execVimad (o : LF) (s : State) : Host.Outcome State Fault Refusal :=
  issue (.vimad o) 8 o (shapeVimad o) (fun _ r => ewPlan o (intWidth r.fmt) 3 true true) (fun _ r s => intArith 4 o r s) s

/-- `vand`: (10 R179). -/
def execVand (o : LF) (s : State) : Host.Outcome State Fault Refusal :=
  issue (.vand o) 8 o (shapeVand o) (fun _ r => ewPlan o (intWidth r.fmt) 3 true true) (fun _ r s => map2 o (intWidth r.fmt) 3 s (fun a b => a &&& b)) s

/-- `vor`: (10 R179). -/
def execVor (o : LF) (s : State) : Host.Outcome State Fault Refusal :=
  issue (.vor o) 8 o (shapeVor o) (fun _ r => ewPlan o (intWidth r.fmt) 3 true true) (fun _ r s => map2 o (intWidth r.fmt) 3 s (fun a b => a ||| b)) s

/-- `vxor`: (10 R179). -/
def execVxor (o : LF) (s : State) : Host.Outcome State Fault Refusal :=
  issue (.vxor o) 8 o (shapeVxor o) (fun _ r => ewPlan o (intWidth r.fmt) 3 true true) (fun _ r s => map2 o (intWidth r.fmt) 3 s (fun a b => a ^^^ b)) s

/-- `vshl`: (10 R179). -/
def execVshl (o : LF) (s : State) : Host.Outcome State Fault Refusal :=
  issue (.vshl o) 8 o (shapeVshl o) (fun _ r => { ewPlan o (intWidth r.fmt) 3 true (o.sub4 != 1) with ok5 := o.sub4 != 1 || o.b.toNat < intWidth r.fmt }) (fun _ r s => shiftElems o r s (fun v => shlElem v o.uns o.sat)) s

/-- `vshr`: (10 R179). -/
def execVshr (o : LF) (s : State) : Host.Outcome State Fault Refusal :=
  issue (.vshr o) 8 o (shapeVshr o) (fun _ r => { ewPlan o (intWidth r.fmt) 3 true (o.sub4 != 1) with ok5 := o.sub4 != 1 || o.b.toNat < intWidth r.fmt }) (fun _ r s => shiftElems o r s (fun v => shrElem v o.uns)) s

/-- `viminmax`: (10 R180). -/
def execViminmax (o : LF) (s : State) : Host.Outcome State Fault Refusal :=
  issue (.viminmax o) 8 o (shapeViminmax o) (fun _ r => ewPlan o (intWidth r.fmt) 3 true true) (fun _ r s => map2 o (intWidth r.fmt) 3 s (iminmaxCode (intWidth r.fmt) o.uns (o.sub4 == 1))) s

/-- `vsel`: (10 R180). -/
def execVsel (o : LF) (s : State) : Host.Outcome State Fault Refusal :=
  issue (.vsel o) 8 o (shapeVsel o) (fun _ r => { ewPlan o (intWidth r.fmt) 3 true true with ok4 := elems (groupRegs o) (intWidth r.fmt) ≤ 64 }) (fun _ r s => vecSelect o r s) s

/-- `vcvt`: (10 R182). -/
def execVcvt (o : LF) (s : State) : Host.Outcome State Fault Refusal :=
  issue (.vcvt o) 8 o (shapeVcvt o) (fun _ r => vcvtPlan o r) (fun _ r s => convert o r s) s

/-- `vpack`: (10 R184). -/
def execVpack (o : LF) (s : State) : Host.Outcome State Fault Refusal :=
  issue (.vpack o) 8 o (shapeVpack o) (fun _ _ => { gd := groupRegs o, ga := groupRegs o, dest := true, lat := 4, entry := true }) (fun _ r s => landRegs s s.cur.team o 4 (packGroup r.fmt (groupRegs o) (s.cur.team.group o.a.toNat (groupRegs o))) 0) s

/-- `vunpack`: (10 R184). -/
def execVunpack (o : LF) (s : State) : Host.Outcome State Fault Refusal :=
  issue (.vunpack o) 8 o (shapeVunpack o) (fun _ _ => { gd := groupRegs o, ga := groupRegs o, dest := true, lat := 4, entry := true }) (fun _ r s => landRegs s s.cur.team o 4 (unpackGroup r.fmt (groupRegs o) (s.cur.team.group o.a.toNat (groupRegs o))) 0) s

/-- `vlnmul`: (10 R185). -/
def execVlnmul (o : LF) (s : State) : Host.Outcome State Fault Refusal :=
  issue (.vlnmul o) 8 o (shapeVlnmul o) (fun _ _ => ewPlan o 8 4 true true) (fun _ _ s => landElems s s.cur.team o 8 (groupRegs o) 4 ((List.range (elems (groupRegs o) 8)).map fun i => ln6Mul (elemAt (s.cur.team.group o.a.toNat (groupRegs o)) 8 i % 64) (elemAt (s.cur.team.group o.b.toNat (groupRegs o)) 8 i % 64))) s

/-- `vlnlin`: (10 R186). -/
def execVlnlin (o : LF) (s : State) : Host.Outcome State Fault Refusal :=
  issue (.vlnlin o) 8 o (shapeVlnlin o) (fun _ r => cvtPlan o 8 (fmtWidth r.fmt) true (-128 ≤ o.b.toInt && o.b.toInt ≤ 127)) (fun _ r s => lnLinear o r s) s

/-- `vexp2`: (10 R188). -/
def execVexp2 (o : LF) (s : State) : Host.Outcome State Fault Refusal :=
  issue (.vexp2 o) 8 o (shapeVexp2 o) (fun _ r => ewPlan o (fmtWidth r.fmt) 10 true false) (fun _ r s => sfu 0 o r s) s

/-- `vlog2`: (10 R188). -/
def execVlog2 (o : LF) (s : State) : Host.Outcome State Fault Refusal :=
  issue (.vlog2 o) 8 o (shapeVlog2 o) (fun _ r => ewPlan o (fmtWidth r.fmt) 10 true false) (fun _ r s => sfu 1 o r s) s

/-- `vrcp`: (10 R188). -/
def execVrcp (o : LF) (s : State) : Host.Outcome State Fault Refusal :=
  issue (.vrcp o) 8 o (shapeVrcp o) (fun _ r => ewPlan o (fmtWidth r.fmt) 10 true false) (fun _ r s => sfu 2 o r s) s

/-- `vrsqrt`: (10 R188). -/
def execVrsqrt (o : LF) (s : State) : Host.Outcome State Fault Refusal :=
  issue (.vrsqrt o) 8 o (shapeVrsqrt o) (fun _ r => ewPlan o (fmtWidth r.fmt) 10 true false) (fun _ r s => sfu 3 o r s) s

/-- `vsum`: (10 R189). -/
def execVsum (o : LF) (s : State) : Host.Outcome State Fault Refusal :=
  issue (.vsum o) 8 o (shapeVsum o) (fun _ r => sumPlan o r) (fun _ r s => vecSum o r s) s

/-- `vrmax`: (10 R190). -/
def execVrmax (o : LF) (s : State) : Host.Outcome State Fault Refusal :=
  issue (.vrmax o) 8 o (shapeVrmax o) (fun _ r => sumPlan o r) (fun _ r s => vecMax o r s) s

/-- `vperm`: (10 R192). -/
def execVperm (o : LF) (s : State) : Host.Outcome State Fault Refusal :=
  issue (.vperm o) 8 o (shapeVperm o) (fun _ r => ewPlan o (fmtWidth r.fmt) 3 true true) (fun _ r s => permute o r s) s

/-- `vbcast`: (10 R193). -/
def execVbcast (o : LF) (s : State) : Host.Outcome State Fault Refusal :=
  issue (.vbcast o) 8 o (shapeVbcast o) (fun _ r => { ewPlan o (fmtWidth r.fmt) 3 false false with ga := if o.sub = 1 then 0 else 1, ok5 := o.sub == 1 || o.b.toNat < elems 1 (fmtWidth r.fmt) }) (fun _ r s => splat s o (fmtWidth r.fmt) (if o.sub = 1 then (s.x (fieldReg o.a)).toNat else elemAt (s.cur.team.group o.a.toNat 1) (fmtWidth r.fmt) o.b.toNat)) s

/-- `vslide`: (10 R193). -/
def execVslide (o : LF) (s : State) : Host.Outcome State Fault Refusal :=
  issue (.vslide o) 8 o (shapeVslide o) (fun _ r => { ewPlan o (fmtWidth r.fmt) 3 true false with ok5 := o.b.toNat ≤ elems (groupRegs o) (fmtWidth r.fmt) }) (fun _ r s => landElems s s.cur.team o (fmtWidth r.fmt) (groupRegs o) 3 (plain (slideCodes (o.sub == 1) o.b.toNat (elemCodes (s.cur.team.group o.a.toNat (groupRegs o)) (fmtWidth r.fmt) (elems (groupRegs o) (fmtWidth r.fmt)))))) s

/-- `vmov`: (10 R193). -/
def execVmov (o : LF) (s : State) : Host.Outcome State Fault Refusal :=
  issue (.vmov o) 8 o (shapeVmov o) (fun _ r => ewPlan o (fmtWidth r.fmt) 3 (o.sub != 1) false) (fun _ r s => if o.sub = 1 then splat s o (fmtWidth r.fmt) (wrapInt (fmtWidth r.fmt) o.b.toInt) else map1 o (fmtWidth r.fmt) 3 s (fun c => c)) s

/-- `vmvx`: (10 R194). -/
def execVmvx (o : LF) (s : State) : Host.Outcome State Fault Refusal :=
  issue (.vmvx o) 8 o (shapeVmvx o) (fun _ r => { ga := groupRegs o, ok5 := o.b.toNat < elems (groupRegs o) (fmtWidth r.fmt) }) (fun _ r s => .done (s.setX (fieldReg o.d) (BitVec.ofInt 64 (asInt (fmtWidth r.fmt) (o.sub == 0) (elemAt (s.cur.team.group o.a.toNat (groupRegs o)) (fmtWidth r.fmt) o.b.toNat))))) s

/-- `vins`: (10 R194). -/
def execVins (o : LF) (s : State) : Host.Outcome State Fault Refusal :=
  issue (.vins o) 8 o (shapeVins o) (fun _ r => { ewPlan o (fmtWidth r.fmt) 3 false false with ok5 := o.b.toNat < elems (groupRegs o) (fmtWidth r.fmt) }) (fun _ r s => .done (s.setTeam (s.cur.team.land (groupWrites (s.cur.team.wb + o.d.toNat) (groupRegs o) (fmtWidth r.fmt) ((List.range (elems (groupRegs o) (fmtWidth r.fmt))).map fun i => if i = o.b.toNat then some (s.x (fieldReg o.a)).toNat else none)) 0 3 o))) s

/-- `vld`: (10 R196). -/
def execVld (o : LF) (s : State) : Host.Outcome State Fault Refusal :=
  issue (.vld o) 8 o (shapeVld o) (fun _ r => { gd := groupRegs o, dest := true, ok4 := o.m == 0 || elems (groupRegs o) (fmtWidth r.fmt) ≤ 64, lat := if o.sub = 1 then 18 else 6, entry := true }) (fun _ r s => vecLoad o r s (some (s.unitAccess o)) (s.unitAddrs o (fmtWidth r.fmt) (elems (groupRegs o) (fmtWidth r.fmt)) (o.sub == 1))) s

/-- `vst`: (10 R196). -/
def execVst (o : LF) (s : State) : Host.Outcome State Fault Refusal :=
  issue (.vst o) 8 o (shapeVst o) (fun _ r => { gd := groupRegs o, ok4 := o.m == 0 || elems (groupRegs o) (fmtWidth r.fmt) ≤ 64 }) (fun _ r s => vecStore o r s (s.unitAddrs o (fmtWidth r.fmt) (elems (groupRegs o) (fmtWidth r.fmt)) (o.sub == 1))) s

/-- `vgath`: (10 R197). -/
def execVgath (o : LF) (s : State) : Host.Outcome State Fault Refusal :=
  issue (.vgath o) 8 o (shapeVgath o) (fun _ r => { gd := groupRegs o, ga := groupRegs o * 32 / (fmtWidth r.fmt), dest := true, ok4 := (o.m == 0 || elems (groupRegs o) (fmtWidth r.fmt) ≤ 64) && groupRegs o * 32 / (fmtWidth r.fmt) ≤ 8, lat := if o.sub = 1 then 18 else 6, entry := true }) (fun _ r s => vecLoad o r s none (s.offsetAddrs o (fmtWidth r.fmt) (elems (groupRegs o) (fmtWidth r.fmt)) (o.sub == 1))) s

/-- `vscat`: (10 R197). -/
def execVscat (o : LF) (s : State) : Host.Outcome State Fault Refusal :=
  issue (.vscat o) 8 o (shapeVscat o) (fun _ r => { gd := groupRegs o, ga := groupRegs o * 32 / (fmtWidth r.fmt), ok4 := (o.m == 0 || elems (groupRegs o) (fmtWidth r.fmt) ≤ 64) && groupRegs o * 32 / (fmtWidth r.fmt) ≤ 8 }) (fun _ r s => vecStore o r s (s.offsetAddrs o (fmtWidth r.fmt) (elems (groupRegs o) (fmtWidth r.fmt)) (o.sub == 1))) s

/-- `mpush` in either length: (10 R198). -/
def runMpush (i : Instr) (len : Nat) (o : LF) (s : State) : Host.Outcome State Fault Refusal :=
  issue i len o (shapeMpush o) (fun _ _ => { ok5 := true }) (fun _ _ s => maskPush s (s.x (fieldReg o.a))) s

/-- `mpush`. -/
def execMpush (o : LF) (s : State) : Host.Outcome State Fault Refusal := runMpush (.mpush o) 8 o s

/-- The short form of `mpush` (08 R143). -/
def execMpushShort (rd rs1 rs2 : Reg) (s : State) : Host.Outcome State Fault Refusal :=
  runMpush (.mpushShort rd rs1 rs2) 4 (shortLF rd rs1 rs2 0) s

/-- `minv` in either length: (10 R198). -/
def runMinv (i : Instr) (len : Nat) (o : LF) (s : State) : Host.Outcome State Fault Refusal :=
  issue i len o (shapeMinv o) (fun _ _ => { ok5 := true }) (fun _ _ s => maskInvert s) s

/-- `minv`. -/
def execMinv (o : LF) (s : State) : Host.Outcome State Fault Refusal := runMinv (.minv o) 8 o s

/-- The short form of `minv` (08 R143). -/
def execMinvShort (s : State) : Host.Outcome State Fault Refusal :=
  runMinv (.minvShort) 4 (shortLF 0 0 0 0) s

/-- `mpop` in either length: (10 R198). -/
def runMpop (i : Instr) (len : Nat) (o : LF) (s : State) : Host.Outcome State Fault Refusal :=
  issue i len o (shapeMpop o) (fun _ _ => { ok5 := true }) (fun _ _ s => maskPop s) s

/-- `mpop`. -/
def execMpop (o : LF) (s : State) : Host.Outcome State Fault Refusal := runMpop (.mpop o) 8 o s

/-- The short form of `mpop` (08 R143). -/
def execMpopShort (s : State) : Host.Outcome State Fault Refusal :=
  runMpop (.mpopShort) 4 (shortLF 0 0 0 0) s

/-- `mget` in either length: (10 R198). -/
def runMget (i : Instr) (len : Nat) (o : LF) (s : State) : Host.Outcome State Fault Refusal :=
  issue i len o (shapeMget o) (fun _ _ => { ok5 := true }) (fun _ _ s => .done (s.setX (fieldReg o.d) (s.cur.team.masks.headD 0))) s

/-- `mget`. -/
def execMget (o : LF) (s : State) : Host.Outcome State Fault Refusal := runMget (.mget o) 8 o s

/-- The short form of `mget` (08 R143). -/
def execMgetShort (rd rs1 rs2 : Reg) (s : State) : Host.Outcome State Fault Refusal :=
  runMget (.mgetShort rd rs1 rs2) 4 (shortLF rd rs1 rs2 0) s

/-- `bmz`: (10 R198). -/
def execBmz (o : LF) (s : State) : Host.Outcome State Fault Refusal :=
  issue (.bmz o) 8 o (shapeBmz o) (fun _ _ => { ok5 := true }) (fun _ _ s => branchMaskZero s o.b) s

/-- `wenter` in either length: (04 R66, 10 R198). -/
def runWenter (i : Instr) (len : Nat) (o : LF) (s : State) : Host.Outcome State Fault Refusal :=
  issue i len o (shapeWenter o) (fun _ _ => { ok5 := 1 ≤ o.b.toNat && o.b.toNat ≤ 64 }) (fun _ _ s => windowEnter s (32 * o.b.toNat)) s

/-- `wenter`. -/
def execWenter (o : LF) (s : State) : Host.Outcome State Fault Refusal := runWenter (.wenter o) 8 o s

/-- The short form of `wenter` (08 R143). -/
def execWenterShort (rd rs1 rs2 : Reg) (s : State) : Host.Outcome State Fault Refusal :=
  runWenter (.wenterShort rd rs1 rs2) 4 (shortWenterLF rd rs1 rs2) s

/-- `wleave` in either length: (04 R66, 10 R198). -/
def runWleave (i : Instr) (len : Nat) (o : LF) (s : State) : Host.Outcome State Fault Refusal :=
  issue i len o (shapeWleave o) (fun _ _ => { ok5 := true }) (fun _ _ s => windowLeave s) s

/-- `wleave`. -/
def execWleave (o : LF) (s : State) : Host.Outcome State Fault Refusal := runWleave (.wleave o) 8 o s

/-- The short form of `wleave` (08 R143). -/
def execWleaveShort (s : State) : Host.Outcome State Fault Refusal :=
  runWleave (.wleaveShort) 4 (shortLF 0 0 0 0) s

end Sys2Proof.Machine
end

