-- ==== Sys2Proof/Machine/Dispatch.lean ====
section
/-! DEFINITION. The meaning of every instruction and event, one arm each. -/

namespace Sys2Proof.Machine

def exec (i : Instr) (s : State) : Host.Outcome State Fault Refusal :=
  match i with
  | .lui rd imm => Sys2Proof.Machine.execLui rd imm s
  | .auipc rd imm => Sys2Proof.Machine.execAuipc rd imm s
  | .jal rd imm => Sys2Proof.Machine.execJal rd imm s
  | .jalr rd rs1 imm => Sys2Proof.Machine.execJalr rd rs1 imm s
  | .beq rs1 rs2 imm => Sys2Proof.Machine.execBeq rs1 rs2 imm s
  | .bne rs1 rs2 imm => Sys2Proof.Machine.execBne rs1 rs2 imm s
  | .blt rs1 rs2 imm => Sys2Proof.Machine.execBlt rs1 rs2 imm s
  | .bge rs1 rs2 imm => Sys2Proof.Machine.execBge rs1 rs2 imm s
  | .bltu rs1 rs2 imm => Sys2Proof.Machine.execBltu rs1 rs2 imm s
  | .bgeu rs1 rs2 imm => Sys2Proof.Machine.execBgeu rs1 rs2 imm s
  | .lb rd rs1 imm => Sys2Proof.Machine.execLb rd rs1 imm s
  | .lh rd rs1 imm => Sys2Proof.Machine.execLh rd rs1 imm s
  | .lw rd rs1 imm => Sys2Proof.Machine.execLw rd rs1 imm s
  | .ld rd rs1 imm => Sys2Proof.Machine.execLd rd rs1 imm s
  | .lbu rd rs1 imm => Sys2Proof.Machine.execLbu rd rs1 imm s
  | .lhu rd rs1 imm => Sys2Proof.Machine.execLhu rd rs1 imm s
  | .lwu rd rs1 imm => Sys2Proof.Machine.execLwu rd rs1 imm s
  | .sb rs1 rs2 imm => Sys2Proof.Machine.execSb rs1 rs2 imm s
  | .sh rs1 rs2 imm => Sys2Proof.Machine.execSh rs1 rs2 imm s
  | .sw rs1 rs2 imm => Sys2Proof.Machine.execSw rs1 rs2 imm s
  | .sd rs1 rs2 imm => Sys2Proof.Machine.execSd rs1 rs2 imm s
  | .addi rd rs1 imm => Sys2Proof.Machine.execAddi rd rs1 imm s
  | .slti rd rs1 imm => Sys2Proof.Machine.execSlti rd rs1 imm s
  | .sltiu rd rs1 imm => Sys2Proof.Machine.execSltiu rd rs1 imm s
  | .xori rd rs1 imm => Sys2Proof.Machine.execXori rd rs1 imm s
  | .ori rd rs1 imm => Sys2Proof.Machine.execOri rd rs1 imm s
  | .andi rd rs1 imm => Sys2Proof.Machine.execAndi rd rs1 imm s
  | .slli rd rs1 sh => Sys2Proof.Machine.execSlli rd rs1 sh s
  | .srli rd rs1 sh => Sys2Proof.Machine.execSrli rd rs1 sh s
  | .srai rd rs1 sh => Sys2Proof.Machine.execSrai rd rs1 sh s
  | .add rd rs1 rs2 => Sys2Proof.Machine.execAdd rd rs1 rs2 s
  | .sub rd rs1 rs2 => Sys2Proof.Machine.execSub rd rs1 rs2 s
  | .sll rd rs1 rs2 => Sys2Proof.Machine.execSll rd rs1 rs2 s
  | .slt rd rs1 rs2 => Sys2Proof.Machine.execSlt rd rs1 rs2 s
  | .sltu rd rs1 rs2 => Sys2Proof.Machine.execSltu rd rs1 rs2 s
  | .xor rd rs1 rs2 => Sys2Proof.Machine.execXor rd rs1 rs2 s
  | .srl rd rs1 rs2 => Sys2Proof.Machine.execSrl rd rs1 rs2 s
  | .sra rd rs1 rs2 => Sys2Proof.Machine.execSra rd rs1 rs2 s
  | .or rd rs1 rs2 => Sys2Proof.Machine.execOr rd rs1 rs2 s
  | .and rd rs1 rs2 => Sys2Proof.Machine.execAnd rd rs1 rs2 s
  | .mul rd rs1 rs2 => Sys2Proof.Machine.execMul rd rs1 rs2 s
  | .mulh rd rs1 rs2 => Sys2Proof.Machine.execMulh rd rs1 rs2 s
  | .mulhsu rd rs1 rs2 => Sys2Proof.Machine.execMulhsu rd rs1 rs2 s
  | .mulhu rd rs1 rs2 => Sys2Proof.Machine.execMulhu rd rs1 rs2 s
  | .div rd rs1 rs2 => Sys2Proof.Machine.execDiv rd rs1 rs2 s
  | .divu rd rs1 rs2 => Sys2Proof.Machine.execDivu rd rs1 rs2 s
  | .rem rd rs1 rs2 => Sys2Proof.Machine.execRem rd rs1 rs2 s
  | .remu rd rs1 rs2 => Sys2Proof.Machine.execRemu rd rs1 rs2 s
  | .addiw rd rs1 imm => Sys2Proof.Machine.execAddiw rd rs1 imm s
  | .slliw rd rs1 sh => Sys2Proof.Machine.execSlliw rd rs1 sh s
  | .srliw rd rs1 sh => Sys2Proof.Machine.execSrliw rd rs1 sh s
  | .sraiw rd rs1 sh => Sys2Proof.Machine.execSraiw rd rs1 sh s
  | .addw rd rs1 rs2 => Sys2Proof.Machine.execAddw rd rs1 rs2 s
  | .subw rd rs1 rs2 => Sys2Proof.Machine.execSubw rd rs1 rs2 s
  | .sllw rd rs1 rs2 => Sys2Proof.Machine.execSllw rd rs1 rs2 s
  | .srlw rd rs1 rs2 => Sys2Proof.Machine.execSrlw rd rs1 rs2 s
  | .sraw rd rs1 rs2 => Sys2Proof.Machine.execSraw rd rs1 rs2 s
  | .mulw rd rs1 rs2 => Sys2Proof.Machine.execMulw rd rs1 rs2 s
  | .divw rd rs1 rs2 => Sys2Proof.Machine.execDivw rd rs1 rs2 s
  | .divuw rd rs1 rs2 => Sys2Proof.Machine.execDivuw rd rs1 rs2 s
  | .remw rd rs1 rs2 => Sys2Proof.Machine.execRemw rd rs1 rs2 s
  | .remuw rd rs1 rs2 => Sys2Proof.Machine.execRemuw rd rs1 rs2 s
  | .fence rd rs1 imm => Sys2Proof.Machine.execFence rd rs1 imm s
  | .csrrw rd rs1 csr => Sys2Proof.Machine.execCsrrw rd rs1 csr s
  | .csrrs rd rs1 csr => Sys2Proof.Machine.execCsrrs rd rs1 csr s
  | .csrrc rd rs1 csr => Sys2Proof.Machine.execCsrrc rd rs1 csr s
  | .csrrwi rd rs1 csr => Sys2Proof.Machine.execCsrrwi rd rs1 csr s
  | .csrrsi rd rs1 csr => Sys2Proof.Machine.execCsrrsi rd rs1 csr s
  | .csrrci rd rs1 csr => Sys2Proof.Machine.execCsrrci rd rs1 csr s
  | .vadd o => Sys2Proof.Machine.execVadd o s
  | .vsub o => Sys2Proof.Machine.execVsub o s
  | .vmul o => Sys2Proof.Machine.execVmul o s
  | .vfma o => Sys2Proof.Machine.execVfma o s
  | .vmin o => Sys2Proof.Machine.execVmin o s
  | .vmax o => Sys2Proof.Machine.execVmax o s
  | .vsgn o => Sys2Proof.Machine.execVsgn o s
  | .vcmp o => Sys2Proof.Machine.execVcmp o s
  | .vclass o => Sys2Proof.Machine.execVclass o s
  | .viadd o => Sys2Proof.Machine.execViadd o s
  | .visub o => Sys2Proof.Machine.execVisub o s
  | .vimul o => Sys2Proof.Machine.execVimul o s
  | .vimulh o => Sys2Proof.Machine.execVimulh o s
  | .vimad o => Sys2Proof.Machine.execVimad o s
  | .vand o => Sys2Proof.Machine.execVand o s
  | .vor o => Sys2Proof.Machine.execVor o s
  | .vxor o => Sys2Proof.Machine.execVxor o s
  | .vshl o => Sys2Proof.Machine.execVshl o s
  | .vshr o => Sys2Proof.Machine.execVshr o s
  | .viminmax o => Sys2Proof.Machine.execViminmax o s
  | .vsel o => Sys2Proof.Machine.execVsel o s
  | .vcvt o => Sys2Proof.Machine.execVcvt o s
  | .vpack o => Sys2Proof.Machine.execVpack o s
  | .vunpack o => Sys2Proof.Machine.execVunpack o s
  | .vlnmul o => Sys2Proof.Machine.execVlnmul o s
  | .vlnlin o => Sys2Proof.Machine.execVlnlin o s
  | .vexp2 o => Sys2Proof.Machine.execVexp2 o s
  | .vlog2 o => Sys2Proof.Machine.execVlog2 o s
  | .vrcp o => Sys2Proof.Machine.execVrcp o s
  | .vrsqrt o => Sys2Proof.Machine.execVrsqrt o s
  | .vsum o => Sys2Proof.Machine.execVsum o s
  | .vrmax o => Sys2Proof.Machine.execVrmax o s
  | .vperm o => Sys2Proof.Machine.execVperm o s
  | .vbcast o => Sys2Proof.Machine.execVbcast o s
  | .vslide o => Sys2Proof.Machine.execVslide o s
  | .vmov o => Sys2Proof.Machine.execVmov o s
  | .vmvx o => Sys2Proof.Machine.execVmvx o s
  | .vins o => Sys2Proof.Machine.execVins o s
  | .vld o => Sys2Proof.Machine.execVld o s
  | .vst o => Sys2Proof.Machine.execVst o s
  | .vgath o => Sys2Proof.Machine.execVgath o s
  | .vscat o => Sys2Proof.Machine.execVscat o s
  | .mpush o => Sys2Proof.Machine.execMpush o s
  | .minv o => Sys2Proof.Machine.execMinv o s
  | .mpop o => Sys2Proof.Machine.execMpop o s
  | .mget o => Sys2Proof.Machine.execMget o s
  | .bmz o => Sys2Proof.Machine.execBmz o s
  | .wenter o => Sys2Proof.Machine.execWenter o s
  | .wleave o => Sys2Proof.Machine.execWleave o s
  | .mma o => Sys2Proof.Machine.execMma o s
  | .mmac o => Sys2Proof.Machine.execMmac o s
  | .mlutb o => Sys2Proof.Machine.execMlutb o s
  | .mlut o => Sys2Proof.Machine.execMlut o s
  | .azero o => Sys2Proof.Machine.execAzero o s
  | .ald o => Sys2Proof.Machine.execAld o s
  | .ast o => Sys2Proof.Machine.execAst o s
  | .ardv o => Sys2Proof.Machine.execArdv o s
  | .awrv o => Sys2Proof.Machine.execAwrv o s
  | .hset o => Sys2Proof.Machine.execHset o s
  | .hget o => Sys2Proof.Machine.execHget o s
  | .hld o => Sys2Proof.Machine.execHld o s
  | .hst o => Sys2Proof.Machine.execHst o s
  | .hadv o => Sys2Proof.Machine.execHadv o s
  | .loop o => Sys2Proof.Machine.execLoop o s
  | .lcrd o => Sys2Proof.Machine.execLcrd o s
  | .lbrk o => Sys2Proof.Machine.execLbrk o s
  | .fmtset o => Sys2Proof.Machine.execFmtset o s
  | .fmtsel o => Sys2Proof.Machine.execFmtsel o s
  | .fmtget o => Sys2Proof.Machine.execFmtget o s
  | .cpld o => Sys2Proof.Machine.execCpld o s
  | .cpst o => Sys2Proof.Machine.execCpst o s
  | .cpgat o => Sys2Proof.Machine.execCpgat o s
  | .cpsca o => Sys2Proof.Machine.execCpsca o s
  | .cploc o => Sys2Proof.Machine.execCploc o s
  | .cprem o => Sys2Proof.Machine.execCprem o s
  | .coll o => Sys2Proof.Machine.execColl o s
  | .bld o => Sys2Proof.Machine.execBld o s
  | .bst o => Sys2Proof.Machine.execBst o s
  | .bamo o => Sys2Proof.Machine.execBamo o s
  | .bcas o => Sys2Proof.Machine.execBcas o s
  | .acq o => Sys2Proof.Machine.execAcq o s
  | .rel o => Sys2Proof.Machine.execRel o s
  | .frange o => Sys2Proof.Machine.execFrange o s
  | .pmrd o => Sys2Proof.Machine.execPmrd o s
  | .pmwait o => Sys2Proof.Machine.execPmwait o s
  | .wait o => Sys2Proof.Machine.execWait o s
  | .phcfg o => Sys2Proof.Machine.execPhcfg o s
  | .phtake o => Sys2Proof.Machine.execPhtake o s
  | .phgive o => Sys2Proof.Machine.execPhgive o s
  | .phres o => Sys2Proof.Machine.execPhres o s
  | .phpost o => Sys2Proof.Machine.execPhpost o s
  | .phstat o => Sys2Proof.Machine.execPhstat o s
  | .tqput o => Sys2Proof.Machine.execTqput o s
  | .tqget o => Sys2Proof.Machine.execTqget o s
  | .nbq o => Sys2Proof.Machine.execNbq o s
  | .nbcan o => Sys2Proof.Machine.execNbcan o s
  | .tenq o => Sys2Proof.Machine.execTenq o s
  | .tend o => Sys2Proof.Machine.execTend o s
  | .tyield o => Sys2Proof.Machine.execTyield o s
  | .lnch o => Sys2Proof.Machine.execLnch o s
  | .twait o => Sys2Proof.Machine.execTwait o s
  | .specq o => Sys2Proof.Machine.execSpecq o s
  | .vdist o => Sys2Proof.Machine.execVdist o s
  | .tabort o => Sys2Proof.Machine.execTabort o s
  | .krot o => Sys2Proof.Machine.execKrot o s
  | .kstat o => Sys2Proof.Machine.execKstat o s
  | .sealImage o => Sys2Proof.Machine.execSealImage o s
  | .unsealImage o => Sys2Proof.Machine.execUnsealImage o s
  | .scrub o => Sys2Proof.Machine.execScrub o s
  | .mdead o => Sys2Proof.Machine.execMdead o s
  | .ctxsv o => Sys2Proof.Machine.execCtxsv o s
  | .ctxsvHalt o => Sys2Proof.Machine.execCtxsvHalt o s
  | .ctxrs o => Sys2Proof.Machine.execCtxrs o s
  | .ckpt o => Sys2Proof.Machine.execCkpt o s
  | .ckrb o => Sys2Proof.Machine.execCkrb o s
  | .tlbir o => Sys2Proof.Machine.execTlbir o s
  | .ksload o => Sys2Proof.Machine.execKsload o s
  | .ksloadNew o => Sys2Proof.Machine.execKsloadNew o s
  | .ksclr o => Sys2Proof.Machine.execKsclr o s
  | .ksclrAll o => Sys2Proof.Machine.execKsclrAll o s
  | .slmap o => Sys2Proof.Machine.execSlmap o s
  | .slend o => Sys2Proof.Machine.execSlend o s
  | .slrcl o => Sys2Proof.Machine.execSlrcl o s
  | .qlink o => Sys2Proof.Machine.execQlink o s
  | .tset o => Sys2Proof.Machine.execTset o s
  | .tadj o => Sys2Proof.Machine.execTadj o s
  | .errpost o => Sys2Proof.Machine.execErrpost o s
  | .stmp o => Sys2Proof.Machine.execStmp o s
  | .tresmResume o => Sys2Proof.Machine.execTresmResume o s
  | .tresmRestart o => Sys2Proof.Machine.execTresmRestart o s
  | .tresmStep o => Sys2Proof.Machine.execTresmStep o s
  | .tresmAbandon o => Sys2Proof.Machine.execTresmAbandon o s
  | .tresmRel o => Sys2Proof.Machine.execTresmRel o s
  | .tresmSvc o => Sys2Proof.Machine.execTresmSvc o s
  | .tcanc o => Sys2Proof.Machine.execTcanc o s
  | .bldBShort rd rs1 imm => Sys2Proof.Machine.execBldBShort rd rs1 imm s
  | .bldHShort rd rs1 imm => Sys2Proof.Machine.execBldHShort rd rs1 imm s
  | .bldWShort rd rs1 imm => Sys2Proof.Machine.execBldWShort rd rs1 imm s
  | .bldDShort rd rs1 imm => Sys2Proof.Machine.execBldDShort rd rs1 imm s
  | .bstBShort rs1 rs2 imm => Sys2Proof.Machine.execBstBShort rs1 rs2 imm s
  | .bstHShort rs1 rs2 imm => Sys2Proof.Machine.execBstHShort rs1 rs2 imm s
  | .bstWShort rs1 rs2 imm => Sys2Proof.Machine.execBstWShort rs1 rs2 imm s
  | .bstDShort rs1 rs2 imm => Sys2Proof.Machine.execBstDShort rs1 rs2 imm s
  | .acqShort rd rs1 rs2 => Sys2Proof.Machine.execAcqShort rd rs1 rs2 s
  | .acqShShort rd rs1 rs2 => Sys2Proof.Machine.execAcqShShort rd rs1 rs2 s
  | .relShort rd rs1 rs2 => Sys2Proof.Machine.execRelShort rd rs1 rs2 s
  | .pmrdShort rd rs1 rs2 => Sys2Proof.Machine.execPmrdShort rd rs1 rs2 s
  | .pmwaitShort rd rs1 rs2 => Sys2Proof.Machine.execPmwaitShort rd rs1 rs2 s
  | .phresShort rd rs1 rs2 => Sys2Proof.Machine.execPhresShort rd rs1 rs2 s
  | .phpostShort rd rs1 rs2 => Sys2Proof.Machine.execPhpostShort rd rs1 rs2 s
  | .phtakeShort rd rs1 rs2 => Sys2Proof.Machine.execPhtakeShort rd rs1 rs2 s
  | .phgiveShort rd rs1 rs2 => Sys2Proof.Machine.execPhgiveShort rd rs1 rs2 s
  | .phstatShort rd rs1 rs2 => Sys2Proof.Machine.execPhstatShort rd rs1 rs2 s
  | .tqputShort rd rs1 rs2 => Sys2Proof.Machine.execTqputShort rd rs1 rs2 s
  | .tqgetShort rd rs1 rs2 => Sys2Proof.Machine.execTqgetShort rd rs1 rs2 s
  | .tqgetPkShort rd rs1 rs2 => Sys2Proof.Machine.execTqgetPkShort rd rs1 rs2 s
  | .vdistShort rd rs1 rs2 => Sys2Proof.Machine.execVdistShort rd rs1 rs2 s
  | .specqShort rd rs1 rs2 => Sys2Proof.Machine.execSpecqShort rd rs1 rs2 s
  | .kstatShort rd rs1 rs2 => Sys2Proof.Machine.execKstatShort rd rs1 rs2 s
  | .lcrdShort rd rs1 rs2 => Sys2Proof.Machine.execLcrdShort rd rs1 rs2 s
  | .lbrkShort rd rs1 rs2 => Sys2Proof.Machine.execLbrkShort rd rs1 rs2 s
  | .fmtselShort rd rs1 rs2 => Sys2Proof.Machine.execFmtselShort rd rs1 rs2 s
  | .fmtgetShort rd rs1 rs2 => Sys2Proof.Machine.execFmtgetShort rd rs1 rs2 s
  | .mgetShort rd rs1 rs2 => Sys2Proof.Machine.execMgetShort rd rs1 rs2 s
  | .mpushShort rd rs1 rs2 => Sys2Proof.Machine.execMpushShort rd rs1 rs2 s
  | .wenterShort rd rs1 rs2 => Sys2Proof.Machine.execWenterShort rd rs1 rs2 s
  | .nbcanShort rd rs1 rs2 => Sys2Proof.Machine.execNbcanShort rd rs1 rs2 s
  | .tabortShort rd rs1 rs2 => Sys2Proof.Machine.execTabortShort rd rs1 rs2 s
  | .scrubShort rd rs1 rs2 => Sys2Proof.Machine.execScrubShort rd rs1 rs2 s
  | .hadvShort rd rs1 rs2 => Sys2Proof.Machine.execHadvShort rd rs1 rs2 s
  | .tenqShort rd rs1 rs2 => Sys2Proof.Machine.execTenqShort rd rs1 rs2 s
  | .ecall => Sys2Proof.Machine.execEcall s
  | .ebreak => Sys2Proof.Machine.execEbreak s
  | .tlbirAck => Sys2Proof.Machine.execTlbirAck s
  | .tendShort => Sys2Proof.Machine.execTendShort s
  | .tyieldShort => Sys2Proof.Machine.execTyieldShort s
  | .minvShort => Sys2Proof.Machine.execMinvShort s
  | .mpopShort => Sys2Proof.Machine.execMpopShort s
  | .wleaveShort => Sys2Proof.Machine.execWleaveShort s
  | .landing => Sys2Proof.Machine.execLanding s
  | .trap => Sys2Proof.Machine.execTrap s
  | .launchAccept => Sys2Proof.Machine.execLaunchAccept s
  | .hostLaunchSubmit => Sys2Proof.Machine.execHostLaunchSubmit s
  | .quantumTick => Sys2Proof.Machine.execQuantumTick s
  | .dispatch => Sys2Proof.Machine.execDispatch s
  | .tokenRefill => Sys2Proof.Machine.execTokenRefill s
  | .taskStart => Sys2Proof.Machine.execTaskStart s
  | .taskComplete => Sys2Proof.Machine.execTaskComplete s
  | .speculativeStart => Sys2Proof.Machine.execSpeculativeStart s
  | .assayNotice => Sys2Proof.Machine.execAssayNotice s
  | .assayVerdict => Sys2Proof.Machine.execAssayVerdict s
  | .proofStoreTimeout => Sys2Proof.Machine.execProofStoreTimeout s
  | .teamSwap => Sys2Proof.Machine.execTeamSwap s
  | .swapRequeue => Sys2Proof.Machine.execSwapRequeue s
  | .hangTimeout => Sys2Proof.Machine.execHangTimeout s
  | .firmwareWatchdog => Sys2Proof.Machine.execFirmwareWatchdog s
  | .preempt => Sys2Proof.Machine.execPreempt s
  | .drainTimeout => Sys2Proof.Machine.execDrainTimeout s
  | .saveComplete => Sys2Proof.Machine.execSaveComplete s
  | .checkpointDue => Sys2Proof.Machine.execCheckpointDue s
  | .checkpointTaken => Sys2Proof.Machine.execCheckpointTaken s
  | .gangSwitch => Sys2Proof.Machine.execGangSwitch s
  | .gangVote => Sys2Proof.Machine.execGangVote s
  | .gangVoteDeadline => Sys2Proof.Machine.execGangVoteDeadline s
  | .gangResetDeadline => Sys2Proof.Machine.execGangResetDeadline s
  | .cacheEviction => Sys2Proof.Machine.execCacheEviction s
  | .copyComplete => Sys2Proof.Machine.execCopyComplete s
  | .syncGrant => Sys2Proof.Machine.execSyncGrant s
  | .nbqAccept => Sys2Proof.Machine.execNbqAccept s
  | .nbEngineRecord => Sys2Proof.Machine.execNbEngineRecord s
  | .nbSummary => Sys2Proof.Machine.execNbSummary s
  | .sameBankRefresh => Sys2Proof.Machine.execSameBankRefresh s
  | .collArrival => Sys2Proof.Machine.execCollArrival s
  | .homeRead => Sys2Proof.Machine.execHomeRead s
  | .homeWrite => Sys2Proof.Machine.execHomeWrite s
  | .blockUnlock => Sys2Proof.Machine.execBlockUnlock s
  | .homeAtomic => Sys2Proof.Machine.execHomeAtomic s
  | .errorScrub => Sys2Proof.Machine.execErrorScrub s
  | .completion => Sys2Proof.Machine.execCompletion s
  | .acknowledgementToken => Sys2Proof.Machine.execAcknowledgementToken s
  | .directoryMessage => Sys2Proof.Machine.execDirectoryMessage s
  | .managementMessage => Sys2Proof.Machine.execManagementMessage s
  | .burstTag => Sys2Proof.Machine.execBurstTag s
  | .replayRequest => Sys2Proof.Machine.execReplayRequest s
  | .linkDown => Sys2Proof.Machine.execLinkDown s
  | .linkUp => Sys2Proof.Machine.execLinkUp s
  | .orphanTimeout => Sys2Proof.Machine.execOrphanTimeout s
  | .timeExchangeTick => Sys2Proof.Machine.execTimeExchangeTick s
  | .timeExchange => Sys2Proof.Machine.execTimeExchange s
  | .pageWalk => Sys2Proof.Machine.execPageWalk s
  | .recallDeadline => Sys2Proof.Machine.execRecallDeadline s
  | .recallReturn => Sys2Proof.Machine.execRecallReturn s
  | .notificationPop => Sys2Proof.Machine.execNotificationPop s
  | .apertureRead => Sys2Proof.Machine.execApertureRead s
  | .apertureWrite => Sys2Proof.Machine.execApertureWrite s
  | .mgmtClaim => Sys2Proof.Machine.execMgmtClaim s
  | .mgmtHandover => Sys2Proof.Machine.execMgmtHandover s
  | .handoverTimeout => Sys2Proof.Machine.execHandoverTimeout s
  | .bmcSilenceTimeout => Sys2Proof.Machine.execBmcSilenceTimeout s
  | .hostLinkDown => Sys2Proof.Machine.execHostLinkDown s
  | .pkgcfgLock => Sys2Proof.Machine.execPkgcfgLock s
  | .diestatClear => Sys2Proof.Machine.execDiestatClear s
  | .registerWrite => Sys2Proof.Machine.execRegisterWrite s
  | .partitionRequest => Sys2Proof.Machine.execPartitionRequest s
  | .bdtWrite => Sys2Proof.Machine.execBdtWrite s
  | .schedBlockWrite => Sys2Proof.Machine.execSchedBlockWrite s
  | .poolFrameAdd => Sys2Proof.Machine.execPoolFrameAdd s
  | .tenantSet => Sys2Proof.Machine.execTenantSet s
  | .getTdispVersion => Sys2Proof.Machine.execGetTdispVersion s
  | .getTdispCapabilities => Sys2Proof.Machine.execGetTdispCapabilities s
  | .lockInterfaceRequest => Sys2Proof.Machine.execLockInterfaceRequest s
  | .getDeviceInterfaceReport => Sys2Proof.Machine.execGetDeviceInterfaceReport s
  | .getDeviceInterfaceState => Sys2Proof.Machine.execGetDeviceInterfaceState s
  | .startInterfaceRequest => Sys2Proof.Machine.execStartInterfaceRequest s
  | .stopInterfaceRequest => Sys2Proof.Machine.execStopInterfaceRequest s
  | .ideKm => Sys2Proof.Machine.execIdeKm s
  | .ideStreamFailure => Sys2Proof.Machine.execIdeStreamFailure s
  | .getVersion => Sys2Proof.Machine.execGetVersion s
  | .getCapabilities => Sys2Proof.Machine.execGetCapabilities s
  | .negotiateAlgorithms => Sys2Proof.Machine.execNegotiateAlgorithms s
  | .getDigests => Sys2Proof.Machine.execGetDigests s
  | .getCertificate => Sys2Proof.Machine.execGetCertificate s
  | .challenge => Sys2Proof.Machine.execChallenge s
  | .getMeasurements => Sys2Proof.Machine.execGetMeasurements s
  | .keyExchange => Sys2Proof.Machine.execKeyExchange s
  | .finish => Sys2Proof.Machine.execFinish s
  | .endSession => Sys2Proof.Machine.execEndSession s
  | .joinHello => Sys2Proof.Machine.execJoinHello s
  | .joinReply => Sys2Proof.Machine.execJoinReply s
  | .joinFinish => Sys2Proof.Machine.execJoinFinish s
  | .joinDone => Sys2Proof.Machine.execJoinDone s
  | .joinTimeout => Sys2Proof.Machine.execJoinTimeout s
  | .ualinkTransaction => Sys2Proof.Machine.execUalinkTransaction s
  | .powerUp => Sys2Proof.Machine.execPowerUp s
  | .moduleReset => Sys2Proof.Machine.execModuleReset s
  | .thermalCapStep => Sys2Proof.Machine.execThermalCapStep s
  | .thermalTrip => Sys2Proof.Machine.execThermalTrip s
  | .timeUnlockTimeout => Sys2Proof.Machine.execTimeUnlockTimeout s
  | .reservePoolRefill => Sys2Proof.Machine.execReservePoolRefill s
  | .queueDescWrite => Sys2Proof.Machine.execQueueDescWrite s
  | .contextDescWrite => Sys2Proof.Machine.execContextDescWrite s
  | .apertureTableWrite => Sys2Proof.Machine.execApertureTableWrite s
  | .dieReset => Sys2Proof.Machine.execDieReset s
  | .dieReturn => Sys2Proof.Machine.execDieReturn s
  | .ualinkLaneFault => Sys2Proof.Machine.execUalinkLaneFault s

end Sys2Proof.Machine
end

