-- ==== Sys2Proof/Machine/Hart.lean ====
section
/-! DEFINITION. What a privileged hart executes beside the rows of the opcode table: the returns and fences of the Privileged
ISA, Zifencei and the A extension (18 R304). -/

namespace Sys2Proof.Machine

/-- The instructions of a privileged hart that no team member has (09 R161, 18 R304). -/
inductive HartOp where
  | mret | sret | wfi | fenceI | sfenceVma
  | lr (n : Nat) (rd rs1 : Reg)
  | sc (n : Nat) (rd rs1 rs2 : Reg)
  | amo (f5 : BitVec 5) (n : Nat) (rd rs1 rs2 : Reg)
deriving DecidableEq, Repr

/-- The decoding of those instructions by the ratified text. -/
def decodeHart (w : BitVec 32) : Option HartOp :=
  if w = 0x30200073 then some .mret
  else if w = 0x10200073 then some .sret
  else if w = 0x10500073 then some .wfi
  else if fOpcode w = 0b0001111 ∧ fF3 w = 1 then some .fenceI
  else if fOpcode w = 0b1110011 ∧ fF3 w = 0 ∧ fF7 w = 0b0001001 ∧ fRd w = 0 then some .sfenceVma
  else if fOpcode w = 0b0101111 ∧ (fF3 w = 2 ∨ fF3 w = 3) then
    let n := if fF3 w = 2 then 4 else 8
    let f5 : BitVec 5 := w.extractLsb' 27 5
    if f5 = 0b00010 then (if fRs2 w = 0 then some (.lr n (fRd w) (fRs1 w)) else none)
    else if f5 = 0b00011 then some (.sc n (fRd w) (fRs1 w) (fRs2 w))
    else if [0b00001, 0b00000, 0b00100, 0b01100, 0b01000, 0b10000, 0b10100, 0b11000, 0b11100].contains f5 then
      some (.amo f5 n (fRd w) (fRs1 w) (fRs2 w))
    else none
  else none

/-- The value an atomic leaves in memory. -/
def amoValue (f5 : BitVec 5) (n : Nat) (old b : Word) : Word :=
  let so := if n = 4 then (sextW (lowW old)).toInt else old.toInt
  let sb := if n = 4 then (sextW (lowW b)).toInt else b.toInt
  let uo := if n = 4 then (lowW old).toNat else old.toNat
  let ub := if n = 4 then (lowW b).toNat else b.toNat
  match f5.toNat with
  | 1 => b
  | 0 => old + b
  | 4 => old ^^^ b
  | 12 => old &&& b
  | 8 => old ||| b
  | 16 => if sb < so then b else old
  | 20 => if so < sb then b else old
  | 24 => if ub < uo then b else old
  | _ => if uo < ub then b else old

/-- A loaded word or doubleword as a register value. -/
def State.hartWord (s : State) (a n : Nat) : Word := if n = 4 then sextW (BitVec.ofNat 32 (s.fwNat a 4)) else BitVec.ofNat 64 (s.fwNat a 8)

/-- An atomic access of a hart, which writes where `write`: aligned and answered, or its exception (Privileged ISA). -/
def State.hartAt (s : State) (h : Fin 16) (a : Word) (n align fault : Nat) (write : Bool) (k : State → Nat → Eff) : Eff :=
  match hartAlign a n align with
  | some t => .trap t s
  | none =>
    let u := s.settle a.toNat
    if !u.hartMay a.toNat || (write && !u.hartOwns h a.toNat n) then .trap (accessFault fault a) u else k u a.toNat

/-- The meaning of a hart's own instruction. -/
def State.hartExec (s : State) (h : Fin 16) (tval : Word) (i : HartOp) : Eff :=
  let v := s.hart h
  let bad : Eff := .trap { cause := .hart 2, d1 := tval } s
  match i with
  | .mret => if v.mode = 3 then .ends (s.setHart h v.retired.mret) else bad
  | .sret => if v.mode = 3 ∨ (v.mode = 1 ∧ v.mstatus.getLsbD 22 = false) then .ends (s.setHart h v.retired.sret) else bad
  | .wfi => if v.mode = 0 ∨ (v.mode = 1 ∧ v.mstatus.getLsbD 21) then bad else .done s
  | .fenceI => .done s
  | .sfenceVma => if v.mode = 0 ∨ (v.mode = 1 ∧ v.mstatus.getLsbD 20) then bad else .done s
  | .lr n rd rs1 =>
    s.hartAt h (s.x rs1) n 4 5 false fun u a => .done ((u.setHart h { u.hart h with resv := some (a, n) }).setX rd (u.hartWord a n))
  | .sc n rd rs1 rs2 =>
    s.hartAt h (s.x rs1) n 6 7 true fun u a =>
      if (u.hart h).resv = some (a, n) then
        let w := u.fwWrite a (leBytes n (s.x rs2).toNat)
        .done ((w.setHart h { w.hart h with resv := none }).setX rd 0)
      else .done ((u.setHart h { u.hart h with resv := none }).setX rd 1)
  | .amo f5 n rd rs1 rs2 =>
    s.hartAt h (s.x rs1) n 6 7 true fun u a =>
      .done ((u.fwWrite a (leBytes n (amoValue f5 n (u.hartWord a n) (s.x rs2)).toNat)).setX rd (u.hartWord a n))

end Sys2Proof.Machine
end

