-- ==== Sys2Proof/Machine/Fetch.lean ====
section
/-! DEFINITION. Fetching: a member's word from its code image (08 R132), a hart's from physical memory; when a member runs;
package time that passes; and the placing of one instruction to run next. -/

namespace Sys2Proof.Machine

/-- The instruction at a member's program counter, with its length (08 R132). -/
def Member.fetch (m : Member) : Except DecodeError (Instr × Nat) :=
  match m.code[m.pc / 4]? with
  | none => .error .fetchOutside
  | some lo => decode lo m.code[m.pc / 4 + 1]?

/-- Whether a member of the focused team issues: its core is not frozen for the proof store (06 R105) or for a full undo log (20 R350),
and its team is on a core and not stopping, or restored there for a step of this member. -/
def State.memberRuns (s : State) (w : Who) : Bool :=
  !(s.member w).ended && !s.cur.proofFull && !(s.logFull s.cur && s.cur.stepping.isNone) &&
    s.cur.core.isSome && ((s.cur.state == .running && s.cur.stop.isNone && s.cur.stepping.isNone) || s.cur.stepping == some w)

/-- Whether a hart waits inside a class 15 instruction for something not yet settled (23 R383). -/
def Hart.waits (v : Hart) : Bool :=
  match v.wait with
  | none => false
  | some (.status _) => false
  | some _ => true

/-- Whether a hart is the die controller of a die that is in reset or has halted as an orphan (21 R363, R364). -/
def State.hartHalted (s : State) (h : Fin 16) : Bool := 8 ≤ h.val && ((s.die (h.val - 8)).orphan || (s.die (h.val - 8)).inReset)

/-- The trap of a word that does not decode (08 R139): check 2 comes before check 4. -/
def decodeTrap (e : DecodeError) : Trap :=
  match e with
  | .systemField => trapOf .privilege
  | _ => trapOf .illegalInstr

/-- The four bytes of physical memory at an address, as a hart reads them. -/
def State.wordAt (s : State) (a : Nat) : BitVec 32 := BitVec.ofNat 32 (s.fwNat a 4)

/-- The instruction at a hart's pc. -/
def State.hartFetch (s : State) (h : Fin 16) : Except DecodeError (Instr × Nat) :=
  let a := (s.hart h).pc.toNat
  decode (s.wordAt a) (some (s.wordAt (a + 4)))

/-- A copy of package time after `e` units: part of the correction of 24 R405 is slewed, at its rate. -/
def slewed (time : Nat) (c : Clock) (e : Nat) : Nat × Clock :=
  let n : Int := min c.slew.natAbs (e * c.rate)
  let d : Int := if c.slew < 0 then -n else n
  let f : Int := c.frac + d
  ((time + e + f / 16000000).toNat, { c with slew := c.slew - d, frac := (f % 16000000).toNat })

/-- The hub's master after `e` units: its rate correction, its slewing after the domain, and half rate while it is ahead
(24 R405, R406, 23 R394). -/
def Hub.elapse (b : Hub) (e : Nat) : Hub :=
  let q := (e * (2 ^ 32 + b.rate) : Int).toNat
  let lost := min b.ahead (q / 2)
  let n := q - lost + b.frac
  let t := slewed b.time b.clock (n / 2 ^ 32)
  { b with time := t.1, clock := t.2, ahead := b.ahead - lost, frac := n % 2 ^ 32 }

/-- Whether the hang timer of a task runs (18 R322): its team occupies a core, and it is stopping (20 R355), or some member that has not
ended is not blocked in a swap-eligible wait. -/
def Task.hangRuns (t : Task) : Bool :=
  let busy (m : Member) : Bool := !m.ended && !(m.wait.any Wait.swapEligible)
  t.core.isSome && (t.stop.isSome || busy t.team.seq || busy t.team.ld || busy t.team.st)

/-- A task while some package time passes: its hang timer counts. -/
def Task.elapse (t : Task) (e : Nat) : Task := { t with hung := if t.hangRuns then t.hung + e else t.hung }

/-- A hart while some of its cycles pass: `mcycle` counts them unless inhibited. -/
def Hart.elapse (v : Hart) (n : Word) : Hart := { v with mcycle := if v.mcountinhibit.getLsbD 0 then v.mcycle else v.mcycle + n }

/-- Package time passes (01 R17, 24 R405, 23 R394). -/
def State.elapse (s : State) : State :=
  let e := Config.freeElapsed s.freeCount
  { s with
    freeCount := s.freeCount + 1,
    cur := s.cur.elapse e,
    tasks := s.tasks.map fun t => t.elapse e,
    harts := Vector.ofFn fun h => (s.hart h).elapse (Config.freeCycles h.val s.freeCount),
    hub := s.hub.elapse e,
    dies := s.dies.map fun d => let t := slewed d.time d.clock e; { d with time := t.1, clock := t.2 },
    mdies := s.mdies.map fun d => let t := slewed d.time d.clock e; { d with time := t.1, clock := t.2 } }

/-- The 32-bit words of an instruction of `nbits` bits numbered from the first word. -/
def tableWords (nbits w : Nat) : List (BitVec 32) :=
  if nbits ≤ 32 then [BitVec.ofNat 32 w, 0] else [BitVec.ofNat 32 w, BitVec.ofNat 32 (w / 2 ^ 32)]

/-- The agent that may execute an instruction: a privileged hart for class 15, the load courier for what the sequencer may not
execute (08 R138), the sequencer for the rest. -/
def runsOn (i : Instr) : Agent :=
  let sh : Option (LF × Shape) := match i.shape with
    | some x => some x
    | none => i.shortShape
  match sh with
  | some (_, sh) => if sh.cls = 15 then .hart 0 else if permitted sh.cls sh.op .seq then .member .seq else .member .ld
  | none =>
    match i with
    | .bldBShort _ _ _ => .member .ld
    | .bldHShort _ _ _ => .member .ld
    | .bldWShort _ _ _ => .member .ld
    | .bldDShort _ _ _ => .member .ld
    | .bstBShort _ _ _ => .member .ld
    | .bstHShort _ _ _ => .member .ld
    | .bstWShort _ _ _ => .member .ld
    | .bstDShort _ _ _ => .member .ld
    | _ => .member .seq

/-- The state with a code image at a member of the focused task, which stands on a core and runs. -/
def State.placeMember (s : State) (w : Who) (ws : List (BitVec 32)) : State :=
  let t := s.cur
  let s1 := { s with agenda := [], focus := .member w,
                     cur := { t with state := .running, core := some (t.core.getD 0), stop := none, stepping := none } }
  s1.setMember w { s1.member w with code := ws, pc := 0, ended := false, wait := none }

/-- The state with an instruction in physical memory at a hart's pc, on a stack that is present. -/
def State.placeHart (s : State) (h : Fin 16) (ws : List (BitVec 32)) : State :=
  let a := (s.hart h).pc.toNat
  let s1 := s.setMdie (stackOf a) { s.mdie (stackOf a) with present := true, inReset := false, orphan := false }
  let s2 := s1.setHart h { s1.hart h with wait := none }
  { s2 with agenda := [], focus := .hart h, mem := putBytes s2.mem a (ws.flatMap fun w => leBytes 4 w.toNat) }

end Sys2Proof.Machine
end

