-- ==== Sys2Proof/Machine/Step.lean ====
section
/-! DEFINITION. One step: the next turn of the agenda, or the next instruction of the agent in focus. -/

namespace Sys2Proof.Machine

/-- The next instruction of a member of the focused task; nothing while its team does not run (04 R59, 18 R308). -/
def stepMember (w : Who) (s : State) : Host.Outcome State Fault Refusal :=
  if s.memberRuns w then
    match (s.member w).fetch with
    | .error e => .next (s.trapFocus (decodeTrap e))
    | .ok (i, _) => exec i s
  else .next s

/-- The next instruction of a privileged hart; nothing while it waits inside a class 15 instruction (23 R383), or is halted. An interrupt that it may
take comes first, but not before such an instruction has completed, and a fetch that memory does not answer is an access fault (Privileged ISA; 18 R304). -/
def stepHart (h : Fin 16) (s : State) : Host.Outcome State Fault Refusal :=
  if (s.hart h).waits || s.hartHalted h then .next s
  else
    match (if (s.hart h).wait.isSome then none else (s.hart h).irq) with
    | some n => .next (s.setHart h ((s.hart h).takeIrq n))
    | none =>
      if !s.hartMay (s.hart h).pc.toNat then .next (s.trapFocus (accessFault 1 (s.hart h).pc))
      else
        let w := s.wordAt (s.hart h).pc.toNat
        match s.hartFetch h with
        | .ok (i, _) => exec i s
        | .error _ =>
          match decodeHart w with
          | some i => (s.hartExec h (w.setWidth 64) i).finish 4
          | none => .next (s.trapFocus { cause := .hart 2, d1 := w.setWidth 64 })

/-- The state in which a member's next instruction finds the bytes that it has read ahead (04 R69). -/
def State.look (s : State) (w : Who) : State :=
  { s with seen := (s.glances.filter fun g => g.1 == s.cur.id && g.2.1 == w).map fun g => g.2.2,
           glances := s.glances.filter fun g => !(g.1 == s.cur.id && g.2.1 == w) }

/-- An outcome after which nothing is read ahead any more. -/
def lookAway (x : Host.Outcome State Fault Refusal) : Host.Outcome State Fault Refusal :=
  match x with
  | .next s => .next { s with seen := [] }
  | .fault f => .fault f
  | .refused r => .refused r

/-- A byte of local space read ahead by a member that runs, as no other agent's write of it is ordered (04 R69); not one that a copy of
the member still writes (12 R234). -/
def State.glance (s : State) (w : Who) (a : Nat) : State :=
  if s.memberRuns w && s.inScratch a 1 && !s.localHazard w a 1 false then { s with glances := (s.cur.id, w, a, s.storedByte a) :: s.glances }
  else s

/-- The next instruction of an agent, which is in focus. -/
def stepAgent (s : State) : Host.Outcome State Fault Refusal :=
  match s.focus with
  | .member w => lookAway (stepMember w (s.look w))
  | .hart h => stepHart h s

/-- One turn of the agenda. -/
def stepTurn (t : Turn) (s : State) : Host.Outcome State Fault Refusal :=
  match t with
  | .run a => stepAgent { s with focus := a }
  | .glance w a => .next (s.glance w a)
  | .event i args => exec i { s with args := args }
  | .focusTask id => .next (s.focusTask id)

/-- One step of the machine: package time passes, then the first turn of the agenda or the agent in focus moves. -/
def step (s : State) : Host.Outcome State Fault Refusal :=
  match s.agenda with
  | [] => stepAgent s.elapse
  | t :: rest => stepTurn t { s.elapse with agenda := rest }

/-- The state with an instruction placed where the next step fetches. -/
def State.withFetchWord (s : State) (nbits w : Nat) : State :=
  match decodeTableWord nbits w with
  | some i =>
    match runsOn i with
    | .member m => s.placeMember m (tableWords nbits w)
    | .hart h => s.placeHart h (tableWords nbits w)
  | none => s.placeMember .seq (tableWords nbits w)

end Sys2Proof.Machine
end

