-- ==== Sys2Proof/Safety.lean ====
section
/-! DEFINITION. The words of the claims: what a safe state is, when an instruction issues, and the state in which it has
completed. -/

namespace Sys2Proof.Machine

/-! ### Invariants -/

/-- The package's and the clusters' memories are in their canonical form. -/
def State.MemoryOk (s : State) : Prop := Memory.wf s.mem = true ∧ Memory.wf s.clus = true

/-- A team's vector file and its spill area are in their canonical form. -/
abbrev Team.vectorsOk (t : Team) : Prop := Sparse.wf (0 : V256) t.vfile = true ∧ Sparse.wf (0 : V256) t.spilled = true

/-- A team's core scratchpad, vector file and spill area are in their canonical form. -/
def Team.filesOk (t : Team) : Bool :=
  Memory.wf t.scratch && Sparse.wf (0 : V256) t.vfile && Sparse.wf (0 : V256) t.spilled

/-- The memories a task holds are in their canonical form: its team's, and those of its checkpoint. -/
def Task.filesOk (t : Task) : Bool := t.team.filesOk && t.ckpt.all Team.filesOk

/-- Every memory the machine holds is in its canonical form: package memory, cluster scratchpads, and what every task holds. -/
def State.memoriesOk (s : State) : Bool :=
  Memory.wf s.mem && Memory.wf s.clus && s.allTasks.all Task.filesOk

/-- Whether an outcome is a next state. -/
def goesOn (o : Host.Outcome State Fault Refusal) : Bool :=
  match o with
  | .next _ => true
  | .fault _ => false
  | .refused _ => false

/-! ### When an instruction issues -/

/-- The agent in focus owes no drain cycle for a landing into a spilled register (04 R59, R66); only a sequencer can. -/
abbrev State.ready (s : State) : Prop := s.focus = .member .seq → s.cur.team.debt = 0

/-- An instruction of classes 0 to 14 with long form `o` and plan `p` issues in member `w`: the member may execute it, checks 4
to 6 of 08 R139 pass, no drain condition of 04 R59 holds, and R63 allows its transient result. -/
abbrev State.issues (s : State) (w : Who) (o : LF) (sh : Shape) (p : Plan) : Prop :=
  s.focus = .member w ∧ permitted sh.cls sh.op w = true ∧ p.check s.cur.team w o sh = none ∧
    (w = .seq → p.drains s.cur.team = false) ∧ (o.t = 1 → s.cur.team.bypassConflict p.lat = false)

/-- A class 15 instruction with long form `o` runs on privileged hart `h`: S or M mode, fields allowed, and no earlier wait
of the hart settled and still unread (18 R304, 23 R383). -/
abbrev State.issuesSys (s : State) (h : Fin 16) (o : LF) (sh : Shape) : Prop :=
  s.focus = .hart h ∧ (s.hart h).mode ≠ 0 ∧ sh.fieldsOk o = true ∧ (s.hart h).wait = none

/-- Instruction `i`, of `len` bytes, spells the instruction `f` with long form `o`: it is the long form, or the short form that
stands for it (08 R141, R143). -/
def spells (f : LF → Instr) (short : Reg → Reg → Reg → Instr) (lf : Reg → Reg → Reg → LF) (o : LF) (i : Instr) (len : Nat) : Prop :=
  (i = f o ∧ len = 8) ∨ ∃ rd rs1 rs2, o = lf rd rs1 rs2 ∧ i = short rd rs1 rs2 ∧ len = 4

/-- The long form of a short one whose SUB is 0. -/
def shortLong (rd rs1 rs2 : Reg) : LF := shortLF rd rs1 rs2 0

/-! ### The state after an instruction -/

/-- The state in which an instruction of `len` bytes, whose own effect left `s`, has completed and fallen through: its agent's
pc is past it, the sequencer's loops and issue clock have turned, and a stepped member has stopped. -/
def State.completed (s : State) (len : Nat) : State := (s.retire (s.pc + BitVec.ofNat 64 len)).endStep 0 0

/-- The same for an instruction whose STEP record carries DETAIL words (18 R321). -/
def State.completedWith (s : State) (len : Nat) (d1 d2 : Word) : State := (s.retire (s.pc + BitVec.ofNat 64 len)).endStep d1 d2

/-- The state in which an instruction whose own effect left `s` has completed with next pc `pc`. -/
def State.jumped (s : State) (pc : Word) : State := (s.retire pc).endStep 0 0

/-- The state with a pending result for the D group of `g` registers of width `w`, active elements only, from element codes and
their flags (04 R62, 08 R145); `t` is the team after its draws. -/
def State.withElems (s : State) (t : Team) (o : LF) (w g lat : Nat) (rs : List Elt) : State :=
  s.setTeam (t.land (groupWrites (t.wb + o.d.toNat) g w (t.masked o.m (rs.map (·.1)))) (t.flagsOf o.m rs) lat o)

/-- The state with a pending result of whole registers for the D group. -/
def State.withRegs (s : State) (t : Team) (o : LF) (lat : Nat) (rs : List V256) (flags : BitVec 6) : State :=
  s.setTeam (t.land (rs.zipIdx.map fun vi => .v (t.wb + o.d.toNat + vi.2) vi.1 (BitVec.allOnes 256)) flags lat o)

/-- The state with a pending result of accumulator or handle writes. -/
def State.withWrites (s : State) (ws : List LWrite) (lat : Nat) : State :=
  s.setTeam { s.cur.team with landings := s.cur.team.landings ++ [⟨ws, 0, lat, false, false, none⟩] }

/-- The state in which the trap `t` of the agent in focus has been taken. -/
def State.trapped (s : State) (t : Trap) : State := s.trapFocus t

end Sys2Proof.Machine
end

