-- ==== Sys2Proof/Certificates/Slice0/Obligations.lean ====
section
/-! DEFINITION. The claims about the machine, from the spec's rules: encodings, steps, the scalar base, traps, vectors, matrices,
movement, tasks, class 15 and events. -/

section
open Sys2Proof Sys2Proof.Machine

/-! ### Encodings -/

/-- Every well-formed instruction is what its own encoding decodes to, with every operand at every value (08 R133, R141-R144, 09
R155); an event has no encoding, and every other well-formed instruction has exactly one, of four or of eight bytes. -/
def Obligations.DecodeOfEncode : Prop :=
  ∀ i : Instr, i.wellFormed = true →
    (∀ w hi, encode32 i = some w → decode w hi = .ok (i, 4)) ∧
    (∀ w, encode64 i = some w → decode (w.extractLsb' 0 32) (some (w.extractLsb' 32 32)) = .ok (i, 8)) ∧
    (encode32 i = none ∨ encode64 i = none)

/-- What decodes is well formed and is encoded by the very words it was decoded from: no two words are the same instruction, and
no bit of a word is dropped (08 R132-R144, 09 R155). -/
def Obligations.EncodeOfDecode : Prop :=
  ∀ (lo : BitVec 32) (hi : Option (BitVec 32)) (i : Instr) (n : Nat), decode lo hi = .ok (i, n) →
    i.wellFormed = true ∧
      ((n = 4 ∧ encode32 i = some lo) ∨ (n = 8 ∧ ∃ h, hi = some h ∧ encode64 i = some (h ++ lo)))

/-- Words that the spec writes out decode to the instructions it says they are: `csrrs x7, 0x800, x0` and `csrrs x5, 0x810, x0`
(09 R164), and a word of each Xosin family. -/
def Obligations.DecodeExamples : Prop :=
  decodeTableWord 32 0x800023F3 = some (.csrrs 7 0 0x800) ∧
  decodeTableWord 32 0x810022F3 = some (.csrrs 5 0 0x810) ∧
  decodeTableWord 64 0x064804004020003F =
    some (.vadd { sub := 1, m := 1, t := 0, grp := 1, fmt := 2, b := 8, a := 4, d := 16 }) ∧
  decodeTableWord 64 0x008C00000028013F =
    some (.vcvt { sub := 0, m := 0, t := 0, grp := 2, fmt := 3, b := 0, a := 0, d := 20 }) ∧
  decodeTableWord 64 0x04402000501002BF =
    some (.vld { sub := 1, m := 0, t := 0, grp := 1, fmt := 0, b := 64, a := 5, d := 8 }) ∧
  decodeTableWord 64 0x00080180200203BF =
    some (.mma { sub := 0, m := 0, t := 0, grp := 0, fmt := 2, b := 3, a := 2, d := 1 }) ∧
  decodeTableWord 64 0x000002805002843F =
    some (.loop { sub := 0, m := 0, t := 0, grp := 0, fmt := 0, b := 5, a := 5, d := 1 }) ∧
  decodeTableWord 64 0x34080380600A04BF =
    some (.cpld { sub := 0b001101, m := 0, t := 0, grp := 0, fmt := 2, b := 7, a := 6, d := 5 }) ∧
  decodeTableWord 64 0x8C000380600A153F =
    some (.bamo { sub := 0b100011, m := 0, t := 0, grp := 0, fmt := 0, b := 7, a := 6, d := 5 }) ∧
  decodeTableWord 64 0xFC00010000002DBF =
    some (.wait { sub := 63, m := 0, t := 0, grp := 0, fmt := 0, b := 2, a := 0, d := 0 }) ∧
  decodeTableWord 64 0x00000000600A063F =
    some (.nbq { sub := 0, m := 0, t := 0, grp := 0, fmt := 0, b := 0, a := 6, d := 5 }) ∧
  decodeTableWord 64 0x24000000601026BF =
    some (.twait { sub := 0b001001, m := 0, t := 0, grp := 0, fmt := 0, b := 0, a := 6, d := 8 }) ∧
  decodeTableWord 64 0x00000680600A073F =
    some (.krot { sub := 0, m := 0, t := 0, grp := 0, fmt := 0, b := 13, a := 6, d := 5 }) ∧
  decodeTableWord 64 0x00000600B0147FBF =
    some (.tresmResume { sub := 0, m := 0, t := 0, grp := 0, fmt := 0, b := 12, a := 11, d := 10 }) ∧
  decodeTableWord 32 0x0103228B = some (.bldWShort 5 6 16) ∧
  decodeTableWord 32 0x043013AB = some (.phtakeShort 7 0 3) ∧
  decodeTableWord 32 0x0000202B = some .tendShort

/-! ### Steps -/

/-- With nothing on the agenda, a step lets package time pass and then the member in focus, when it runs and the words of its
code image at its pc decode to an instruction, executes exactly that instruction (04 R59, 08 R132), with what it has read ahead of
local space before it and nothing read ahead after it (04 R69; the reading ahead is the model's form of it, log entry 1). With nothing on the agenda,
a step lets package time pass and then the privileged hart in focus, when it neither waits nor is halted, takes no interrupt, and the
words of memory at its pc are answered and decode to an instruction, executes exactly that instruction (18 R304, 23 R383). The first turn of a non-empty agenda moves in
the focused agent's stead: an event with its arguments, another agent, a byte read ahead, or another task brought into focus. The
agenda is the model's own choice of what moves next (log entry 1). -/
def Obligations.StepRuns : Prop :=
  (∀ (s : State) (w : Who) (lo : BitVec 32) (i : Instr) (n : Nat),
     s.agenda = [] → s.focus = .member w → s.memberRuns w = true →
     (s.member w).code[(s.member w).pc / 4]? = some lo →
     decode lo (s.member w).code[(s.member w).pc / 4 + 1]? = .ok (i, n) →
     step s = lookAway (exec i (s.elapse.look w))) ∧
  (∀ (s : State) (h : Fin 16) (i : Instr) (n : Nat),
     s.agenda = [] → s.focus = .hart h → (s.hart h).waits = false → s.elapse.hartHalted h = false →
     ((s.hart h).wait.isSome = true ∨ (s.hart h).irq = none) → s.hartMay (s.hart h).pc.toNat = true →
     decode (s.wordAt (s.hart h).pc.toNat) (some (s.wordAt ((s.hart h).pc.toNat + 4))) = .ok (i, n) →
     step s = exec i s.elapse) ∧
  (∀ (s : State) (rest : List Turn),
     (∀ i args, s.agenda = .event i args :: rest → step s = exec i { s.elapse with agenda := rest, args := args }) ∧
     (∀ a, s.agenda = .run a :: rest → step s = stepAgent { s.elapse with agenda := rest, focus := a }) ∧
     (∀ w a, s.agenda = .glance w a :: rest → step s = .next (({ s.elapse with agenda := rest }).glance w a)) ∧
     (∀ id, s.agenda = .focusTask id :: rest → step s = .next (({ s.elapse with agenda := rest }).focusTask id)))

/-- A member in focus that runs and whose words do not decode takes a trap: PRIVILEGE for a class 15 form, whatever its fields
(check 2 of 08 R139 comes before check 4), ILLEGAL_INSTR for every other word and for a fetch outside the code image (08 R132,
09 R161). A member that does not run is left as it is. A privileged hart whose words do not decode to a row of the opcode table
executes the instruction of the Privileged ISA, Zifencei or the A extension that its word is, and takes an illegal-instruction
exception, with the word in tval, where it is none (18 R304). A hart that waits inside a class 15 instruction, or is the controller of a
die that is in reset or has halted as an orphan, is left as it is (23 R383, 21 R363, R364); one that may take an interrupt takes it
first; and a fetch that memory does not answer is an access fault (18 R304). The codes and tval of a hart's exceptions and the entry of
its interrupts are read from the Privileged ISA (log entry 13); that memory's refusal of a fetch is access fault 1 with the pc in tval
is the model's choice (log entry 77). -/
def Obligations.OtherSteps : Prop :=
  (∀ (s : State) (w : Who), s.agenda = [] → s.focus = .member w →
     (s.memberRuns w = false → step s = lookAway (.next (s.elapse.look w))) ∧
     (s.memberRuns w = true →
       (∀ lo e, (s.member w).code[(s.member w).pc / 4]? = some lo →
         decode lo (s.member w).code[(s.member w).pc / 4 + 1]? = .error e →
         step s = lookAway (.next ((s.elapse.look w).takeTrap w (trapOf (if e = .systemField then .privilege else .illegalInstr))))) ∧
       ((s.member w).code[(s.member w).pc / 4]? = none →
         step s = lookAway (.next ((s.elapse.look w).takeTrap w (trapOf .illegalInstr)))))) ∧
  (∀ (s : State) (h : Fin 16), s.agenda = [] → s.focus = .hart h →
     ((s.hart h).waits = true ∨ s.elapse.hartHalted h = true → step s = .next s.elapse) ∧
     ((s.hart h).waits = false → s.elapse.hartHalted h = false →
       (∀ n, (s.hart h).wait = none → (s.hart h).irq = some n → step s = .next (s.elapse.setHart h ((s.elapse.hart h).takeIrq n))) ∧
       ((s.hart h).irq = none → s.hartMay (s.hart h).pc.toNat = false →
         step s = .next (s.elapse.setHart h ((s.elapse.hart h).take 1 (s.hart h).pc))))) ∧
  (∀ (s : State) (h : Fin 16) (e : DecodeError),
     s.agenda = [] → s.focus = .hart h → (s.hart h).waits = false → s.elapse.hartHalted h = false → (s.hart h).irq = none →
     s.hartMay (s.hart h).pc.toNat = true →
     decode (s.wordAt (s.hart h).pc.toNat) (some (s.wordAt ((s.hart h).pc.toNat + 4))) = .error e →
     (∀ op, decodeHart (s.wordAt (s.hart h).pc.toNat) = some op →
       step s = (s.elapse.hartExec h ((s.wordAt (s.hart h).pc.toNat).setWidth 64) op).finish 4) ∧
     (decodeHart (s.wordAt (s.hart h).pc.toNat) = none →
       step s = .next (s.elapse.setHart h ((s.elapse.hart h).take 2 ((s.wordAt (s.hart h).pc.toNat).setWidth 64)))))

/-! ### Reset and the memories -/

/-- What reset leaves where the spec says it: package time counts from 0 (24 R405); PARTID holds ALL = 1 and PART = 0 (18 R305);
every scheduling block holds the defaults of 20 R336; no master owns the device, the package is in no domain and bring-up has
not begun (21 R365, 24 R404, 25 R410); GENNO is 1 and every device interface is unlocked (22). The machine after reset holds its
memories in canonical form, with no byte listed; that an unlisted byte reads 0 is the model's choice (log entries 6 and 7). -/
def Obligations.Reset : Prop :=
  (State.reset.hub.time = 0 ∧
   State.reset.hub.owner = 0 ∧ State.reset.hub.epoch = 0 ∧ State.reset.hub.target = 0 ∧
   State.reset.hub.pkgid = 0 ∧ State.reset.hub.domain = false ∧ State.reset.hub.pkgLock = false ∧
   State.reset.hub.tmaster = false ∧
   State.reset.hub.bootStep = 0 ∧ State.reset.hub.bootFail = 0 ∧ State.reset.hub.bootPresent = 0 ∧
   (∀ h, (State.reset.hart h).partid = 8#4) ∧
   (∀ p : Fin 8, (State.reset.part p).teamWait = 100 ∧ (State.reset.part p).hang = 10000 ∧ (State.reset.part p).drainMax = 20 ∧
     (State.reset.part p).ckptInt = 50 ∧ (State.reset.part p).proofsz = 2 ∧ (State.reset.part p).genno = 1 ∧
     (State.reset.part p).tdi = .unlocked)) ∧
  (State.reset.MemoryOk ∧ State.reset.memoriesOk = true ∧ State.reset.mem = [] ∧ State.reset.clus = [])

/-- Every step keeps package memory and the cluster scratchpads in canonical form, whatever instruction, event or trap it
performs; and so it keeps every memory the machine holds: with those two, the core scratchpad, the vector file and the spill area of
every task and of every checkpoint. -/
def Obligations.MemoryKept : Prop :=
  (∀ s t : State, s.MemoryOk → step s = .next t → t.MemoryOk) ∧
  (∀ s t : State, s.memoriesOk = true → step s = .next t → t.memoriesOk = true)

/-! ### The scalar base (09) -/

/-- `x0` reads 0 and drops what is written to it; every other scalar register of the agent in focus holds what was last written,
and no write reaches another register (04 R57). -/
def Obligations.ScalarRegisters : Prop :=
  ∀ (s : State) (r q : Reg) (v : Word),
    s.x 0 = 0 ∧ s.setX 0 v = s ∧ (r ≠ 0 → (s.setX r v).x r = v) ∧ (q ≠ r → (s.setX r v).x q = s.x q)

/-- The register forms of RV64I (09 R154): each writes its result to `rd` and falls through. The immediate forms of RV64I (09
R154, R156): each writes its result to `rd` and falls through; `auipc` adds to the pc. The 32-bit forms of RV64I (09 R154): each
computes on the low words, sign-extends and falls through. -/
def Obligations.IntegerArithmetic : Prop :=
  (∀ (s : State) (rd rs1 rs2 : Reg), s.ready →
     let a := s.x rs1
     let b := s.x rs2
     ∀ p ∈ ([
       (.add rd rs1 rs2, a + b),
       (.sub rd rs1 rs2, a - b),
       (.sll rd rs1 rs2, a <<< (b.toNat % 64)),
       (.srl rd rs1 rs2, a >>> (b.toNat % 64)),
       (.sra rd rs1 rs2, a.sshiftRight (b.toNat % 64)),
       (.slt rd rs1 rs2, if a.toInt < b.toInt then 1 else 0),
       (.sltu rd rs1 rs2, if a.toNat < b.toNat then 1 else 0),
       (.xor rd rs1 rs2, a ^^^ b),
       (.or rd rs1 rs2, a ||| b),
       (.and rd rs1 rs2, a &&& b)] : List (Instr × Word)),
       exec p.1 s = .next ((s.setX rd p.2).completed 4)) ∧
  (∀ (s : State) (rd rs1 : Reg) (imm : BitVec 12) (sh : BitVec 6) (up : BitVec 20), s.ready →
     let a := s.x rs1
     let k : Word := imm.signExtend 64
     let u : Word := (up ++ 0#12).signExtend 64
     ∀ p ∈ ([
       (.addi rd rs1 imm, a + k),
       (.slti rd rs1 imm, if a.toInt < imm.toInt then 1 else 0),
       (.sltiu rd rs1 imm, if a.toNat < k.toNat then 1 else 0),
       (.xori rd rs1 imm, a ^^^ k),
       (.ori rd rs1 imm, a ||| k),
       (.andi rd rs1 imm, a &&& k),
       (.slli rd rs1 sh, a <<< sh.toNat),
       (.srli rd rs1 sh, a >>> sh.toNat),
       (.srai rd rs1 sh, a.sshiftRight sh.toNat),
       (.lui rd up, u),
       (.auipc rd up, s.pc + u)] : List (Instr × Word)),
       exec p.1 s = .next ((s.setX rd p.2).completed 4)) ∧
  (∀ (s : State) (rd rs1 rs2 : Reg) (imm : BitVec 12) (sh : BitVec 5), s.ready →
     let a : BitVec 32 := (s.x rs1).setWidth 32
     let b : BitVec 32 := (s.x rs2).setWidth 32
     ∀ p ∈ ([
       (.addiw rd rs1 imm, a + imm.signExtend 32),
       (.slliw rd rs1 sh, a <<< sh.toNat),
       (.srliw rd rs1 sh, a >>> sh.toNat),
       (.sraiw rd rs1 sh, a.sshiftRight sh.toNat),
       (.addw rd rs1 rs2, a + b),
       (.subw rd rs1 rs2, a - b),
       (.sllw rd rs1 rs2, a <<< (b.toNat % 32)),
       (.srlw rd rs1 rs2, a >>> (b.toNat % 32)),
       (.sraw rd rs1 rs2, a.sshiftRight (b.toNat % 32)),
       (.mulw rd rs1 rs2, a * b)] : List (Instr × BitVec 32)),
       exec p.1 s = .next ((s.setX rd (p.2.signExtend 64)).completed 4))

/-- The products of the M forms (09 R154): the low half, and the high half of the 128-bit product of the operands, signed or
unsigned. The divisions of the M forms (09 R154) never trap. By zero they give a quotient of all ones and the dividend as
remainder; −2^63 ÷ −1 gives −2^63 and 0. Otherwise the remainder is smaller than the divisor, has the dividend's sign where it
is not 0, and makes up the dividend. The W forms of the divisions behave the same way at 32 bits, with the result sign-extended
(09 R154). -/
def Obligations.MultiplyDivide : Prop :=
  (∀ (s : State) (rd rs1 rs2 : Reg), s.ready →
     let a := s.x rs1
     let b := s.x rs2
     ∀ p ∈ ([
       (.mul rd rs1 rs2, a * b),
       (.mulh rd rs1 rs2, (a.signExtend 128 * b.signExtend 128).extractLsb' 64 64),
       (.mulhsu rd rs1 rs2, (a.signExtend 128 * b.setWidth 128).extractLsb' 64 64),
       (.mulhu rd rs1 rs2, (a.setWidth 128 * b.setWidth 128).extractLsb' 64 64)] : List (Instr × Word)),
       exec p.1 s = .next ((s.setX rd p.2).completed 4)) ∧
  (∀ (s : State) (rd rs1 rs2 : Reg), s.ready →
     let a := s.x rs1
     let b := s.x rs2
     (∃ q r : Word,
       exec (.div rd rs1 rs2) s = .next ((s.setX rd q).completed 4) ∧
       exec (.rem rd rs1 rs2) s = .next ((s.setX rd r).completed 4) ∧
       (b = 0 → q = BitVec.allOnes 64 ∧ r = a) ∧
       (a = BitVec.intMin 64 → b = BitVec.allOnes 64 → q = BitVec.intMin 64 ∧ r = 0) ∧
       (b ≠ 0 → q * b + r = a ∧ r.toInt.natAbs < b.toInt.natAbs ∧ (r.toInt ≠ 0 → (r.toInt < 0 ↔ a.toInt < 0)))) ∧
     (∃ q r : Word,
       exec (.divu rd rs1 rs2) s = .next ((s.setX rd q).completed 4) ∧
       exec (.remu rd rs1 rs2) s = .next ((s.setX rd r).completed 4) ∧
       (b = 0 → q = BitVec.allOnes 64 ∧ r = a) ∧
       (b ≠ 0 → q.toNat * b.toNat + r.toNat = a.toNat ∧ r.toNat < b.toNat))) ∧
  (∀ (s : State) (rd rs1 rs2 : Reg), s.ready →
     let a : BitVec 32 := (s.x rs1).setWidth 32
     let b : BitVec 32 := (s.x rs2).setWidth 32
     (∃ q r : BitVec 32,
       exec (.divw rd rs1 rs2) s = .next ((s.setX rd (q.signExtend 64)).completed 4) ∧
       exec (.remw rd rs1 rs2) s = .next ((s.setX rd (r.signExtend 64)).completed 4) ∧
       (b = 0 → q = BitVec.allOnes 32 ∧ r = a) ∧
       (a = BitVec.intMin 32 → b = BitVec.allOnes 32 → q = BitVec.intMin 32 ∧ r = 0) ∧
       (b ≠ 0 → q * b + r = a ∧ r.toInt.natAbs < b.toInt.natAbs ∧ (r.toInt ≠ 0 → (r.toInt < 0 ↔ a.toInt < 0)))) ∧
     (∃ q r : BitVec 32,
       exec (.divuw rd rs1 rs2) s = .next ((s.setX rd (q.signExtend 64)).completed 4) ∧
       exec (.remuw rd rs1 rs2) s = .next ((s.setX rd (r.signExtend 64)).completed 4) ∧
       (b = 0 → q = BitVec.allOnes 32 ∧ r = a) ∧
       (b ≠ 0 → q.toNat * b.toNat + r.toNat = a.toNat ∧ r.toNat < b.toNat)))

/-- `jal` and `jalr` (09 R156): a target that is a multiple of 4 is taken and PC + 4 is the link; any other raises ALIGN with
the link and the pc unchanged, on a hart the misaligned-fetch exception; the details of ALIGN (the target, and 4) are the model's choice
(log entry 74), and the exception's code with the target in tval is its reading of the Privileged ISA (log entry 13). The conditional branches (09 R156): not taken, they
fall through; taken, they go to a target that is a multiple of 4, and raise ALIGN at any other. -/
def Obligations.ControlFlow : Prop :=
  (∀ (s : State) (rd rs1 : Reg) (imm : BitVec 12) (off : BitVec 20), s.ready →
     ∀ p ∈ ([
       (.jal rd off, s.pc + (off ++ 0#1).signExtend 64),
       (.jalr rd rs1 imm, (s.x rs1 + imm.signExtend 64) &&& ~~~1#64)] : List (Instr × Word)),
       (p.2.toNat % 4 = 0 → exec p.1 s = .next ((s.setX rd (s.pc + 4)).jumped p.2)) ∧
       (p.2.toNat % 4 ≠ 0 →
         (∀ w, s.focus = .member w → exec p.1 s = .next (s.trapped { cause := .align, d1 := p.2, d2 := 4 })) ∧
         (∀ h, s.focus = .hart h → exec p.1 s = .next (s.trapped { cause := .hart 0, d1 := p.2 })))) ∧
  (∀ (s : State) (rs1 rs2 : Reg) (off : BitVec 12), s.ready →
     let a := s.x rs1
     let b := s.x rs2
     let target : Word := s.pc + (off ++ 0#1).signExtend 64
     ∀ p ∈ ([
       (.beq rs1 rs2 off, decide (a = b)),
       (.bne rs1 rs2 off, decide (a ≠ b)),
       (.blt rs1 rs2 off, decide (a.toInt < b.toInt)),
       (.bge rs1 rs2 off, decide (b.toInt ≤ a.toInt)),
       (.bltu rs1 rs2 off, decide (a.toNat < b.toNat)),
       (.bgeu rs1 rs2 off, decide (b.toNat ≤ a.toNat))] : List (Instr × Bool)),
       (p.2 = false → exec p.1 s = .next (s.completed 4)) ∧
       (p.2 = true → target.toNat % 4 = 0 → exec p.1 s = .next (s.jumped target)) ∧
       (p.2 = true → target.toNat % 4 ≠ 0 →
         (∀ w, s.focus = .member w → exec p.1 s = .next (s.trapped { cause := .align, d1 := target, d2 := 4 })) ∧
         (∀ h, s.focus = .hart h → exec p.1 s = .next (s.trapped { cause := .hart 0, d1 := target }))))

/-- A member's scalar loads (09 R157, 04 R68): the unsigned register plus the signed offset, formed exactly, is the address; an
aligned load inside a scratchpad returns its little-endian bytes, and one inside a pigeonhole's control word those bytes of it,
sign- or zero-extended. A member's scalar stores (09 R157): an aligned store inside a scratchpad writes the low bytes of the
source register there, lowest first. The traps of a member's scalar accesses, in their order (09 R157, 04 R68): LOCAL_ADDR for a
sum outside 32 bits or a byte outside the scratchpads, save a load inside the pigeonhole control words; then ALIGN. -/
def Obligations.MemberAccesses : Prop :=
  (∀ (s : State) (w : Who) (rd rs1 : Reg) (imm : BitVec 12) (a : Nat),
     s.focus = .member w → s.ready → (s.x rs1).toNat + imm.toInt = (a : Int) →
     ∀ p ∈ ([(.lb rd rs1 imm, 1, true), (.lh rd rs1 imm, 2, true), (.lw rd rs1 imm, 4, true), (.ld rd rs1 imm, 8, true),
         (.lbu rd rs1 imm, 1, false), (.lhu rd rs1 imm, 2, false), (.lwu rd rs1 imm, 4, false)] : List (Instr × Nat × Bool)),
       let n := p.2.1
       let ext (v : Nat) : Word := if p.2.2 then (BitVec.ofNat (8 * n) v).signExtend 64 else BitVec.ofNat 64 v
       a % n = 0 → s.localHazard w a n false = false →
       (s.inScratch a n = true → s.clusBadAt a = false →
         exec p.1 s = .next (((s.rebuild a n).setX rd (ext (leNat (s.localBytes a n)))).completed 4)) ∧
       (0x02000000 ≤ a → a + n ≤ 0x02000100 →
         exec p.1 s = .next
           ((s.setX rd (ext ((s.cur.team.holeWord a).toNat / 2 ^ (8 * (a % 8)) % 2 ^ (8 * n)))).completed 4))) ∧
  (∀ (s : State) (w : Who) (rs1 rs2 : Reg) (imm : BitVec 12) (a : Nat),
     s.focus = .member w → s.ready → (s.x rs1).toNat + imm.toInt = (a : Int) →
     ∀ p ∈ ([(.sb rs1 rs2 imm, 1), (.sh rs1 rs2 imm, 2), (.sw rs1 rs2 imm, 4), (.sd rs1 rs2 imm, 8)] : List (Instr × Nat)),
       a % p.2 = 0 → s.inScratch a p.2 = true → s.localHazard w a p.2 true = false →
       exec p.1 s = .next ((s.setLocalBytes a (leBytes p.2 (s.x rs2).toNat)).completed 4)) ∧
  (∀ (s : State) (w : Who) (rd rs1 rs2 : Reg) (imm : BitVec 12), s.focus = .member w → s.ready →
     let sum : Int := (s.x rs1).toNat + imm.toInt
     let at_ : Word := s.x rs1 + imm.signExtend 64
     ∀ p ∈ ([(.lb rd rs1 imm, 1, true), (.lh rd rs1 imm, 2, true), (.lw rd rs1 imm, 4, true), (.ld rd rs1 imm, 8, true),
         (.lbu rd rs1 imm, 1, true), (.lhu rd rs1 imm, 2, true), (.lwu rd rs1 imm, 4, true),
         (.sb rs1 rs2 imm, 1, false), (.sh rs1 rs2 imm, 2, false), (.sw rs1 rs2 imm, 4, false),
         (.sd rs1 rs2 imm, 8, false)] : List (Instr × Nat × Bool)),
       let n := p.2.1
       let trap (c : Cause) : Trap := { cause := c, d1 := at_, d2 := BitVec.ofNat 64 n }
       let inside (a : Nat) : Prop :=
         s.inScratch a n = true ∨ (p.2.2 = true ∧ 0x02000000 ≤ a ∧ a + n ≤ 0x02000100)
       (¬ (0 ≤ sum ∧ sum < 4294967296) → exec p.1 s = .next (s.trapped (trap .localAddr))) ∧
       (∀ a : Nat, sum = a → a < 4294967296 → ¬ inside a → exec p.1 s = .next (s.trapped (trap .localAddr))) ∧
       (∀ a : Nat, sum = a → inside a → a % n ≠ 0 → exec p.1 s = .next (s.trapped (trap .align))))

/-- A privileged hart's loads and stores of physical memory (18 R304; physical addressing is the model's, log entry 13): an aligned access
whose line memory answers under the device's key, the writes in flight to that line done first, reads its little-endian bytes or writes
them at their home as any write does, where the hart's level may write there (log entry 90); a misaligned one raises its exception, 4 or 6
(log entry 13); and one that memory does not answer, or a store that is not the hart's to make, is an access fault (log entries 77 and
90). -/
def Obligations.HartAccesses : Prop :=
  ∀ (s : State) (h : Fin 16) (rd rs1 rs2 : Reg) (imm : BitVec 12), s.focus = .hart h →
    let a : Word := s.x rs1 + imm.signExtend 64
    let u := s.settle a.toNat
    (∀ p ∈ ([(.lb rd rs1 imm, 1, true), (.lh rd rs1 imm, 2, true), (.lw rd rs1 imm, 4, true), (.ld rd rs1 imm, 8, true),
        (.lbu rd rs1 imm, 1, false), (.lhu rd rs1 imm, 2, false), (.lwu rd rs1 imm, 4, false)] : List (Instr × Nat × Bool)),
      let v := leNat (bytesAt u.mem a.toNat p.2.1)
      (a.toNat % p.2.1 = 0 → u.homeOf a.toNat = .here → u.readError 0 fwSlot a.toNat = none →
        exec p.1 s = .next ((u.setX rd (if p.2.2 then (BitVec.ofNat (8 * p.2.1) v).signExtend 64 else BitVec.ofNat 64 v)).completed 4)) ∧
      (a.toNat % p.2.1 ≠ 0 → exec p.1 s = .next (s.setHart h ((s.hart h).take 4 a))) ∧
      (a.toNat % p.2.1 = 0 → (u.homeOf a.toNat ≠ .here ∨ u.readError 0 fwSlot a.toNat ≠ none) →
        exec p.1 s = .next (u.trapped { cause := .hart 5, d1 := a }))) ∧
    (∀ p ∈ ([(.sb rs1 rs2 imm, 1), (.sh rs1 rs2 imm, 2), (.sw rs1 rs2 imm, 4), (.sd rs1 rs2 imm, 8)] : List (Instr × Nat)),
      (a.toNat % p.2 = 0 → u.homeOf a.toNat = .here → u.readError 0 fwSlot a.toNat = none → u.hartOwns h a.toNat p.2 = true →
        exec p.1 s = .next ((u.fwWrite a.toNat (leBytes p.2 (s.x rs2).toNat)).completed 4)) ∧
      (a.toNat % p.2 ≠ 0 → exec p.1 s = .next (s.setHart h ((s.hart h).take 6 a))) ∧
      (a.toNat % p.2 = 0 →
        (u.homeOf a.toNat ≠ .here ∨ u.readError 0 fwSlot a.toNat ≠ none ∨ u.hartOwns h a.toNat p.2 = false) →
        exec p.1 s = .next (u.trapped { cause := .hart 7, d1 := a })))

/-- The CSR instructions of a member on its user CSRs (09 R162, R163): the old value goes to `rd`, the new one is the source, or
the old value with the source's bits set or cleared; `csrrs` and `csrrc` of nothing do not write. A read of XFCSR first waits
for every earlier landing. A number outside the map, a write of a read-only CSR and a courier's access to a sequencer's CSR
raise ILLEGAL_INSTR. What a write does to the sequencer's CSRs: XFCSR clears the flags written as 1, but not one that landed in
this cycle, takes a mode of 0 to 4 and keeps the old one otherwise (03 R51, 09 R164); SRSEED takes 1 for 0 (03 R50); a
format-table entry keeps its format for 15 and its mode for 5 to 7 (03 R54). -/
def Obligations.UserCsrs : Prop :=
  (∀ (s : State) (w : Who) (rd rs1 : Reg) (csr : BitVec 12), s.focus = .member w → s.ready →
     ∀ p ∈ ([
       (.csrrw rd rs1 csr, .write, s.x rs1, true, decide (rd ≠ 0)),
       (.csrrs rd rs1 csr, .set, s.x rs1, decide (rs1 ≠ 0), true),
       (.csrrc rd rs1 csr, .clear, s.x rs1, decide (rs1 ≠ 0), true),
       (.csrrwi rd rs1 csr, .write, rs1.setWidth 64, true, decide (rd ≠ 0)),
       (.csrrsi rd rs1 csr, .set, rs1.setWidth 64, decide (rs1 ≠ 0), true),
       (.csrrci rd rs1 csr, .clear, rs1.setWidth 64, decide (rs1 ≠ 0), true)] : List (Instr × CsrOp × Word × Bool × Bool)),
       let op := p.2.1
       let src := p.2.2.1
       let writes := p.2.2.2.1
       let reads := p.2.2.2.2
       (∀ old, s.userCsr w csr.toNat = some old → (writes = true → csr.toNat < 0xC00) →
         (reads = true → csr = 0x800 → s.cur.team.landings = []) →
         exec p.1 s = .next
           (((if writes then s.setTeam (s.cur.team.writeCsr op csr.toNat src) else s).setX rd old).completed 4)) ∧
       (∀ old, s.userCsr w csr.toNat = some old → reads = true → csr = 0x800 → s.cur.team.landings ≠ [] →
         exec p.1 s = .next s.drainCycle) ∧
       (s.userCsr w csr.toNat = none → exec p.1 s = .next (s.trapped (trapOf .illegalInstr))) ∧
       (writes = true → 0xC00 ≤ csr.toNat → exec p.1 s = .next (s.trapped (trapOf .illegalInstr)))) ∧
  (∀ (t : Team) (src : Word) (n : Fin 16),
     let mode (v : BitVec 3) : BitVec 3 := if v.toNat < 5 then v else t.rm
     let bits : BitVec 3 := src.extractLsb' 8 3
     let mask : BitVec 6 := src.setWidth 6
     t.writeCsr .write 0x800 src = { t with flags := (t.flags &&& ~~~mask) ||| t.flagsNow, rm := mode bits } ∧
     t.writeCsr .set 0x800 src = { t with flags := (t.flags &&& ~~~mask) ||| t.flagsNow, rm := mode (t.rm ||| bits) } ∧
     t.writeCsr .clear 0x800 src = { t with flags := t.flags ||| t.flagsNow, rm := mode (t.rm &&& ~~~bits) } ∧
     t.writeCsr .write 0x801 src = { t with srseed := if src = 0 then 1 else src } ∧
     (let old := t.ft.get n
      let e := (t.writeCsr .write (0x810 + n.val) src).ft.get n
      e.extractLsb' 0 4 = (if src.extractLsb' 0 4 = 15#4 then old.extractLsb' 0 4 else src.extractLsb' 0 4) ∧
      e.extractLsb' 4 3 = (if 5 ≤ (src.extractLsb' 4 3 : BitVec 3).toNat then old.extractLsb' 4 3 else src.extractLsb' 4 3) ∧
      e.extractLsb' 7 1 = src.extractLsb' 7 1 ∧
      ∀ m, m ≠ n → (t.writeCsr .write (0x810 + n.val) src).ft.get m = t.ft.get m))

/-- The CSR instructions of a privileged hart (18 R304, R305): a CSR its mode may read, and no enable bit bars, gives its old
value, and takes the new one where the number is not read-only; anything else is an illegal-instruction exception. PARTID reads in S as 0xDC0, and is
written in M through 0x7C0 alone. The list of the other CSRs is the model's (log entry 13). -/
def Obligations.HartCsrs : Prop :=
  ∀ (s : State) (h : Fin 16) (rd rs1 : Reg) (csr : BitVec 12), s.focus = .hart h →
    (∀ p ∈ ([
      (.csrrw rd rs1 csr, .write, s.x rs1, true),
      (.csrrs rd rs1 csr, .set, s.x rs1, decide (rs1 ≠ 0)),
      (.csrrc rd rs1 csr, .clear, s.x rs1, decide (rs1 ≠ 0)),
      (.csrrwi rd rs1 csr, .write, rs1.setWidth 64, true),
      (.csrrsi rd rs1 csr, .set, rs1.setWidth 64, decide (rs1 ≠ 0)),
      (.csrrci rd rs1 csr, .clear, rs1.setWidth 64, decide (rs1 ≠ 0))] : List (Instr × CsrOp × Word × Bool)),
      let writes := p.2.2.2
      let new (old : Word) : State := s.setHart h ((s.hart h).writeCsr csr.toNat (p.2.1.apply old p.2.2.1))
      (∀ least old, s.hartCsr h csr.toNat = some (least, old) → least ≤ (s.hart h).mode.toNat →
        (s.hart h).barred csr.toNat = false → (writes = true → csr.toNat < 0xC00) →
        exec p.1 s = .next (((if writes then new old else s).setX rd old).completed 4)) ∧
      (∀ least old, s.hartCsr h csr.toNat = some (least, old) →
        (s.hart h).mode.toNat < least ∨ (s.hart h).barred csr.toNat = true ∨ (writes = true ∧ 0xC00 ≤ csr.toNat) →
        exec p.1 s = .next (s.setHart h ((s.hart h).take 2 (lowWord p.1)))) ∧
      (s.hartCsr h csr.toNat = none → exec p.1 s = .next (s.setHart h ((s.hart h).take 2 (lowWord p.1))))) ∧
    s.hartCsr h 0xDC0 = some (1, (s.hart h).partid.setWidth 64) ∧
    s.hartCsr h 0x7C0 = some (3, (s.hart h).partid.setWidth 64) ∧
    (∀ v : Word, ((s.hart h).writeCsr 0x7C0 v).partid = v.setWidth 4) ∧
    (∀ (n : Nat) (v : Word), n ≠ 0x7C0 → ((s.hart h).writeCsr n v).partid = (s.hart h).partid)

/-- `fence` only falls through, whatever its fields hold: every scalar store has been written in its own step (09 R158). -/
def Obligations.Fence : Prop :=
  ∀ (s : State) (rd rs1 : Reg) (imm : BitVec 12), s.ready → exec (.fence rd rs1 imm) s = .next (s.completed 4)

/-- `ecall` of a member (09 R159): the first time it posts the request under the task's next tag into the service queue
(18 R314) and blocks, or only blocks while that queue is full; while the request
is outstanding it only blocks; while the task is speculative it stalls (06 R106). That the queue is the ring whose control block `svcCtl` names is the model's reading
(log entry 54). On a hart it is the environment call of its mode (18 R304), code 8 plus the mode and tval 0, as the Privileged ISA has it
(log entry 13). -/
def Obligations.ServiceCall : Prop :=
  ∀ (s : State), s.ready →
    (∀ w, s.focus = .member w →
      let ctl := (s.part s.cur.part).svcCtl
      let field (k n : Nat) : Nat := s.fwNat (ctl + k) n
      (s.cur.spec = true → exec .ecall s = .next (s.blockWith .spec)) ∧
      (s.cur.spec = false → (s.member w).svc = none → s.ringFull ctl = true →
        exec .ecall s = .next (s.blockWith (.ecall (s.cur.svcTag + 1)))) ∧
      (s.cur.spec = false → (s.member w).svc = none → s.ringFull ctl = false →
        exec .ecall s = .next ((s.postService w).blockWith (.ecall (s.cur.svcTag + 1))) ∧
        ((s.postService w).member w).svc = some (s.cur.svcTag + 1) ∧
        ∃ rec : List Byte, rec.length = 128 ∧
          leNat (rec.take 2) = 16 ∧ leNat ((rec.drop 36).take 4) = (s.cur.svcTag + 1) % 2 ^ 32 ∧
          leNat ((rec.drop 40).take 8) = ((s.member w).x.get 17).toNat ∧ leNat ((rec.drop 48).take 8) = ((s.member w).x.get 10).toNat ∧
          (s.postService w).mem =
            ((s.fwWrite (field 0 8 + 128 * (field 16 4 % field 8 4)) rec).fwWrite (ctl + 16) (leBytes 4 (field 16 4 + 1))).mem) ∧
      (∀ tag, s.cur.spec = false → (s.member w).svc = some tag → exec .ecall s = .next (s.blockWith (.ecall tag)))) ∧
    (∀ h, s.focus = .hart h →
      exec .ecall s = .next (s.setHart h ((s.hart h).take (8 + (s.hart h).mode.toNat) 0)))

/-- `ebreak` raises BREAKPOINT before it issues, with its own pc in the fault record (09 R160): with nothing of the task in
flight the task is FAULTED, or holds the trap while it is speculative (06 R107). On a hart it is the breakpoint exception (18
R304), cause 3 with its pc in tval, the model's reading of the Privileged ISA (log entry 13). -/
def Obligations.Breakpoint : Prop :=
  ∀ (s : State), s.ready →
    (∀ w, s.focus = .member w →
      exec .ebreak s = .next (s.takeTrap w (trapOf .breakpoint)) ∧
      (s.cur.stop = none → s.inFlight s.cur.id = false →
        let r : FaultRec := ⟨0x000C, w, (s.member w).pc, 0, 0⟩
        let t := s.takeTrap w (trapOf .breakpoint)
        (s.cur.spec = false → t.cur.state = .faulted ∧ t.cur.fault = r) ∧ (s.cur.spec = true → t.cur.held = some r))) ∧
    (∀ h, s.focus = .hart h → exec .ebreak s = .next (s.setHart h ((s.hart h).take 3 (s.hart h).pc)))

/-! ### What completing an instruction leaves alone -/

/-- Completing an instruction, when no debugger steps its member, moves its agent's pc by the instruction's length and touches
no memory, no scratchpad, no scalar register, no other agent, no other task and no engine: what an instruction changes is what
its own effect changed, and in the sequencer what the issue cycle lands (04 R59, R61, 11 R216). -/
def Obligations.CompletionFrame : Prop :=
  ∀ (s : State) (n : Nat), s.cur.stepping = none →
    let t := s.completed n
    t.focus = s.focus ∧ t.agenda = s.agenda ∧ t.mem = s.mem ∧ t.clus = s.clus ∧ t.cur.team.scratch = s.cur.team.scratch ∧
    t.cache = s.cache ∧ t.tlbs = s.tlbs ∧ t.blocks = s.blocks ∧ t.tasks = s.tasks ∧ t.copies = s.copies ∧ t.queries = s.queries ∧
    t.colls = s.colls ∧ t.syncs = s.syncs ∧ t.parts = s.parts ∧ t.contexts = s.contexts ∧ t.hub = s.hub ∧
    (∀ r, t.x r = s.x r) ∧ (∀ w, (t.member w).x = (s.member w).x ∧ (t.member w).code = (s.member w).code) ∧
    (∀ w, s.focus ≠ .member w → t.member w = s.member w) ∧
    (∀ h, s.focus ≠ .hart h → t.hart h = s.hart h) ∧
    (∀ h, s.focus = .hart h → t.hart h = { (s.hart h).retired with pc := s.pc + BitVec.ofNat 64 n, wait := none }) ∧
    (∀ w, s.focus = .member w → (t.member w).wait = none ∧
      (w ≠ .seq → t.cur.team = s.cur.team.setMember w { s.member w with pc := (s.pc + BitVec.ofNat 64 n).toNat, wait := none }) ∧
      (w = .seq → s.cur.team.loops = [] → (t.member w).pc = (s.pc + BitVec.ofNat 64 n).toNat)) ∧
    (t.cur.team.masks = s.cur.team.masks ∧ t.cur.team.links = s.cur.team.links ∧ t.cur.team.wb = s.cur.team.wb ∧
      t.cur.team.fs = s.cur.team.fs ∧ t.cur.team.rm = s.cur.team.rm ∧ t.cur.team.srseed = s.cur.team.srseed ∧
      t.cur.team.ft = s.cur.team.ft ∧ t.cur.team.selCtr = s.cur.team.selCtr ∧ t.cur.team.selBase = s.cur.team.selBase ∧
      t.cur.team.tq = s.cur.team.tq ∧ t.cur.team.ph = s.cur.team.ph)

/-- The frame of the forms that only compute in scalar registers, for whatever next state they give: no memory and no scratchpad
byte, no register but `rd`, no other agent, no CSR of the team and no trap register of a hart changes (09 R154, R158). -/
def Obligations.ScalarFrame : Prop :=
  ∀ (s t : State) (rd rs1 rs2 : Reg) (imm : BitVec 12) (sh : BitVec 6) (sw : BitVec 5) (up : BitVec 20),
    s.cur.stepping = none →
    ∀ i ∈ ([.lui rd up, .auipc rd up, .addi rd rs1 imm, .slti rd rs1 imm, .sltiu rd rs1 imm, .xori rd rs1 imm, .ori rd rs1 imm,
        .andi rd rs1 imm, .slli rd rs1 sh, .srli rd rs1 sh, .srai rd rs1 sh, .add rd rs1 rs2, .sub rd rs1 rs2, .sll rd rs1 rs2,
        .slt rd rs1 rs2, .sltu rd rs1 rs2, .xor rd rs1 rs2, .srl rd rs1 rs2, .sra rd rs1 rs2, .or rd rs1 rs2, .and rd rs1 rs2,
        .addiw rd rs1 imm, .slliw rd rs1 sw, .srliw rd rs1 sw, .sraiw rd rs1 sw, .addw rd rs1 rs2, .subw rd rs1 rs2,
        .sllw rd rs1 rs2, .srlw rd rs1 rs2, .sraw rd rs1 rs2, .mul rd rs1 rs2, .mulh rd rs1 rs2, .mulhsu rd rs1 rs2,
        .mulhu rd rs1 rs2, .div rd rs1 rs2, .divu rd rs1 rs2, .rem rd rs1 rs2, .remu rd rs1 rs2, .mulw rd rs1 rs2,
        .divw rd rs1 rs2, .divuw rd rs1 rs2, .remw rd rs1 rs2, .remuw rd rs1 rs2, .fence rd rs1 imm] : List Instr),
      exec i s = .next t →
      t.mem = s.mem ∧ t.clus = s.clus ∧ t.cur.team.scratch = s.cur.team.scratch ∧ t.focus = s.focus ∧
      (∀ q, q ≠ rd → t.x q = s.x q) ∧ t.x 0 = 0 ∧
      (∀ w, s.focus ≠ .member w → t.member w = s.member w) ∧ (∀ h, s.focus ≠ .hart h → t.hart h = s.hart h) ∧
      (∀ h, s.focus = .hart h → ∃ x pc, t.hart h = { (s.hart h).retired with x := x, pc := pc, wait := none }) ∧
      t.cur.team.rm = s.cur.team.rm ∧ t.cur.team.srseed = s.cur.team.srseed ∧ t.cur.team.ft = s.cur.team.ft ∧
      t.cur.team.masks = s.cur.team.masks ∧ t.cur.team.wb = s.cur.team.wb ∧ t.cur.team.fs = s.cur.team.fs ∧
      t.cur.team.tq = s.cur.team.tq ∧ t.cur.team.ph = s.cur.team.ph

/-! ### Issue cycles and landings -/

/-- Pending results advance by one for each issue cycle: one issued with delay L + 1 is still pending, with its writes and flags
as they were formed, until it lands in the cycle in which its delay runs out (04 R59, R61). A landing writes the active elements
of its destination and no other bit: a masked-off element keeps the value the destination holds in the landing cycle, and no
other register changes (04 R61). A result with T = 1 changes no register (04 R63). A landing keeps the vector file and the spill area in
canonical form, from which the reads after it start. -/
def Obligations.Landings : Prop :=
  (∀ (t : Team) (n : Nat),
     (Nat.iterate Team.tick (n + 1) t).landings =
       (t.landings.filter fun e => n + 1 < e.delay).map fun e => { e with delay := e.delay - (n + 1) }) ∧
  (∀ (t : Team) (w : LWrite), t.vectorsOk → (t.landWrite w).vectorsOk) ∧
  (∀ (t : Team) (a : Nat) (val mask : V256) (flags : BitVec 6) (delay : Nat) (matrix : Bool) (mx : Option Nat) (transient : Bool),
     t.vectorsOk → t.lo ≤ a →
     let e : Landing := ⟨[.v a val mask], flags, delay, transient, matrix, mx⟩
     (t.landOne e).flags = t.flags ||| flags ∧
     (∀ i, ((t.landOne { e with transient := false }).vfileGet a).getLsbD i =
       if mask.getLsbD i then val.getLsbD i else (t.vfileGet a).getLsbD i) ∧
     (∀ b, physReg b ≠ physReg a ∨ b < t.lo → (t.landOne { e with transient := false }).vfileGet b = t.vfileGet b) ∧
     (∀ b, (t.landOne { e with transient := true }).vfileGet b = t.vfileGet b))

/-- A group's writes hold each active element at its place and leave the inactive ones alone: element `i` of width `w` goes to
bits (i × w) mod 256 of register `abs + i × w / 256` (03 R38, 10 R167, 08 R145). -/
def Obligations.GroupElements : Prop :=
  ∀ (t : Team) (abs g w i : Nat) (cs : List (Option Nat)),
    t.vectorsOk → w ∈ ([4, 8, 16, 32] : List Nat) → t.lo ≤ abs → g ≤ 8 → cs.length = g * (256 / w) → i < cs.length →
    let u := (groupWrites abs g w cs).foldl Team.landWrite t
    let at_ (t : Team) : Nat := ((t.vfileGet (abs + i * w / 256)).extractLsb' (i * w % 256) w).toNat
    at_ u = match cs.getD i none with
      | some c => c % 2 ^ w
      | none => at_ t

/-- The back-edge of the loop stack (11 R216): an instruction whose next pc is the top loop's END goes back to its START with
the count one higher while the bound is not reached; in the last trip the loop ends, and the next pc is tested against the loop
outside it. An instruction with any other next pc leaves the counters alone. -/
def Obligations.LoopBackEdge : Prop :=
  ∀ (t : Team) (k pc : Nat),
    (t.loops = [] → t.backEdge (k + 1) pc = (t, pc)) ∧
    (∀ n rest, t.loops = n :: rest →
      let c := t.loopOf n
      (pc ≠ c.stop → t.backEdge (k + 1) pc = (t, pc)) ∧
      (pc = c.stop → c.count.toNat + 1 < c.bound.toNat →
        t.backEdge (k + 1) pc = (t.setLoop n { c with count := c.count + 1 }, c.start)) ∧
      (pc = c.stop → c.bound.toNat ≤ c.count.toNat + 1 →
        t.backEdge (k + 1) pc = Team.backEdge { t.setLoop n { c with active := false } with loops := rest } k pc))

/-! ### Checks and traps -/

/-- Who may execute a Xosin long form (08 R138, 18 R304, 23 R382): in a team every class 15 form raises PRIVILEGE, and a form
outside the member's list, or one whose fields break check 4 of 08 R139, raises ILLEGAL_INSTR; on a privileged hart every class
but 15 is an illegal-instruction exception, and so is class 15 in U. -/
def Obligations.WhoMayExecute : Prop :=
  ∀ (i : Instr) (o : LF) (sh : Shape) (s : State), i.shape = some (o, sh) →
    (∀ w, s.focus = .member w →
      (sh.cls = 15 → exec i s = .next (s.trapped (trapOf .privilege))) ∧
      (sh.cls ≠ 15 → permitted sh.cls sh.op w = false ∨ sh.fieldsOk o = false →
        exec i s = .next (s.trapped (trapOf .illegalInstr)))) ∧
    (∀ h, s.focus = .hart h →
      (sh.cls ≠ 15 ∨ (s.hart h).mode = 0 ∨ sh.fieldsOk o = false →
        exec i s = .next (s.setHart h ((s.hart h).take 2 (lowWord i)))))

/-- A short form has exactly the effect, checks and traps of its long equivalent, and advances the pc by 4 (08 R141-R143): in a
member both end with one and the same effect, but for the length by which they move the pc. The short buffer accesses are so for
every offset that the long form reaches. -/
def Obligations.ShortForms : Prop :=
  ∀ (s : State) (w : Who) (rd rs1 rs2 : Reg) (imm : BitVec 11), s.focus = .member w →
    let o (sub : BitVec 6) := shortLF rd rs1 rs2 sub
    let buf (sub : BitVec 6) (rd rs1 : Reg) : LF := ⟨sub, 0, 0, 0, 0, imm, rs1.setWidth 11, rd.setWidth 11⟩
    let put (sub : BitVec 6) : LF := ⟨sub, 0, 0, 0, 0, rs2.setWidth 11, rs1.setWidth 11, imm⟩
    ∀ p ∈ ([
      (.acqShort rd rs1 rs2, .acq (o 0)), (.acqShShort rd rs1 rs2, .acq (o 1)), (.relShort rd rs1 rs2, .rel (o 0)),
      (.pmrdShort rd rs1 rs2, .pmrd (o 0)), (.pmwaitShort rd rs1 rs2, .pmwait (o 0)), (.phresShort rd rs1 rs2, .phres (o 0)),
      (.phpostShort rd rs1 rs2, .phpost (o 0)), (.phtakeShort rd rs1 rs2, .phtake (o 0)),
      (.phgiveShort rd rs1 rs2, .phgive (o 0)), (.phstatShort rd rs1 rs2, .phstat (o 0)), (.tqputShort rd rs1 rs2, .tqput (o 0)),
      (.tqgetShort rd rs1 rs2, .tqget (o 0)), (.tqgetPkShort rd rs1 rs2, .tqget (o 1)), (.vdistShort rd rs1 rs2, .vdist (o 0)),
      (.specqShort rd rs1 rs2, .specq (o 0)), (.kstatShort rd rs1 rs2, .kstat (o 0)), (.lcrdShort rd rs1 rs2, .lcrd (o 0)),
      (.lbrkShort rd rs1 rs2, .lbrk (o 0)), (.fmtselShort rd rs1 rs2, .fmtsel (o 0)), (.fmtgetShort rd rs1 rs2, .fmtget (o 0)),
      (.mgetShort rd rs1 rs2, .mget (o 0)), (.mpushShort rd rs1 rs2, .mpush (o 0)),
      (.wenterShort rd rs1 rs2, .wenter (shortWenterLF rd rs1 rs2)), (.nbcanShort rd rs1 rs2, .nbcan (o 0)),
      (.tabortShort rd rs1 rs2, .tabort (o 0)), (.scrubShort rd rs1 rs2, .scrub (o 0)), (.hadvShort rd rs1 rs2, .hadv (o 0)),
      (.tenqShort rd rs1 rs2, .tenq (o 0)), (.tendShort, .tend (shortLF 0 0 0 0)), (.tyieldShort, .tyield (shortLF 0 0 0 0)),
      (.minvShort, .minv (shortLF 0 0 0 0)), (.mpopShort, .mpop (shortLF 0 0 0 0)),
      (.wleaveShort, .wleave (shortLF 0 0 0 0)),
      (.bldBShort rd rs1 (imm.signExtend 12), .bld (buf 0 rd rs1)), (.bldHShort rd rs1 (imm.signExtend 12), .bld (buf 1 rd rs1)),
      (.bldWShort rd rs1 (imm.signExtend 12), .bld (buf 2 rd rs1)), (.bldDShort rd rs1 (imm.signExtend 12), .bld (buf 3 rd rs1)),
      (.bstBShort rs1 rs2 (imm.signExtend 12), .bst (put 0)), (.bstHShort rs1 rs2 (imm.signExtend 12), .bst (put 1)),
      (.bstWShort rs1 rs2 (imm.signExtend 12), .bst (put 2)), (.bstDShort rs1 rs2 (imm.signExtend 12), .bst (put 3))] : List (Instr × Instr)),
      ∃ e : Eff, exec p.1 s = e.finish 4 ∧ exec p.2 s = e.finish 8

/-- Taking a trap (18 R307, R308, 06 R107): with nothing of the task in flight, the task is FAULTED off its core, its FAULT
holds the cause, the member and the offset of the faulting instruction, and its team stands as it was saved: every register,
pending landing, loop, mask and scratchpad byte unchanged, each member at its instruction. A speculative task holds the trap
instead. While something is in flight the team only stops; a second trap of the same stop is not recorded. RESUME (02 R29, R30,
18 R313): the task is READY, and its members stand where they stopped, with every register; the member that stopped at an
`ebreak` stands past it. -/
def Obligations.TaskTraps : Prop :=
  (∀ (s : State) (w : Who) (tr : Trap), tr.cause ≠ .hang →
     let r : FaultRec := ⟨tr.cause.code, w, (s.member w).pc, tr.d1, tr.d2⟩
     let t := s.takeTrap w tr
     let saved (u : State) : Prop := u.cur.team = s.cur.team.setMember w { s.member w with wait := none }
     (∀ q, s.cur.stop = some (.trap q) → t = s) ∧
     (s.cur.stop = none → s.inFlight s.cur.id = true → t.cur.stop = some (.trap r) ∧ saved t) ∧
     (s.cur.stop = none → s.inFlight s.cur.id = false →
       saved t ∧ t.cur.core = none ∧ t.cur.stop = none ∧ t.cur.image = true ∧
       (s.cur.spec = false → t.cur.state = .faulted ∧ t.cur.fault = r) ∧
       (s.cur.spec = true → t.cur.held = some r ∧ t.cur.state = s.cur.state))) ∧
  (∀ (s : State) (w : Who),
     let t := s.resumeTask
     t.cur.state = .ready ∧ (t.member w).x = (s.member w).x ∧ t.cur.team.landings = s.cur.team.landings ∧
     t.cur.team.vfile = s.cur.team.vfile ∧ t.cur.team.masks = s.cur.team.masks ∧ t.cur.team.scratch = s.cur.team.scratch ∧
     (t.member w).pc = (s.member w).pc +
       (if s.cur.state = .faulted ∧ s.cur.fault.cause = 0x000C ∧ s.cur.fault.who = w then 4 else 0))

/-- An exception of a privileged hart (18 R304, by the Privileged ISA, which is the model's reading, log entry 13): below M and
delegated it goes to S, else to M; the cause, the pc and tval are saved, the interrupt enable is stacked and cleared, the old
mode is kept in SPP or MPP, every other bit of mstatus is unchanged, and the pc is the vector's base. The returns of a
privileged hart (18 R304, by the Privileged ISA, log entry 13): `mret` from M and `sret` from S or M restore the saved mode,
enable and pc; anywhere else they are illegal-instruction exceptions. -/
def Obligations.HartTraps : Prop :=
  (∀ (v : Hart) (code : Nat) (tval : Word),
     let t := v.take code tval
     (v.mode ≠ 3 → v.medeleg.getLsbD code = true →
       t.mode = 1 ∧ t.scause = BitVec.ofNat 64 code ∧ t.sepc = v.pc ∧ t.stval = tval ∧ t.pc = v.stvec &&& ~~~3#64 ∧
       t.mstatus.getLsbD 5 = v.mstatus.getLsbD 1 ∧ t.mstatus.getLsbD 1 = false ∧ t.mstatus.getLsbD 8 = decide (v.mode ≠ 0) ∧
       (∀ i, i ≠ 1 → i ≠ 5 → i ≠ 8 → t.mstatus.getLsbD i = v.mstatus.getLsbD i) ∧
       t.mcause = v.mcause ∧ t.mepc = v.mepc ∧ t.mtval = v.mtval ∧ t.x = v.x) ∧
     (v.mode = 3 ∨ v.medeleg.getLsbD code = false →
       t.mode = 3 ∧ t.mcause = BitVec.ofNat 64 code ∧ t.mepc = v.pc ∧ t.mtval = tval ∧ t.pc = v.mtvec &&& ~~~3#64 ∧
       t.mstatus.getLsbD 7 = v.mstatus.getLsbD 3 ∧ t.mstatus.getLsbD 3 = false ∧ t.mstatus.extractLsb' 11 2 = v.mode ∧
       (∀ i, i ≠ 3 → i ≠ 7 → i ≠ 11 → i ≠ 12 → t.mstatus.getLsbD i = v.mstatus.getLsbD i) ∧
       t.scause = v.scause ∧ t.sepc = v.sepc ∧ t.stval = v.stval ∧ t.x = v.x)) ∧
  (∀ (s : State) (h : Fin 16) (tval : Word), s.focus = .hart h →
     let v := s.hart h
     (v.mode = 3 → s.hartExec h tval .mret = .ends (s.setHart h v.retired.mret)) ∧
     (v.mode ≠ 3 → s.hartExec h tval .mret = .trap { cause := .hart 2, d1 := tval } s) ∧
     (v.mode = 3 ∨ (v.mode = 1 ∧ v.mstatus.getLsbD 22 = false) → s.hartExec h tval .sret = .ends (s.setHart h v.retired.sret)) ∧
     (v.mode = 0 → s.hartExec h tval .sret = .trap { cause := .hart 2, d1 := tval } s) ∧
     v.mret.pc = v.mepc ∧ v.mret.mode = v.mstatus.extractLsb' 11 2 ∧ v.mret.mstatus.getLsbD 3 = v.mstatus.getLsbD 7 ∧
     v.mret.mstatus.getLsbD 7 = true ∧ v.mret.mstatus.extractLsb' 11 2 = 0#2 ∧
     v.sret.pc = v.sepc ∧ v.sret.mode = (if v.mstatus.getLsbD 8 then 1 else 0) ∧
     v.sret.mstatus.getLsbD 1 = v.mstatus.getLsbD 5 ∧ v.sret.mstatus.getLsbD 5 = true ∧ v.sret.mstatus.getLsbD 8 = false)

/-- The frame of a store (09 R157, 04 R68, 18 R304): writing bytes into a scratchpad changes those bytes and no other byte of
local space, no package memory and no register; a member's scalar store at its address, and a hart's store at its own, leave
every other byte of memory and every register as they were: for the hart's, as they were once the writes in flight to its line were
done, where its block's counters do not overflow (22 R373, 24 R401). That a hart's addresses are physical and its accesses go through the
device key is the model's reading (log entries 13 and 77). -/
def Obligations.StoreFrame : Prop :=
  (∀ (s : State) (a : Nat) (bs : List Byte), Memory.wf s.cur.team.scratch = true → Memory.wf s.clus = true →
    let t := s.setLocalBytes a bs
    (∀ b, b < a ∨ a + bs.length ≤ b → t.localByte b = s.localByte b) ∧
    (∀ k, k < bs.length → t.localByte (a + k) = bs.getD k 0) ∧
    t.mem = s.mem ∧ t.harts = s.harts ∧ t.tasks = s.tasks ∧ t.cur.team = { s.cur.team with scratch := t.cur.team.scratch }) ∧
  (∀ (s t : State) (rs1 rs2 : Reg) (imm : BitVec 12), s.cur.stepping = none → s.ready →
    ∀ p ∈ ([(.sb rs1 rs2 imm, 1), (.sh rs1 rs2 imm, 2), (.sw rs1 rs2 imm, 4), (.sd rs1 rs2 imm, 8)] : List (Instr × Nat)),
      exec p.1 s = .next t →
      (∀ w (a : Nat), s.focus = .member w → (s.x rs1).toNat + imm.toInt = (a : Int) → a % p.2 = 0 → s.inScratch a p.2 = true →
        s.localHazard w a p.2 true = false →
        (∀ b, b < a ∨ a + p.2 ≤ b → t.localByte b = s.localByte b) ∧ t.mem = s.mem ∧ ∀ r, t.x r = s.x r) ∧
      (∀ h, s.focus = .hart h →
        let a := (s.x rs1 + imm.signExtend 64).toNat
        let u := s.settle a
        a % p.2 = 0 → (u.block a).dead = true ∨ Sparse.get 0 (u.block a).minors (a / 64 % 64) ≠ 127 →
        (∀ b, b < a ∨ a + p.2 ≤ b → Sparse.get 0 t.mem b = Sparse.get 0 u.mem b) ∧ t.clus = s.clus ∧ ∀ r, t.x r = s.x r))

/-! ### Vector instructions (10) -/

/-- Floating-point arithmetic (10 R170, R172, 03 R48-R51): each element of the result is the exact sum, difference, product or
fused sum of the elements of A, B and, for `vfma`, D, rounded once under the mode in force with IEEE overflow; a NaN created
from operands that are none sets NV; it lands 5 issue cycles later on the active elements of D. -/
def Obligations.VectorFloat : Prop :=
  ∀ (o : LF) (s : State),
    let t := s.cur.team
    let r := t.res o
    let g := groupRegs o
    let w := fmtWidth r.fmt
    let n := elems g w
    let el (base : BitVec 11) (i : Nat) : Val := decodeElem r.fmt (elemAt (t.group base.toNat g) w i)
    let down := r.rm == 2
    let dr := t.drawn r.rm n
    ∀ p ∈ ([
      (.vadd o, shapeVadd o, fun i => (el o.a i).add down (el o.b i)),
      (.vsub o, shapeVsub o, fun i => (el o.a i).add down (el o.b i).flip),
      (.vmul o, shapeVmul o, fun i => (el o.a i).mul (el o.b i)),
      (.vfma o, shapeVfma o, fun i => Val.fma down (el o.a i) (el o.b i) (el o.d i))] : List (Instr × Shape × (Nat → Val × Bool))),
      s.issues .seq o p.2.1 (ewPlan o w 5 true true) →
      exec p.1 s = .next ((s.withElems dr.2 o w g 5 ((List.range n).map fun i =>
        let v := p.2.2 i
        let e := roundElem r.fmt r.rm true (dr.1.getD i 0) v.1
        (e.1, if v.2 then e.2 ||| fNV else e.2))).completed 8)

/-- Minimum, maximum, sign operations and classification (10 R173, R174, R176): no element sets a flag; a NaN loses to a number,
−0 is below +0; `vsgn` takes A with B's sign, its opposite, the exclusive or of both, or none. `vmin` and `vmax` of two codes
(10 R173): the number when the other is NaN, and otherwise one of the operands that none is below, or above, with −0 below +0.
`vcmp` (10 R175): bit i of x[D] is set for each active element i whose comparison holds; a NaN makes only "not equal" true, and
raises NV in "less than" and "less than or equal" where its element is active. -/
def Obligations.SelectAndCompare : Prop :=
  (∀ (o : LF) (s : State),
     let t := s.cur.team
     let r := t.res o
     let g := groupRegs o
     let w := fmtWidth r.fmt
     let n := elems g w
     let a (i : Nat) : Nat := elemAt (t.group o.a.toNat g) w i
     let b (i : Nat) : Nat := elemAt (t.group o.b.toNat g) w i
     let top := 2 ^ (w - 1)
     let sign (i : Nat) : Nat :=
       if o.sub2 = 0 then b i / top % 2 else if o.sub2 = 1 then 1 - b i / top % 2
       else if o.sub2 = 2 then (a i / top % 2 + b i / top % 2) % 2 else 0
     ∀ p ∈ ([
       (.vmin o, shapeVmin o, ewPlan o w 5 true true, 5, fun i => minmaxCode r.fmt false (a i) (b i)),
       (.vmax o, shapeVmax o, ewPlan o w 5 true true, 5, fun i => minmaxCode r.fmt true (a i) (b i)),
       (.vsgn o, shapeVsgn o, ewPlan o w 3 true (o.sub2 != 3), 3, fun i => a i % top + sign i * top),
       (.vclass o, shapeVclass o, ewPlan o w 3 true false, 3, fun i => classCode r.fmt (a i))] :
         List (Instr × Shape × Plan × Nat × (Nat → Nat))),
       s.issues .seq o p.2.1 p.2.2.1 →
       exec p.1 s = .next ((s.withElems t o w g p.2.2.2.1 ((List.range n).map fun i => (p.2.2.2.2 i, 0))).completed 8)) ∧
  (∀ (f a b : Nat),
     let x := decodeElem f a
     let y := decodeElem f b
     (x = .nan → y ≠ .nan → minmaxCode f false a b = b ∧ minmaxCode f true a b = b) ∧
     (x ≠ .nan → y = .nan → minmaxCode f false a b = a ∧ minmaxCode f true a b = a) ∧
     (x ≠ .nan → y ≠ .nan → minmaxCode f false a b = (if y.below x then b else a) ∧
       minmaxCode f true a b = (if x.below y then b else a)) ∧
     (Val.num true 0 0).below (.num false 0 0) = true ∧ (Val.num false 0 0).below (.num true 0 0) = false) ∧
  (∀ (o : LF) (s : State),
     let t := s.cur.team
     let r := t.res o
     let g := groupRegs o
     let w := fmtWidth r.fmt
     let n := elems g w
     let a (i : Nat) : Val := decodeElem r.fmt (elemAt (t.group o.a.toNat g) w i)
     let b (i : Nat) : Val := decodeElem r.fmt (elemAt (t.group o.b.toNat g) w i)
     let nan (i : Nat) : Bool := a i == .nan || b i == .nan
     let holds (i : Nat) : Bool :=
       if nan i then o.sub2 == 3
       else if o.sub2 = 0 then (a i).cmp (b i) == 0 else if o.sub2 = 1 then (a i).cmp (b i) < 0
       else if o.sub2 = 2 then (a i).cmp (b i) ≤ 0 else (a i).cmp (b i) != 0
     s.issues .seq o (shapeVcmp o) { ga := g, gb := g, ok4 := o.m == 0 || elems g w ≤ 64 } →
     ∃ bits : Word,
       (∀ i, i < 64 → bits.getLsbD i = (decide (i < n) && t.active o.m i && holds i)) ∧
       exec (.vcmp o) s = .next (((s.setTeam (t.raise
         (if (List.range n).any (fun i => t.active o.m i && nan i) && (o.sub2 == 1 || o.sub2 == 2) then fNV else 0))).setX
           (fieldReg o.d) bits).completed 8))

/-- Integer arithmetic (10 R178): the exact sum, difference, product, high half or product-sum of elements read as UNS says,
bounded to the range with SAT, which sets the SAT flag where it bounds; otherwise its low bits. It lands in 3 cycles. Logic,
integer minimum and maximum, and select (10 R179, R180): each lands in 3 cycles and sets no flag; `vsel` takes A where the
mask's top bit is set and B elsewhere. -/
def Obligations.IntegerAndLogic : Prop :=
  (∀ (o : LF) (s : State),
     let t := s.cur.team
     let r := t.res o
     let g := groupRegs o
     let w := intWidth r.fmt
     let n := elems g w
     let el (base : BitVec 11) (i : Nat) : Int :=
       let c : Int := elemAt (t.group base.toNat g) w i
       if o.uns then c % 2 ^ w else if c % 2 ^ w < 2 ^ (w - 1) then c % 2 ^ w else c % 2 ^ w - 2 ^ w
     let lo : Int := if o.uns then 0 else -(2 ^ (w - 1))
     let hi : Int := if o.uns then 2 ^ w - 1 else 2 ^ (w - 1) - 1
     let code (e : Int) : Nat := (e % 2 ^ w).toNat
     let res (e : Int) : Elt :=
       if o.sat && e < lo then (code lo, fSAT) else if o.sat && hi < e then (code hi, fSAT) else (code e, 0)
     ∀ p ∈ ([
       (.viadd o, shapeViadd o, fun i => el o.a i + el o.b i),
       (.visub o, shapeVisub o, fun i => el o.a i - el o.b i),
       (.vimul o, shapeVimul o, fun i => el o.a i * el o.b i),
       (.vimulh o, shapeVimulh o, fun i => el o.a i * el o.b i / 2 ^ w),
       (.vimad o, shapeVimad o, fun i => el o.a i * el o.b i + el o.d i)] : List (Instr × Shape × (Nat → Int))),
       s.issues .seq o p.2.1 (ewPlan o w 3 true true) →
       exec p.1 s = .next ((s.withElems t o w g 3 ((List.range n).map fun i => res (p.2.2 i))).completed 8)) ∧
  (∀ (o : LF) (s : State),
     let t := s.cur.team
     let r := t.res o
     let g := groupRegs o
     let w := intWidth r.fmt
     let n := elems g w
     let a (i : Nat) : Nat := elemAt (t.group o.a.toNat g) w i
     let b (i : Nat) : Nat := elemAt (t.group o.b.toNat g) w i
     let v (c : Nat) : Int := asInt w o.uns c
     ∀ p ∈ ([
       (.vand o, shapeVand o, ewPlan o w 3 true true, fun i => a i &&& b i),
       (.vor o, shapeVor o, ewPlan o w 3 true true, fun i => a i ||| b i),
       (.vxor o, shapeVxor o, ewPlan o w 3 true true, fun i => a i ^^^ b i),
       (.viminmax o, shapeViminmax o, ewPlan o w 3 true true, fun i =>
         if o.sub4 = 1 then (if v (a i) < v (b i) then b i else a i) else if v (b i) < v (a i) then b i else a i),
       (.vsel o, shapeVsel o, { ewPlan o w 3 true true with ok4 := elems g w ≤ 64 }, fun i =>
         if (t.masks.headD 0).getLsbD i then a i else b i)] : List (Instr × Shape × Plan × (Nat → Nat))),
       s.issues .seq o p.2.1 p.2.2.1 →
       exec p.1 s = .next ((s.withElems t o w g 3 ((List.range n).map fun i => (p.2.2.2 i, 0))).completed 8))

/-- Shifts (10 R179), by B's element or its immediate below the width: `vshl` gives the low bits, and with SAT the bound it
passes and the SAT flag; `vshr` shifts in zeros when unsigned and the sign otherwise; a shift by the width or more gives 0, or
the sign. Shifts of one element as arithmetic (10 R179): a left shift multiplies, wrapping or bounded, a right one divides
rounding down. -/
def Obligations.Shifts : Prop :=
  (∀ (o : LF) (s : State),
     let t := s.cur.team
     let r := t.res o
     let g := groupRegs o
     let w := intWidth r.fmt
     let n := elems g w
     let a (i : Nat) : Nat := elemAt (t.group o.a.toNat g) w i
     let k (i : Nat) : Nat := if o.sub4 = 1 then o.b.toNat else elemAt (t.group o.b.toNat g) w i
     ∀ p ∈ ([
       (.vshl o, shapeVshl o, fun i => shlElem w o.uns o.sat (a i) (k i)),
       (.vshr o, shapeVshr o, fun i => shrElem w o.uns (a i) (k i))] : List (Instr × Shape × (Nat → Elt))),
       s.issues .seq o p.2.1 { ewPlan o w 3 true (o.sub4 != 1) with ok5 := o.sub4 != 1 || o.b.toNat < w } →
       exec p.1 s = .next ((s.withElems t o w g 3 ((List.range n).map fun i => p.2.2 i)).completed 8)) ∧
  (∀ (w a k : Nat) (uns sat : Bool), w ∈ ([4, 8, 16, 32] : List Nat) → a < 2 ^ w →
     let v := asInt w uns a
     let exact := v * 2 ^ k
     asInt w uns (shrElem w uns a k).1 = v / 2 ^ k ∧ (shrElem w uns a k).2 = 0 ∧
     (sat = false → (shlElem w uns sat a k).1 = (exact % 2 ^ w).toNat ∧ (shlElem w uns sat a k).2 = 0) ∧
     (sat = true →
       (intLo w uns ≤ exact → exact ≤ intHi w uns → asInt w uns (shlElem w uns sat a k).1 = exact ∧ (shlElem w uns sat a k).2 = 0) ∧
       (exact < intLo w uns → asInt w uns (shlElem w uns sat a k).1 = intLo w uns ∧ (shlElem w uns sat a k).2 = fSAT) ∧
       (intHi w uns < exact → asInt w uns (shlElem w uns sat a k).1 = intHi w uns ∧ (shlElem w uns sat a k).2 = fSAT)))

/-- Conversions to an element format, and the LN6 forms (10 R182, R185, R186, 03 R43, R48-R50): each element of the source, as
its exact value, is rounded once to the destination under the mode and overflow rule in force; `vlnmul` multiplies codes in the
log domain; `vlnlin` gives the value of an LN6 code times two to the immediate. They land in 4 cycles. Conversions to nested
blocks, and packing (10 R182, R184, 03 R45, R46): sixteen values form a block with its scales; between equal nested formats the
blocks are kept, a NaN block in the form of 03 R46, with no flag (the model's choice, log entry 18); `vpack` and `vunpack` change the layout and no code. They land in 4 cycles on whole registers.
The product of two LN6 codes (03 R43): a zero gives a zero of the product's sign with no flag; otherwise the index is L1 + L2 −
16, above 31 it is 31 with OF and NX, below 1 a zero with UF and NX. -/
def Obligations.Conversions : Prop :=
  (∀ (o : LF) (s : State),
     let t := s.cur.team
     let r := t.res o
     let g := groupRegs o
     let wd := fmtWidth r.fmt
     let p := vcvtPlan o r
     let src := o.b.toNat
     let n := elems p.gd wd
     let dr := t.drawn r.rm n
     (isNb r.fmt = false → s.issues .seq o (shapeVcvt o) p →
       let vs := cvtSource src (srcInt o) (t.group o.a.toNat p.ga) n
       exec (.vcvt o) s = .next ((s.withElems dr.2 o wd p.gd 4 ((List.range n).map fun i =>
         cvtRound r.fmt (dstInt o) r (dr.1.getD i 0) (vs.getD i vZero))).completed 8)) ∧
     (s.issues .seq o (shapeVlnmul o) (ewPlan o 8 4 true true) →
       let a (i : Nat) : Nat := elemAt (t.group o.a.toNat g) 8 i % 64
       let b (i : Nat) : Nat := elemAt (t.group o.b.toNat g) 8 i % 64
       exec (.vlnmul o) s = .next ((s.withElems t o 8 g 4 ((List.range (elems g 8)).map fun i => ln6Mul (a i) (b i))).completed 8)) ∧
     (s.issues .seq o (shapeVlnlin o) (cvtPlan o 8 wd true (-128 ≤ o.b.toInt && o.b.toInt ≤ 127)) →
       let m := elems g wd
       let a (i : Nat) : Nat := elemAt (t.group o.a.toNat (narrowRegs g 8 wd)) 8 i % 64
       let dl := t.drawn r.rm m
       exec (.vlnlin o) s = .next ((s.withElems dl.2 o wd g 4 ((List.range m).map fun i =>
         roundElem r.fmt r.rm r.ovf (dl.1.getD i 0) ((ln6Decode (a i)).scale o.b.toInt))).completed 8))) ∧
  (∀ (o : LF) (s : State),
     let t := s.cur.team
     let r := t.res o
     let g := groupRegs o
     let p := vcvtPlan o r
     let src := o.b.toNat
     let n := elems p.gd (fmtWidth r.fmt)
     let dr := t.drawn r.rm n
     let regs := t.group o.a.toNat p.ga
     (isNb r.fmt = true → s.issues .seq o (shapeVcvt o) p →
       (src ≠ r.fmt →
         let bs := blocksOf r dr.1 (cvtSource src (srcInt o) regs n)
         exec (.vcvt o) s =
           .next ((s.withRegs dr.2 o 4 (nbRegs r.fmt (bs.map (·.1))) (blocksFlags bs)).completed 8)) ∧
       (src = r.fmt →
         exec (.vcvt o) s =
           .next ((s.withRegs dr.2 o 4 (regs.map fun v => nbToReg r.fmt ((nbOfReg r.fmt v).map NBlock.canon)) 0).completed 8))) ∧
     (∀ q ∈ ([(.vpack o, shapeVpack o, packGroup), (.vunpack o, shapeVunpack o, unpackGroup)] :
         List (Instr × Shape × (Nat → Nat → List V256 → List V256))),
       s.issues .seq o q.2.1 { gd := g, ga := g, dest := true, lat := 4, entry := true } →
       exec q.1 s = .next ((s.withRegs t o 4 (q.2.2 r.fmt g (t.group o.a.toNat g)) 0).completed 8))) ∧
  (∀ (a b : Nat), a < 64 → b < 64 →
     let sg := (a / 32 + b / 32) % 2 * 32
     let x := a % 32 + b % 32
     (a % 32 = 0 ∨ b % 32 = 0 → ln6Mul a b = (sg, 0)) ∧
     (a % 32 ≠ 0 → b % 32 ≠ 0 →
       (x ≤ 16 → ln6Mul a b = (sg, fUF ||| fNX)) ∧
       (17 ≤ x → x ≤ 47 → ln6Mul a b = (sg + (x - 16), 0)) ∧
       (48 ≤ x → ln6Mul a b = (sg + 31, fOF ||| fNX))))

/-- The special functions (10 R188): each active element of A goes through the function, rounded once, and lands in 10 cycles.
The corners are the spec's; `vrcp` and `vrsqrt` round a truncated quotient or root with a sticky part that says whether anything was
cut off; `vexp2` of an integer and `vlog2` of a power of two are exact, and their other values are computed to 192 bits (log entry 12).
Reductions (10 R187, R189, R190): the sum of A's active elements, exact and rounded once, or their largest, lands 7 cycles later
as an FP32 code in element 0 of one register, the others +0; a NaN, both infinities, one infinity and no element give the sums and the
maximum that 10 R189 and R190 name. -/
def Obligations.SpecialAndReductions : Prop :=
  (∀ (o : LF) (s : State),
     let t := s.cur.team
     let r := t.res o
     let g := groupRegs o
     let w := fmtWidth r.fmt
     let n := elems g w
     let dr := t.drawn r.rm n
     let a (i : Nat) : Val := decodeElem r.fmt (elemAt (t.group o.a.toNat g) w i)
     let code (v : Val) : Nat := (roundElem r.fmt 0 true 0 v).1
     (∀ p ∈ ([(.vexp2 o, shapeVexp2 o, 0), (.vlog2 o, shapeVlog2 o, 1), (.vrcp o, shapeVrcp o, 2),
         (.vrsqrt o, shapeVrsqrt o, 3)] : List (Instr × Shape × Nat)),
       s.issues .seq o p.2.1 (ewPlan o w 10 true false) →
       exec p.1 s = .next ((s.withElems dr.2 o w g 10 ((List.range n).map fun i =>
         special p.2.2 r (dr.1.getD i 0) (a i))).completed 8)) ∧
     (∀ d, special 0 r d (.inf true) = (code vZero, 0) ∧ special 0 r d (.inf false) = (code (.inf false), 0) ∧
       special 1 r d (.inf true) = (code .nan, fNV) ∧ special 1 r d (.inf false) = (code (.inf false), 0) ∧
       special 2 r d (.inf true) = (code (.num true 0 0), 0) ∧ special 2 r d (.inf false) = (code (.num false 0 0), 0) ∧
       special 3 r d (.inf true) = (code .nan, fNV) ∧ special 3 r d (.inf false) = (code vZero, 0) ∧
       (∀ k, special k r d .nan = (code .nan, 0)) ∧
       (∀ n, special 0 r d (.num n 0 0) = (code (.num false 1 0), 0) ∧ special 1 r d (.num n 0 0) = (code (.inf true), fDZ) ∧
         special 2 r d (.num n 0 0) = (code (.inf n), fDZ) ∧ special 3 r d (.num n 0 0) = (code (.inf n), 0)) ∧
       (∀ m e, m ≠ 0 → special 1 r d (.num true m e) = (code .nan, fNV) ∧ special 3 r d (.num true m e) = (code .nan, fNV)) ∧
       (∀ n m (e : Nat), m ≠ 0 → m * 2 ^ e < 4096 →
         special 0 r d (.num n m e) = (ffmt r.fmt).roundNum r.rm true d false 1 (if n then -(m * 2 ^ e : Nat) else (m * 2 ^ e : Nat)) false) ∧
       (∀ (k : Nat) (e : Int),
         special 1 r d (.num false (2 ^ k) e) = (ffmt r.fmt).roundNum r.rm true d (k + e < 0) (k + e).natAbs 0 false) ∧
       (∀ n m e, m ≠ 0 → ∃ q k : Nat,
         special 2 r d (.num n m e) = (ffmt r.fmt).roundNum r.rm true d n q (-e - k) (q * m != 2 ^ k) ∧
         q * m ≤ 2 ^ k ∧ 2 ^ k < (q + 1) * m) ∧
       (∀ m e, m ≠ 0 → ∃ q k b : Nat,
         special 3 r d (.num false m (2 * e + b)) = (ffmt r.fmt).roundNum r.rm true d false q (-e - k) (q * q * (2 ^ b * m) != 2 ^ (2 * k)) ∧
         b < 2 ∧ q * q * (2 ^ b * m) ≤ 2 ^ (2 * k) ∧ 2 ^ (2 * k) < (q + 1) * (q + 1) * (2 ^ b * m)))) ∧
  (∀ (o : LF) (s : State),
     let t := s.cur.team
     let r := t.res o
     let vs := activeVals t o r
     let dr := t.drawn r.rm 8
     (s.issues .seq o (shapeVsum o) (sumPlan o r) →
       let x := sumVal (r.rm == 2) vs
       let e := fp32.round r.rm true (dr.1.getD 0 0) x.1
       exec (.vsum o) s =
         .next ((s.withRegs dr.2 o 7 [BitVec.ofNat 256 e.1] (if x.2 then e.2 ||| fNV else e.2)).completed 8)) ∧
     (s.issues .seq o (shapeVrmax o) (sumPlan o r) →
       ∃ m : Val, exec (.vrmax o) s = .next ((s.withRegs t o 7 [BitVec.ofNat 256 (fp32.round 0 true 0 m).1] 0).completed 8) ∧
         (vs = [] → m = .inf true) ∧ (vs ≠ [] → (∀ v ∈ vs, v = .nan) → m = .nan) ∧
         ((∃ v ∈ vs, v ≠ .nan) → m ∈ vs ∧ m ≠ .nan ∧ ∀ v ∈ vs, v ≠ .nan → m.below v = false))) ∧
  (∀ (down : Bool) (vs : List Val),
     (.nan ∈ vs → sumVal down vs = (.nan, false)) ∧
     (.nan ∉ vs → .inf false ∈ vs → .inf true ∈ vs → sumVal down vs = (.nan, true)) ∧
     (∀ n, .nan ∉ vs → .inf n ∈ vs → .inf (!n) ∉ vs → sumVal down vs = (.inf n, false)) ∧
     ((∀ v ∈ vs, ∃ n m e, v = .num n m e) →
       (sumVal down vs).2 = false ∧
       ((vs.foldl (fun a v => (a.add false v).1) vZero).isZero = false →
         (sumVal down vs).1 = vs.foldl (fun a v => (a.add false v).1) vZero) ∧
       ((vs.foldl (fun a v => (a.add false v).1) vZero).isZero = true →
         (sumVal down vs).1 = .num ((vs ≠ [] ∧ ∀ v ∈ vs, v.isZero = true ∧ v.neg = true) ∨
           (down = true ∧ ∃ v ∈ vs, v.isZero = false)) 0 0)))

/-- Permutes and moves (10 R192, R193): `vperm` takes the element of A that B's element names, 0 beyond the group; `vslide`
shifts elements by the immediate and fills with zeros; `vmov` copies A, or its sign-extended immediate to every element;
`vbcast` puts one element, or x[A], in every element. They land in 3 cycles and set no flag. Moves between an element and a
scalar register (10 R194): `vmvx` gives element B of A, zero- or sign-extended as SUB says; `vins` lands x[A] on element B of D
in 3 cycles and on no other. -/
def Obligations.Moves : Prop :=
  (∀ (o : LF) (s : State),
     let t := s.cur.team
     let r := t.res o
     let g := groupRegs o
     let w := fmtWidth r.fmt
     let n := elems g w
     let a (i : Nat) : Nat := if i < n then elemAt (t.group o.a.toNat g) w i else 0
     let b (i : Nat) : Nat := elemAt (t.group o.b.toNat g) w i
     let k := o.b.toNat
     ∀ p ∈ ([
       (.vperm o, shapeVperm o, ewPlan o w 3 true true, fun i => a (b i)),
       (.vslide o, shapeVslide o, { ewPlan o w 3 true false with ok5 := o.b.toNat ≤ elems g w }, fun i =>
         if o.sub = 1 then (if i < k then 0 else a (i - k)) else a (i + k)),
       (.vmov o, shapeVmov o, ewPlan o w 3 (o.sub != 1) false, fun i =>
         if o.sub = 1 then (o.b.toInt % 2 ^ w).toNat else a i),
       (.vbcast o, shapeVbcast o, { ewPlan o w 3 false false with ga := if o.sub = 1 then 0 else 1,
                                                                  ok5 := o.sub == 1 || o.b.toNat < elems 1 w }, fun _ =>
         if o.sub = 1 then (s.x (fieldReg o.a)).toNat % 2 ^ w else elemAt (t.group o.a.toNat 1) w k)] :
         List (Instr × Shape × Plan × (Nat → Nat))),
       s.issues .seq o p.2.1 p.2.2.1 →
       exec p.1 s = .next ((s.withElems t o w g 3 ((List.range n).map fun i => (p.2.2.2 i, 0))).completed 8)) ∧
  (∀ (o : LF) (s : State),
     let t := s.cur.team
     let r := t.res o
     let g := groupRegs o
     let w := fmtWidth r.fmt
     let n := elems g w
     let c := elemAt (t.group o.a.toNat g) w o.b.toNat
     (s.issues .seq o (shapeVmvx o) { ga := g, ok5 := o.b.toNat < n } →
       exec (.vmvx o) s = .next ((s.setX (fieldReg o.d) (BitVec.ofInt 64 (asInt w (o.sub == 0) c))).completed 8)) ∧
     (s.issues .seq o (shapeVins o) { ewPlan o w 3 false false with ok5 := o.b.toNat < n } →
       exec (.vins o) s = .next ((s.setTeam (t.land (groupWrites (t.wb + o.d.toNat) g w ((List.range n).map fun i =>
         if i = o.b.toNat then some (s.x (fieldReg o.a)).toNat else none)) 0 3 o)).completed 8)))

/-- Vector loads and stores in local space (10 R195-R197): with every active element's bytes in the scratchpad selected, aligned
and readable, a load lands them in 6 cycles from the core's scratchpad and in 18 from the cluster's, what is in error and can be
rebuilt being rewritten (04 R72), and a store writes the active elements in their order; otherwise the first failing check traps. A
load of a line that cannot be read raises LOCAL_UE, after a record about its address: with x[A] plus the immediate and the 32G bytes of
the access where it is `vld`, and with the element's address and bytes where it is `vgath` (04 R72, 18 R312). The addresses of a unit-stride access (10 R196):
element 0 stands at x[A] plus the immediate, formed exactly, in 32 bits and a multiple of the element's bytes; the i-th stands i
× w / 8 bytes further; every byte of each active element lies in the scratchpad selected. -/
def Obligations.VectorMemory : Prop :=
  (∀ (o : LF) (s : State),
     let t := s.cur.team
     let r := t.res o
     let g := groupRegs o
     let w := fmtWidth r.fmt
     let n := elems g w
     let cl := o.sub == 1
     let lat := if o.sub = 1 then 18 else 6
     let few := o.m == 0 || n ≤ 64
     let offs := g * 32 / w
     let code (i : Nat) : Nat := elemAt (t.group o.d.toNat g) w i
     (∀ p ∈ ([
       (.vld o, shapeVld o, { gd := g, dest := true, ok4 := few, lat := lat, entry := true }, s.unitAddrs o w n cl),
       (.vgath o, shapeVgath o, { gd := g, ga := offs, dest := true, ok4 := few && offs ≤ 8, lat := lat,
                                  entry := true }, s.offsetAddrs o w n cl)] :
         List (Instr × Shape × Plan × Except Trap (List (Nat × Nat)))),
       s.issues .seq o p.2.1 p.2.2.1 →
       (∀ as, p.2.2.2 = .ok as → s.unreadable as = none →
         exec p.1 s = .next (((s.readElts w as).setTeam (t.land (groupWrites (t.wb + o.d.toNat) g w ((List.range n).map fun i =>
           (as.find? fun ia => ia.1 == i).map fun ia => s.eltLoad ia.2 w i)) 0 lat o)).completed 8)) ∧
       (∀ tr, p.2.2.2 = .error tr → exec p.1 s = .next (s.trapped tr)) ∧
       (∀ as a, p.2.2.2 = .ok as → s.unreadable as = some a →
         let ue (at_ : Word) (len : Nat) : Trap := { cause := .localUe, d1 := at_, d2 := BitVec.ofNat 64 len }
         (p.1 = .vld o →
           exec p.1 s = .next ((s.postLocalUe a).trapped (ue (s.x (fieldReg o.a) + o.b.signExtend 64) (32 * g)))) ∧
         (p.1 = .vgath o → exec p.1 s = .next ((s.postLocalUe a).trapped (ue (BitVec.ofNat 64 a) (max 1 (w / 8))))))) ∧
     (∀ p ∈ ([
       (.vst o, shapeVst o, { gd := g, ok4 := few }, s.unitAddrs o w n cl),
       (.vscat o, shapeVscat o, { gd := g, ga := offs, ok4 := few && offs ≤ 8 }, s.offsetAddrs o w n cl)] :
         List (Instr × Shape × Plan × Except Trap (List (Nat × Nat)))),
       s.issues .seq o p.2.1 p.2.2.1 →
       (∀ as, p.2.2.2 = .ok as →
         exec p.1 s = .next ((as.foldl (fun (u : State) ia => u.eltStore ia.2 w ia.1 (code ia.1)) s).completed 8)) ∧
       (∀ tr, p.2.2.2 = .error tr → exec p.1 s = .next (s.trapped tr)))) ∧
  (∀ (o : LF) (s : State) (w n a : Nat) (cl : Bool),
     (s.x (fieldReg o.a)).toNat + o.b.toInt = (a : Int) → a < 4294967296 → a % max 1 (w / 8) = 0 →
     (∀ i, i < n → s.cur.team.active o.m i = true → s.inSpace cl (a + i * w / 8) (max 1 (w / 8)) = true) →
     s.unitAddrs o w n cl = .ok (((List.range n).filter fun i => s.cur.team.active o.m i).map fun i => (i, a + i * w / 8)))

/-- The mask stack (04 R67, 10 R198): `mpush` pushes x[A] and the top, at depth 16 MASK_OVERFLOW; `minv` replaces the top by the
parent's bits outside it, and `mpop` pops, at depth 1 MASK_UNDERFLOW; `mget` reads the top; `bmz` branches by 4 times its
immediate when the top is 0. The register window (04 R65, R66): `wenter` links the caller's frame and moves the base up so that
its top 32 registers are the callee's first; `wleave` undoes it. Only a span beyond 4,096 registers moves registers to the spill
area. WIN_SPILL_OVERFLOW at link depth 64 and where the spill area is too small, WIN_UNDERFLOW at depth 0. -/
def Obligations.MasksAndWindow : Prop :=
  (∀ (o : LF) (s : State) (top : Word) (rest : List Word),
     let t := s.cur.team
     t.masks = top :: rest →
     (∀ i k, spells .mpush .mpushShort shortLong o i k →
       s.issues .seq o (shapeMpush o) {} →
       (rest.length < 15 → exec i s =
         .next ((s.setTeam { t with masks := (s.x (fieldReg o.a) &&& top) :: t.masks }).completed k)) ∧
       (15 ≤ rest.length → exec i s = .next (s.trapped (trapOf .maskOverflow)))) ∧
     (∀ i k, spells .minv (fun _ _ _ => .minvShort) (fun _ _ _ => shortLF 0 0 0 0) o i k →
       s.issues .seq o (shapeMinv o) {} →
       (∀ parent below, rest = parent :: below →
         exec i s = .next ((s.setTeam { t with masks := (parent &&& ~~~top) :: parent :: below }).completed k)) ∧
       (rest = [] → exec i s = .next (s.trapped (trapOf .maskUnderflow)))) ∧
     (∀ i k, spells .mpop (fun _ _ _ => .mpopShort) (fun _ _ _ => shortLF 0 0 0 0) o i k →
       s.issues .seq o (shapeMpop o) {} →
       (∀ parent below, rest = parent :: below →
         exec i s = .next ((s.setTeam { t with masks := parent :: below }).completed k)) ∧
       (rest = [] → exec i s = .next (s.trapped (trapOf .maskUnderflow)))) ∧
     (∀ i k, spells .mget .mgetShort shortLong o i k →
       s.issues .seq o (shapeMget o) {} → exec i s = .next ((s.setX (fieldReg o.d) top).completed k)) ∧
     (s.issues .seq o (shapeBmz o) {} →
       (top = 0 → exec (.bmz o) s = .next (s.jumped (s.pc + 4 * o.b.signExtend 64))) ∧
       (top ≠ 0 → exec (.bmz o) s = .next (s.completed 8)))) ∧
  (∀ (o : LF) (s : State),
     let t := s.cur.team
     let n := 32 * o.b.toNat
     let wb := t.wb + t.fs - 32
     (∀ i k, spells .wenter .wenterShort shortWenterLF o i k →
       s.issues .seq o (shapeWenter o) { ok5 := 1 ≤ o.b.toNat && o.b.toNat ≤ 64 } →
       (t.links.length < 64 → wb + n ≤ t.lo + 4096 → t.lo ≤ s.cur.spill * 32 →
         exec i s = .next ((s.setTeam { t with links := t.fs :: t.links, wb := wb, fs := n }).completed k)) ∧
       (64 ≤ t.links.length ∨ s.cur.spill * 32 < t.spanLo (wb + n) →
         exec i s = .next (s.trapped (trapOf .winSpillOverflow))) ∧
       (t.links.length < 64 → t.lo + 4096 < wb + n → t.spanLo (wb + n) ≤ s.cur.spill * 32 →
         exec i s =
           .next ((s.setTeam { t.spillTo (t.spanLo (wb + n)) with links := t.fs :: t.links, wb := wb, fs := n }).completed k))) ∧
     (∀ i k, spells .wleave (fun _ _ _ => .wleaveShort) (fun _ _ _ => shortLF 0 0 0 0) o i k →
       s.issues .seq o (shapeWleave o) {} →
       (t.links = [] → exec i s = .next (s.trapped (trapOf .winUnderflow))) ∧
       (∀ f rest, t.links = f :: rest → t.lo ≤ t.wb + 32 - f →
         exec i s = .next ((s.setTeam { t with links := rest, wb := t.wb + 32 - f, fs := f }).completed k)) ∧
       (∀ f rest, t.links = f :: rest → t.wb + 32 - f < t.lo →
         exec i s =
           .next ((s.setTeam { t.fillTo (t.wb + 32 - f) with links := rest, wb := t.wb + 32 - f, fs := f }).completed k))))

/-! ### Matrix, accumulator, handle, loop and format-table instructions (11) -/

/-- The products of the matrix engine (11 R205-R208, 03 R52, R53): with tiles whose shapes and places pass the checks of 11
R203, `mma` accumulates A × B of tiles and `mmac` that of a down-converted accumulator, each element in ascending k in the
groups of 03 R52 from the old accumulator or from 0; both draw the next pm.mx number, hold the engine for the occupancy and land
14 cycles after it. What a matrix operation does at issue beside its result (05 R83, R84, 11 R206): it appends exactly one
pending result, which counts as a tile operation, holds the engine, draws the next pm.mx number of its context and virtual die,
and changes no register, no memory and no other counter. -/
def Obligations.MatrixMultiply : Prop :=
  (∀ (o : LF) (s : State),
     let t := s.cur.team
     let r := t.res o
     let fp := r.fmt == 0
     let plan : Plan := { entry := true, matrix := true, tile := true }
     let writes (res : List (Nat × Nat × Elt)) : List LWrite := res.map fun x => accWrite o.d.toNat x.1 x.2.1 x.2.2.1
     let flags (res : List (Nat × Nat × Elt)) : BitVec 6 := res.foldl (fun f x => f ||| x.2.2.2) 0
     let hb := tileOf (t.h.get (handleOf o.b))
     let b := hb.inForce r.fmt
     (s.issues .seq o (shapeMma o) plan →
       let ha := tileOf (t.h.get (handleOf o.a))
       let a := ha.inForce r.fmt
       let w := max (opWidth a.fmt) (opWidth r.fmt)
       let res := matResults a.fmt r.fmt (kGroup w) (s.tileVals a) (s.tileVals b)
         (fun m n => if o.sub2 % 2 = 1 then 0 else t.accElem o.d.toNat m n)
       a.shapeOk (ha.fmt == 15 || ha.fmt ≤ 12) (if fp then 16 else 32) 4096 = true →
       b.shapeOk (hb.fmt == 15 || hb.fmt == r.fmt) (if fp then 32 else 64) 4096 = true → a.cols = b.cols →
       pairOk a.fmt r.fmt a.cols = true → s.tilesOk [a, b] true = .ok () →
       ∃ u, landMatrix (s.readTiles [a, b]) t (writes res) (flags res) (occupancy w a.cols) (occupancy w a.cols + 14) true = .done u ∧
         exec (.mma o) s = .next (u.completed 8)) ∧
     (s.issues .seq o (shapeMmac o) plan →
       let fa := mmacType o.sub2 r.fmt
       let m := if fp then 16 else 32
       let w := max (opWidth fa) (opWidth r.fmt)
       let dr := t.drawn r.rm (m * b.cols)
       let rows := (List.range m).map fun i =>
         downRow r fa ((dr.1.drop (b.cols * i)).take b.cols) ((List.range b.cols).map fun j => t.accElem o.a.toNat i j)
       let res := matResults fa r.fmt (kGroup w) (rows.map (·.1)) (s.tileVals b) (fun i j => t.accElem o.d.toNat i j)
       b.shapeOk (hb.fmt == 15 || hb.fmt == r.fmt) (if fp then 32 else 64) 64 = true → pairOk fa r.fmt b.cols = true →
       s.tilesOk [b] true = .ok () →
       ∃ u, landMatrix (s.readTiles [b]) dr.2 (writes res) (rows.foldl (fun x y => x ||| y.2) (flags res)) (occupancy w b.cols)
           (occupancy w b.cols + 14) true = .done u ∧
         exec (.mmac o) s = .next (u.completed 8))) ∧
  (∀ (s : State) (t : Team) (ws : List LWrite) (f : BitVec 6) (occ lat : Nat),
     let n := (s.pm s.cur.cid s.cur.vdie 2).drawn + 1
     ∃ u, landMatrix s t ws f occ lat true = .done u ∧
       u.cur.team = { t with landings := t.landings ++ [⟨ws, f, lat, false, true, some n⟩], matBusy := occ } ∧
       u.cur.team.tileOps = t.tileOps + 1 ∧ (u.pm s.cur.cid s.cur.vdie 2).drawn = n ∧
       (u.pm s.cur.cid s.cur.vdie 2).pending = (s.pm s.cur.cid s.cur.vdie 2).pending ++ [n] ∧
       u.mem = s.mem ∧ u.clus = s.clus ∧ u.copies = s.copies ∧ u.harts = s.harts ∧ u.tasks = s.tasks ∧ u.hub = s.hub)

/-- Table lookup (03 R47, 11 R205, R209, R210): `mlutb` builds the sixteen entries of each group of a row, each the signed sum,
or the codebook's products, of its elements, and lands in 16 cycles; `mlut` adds the entries that the packed weights name, in
groups of eight, lands 14 cycles after its occupancy and draws a pm.mx number. Accumulator transfers (11 R213, R214): `azero`
lands zeros in 3 cycles; `ald` lands a tile's values as FP32 in 22 cycles, 34 from the cluster's scratchpad; `ast` writes the
accumulator's rows through the down-converter into the tile; `ardv` lands elements from column 64 × B on a register group in 8
cycles, in blocks where the format is nested, only its active elements counting for flags, and `awrv` a group's values in 4. Entry w of
a group takes each element with the sign, or the codebook's factor, that w's bits name, and a group's weights, lowest first, form w. That an
entry is summed exactly and rounded once and that `mlutb` counts as a tile operation are the model's choices (log entry 20), and so is
which elements of a nested block raise the flags of `ardv` (log entry 64). -/
def Obligations.TablesAndAccumulators : Prop :=
  (∀ (o : LF) (s : State),
     let t := s.cur.team
     let r := t.res o
     let one := r.fmt == 13
     (s.issues .seq o (shapeMlutb o) { gb := if r.fmt = 14 then 1 else 0, ok4 := r.fmt == 14 || o.b == 0, entry := true,
                                       matrix := true, tile := true } →
       let a := (tileOf (t.h.get (handleOf o.a))).inForce r.fmt
       let cb := (elemCodes (t.group o.b.toNat 1) 16 4).map bf16.decode
       let rows := (s.tileVals a).map fun v => if one then tableRow 4 lut1Terms v else tableRow 2 (lut2Terms cb) v
       a.shapeOk (([1, 2, 3, 4, 6, 12] : List Nat).contains a.fmt) 32 (if one then 16 else 8) = true →
       (if one then 4 ≤ a.cols ∧ a.cols % 4 = 0 else 2 ≤ a.cols ∧ a.cols % 2 = 0) → s.tilesOk [a] true = .ok () →
       ∃ u, landMatrix (s.readTiles [a]) t (rows.zipIdx.flatMap fun ri => ri.1.zipIdx.map fun ec => accWrite o.d.toNat ri.2 ec.2 ec.1.1)
           (rows.foldl (fun f x => x.foldl (fun g e => g ||| e.2) f) 0) 2 16 false = .done u ∧
         exec (.mlutb o) s = .next (u.completed 8)) ∧
     (s.issues .seq o (shapeMlut o) { entry := true, matrix := true, tile := true } →
       let hb := tileOf (t.h.get (handleOf o.b))
       let b := hb.inForce r.fmt
       let idx := (List.range b.rows).map fun n => lutIndex one (rowCodes r.fmt b.cols (s.tileRow b n))
       let res := (List.range 32).flatMap fun m => idx.zipIdx.map fun wn =>
         (m, wn.2, accumulate 8 (t.accElem o.d.toNat m wn.2)
           (wn.1.zipIdx.map fun wg => (fp32.decode (t.accElem o.a.toNat m (16 * wg.2 + wg.1)), false)))
       b.shapeOk (hb.fmt == 15 || hb.fmt == r.fmt) 64 (if one then 16 else 8) = true →
       (if one then 4 ≤ b.cols ∧ b.cols % 4 = 0 else 2 ≤ b.cols ∧ b.cols % 2 = 0) → s.tilesOk [b] true = .ok () →
       ∃ u, landMatrix (s.readTiles [b]) t (res.map fun x => accWrite o.d.toNat x.1 x.2.1 x.2.2.1) (res.foldl (fun f x => f ||| x.2.2.2) 0)
           ((b.cols + 7) / 8) ((b.cols + 7) / 8 + 14) true = .done u ∧
         exec (.mlut o) s = .next (u.completed 8))) ∧
  (∀ (o : LF) (s : State),
     let t := s.cur.team
     let r := t.res o
     let g := groupRegs o
     let w := fmtWidth r.fmt
     let n := elems g w
     let place (f : BitVec 11) (i : Nat) : Nat := 2048 * f.toNat + 64 * o.b.toNat + i
     let inside : Bool := o.b.toNat ≤ 31 && 64 * o.b.toNat + n ≤ 2048
     (s.issues .seq o (shapeAzero o) { entry := true } →
       exec (.azero o) s = .next ((s.withWrites ((List.range 2048).map fun i => .acc (2048 * o.d.toNat + i) 0) 3).completed 8)) ∧
     (s.issues .seq o (shapeAld o) { entry := true } →
       let h := tileOf (t.h.get (handleOf o.a))
       let a := h.inForce r.fmt
       a.shapeOk (h.fmt == 15 || h.fmt == r.fmt) 32 64 = true → s.tilesOk [a] true = .ok () →
       exec (.ald o) s = .next (((s.readTiles [a]).withWrites ((s.tileVals a).zipIdx.flatMap fun ri => ri.1.zipIdx.map fun vc =>
         accWrite o.d.toNat ri.2 vc.2 (fp32Code vc.1)) (if 0x01000000 ≤ a.base then 34 else 22)).completed 8)) ∧
     (s.issues .seq o (shapeAst o) {} →
       let h := tileOf (t.h.get (handleOf o.d))
       let d := h.inForce r.fmt
       let dr := t.drawn r.rm (d.rows * d.cols)
       let rows := (List.range d.rows).map fun i =>
         downBytes r ((dr.1.drop (d.cols * i)).take d.cols) ((List.range d.cols).map fun j => t.accElem o.a.toNat i j)
       d.shapeOk (h.fmt == 15 || h.fmt == r.fmt) 32 64 = true → s.tilesOk [d] false = .ok () →
       exec (.ast o) s = .next ((rows.zipIdx.foldl (fun (u : State) ri => u.setLocalBytes (d.row ri.2) ri.1.1)
         (s.setTeam (dr.2.raise (rows.foldl (fun f x => f ||| x.2) 0)))).completed 8)) ∧
     (s.issues .seq o (shapeArdv o) { ewPlan o w 8 false false with ok5 := inside } → isNb r.fmt = false →
       let dr := t.drawn r.rm n
       let c (i : Nat) : Nat := (Sparse.get 0 t.acc (place o.a i)).toNat
       exec (.ardv o) s = .next ((s.withElems dr.2 o w g 8 ((List.range n).map fun i =>
         roundElem r.fmt r.rm r.ovf (dr.1.getD i 0) (fp32.decode (c i)))).completed 8)) ∧
     (s.issues .seq o (shapeArdv o) { ewPlan o w 8 false false with ok5 := inside } → isNb r.fmt = true →
       let dr := t.drawn r.rm n
       let per := if r.fmt = 11 then 16 else 32
       let bs := blocksOf r dr.1 ((List.range n).map fun i => fp32.decode (Sparse.get 0 t.acc (place o.a i)).toNat)
       let act (i : Nat) : Bool := t.active o.m i
       exec (.ardv o) s = .next ((s.setTeam (dr.2.land
         ((nbRegs r.fmt (bs.map (·.1))).zipIdx.map fun vi =>
           .v (t.wb + o.d.toNat + vi.2) vi.1 (nbMask r.fmt ((List.range per).map fun i => act (per * vi.2 + i))))
         (activeFlags (bs.zipIdx.flatMap fun bi => bi.1.2.zipIdx.map fun fi => if act (16 * bi.2 + fi.2) then some fi.1 else none))
         8 o)).completed 8)) ∧
     (s.issues .seq o (shapeAwrv o) { ga := g, ok5 := inside, entry := true } →
       exec (.awrv o) s = .next ((s.withWrites ((List.range n).map fun i => .acc (place o.d i)
         (BitVec.ofNat 32 (fp32Code (decodeElem r.fmt (elemAt (t.group o.a.toNat g) w i))))) 4).completed 8))) ∧
  (∀ (as cb : List Val) (cs : List Nat) (g w : Nat), w < 16 →
     (∀ n, as.length = 4 * n → n ≤ 4 → g < n →
       (tableRow 4 lut1Terms as).getD (16 * g + w) (0, 0) = tableEntry ((List.range 4).map fun i =>
         (if w.testBit i then as.getD (4 * g + i) vZero else (as.getD (4 * g + i) vZero).flip, false))) ∧
     (∀ n, as.length = 2 * n → n ≤ 4 → g < n →
       (tableRow 2 (lut2Terms cb) as).getD (16 * g + w) (0, 0) = tableEntry ((List.range 2).map fun i =>
         (cb.getD (w / 4 ^ i % 4) vZero).mul (as.getD (2 * g + i) vZero))) ∧
     (∀ n, cs.length = 4 * n → g < n →
       (lutIndex true cs).getD g 0 = cs.getD (4 * g) 0 + 2 * cs.getD (4 * g + 1) 0 + 4 * cs.getD (4 * g + 2) 0 + 8 * cs.getD (4 * g + 3) 0) ∧
     (∀ n, cs.length = 2 * n → g < n → (lutIndex false cs).getD g 0 = cs.getD (2 * g) 0 + 4 * cs.getD (2 * g + 1) 0))

/-- Handles (11 R202, R215): `hset` lands x[A] in word B of a handle in 3 cycles and `hget` reads one, words 4 to 7
sign-extended; `hld` lands 32 aligned bytes of a scratchpad in 6 or 18 cycles and `hst` stores them; `hadv` lands BASE plus the
stride of the counter named, both read at issue, in 3 cycles. A handle word's landing replaces that word and no other (11 R215). -/
def Obligations.Handles : Prop :=
  (∀ (o : LF) (s : State),
     let t := s.cur.team
     let cl := o.sub2 == 1
     (s.issues .seq o (shapeHset o) { ok5 := o.b.toNat ≤ 7, entry := true } →
       exec (.hset o) s =
         .next ((s.withWrites [hWord (handleOf o.d) o.b.toNat ((s.x (fieldReg o.a)).setWidth 32)] 3).completed 8)) ∧
     (s.issues .seq o (shapeHget o) { ok5 := o.b.toNat ≤ 7 } →
       let v : BitVec 32 := (t.h.get (handleOf o.a)).extractLsb' (32 * o.b.toNat) 32
       exec (.hget o) s =
         .next ((s.setX (fieldReg o.d) (if 4 ≤ o.b.toNat then v.signExtend 64 else v.setWidth 64)).completed 8)) ∧
     (∀ a : Nat, (s.x (fieldReg o.a)).toNat + o.b.toInt = (a : Int) → s.inSpace cl a 32 = true → a % 32 = 0 →
       (s.issues .seq o (shapeHld o) { entry := true } → s.clusBadAt a = false →
         exec (.hld o) s = .next (((s.rebuild a 32).withWrites [.h (handleOf o.d) (BitVec.ofNat 256 (leNat (s.localBytes a 32)))
           (BitVec.allOnes 256)] (if cl then 18 else 6)).completed 8)) ∧
       (s.issues .seq o (shapeHst o) {} →
         exec (.hst o) s = .next ((s.setLocalBytes a (leBytes 32 (t.h.get (handleOf o.d)).toNat)).completed 8))) ∧
     (∀ i k, spells .hadv .hadvShort shortLong o i k →
       s.issues .seq o (shapeHadv o) { entry := true } →
       let v := t.h.get (handleOf o.a)
       let base : BitVec 32 := v.extractLsb' 0 32
       let stride : BitVec 32 := v.extractLsb' (128 + 32 * o.b.toNat) 32
       exec i s = .next ((s.withWrites [hWord (handleOf o.a) 0 (base + stride)] 3).completed k))) ∧
  (∀ (t : Team) (h k : Fin 32) (j i : Nat) (v : BitVec 32), j < 8 → i < 8 →
     let u := t.landWrite (hWord h j v)
     (((u.h.get h).extractLsb' (32 * i) 32 : BitVec 32) = if i = j then v else (t.h.get h).extractLsb' (32 * i) 32) ∧
     (k ≠ h → u.h.get k = t.h.get k))

/-- Loops (11 R216, R217): `loop` checks that its counter is inactive, its bound below 2^32 and its body inside the innermost
loop's, else ILLEGAL_OPERAND; with bound 0 it goes to its END, otherwise it starts the counter on top of the stack; `lcrd` reads
a count; `lbrk` ends the active counter it names with every loop inside it. The format table (03 R54, R55, 11 R218): `fmtset`
writes an entry from its immediate or x[A], under the write rule; `fmtsel` names the counter, or none, and the base by which FMT
= 15 is resolved; `fmtget` reads an entry. An instruction with FMT = 15 takes the entry at the counter plus the base, modulo 16. -/
def Obligations.LoopsAndFormats : Prop :=
  (∀ (o : LF) (s : State),
     let t := s.cur.team
     let n : Fin 4 := loopNum o.d
     let c := t.loopOf n
     let bound := s.x (fieldReg o.a)
     let pc := t.seq.pc
     let stop := pc + 4 * o.b.toNat
     let inside : Prop := ∀ top rest, t.loops = top :: rest →
       (t.loopOf top).start ≤ pc ∧ pc < (t.loopOf top).stop ∧ stop ≤ (t.loopOf top).stop
     (s.issues .seq o (shapeLoop o) { ok5 := 3 ≤ o.b.toInt } →
       (c.active = true ∨ 2 ^ 32 ≤ bound.toNat ∨ ¬ inside → exec (.loop o) s = .next (s.trapped (trapOf .illegalOperand))) ∧
       (c.active = false → bound.toNat < 2 ^ 32 → inside →
         (bound = 0 → exec (.loop o) s = .next ((s.setTeam (t.setLoop n { c with count := 0 })).jumped (BitVec.ofNat 64 stop))) ∧
         (bound ≠ 0 → exec (.loop o) s = .next ((s.setTeam
           { t.setLoop n { count := 0, bound := bound.setWidth 32, start := pc + 8, stop := stop, active := true } with
             loops := n :: t.loops }).completed 8)))) ∧
     (∀ i k, spells .lcrd .lcrdShort shortLong o i k →
       s.issues .seq o (shapeLcrd o) {} →
       exec i s = .next ((s.setX (fieldReg o.d) ((t.loopOf (loopNum o.b)).count.setWidth 64)).completed k)) ∧
     (∀ i k, spells .lbrk .lbrkShort shortLong o i k →
       s.issues .seq o (shapeLbrk o) {} →
       let m := loopNum o.b
       ((t.loopOf m).active = false → exec i s = .next (s.completed k)) ∧
       ((t.loopOf m).active = true → ∃ u : Team, exec i s = .next ((s.setTeam u).completed k) ∧
         (∀ inner outer, t.loops = inner ++ m :: outer → m ∉ inner →
           u.loops = outer ∧ (u.loopOf m).active = false ∧ (∀ k ∈ inner, (u.loopOf k).active = false) ∧
           (∀ k, k ≠ m → k ∉ inner → u.loopOf k = t.loopOf k))))) ∧
  (∀ (o : LF) (s : State),
     let t := s.cur.team
     (s.issues .seq o (shapeFmtset o) { ok5 := o.d.toNat ≤ 15 && (o.sub2 == 1 || o.b.toNat ≤ 255) } →
       exec (.fmtset o) s = .next ((s.setTeam (t.setFt (ftNum o.d)
         (if o.sub2 = 1 then (s.x (fieldReg o.a)).setWidth 8 else o.b.setWidth 8))).completed 8)) ∧
     (∀ i k, spells .fmtsel .fmtselShort shortLong o i k →
       s.issues .seq o (shapeFmtsel o) { ok5 := o.a.toNat ≤ 4 && o.b.toNat ≤ 15 } →
       ∃ u : Team, exec i s = .next ((s.setTeam u).completed k) ∧
         u = { t with selCtr := u.selCtr, selBase := o.b.setWidth 4 } ∧
         u.selCtr.map Fin.val = if o.a = 0 then none else some (o.a.toNat - 1)) ∧
     (∀ i k, spells .fmtget .fmtgetShort shortLong o i k →
       s.issues .seq o (shapeFmtget o) { ok5 := o.b.toNat ≤ 15 } →
       exec i s = .next ((s.setX (fieldReg o.d) ((t.ft.get (ftNum o.b)).setWidth 64)).completed k)) ∧
     (o.fmt = 15 →
       let count := match t.selCtr with
         | none => 0
         | some k => (t.loopOf k).count.toNat
       let e := t.ft.get ⟨(count + t.selBase.toNat) % 16, Nat.mod_lt _ (by decide)⟩
       (t.res o).fmt = (e.extractLsb' 0 4).toNat ∧ (t.res o).rm = (if o.rm = 7 then (e.extractLsb' 4 3).toNat else o.rm) ∧
       (t.res o).ovf = e.getLsbD 7))

/-! ### Movement, memory and synchronisation (12, 05, 07) -/

/-- Copies (12 R229-R234): one whose checks pass issues when its member's counter has room and, in the pigeonhole form, a slot
is free: it draws the next number of its counter, gives it in x[D], reserves the slot, and is in flight from then on with the
moves its operands name; it writes no byte at issue. One whose checks fail takes the trap of the first that fails. `cprem`
stalls a speculative task, and writes its source's dirty lines back first. What a copy's checks require and what it moves (12
R227, R229, R231, R233), for the plain forms: LEN of 0 is ILLEGAL_OPERAND, a byte outside the scratchpads is LOCAL_ADDR, and a
plan that passes moves the bytes its operands name; a local source's lines in error are rebuilt as they are read (04 R72). A copy whose
page is still being backed waits (19 R330). -/
def Obligations.Copies : Prop :=
  (∀ (o : LF) (w : Who) (s u : State) (p : CopyPlan),
     let h := s.cur.team.hole o.fmt.toNat
     let moves := p.moves (if o.isPh then h.slotAddr h.tail else 0)
     let room : Prop := s.copyHeld w = false ∧ (o.isPh = true → h.free ≠ 0) ∧ moves.any Move.overlaps = false ∧
       moves.any (s.moveHazard w) = false
     let started (u : State) (remote : Bool) : State × Nat :=
       (if o.isPh then u.setHole o.fmt.toNat (h.reserve o.ap (some u.nextId)) else u).startCopy o w moves p.pages h.tail remote
     let after (x : State × Nat) : State :=
       (x.1.setX (fieldReg o.d) (BitVec.ofNat 64 x.2)).completedWith 8 (BitVec.ofNat 64 (copyClass w * 2 ^ 61 + x.2))
         (BitVec.ofNat 64 (x.1.pmCompleted (copyClass w)))
     (∀ q ∈ ([(.cpld o, shapeCpld, planLoad o s), (.cpst o, shapeCpst, planStore o s), (.cpgat o, shapeCpgat, planRows o false s),
         (.cpsca o, shapeCpsca, planRows o true s), (.cploc o, shapeCploc, planLocal o s)] :
         List (Instr × (LF → Shape) × Except Miss (State × CopyPlan))),
       s.issues w o (q.2.1 o) {} → (q.1 = .cpgat o ∨ q.1 = .cpsca o → s.rowsHazard w (s.x (fieldReg o.a)).toNat = false) →
       (q.2.2 = .ok (u, p) → room → exec q.1 s = .next (after (started u false))) ∧
       (∀ m, q.2.2 = .error m → (∀ tr, m.trap = some tr → exec q.1 s = .next (m.state.trapped tr)) ∧
         (m.trap = none → exec q.1 s = .next (m.state.blockWith .interlock)))) ∧
     (s.issues w o (shapeCprem o) {} →
       (s.cur.spec = true → exec (.cprem o) s = .next (s.blockWith .spec)) ∧
       (s.cur.spec = false → planRemote o s = .ok (u, p) → room →
         let a := s.x (fieldReg o.a)
         exec (.cprem o) s = .next (after (started
           (u.wbRange s.cur.cluster s.cur.cid (s.vaOf s.cur.cid a) (s.x (fieldReg o.d)).toNat) true))) ∧
       (∀ m tr, s.cur.spec = false → planRemote o s = .error m → m.trap = some tr →
         exec (.cprem o) s = .next (m.state.trapped tr))) ∧
     (∀ (remote : Bool), ∃ c : Copy, (started u remote).1.copies = u.copies ++ [c] ∧ c.moves = moves ∧ c.num = (started u remote).2 ∧
       c.who = w ∧ c.cls = copyClass w ∧ c.hole = (if o.isPh then some o.fmt.toNat else none) ∧
       (started u remote).1.mem = u.mem ∧ (started u remote).1.clus = u.clus)) ∧
  (∀ (o : LF) (s : State), o.isPh = false → o.tr = 0 →
     let l := localWord (s.x (fieldReg o.a))
     let b := s.x (fieldReg o.b)
     let c := s.cur.cid
     (l.len = 0 → ∀ r ∈ [planLoad o s, planStore o s, planLocal o s], r = .error ((trapOf .illegalOperand).miss s)) ∧
     (1 ≤ l.len → s.inScratch l.laddr l.len = false → ∀ r ∈ [planLoad o s, planStore o s],
       r = .error ((trapAt .localAddr (BitVec.ofNat 64 l.laddr) l.len).miss s)) ∧
     (∀ u ps, 1 ≤ l.len → s.inScratch l.laddr l.len = true → s.translateAll [(b, l.len)] false = .ok (u, ps) →
       s.passes c b l.len rightR = true →
       ∃ p, planLoad o s = .ok (u, p) ∧ p.pages = ps ∧ p.moves 0 = [⟨.buf b, .loc l.laddr, l.len⟩]) ∧
     (∀ u ps, 1 ≤ l.len → s.inScratch l.laddr l.len = true → s.translateAll [(b, l.len)] true = .ok (u, ps) →
       s.passes c b l.len rightW = true → u.badLineIn l.laddr l.len = none →
       ∃ p, planStore o s = .ok (u.rebuild l.laddr l.len, p) ∧ p.pages = ps ∧ p.moves 0 = [⟨.loc l.laddr, .buf b, l.len⟩]) ∧
     (1 ≤ l.len → s.inScratch l.laddr l.len = true → s.inScratch b.toNat l.len = true → s.badLineIn l.laddr l.len = none →
       meets l.laddr l.len b.toNat l.len = false →
       ∃ p, planLocal o s = .ok (s.rebuild l.laddr l.len, p) ∧ p.pages = [] ∧ p.moves 0 = [⟨.loc l.laddr, .loc b.toNat, l.len⟩]))

/-- Collectives and near-bank queries (12 R235-R237, R248, 07 R117-R119, R127): an issue whose descriptor, ranges and layout
pass draws the next number of its counter and gives it in x[D]; a member whose descriptor differs from those already issued
under its tag raises COLL_MISMATCH; a query reserves one slot for each engine and one for its summary; `nbcan` marks the query
its number names. All but `nbcan` stall a speculative task. -/
def Obligations.CollectivesAndQueries : Prop :=
  ∀ (o : LF) (w : Who) (s : State),
    let a := (s.x (fieldReg o.a)).toNat
    let cid := s.cur.cid
    let after (x : State × Nat) (cls : Nat) : State :=
      (x.1.setX (fieldReg o.d) (BitVec.ofNat 64 x.2)).completedWith 8 (BitVec.ofNat 64 (cls * 2 ^ 61 + x.2))
        (BitVec.ofNat 64 (x.1.pmCompleted cls))
    (s.issues w o (shapeColl o) {} → s.cur.spec = true → exec (.coll o) s = .next (s.blockWith .spec)) ∧
    (s.issues w o (shapeNbq o) {} → s.cur.spec = true → exec (.nbq o) s = .next (s.blockWith .spec)) ∧
    (∀ (u u' v : State) (ps qs rs : List Tlb),
      let d := s.collDesc a
      let r := s.rebuild a 64
      let k := o.fmt.toNat
      let len := if k = 2 then d.nmemb * d.bytes else if k = 1 ∧ d.rank ≠ d.root then 0 else d.bytes
      let g := u.groupBufs d ps
      let sends := d.sends k g.2
      let dst := sends.map fun t => (t.2.2, d.bytes)
      s.issues w o (shapeColl o) {} → s.cur.spec = false → s.onLentDie = false →
      s.inScratch a 64 = true → d.ok k = true → a % 64 = 0 → s.badLineIn a 64 = none → s.localHazard w a 64 false = false →
      r.bufHazard w (r.vaOf cid d.group) (8 * d.nmemb) false = false →
      r.checkOver [(d.src, len, rightR), (d.group, 8 * d.nmemb, rightR)] = .ok () →
      r.translateAll [(d.group, 8 * d.nmemb)] false = .ok (u, ps) → g.1.checkOver (dst.map fun x => (x.1, x.2, rightW)) = .ok () →
      g.1.translateAll [(d.src, len)] false = .ok (u', qs) → u'.translateAll dst true = .ok (v, rs) →
      (r.collAllowed d k = false → exec (.coll o) s = .next (v.trapped (trapOf .collMismatch))) ∧
      (r.collAllowed d k = true → r.tilesHeld w = false →
        (sends.any fun t => r.moveHazard w ⟨.buf t.2.1, .buf t.2.2, d.bytes⟩) = false →
        exec (.coll o) s = .next (after (v.startColl w d k sends (g.2.getD d.rank 0) (ps ++ qs ++ rs)) 4))) ∧
    (∀ (u : State) (frame : Nat),
      let d := s.queryDesc a
      let r := s.rebuild a 544
      let h := o.b.toNat
      let koff := r.vaOf cid d.kref % 0x200000
      let es := keyEngines koff d.rs d.nkeys
      let n := d.nkeys * d.rs
      s.issues w o (shapeNbq o) {} → s.cur.spec = false → s.inScratch a 544 = true → a % 32 = 0 → s.badLineIn a 544 = none →
      s.localHazard w a 544 false = false →
      d.ok = true → d.holeFits (r.cur.team.hole h) es.length = true → r.checkOver [(d.kref, n, rightN), (d.vref, n, rightN)] = .ok () →
      r.nbPort d = .ok (u, frame) → r.tilesHeld w = false →
      (es.length + 1 ≤ (r.cur.team.hole h).free →
        exec (.nbq o) s = .next (after (u.startQuery w d h koff (r.vaOf cid d.vref % 0x200000) frame es) 3)) ∧
      ((r.cur.team.hole h).free < es.length + 1 → exec (.nbq o) s = .next (r.blockWith (.slot h)))) ∧
    (∀ i n, spells .nbcan .nbcanShort shortLong o i n → s.issues w o (shapeNbcan o) {} →
      exec i s = .next ((({ s with queries := s.queries.map fun q =>
        if q.cid = cid ∧ q.vdie = s.cur.vdie ∧ q.num = a then { q with cancelled := true } else q } : State).external).completed n))

/-- Buffer accesses of a courier (12 R239, R240, 08 R141): an access aligned, within its buffer, with its right and translated,
and not held back by a copy of the member, gives the bytes read in x[D], sign- or zero-extended, or writes its bytes; a
speculative task writes them into its own proof-store entry. A misaligned one raises ALIGN. The short forms address with a
12-bit displacement. Atomics (12 R241, R242, 05 R91): `bamo` and `bcas` read the old word at its home, write the new one there,
where it differs, without another access between, and give the old word in x[D]; in device or system scope the cluster's dirty lines are written
back before and its lines invalidated after. They stall a speculative task. -/
def Obligations.BufferMemory : Prop :=
  (∀ (o : LF) (w : Who) (s u : State) (ps : List Tlb) (rd rs1 rs2 : Reg) (imm : BitVec 12),
     let short (k : Prop) : Prop := s.focus = .member w ∧ w ≠ .seq ∧ k
     let at_ : Word := s.x rs1 + imm.signExtend 64
     let n := 2 ^ o.size
     (∀ p ∈ ([
       (.bld o, s.issues w o (shapeBld o) {}, 8, fieldReg o.d, s.x (fieldReg o.a) + o.b.signExtend 64, n, o.sx),
       (.bldBShort rd rs1 imm, short True, 4, rd, at_, 1, false), (.bldHShort rd rs1 imm, short True, 4, rd, at_, 2, false),
       (.bldWShort rd rs1 imm, short True, 4, rd, at_, 4, false), (.bldDShort rd rs1 imm, short True, 4, rd, at_, 8, false)] :
         List (Instr × Prop × Nat × Reg × Word × Nat × Bool)),
       let b := p.2.2.2.2.1
       let k := p.2.2.2.2.2.1
       let sx := p.2.2.2.2.2.2
       let x := u.bufRead b ps k
       p.2.1 →
       (brefOff b % k ≠ 0 → exec p.1 s = .next (s.trapped (trapAt .align b k))) ∧
       (brefOff b % k = 0 → s.passes s.cur.cid b k rightR = true → s.translatePages s.memberAcc b k false = .ok (u, ps) →
         s.loadHeld w = false → s.bufHazard w (s.vaOf s.cur.cid b) k false = false →
         exec p.1 s = .next ((x.1.setX p.2.2.2.1
           (if sx then (BitVec.ofNat (8 * k) x.2).signExtend 64 else BitVec.ofNat 64 x.2)).completed p.2.2.1))) ∧
     (∀ p ∈ ([
       (.bst o, s.issues w o (shapeBst o) {}, 8, s.x (fieldReg o.b), s.x (fieldReg o.a) + o.d.signExtend 64, n),
       (.bstBShort rs1 rs2 imm, short True, 4, s.x rs2, at_, 1), (.bstHShort rs1 rs2 imm, short True, 4, s.x rs2, at_, 2),
       (.bstWShort rs1 rs2 imm, short True, 4, s.x rs2, at_, 4), (.bstDShort rs1 rs2 imm, short True, 4, s.x rs2, at_, 8)] :
         List (Instr × Prop × Nat × Word × Word × Nat)),
       let b := p.2.2.2.2.1
       let k := p.2.2.2.2.2
       let bs := leBytes k p.2.2.2.1.toNat
       p.2.1 →
       (brefOff b % k ≠ 0 → exec p.1 s = .next (s.trapped (trapAt .align b k))) ∧
       (brefOff b % k = 0 → s.passes s.cur.cid b k rightW = true → s.translatePages s.memberAcc b k true = .ok (u, ps) →
         s.bufHazard w (s.vaOf s.cur.cid b) k true = false →
         (s.cur.spec = false → exec p.1 s = .next ((u.cacheWrites b ps bs).completed p.2.2.1)) ∧
         (∀ v, s.cur.spec = true → u.proofWrites b ps bs = some v → exec p.1 s = .next (v.completed p.2.2.1))))) ∧
  (∀ (o : LF) (w : Who) (s u : State) (ps : List Tlb),
     let n := 2 ^ o.size
     let m := 256 ^ n
     let b := s.x (fieldReg o.a)
     let operand := (s.x (fieldReg o.b)).toNat % m
     let sgn (v : Nat) : Int := if 2 * v < m then v else (v : Int) - m
     let wide : Bool := 1 ≤ o.scope
     let amo (old : Nat) : Nat :=
       if o.fmt = 0 then (old + operand) % m else if o.fmt = 1 then old &&& operand else if o.fmt = 2 then old ||| operand
       else if o.fmt = 3 then old ^^^ operand else if o.fmt = 4 then (if sgn operand < sgn old then operand else old)
       else if o.fmt = 5 then (if sgn old < sgn operand then operand else old)
       else if o.fmt = 6 then min old operand else if o.fmt = 7 then max old operand else operand
     let cas (old : Nat) : Nat := if old = (s.x (fieldReg o.d)).toNat % m then operand else old
     ∀ p ∈ ([(.bamo o, shapeBamo o, amo), (.bcas o, shapeBcas o, cas)] : List (Instr × Shape × (Nat → Nat))),
       s.issues w o p.2.1 {} →
       (s.cur.spec = true → exec p.1 s = .next (s.blockWith .spec)) ∧
       (s.cur.spec = false → brefOff b % n = 0 → s.passes s.cur.cid b n rightA = true →
         s.translatePages s.memberAcc b n true = .ok (u, ps) → s.bufHazard w (s.vaOf s.cur.cid b) n true = false →
         (wide = true → (s.ownCopies w).isEmpty = true) →
         let x := (if wide then u.wbAll s.cur.cluster s.cur.cid else u).homeAtomic b ps n p.2.2
         let v := if wide then x.1.invAll s.cur.cluster s.cur.cid else x.1
         exec p.1 s = .next ((v.external.setX (fieldReg o.d)
           (if o.sx then (BitVec.ofNat (8 * n) x.2).signExtend 64 else BitVec.ofNat 64 x.2)).completed 8)))

/-- Sync objects (05 R86-R89, 12 R244): the first `acq` of an object registers it; a request that no hold stands against is
granted at once, exclusively or, with SUB = 1, shared, and invalidates the bound ranges in its cluster; an exclusive hold of
another task, or any hold against an exclusive request, makes it wait, and a task that holds the object already raises SYNC_STATE. A
new object waits while the directory has no free entry. One that waits goes by the descriptor its checks found at first (19 R325), and
completes once its task holds the object. That a free object is granted in the step that asks is the model's choice (log entry 58), and so
is the directory's unstated number of entries (log entry 78). `rel` writes the bound ranges back and
ends the hold, and without a hold raises SYNC_STATE. Fences, postmarks and waits (05 R83, R84, R90, 12 R245-R247): `frange` in
device scope writes back, or invalidates, the lines of its range in the issuer's cluster, and in team scope changes no cache;
`pmrd` reads a counter's completed value; `pmwait` completes once the counter has passed its number; `wait` completes once the
member's counters are no higher than its operands: a copy counts as a load until its source is read. -/
def Obligations.Synchronisation : Prop :=
  (∀ (o : LF) (w : Who) (s u : State) (i : Instr) (n : Nat) (y : Sync) (desc : List Byte),
     let b := s.x (fieldReg o.a)
     let cid := s.cur.cid
     let sound : Prop := brefOff b % 64 = 0 ∧ s.passes cid b 64 rightA = true
     let first : Prop := ∀ va seen d, (s.member w).wait ≠ some (.acq va seen d)
     let d := parseDesc desc
     let va := d.vbase + brefOff b
     let found := s.sync? cid va
     let id := u.cur.id
     s.cur.spec = false → y.queue = [] →
     (spells .acq .acqShort shortLong o i n ∨ spells .acq .acqShShort (fun rd rs1 rs2 => shortLF rd rs1 rs2 1) o i n →
       s.issues w o (shapeAcq o) {} →
       (first ∧ sound ∧ desc = s.descBytes cid b) ∨ (∃ at_ seen, (s.member w).wait = some (.acq at_ seen desc)) →
       ((found = some y ∧ u = s) ∨ (found = none ∧ s.directoryFull = false ∧
           s.bufHazard w va 64 false = false ∧ s.register d b = .ok (u, y)) →
         let granted (z : Sync) : State := (((u.setSync z).rangesInv z).external).completed n
         (y.holds id = false → y.excl = none →
           (o.sub = 0 → y.shared = [] → exec i s = .next (granted { y with excl := some id, changes := y.changes + 1 })) ∧
           (o.sub ≠ 0 → exec i s = .next (granted { y with shared := y.shared ++ [id], changes := y.changes + 1 }))) ∧
         (y.holds id = false → y.excl ≠ none ∨ (o.sub = 0 ∧ y.shared ≠ []) →
           exec i s = .next ((u.setSync { y with queue := [(id, w, o.sub == 0)] }).blockWith (.acq y.va (some y.changes) desc))) ∧
         (y.holds id = true → (u.member w).wait = none → exec i s = .next (u.trapped (trapOf .syncState))) ∧
         (∀ k, y.holds id = true → (u.member w).wait = some (.acq y.va (some k) desc) →
           exec i s = .next ((u.rangesInv y).external.completed n))) ∧
       (found = none → s.directoryFull = true → exec i s = .next (s.blockWith (.acq va none desc)))) ∧
     (spells .rel .relShort shortLong o i n → s.issues w o (shapeRel o) {} → sound → s.sync? cid (s.vaOf cid b) = some y → u = s →
       (y.holds id = false → exec i s = .next (s.trapped (trapOf .syncState))) ∧
       (y.holds id = true → s.ownCopies w = [] →
         exec i s = .next (((s.rangesWb y).setSync { y with excl := if y.excl = some id then none else y.excl,
                                                            shared := y.shared.filter (· != id),
                                                            changes := y.changes + 1 }).external.completed n)))) ∧
  (∀ (o : LF) (w : Who) (s : State) (i : Instr) (n : Nat),
     let b := s.x (fieldReg o.a)
     let len := (s.x (fieldReg o.b)).toNat
     let va := s.vaOf s.cur.cid b
     let num := (s.x (fieldReg o.a)).toNat
     (s.issues w o (shapeFrange o) {} →
       (len = 0 → exec (.frange o) s = .next ((if o.scope = 0 then s else s.external).completed 8)) ∧
       (len ≠ 0 → s.passes s.cur.cid b len rightR = true →
         (o.sub.getLsbD 0 = true → s.bufHazard w va len false = false) →
         (o.scope = 0 → exec (.frange o) s = .next (s.completed 8)) ∧
         (o.scope ≠ 0 →
           let s1 := if o.sub.getLsbD 0 then s.wbRange s.cur.cluster s.cur.cid va len else s
           let s2 := if o.sub.getLsbD 1 then s1.invRange s.cur.cluster s.cur.cid va len else s1
           exec (.frange o) s = .next (s2.external.completed 8)))) ∧
     (spells .pmrd .pmrdShort shortLong o i n → s.issues w o (shapePmrd o) {} →
       exec i s = .next ((s.setX (fieldReg o.d)
         (BitVec.ofNat 64 (s.pm s.cur.cid s.cur.vdie o.b.toNat).completed)).completed n)) ∧
     (spells .pmwait .pmwaitShort shortLong o i n → s.issues w o (shapePmwait o) {} →
       (num = 0 → exec i s = .next (s.completed n)) ∧
       (num ≠ 0 → w ≠ .seq ∨ o.b ≠ 2 →
         (num ≤ (s.pm s.cur.cid s.cur.vdie o.b.toNat).completed → exec i s = .next (s.completed n)) ∧
         ((s.pm s.cur.cid s.cur.vdie o.b.toNat).completed < num → exec i s = .next (s.blockWith (.pmwait o.b.toNat num))))) ∧
     (s.issues w o (shapeWait o) { ok5 := o.d.toNat ≤ 63 && o.a.toNat ≤ 63 && o.b.toNat ≤ 63 } →
       (w = .seq → s.cur.team.tileOps ≤ o.sub.toNat → exec (.wait o) s = .next (s.completed 8)) ∧
       (w ≠ .seq → ((s.ownCopies w).filter Copy.unread).length ≤ o.d.toNat → (s.ownCopies w).length ≤ o.b.toNat → s.courierTiles w ≤ o.sub.toNat →
         exec (.wait o) s = .next (s.completed 8))))

/-- Pigeonholes (04 R73-R75, 12 R223-R225): `phcfg` configures or empties one; on one that is not configured the others raise
PH_STATE; `phres` reserves the slot at TAIL and `phtake` takes the one at HEAD, each giving its address; `phpost` fills the
oldest reserved slot, `phgive` frees the oldest taken one, and `phstat` reads the state word; a slot that a copy of the
member still reads is not freed. With no slot to take or reserve the member waits, or raises TEAM_ENDED when no member or copy is left
that could end the wait. Token queues (04 R76, 12 R226): `tqput`
appends x[A] to a queue of fewer than sixteen words; `tqget` gives the oldest word and removes it, `tqget.pk` gives it and
leaves it; with no room, or no word, the member waits, and raises TEAM_ENDED when the other end has ended. -/
def Obligations.HolesAndQueues : Prop :=
  (∀ (o : LF) (w : Who) (s : State) (i : Instr) (n : Nat),
     let h := o.b.toNat
     let p := s.cur.team.hole h
     let e := s.x (fieldReg o.a)
     let addr (slot : Nat) : Word := BitVec.ofNat 64 (p.base + 64 * p.slotsz * slot)
     let quiet : Prop := p.en = false ∨ (p.free = p.count ∧ s.holeBusy h = false)
     (s.issues w o (shapePhcfg o) {} → quiet →
       (e.extractLsb' 32 16 = 0 → exec (.phcfg o) s = .next ((s.setHole h blankHole).completed 8)) ∧
       (e.extractLsb' 32 16 ≠ 0 → s.holeOk (holeOf e) h = true →
         exec (.phcfg o) s = .next ((s.setHole h (holeOf e)).completed 8))) ∧
     (s.issues w o (shapePhcfg o) {} → ¬ quiet ∨ (e.extractLsb' 32 16 ≠ 0 ∧ s.holeOk (holeOf e) h = false) →
       exec (.phcfg o) s = .next (s.trapped (trapOf .phState))) ∧
     (p.en = false → ∀ q ∈ ([(.phres o, shapePhres), (.phpost o, shapePhpost), (.phgive o, shapePhgive), (.phstat o, shapePhstat)] :
       List (Instr × (LF → Shape))), s.issues w o (q.2 o) {} → exec q.1 s = .next (s.trapped (trapOf .phState))) ∧
     (spells .phtake .phtakeShort shortLong o i n → s.issues w o (shapePhtake o) {} →
       (p.en = false → exec i s = .next (s.trapped (trapOf .phState))) ∧
       (p.en = true → p.filled ≠ 0 → exec i s = .next (((s.setHole h p.take).setX (fieldReg o.d) (addr p.head)).completed n)) ∧
       (p.en = true → p.filled = 0 → (w.others.all fun v => (s.member v).ended) = false ∨ s.holeBusy h = true →
         exec i s = .next (s.blockWith (.phtake h))) ∧
       (p.en = true → p.filled = 0 → (w.others.all fun v => (s.member v).ended) = true → s.holeBusy h = false →
         exec i s = .next (s.trapped (trapOf .teamEnded)))) ∧
     (spells .phres .phresShort shortLong o i n → s.issues w o (shapePhres o) {} → p.en = true →
       (p.free ≠ 0 → exec i s = .next (((s.setHole h (p.reserve false none)).setX (fieldReg o.d) (addr p.tail)).completed n)) ∧
       (p.free = 0 → (w.others.all fun v => (s.member v).ended) = false ∨ s.holeBusy h = true →
         exec i s = .next (s.blockWith (.phres h))) ∧
       (p.free = 0 → (w.others.all fun v => (s.member v).ended) = true → s.holeBusy h = false →
         exec i s = .next (s.trapped (trapOf .teamEnded)))) ∧
     (spells .phpost .phpostShort shortLong o i n → s.issues w o (shapePhpost o) {} → p.en = true →
       (∀ rs, postFirst p.resv = some rs →
         exec i s = .next ((s.setHole h ({ p with resv := rs } : Hole).settled).completed n)) ∧
       (postFirst p.resv = none → exec i s = .next (s.trapped (trapOf .phState)))) ∧
     (spells .phgive .phgiveShort shortLong o i n → s.issues w o (shapePhgive o) {} → p.en = true →
       (p.taken = 0 → exec i s = .next (s.trapped (trapOf .phState))) ∧
       (let reads : Bool := (s.ownCopies w).any fun c => c.todo.any fun m => unreadLocal m (p.slotAddr p.oldest) (64 * p.slotsz)
        (p.taken ≠ 0 → reads = false → exec i s = .next ((s.setHole h p.give).completed n)) ∧
        (p.taken ≠ 0 → reads = true → exec i s = .next (s.blockWith .hazard)))) ∧
     (spells .phstat .phstatShort shortLong o i n → s.issues w o (shapePhstat o) {} → p.en = true →
       exec i s = .next ((s.setX (fieldReg o.d) p.stateWord).completed n))) ∧
  (∀ (o : LF) (w : Who) (s : State) (i : Instr) (n : Nat),
     let q := queueNum o.b
     let ws := s.cur.team.tq.get q
     (spells .tqput .tqputShort shortLong o i n → s.issues w o (shapeTqput o) { route := some (o.b.toNat, true) } →
       (ws.length < 16 → exec i s = .next ((s.setQueue q (ws ++ [s.x (fieldReg o.a)])).completed n)) ∧
       (16 ≤ ws.length → (s.member (queueEnds q).2).ended = true → exec i s = .next (s.trapped (trapOf .teamEnded))) ∧
       (16 ≤ ws.length → (s.member (queueEnds q).2).ended = false → exec i s = .next (s.blockWith (.tqput q.val)))) ∧
     (spells .tqget .tqgetShort shortLong o i n ∨ spells .tqget .tqgetPkShort (fun rd rs1 rs2 => shortLF rd rs1 rs2 1) o i n →
       s.issues w o (shapeTqget o) { route := some (o.b.toNat, false) } →
       (∀ v rest, ws = v :: rest →
         (o.sub = 1 → exec i s = .next ((s.setX (fieldReg o.d) v).completed n)) ∧
         (o.sub ≠ 1 → exec i s = .next (((s.setQueue q rest).setX (fieldReg o.d) v).completed n))) ∧
       (ws = [] → (s.member (queueEnds q).1).ended = true → exec i s = .next (s.trapped (trapOf .teamEnded))) ∧
       (ws = [] → (s.member (queueEnds q).1).ended = false → exec i s = .next (s.blockWith (.tqget q.val)))))

/-! ### Tasks, speculation and tenant security (13, 02, 06, 22) -/

/-- `tenq` (13 R250, R251, 02 R27): stalled while the task is speculative; a TCB not at a multiple of 128 raises ALIGN, one that
breaks its checks TASK_DESC, one not in a state to start TASK_STATE; otherwise the sorter takes the task, READY with no dependence left
and WAITING otherwise. The issuer's dirty lines are written back before the checks begin, and stay so on a trap. -/
def Obligations.TaskEnqueue : Prop :=
  ∀ (o : LF) (w : Who) (s : State) (i : Instr) (n : Nat),
    let b := s.x (fieldReg o.a)
    let s1 := s.wbAll s.cur.cluster s.cur.cid
    spells .tenq .tenqShort shortLong o i n → s.issues w o (shapeTenq o) {} →
    (s.cur.spec = true → exec i s = .next (s.blockWith .spec)) ∧
    (s.cur.spec = false → s.ownCopies w = [] →
      (brefOff b % 128 ≠ 0 → exec i s = .next (s1.trapped (trapAt .align b 128))) ∧
      (∀ u ps, brefOff b % 128 = 0 → s1.passes s1.cur.cid b 128 (rightR ||| rightW) = true →
        s1.translatePages s1.memberAcc b 128 true = .ok (u, ps) →
        let v := u.devTouch u.sorterAcc b 128
        let t := parseTcb (v.devRead v.sorterAcc b 128)
        let x := v.devTouch (v.tcbAcc t) t.code 128
        let y := x.touchDecls t
        let state : Word := BitVec.ofNat 64 t.state
        (x.tcbOk s.cur.cid t = false → exec i s = .next (x.trapped { cause := .taskDesc, d1 := b, d2 := state })) ∧
        (x.tcbOk s.cur.cid t = true → t.state % 16 ∉ [0, 4, 7] →
          exec i s = .next (x.trapped { cause := .taskState, d1 := b, d2 := state })) ∧
        (x.tcbOk s.cur.cid t = true → t.state % 16 ∈ [0, 4, 7] → exec i s = .next ((y.registerTask b t).external.completed n)) ∧
        (y.tcbTask b t).state = (if t.depCount = 0 then .ready else .waiting) ∧ (y.tcbTask b t).tcb = b ∧
        (y.tcbTask b t).cid = y.cur.cid ∧ (y.tcbTask b t).deps = t.depCount))

/-- The ends of a member (13 R252-R255): `tend` ends the member once nothing of it is in flight; the last member empties the
token queues, raises SYNC_STATE while the task holds a sync object, and parks a speculative task; `tyield` begins a save for a
team swap where another task of its priority waits, and does nothing otherwise; `tabort` raises TASK_ABORT with x[A]. `lnch` and
`twait` (13 R256, R257, 02 R20): a child launch whose record and ranges pass puts the record at its queue's TAIL, once the
visibility ranges are written back, and counts a child of its launch; a debugger's step holds the record there (18 R321), and a stalled
queue blocks it; `twait` completes when the masked word at its home meets the condition, with the word in x[D] and the cluster's lines of
the context invalidated, and waits otherwise, under the descriptor that its checks found (19 R325); a line that fails is reported once for as long as it goes on
failing. Which tasks `tyield` makes way for is the model's reading (log entry 28), and that a stepped `lnch` leaves its record held in the
queue is its choice (log entry 29). -/
def Obligations.TaskControl : Prop :=
  (∀ (o : LF) (w : Who) (s : State) (i : Instr) (n : Nat),
     let t := s.cur.team
     let idle : Prop := if w = .seq then t.landings = [] ∧ t.matBusy = 0 else s.ownCopies w = [] ∧ s.courierTiles w = 0
     let ended := s.setMember w { s.member w with ended := true }
     let last := w.others.all fun v => (s.member v).ended
     (spells .tend (fun _ _ _ => .tendShort) (fun _ _ _ => shortLF 0 0 0 0) o i n → s.issues w o (shapeTend o) {} →
       (idle → last = false → exec i s = .next (ended.completed n)) ∧
       (idle → last = true → s.holding = true → exec i s = .next (s.trapped (trapOf .syncState))) ∧
       (idle → last = true → s.holding = false → s.cur.spec = false →
         exec i s = .next ((ended.setTeam { ended.cur.team with tq := Vector.replicate 8 [] }).completed n)) ∧
       (idle → last = true → s.holding = false → s.cur.spec = true →
         exec i s = .next ((s.endMember w).park.completed n) ∧ (s.endMember w).cur.allEnded = true) ∧
       (¬ idle → w = .seq → exec i s = .next (s.blockWith .tend).drainCycle) ∧ (¬ idle → w ≠ .seq → exec i s = .next (s.blockWith .tend))) ∧
     (spells .tyield (fun _ _ _ => .tyieldShort) (fun _ _ _ => shortLF 0 0 0 0) o i n → s.issues w o (shapeTyield o) {} →
       (s.othersWait = true → exec i s = .next (({ s with cur := { s.cur with stop := some (.save 6) } } : State).completed n)) ∧
       (s.othersWait = false → exec i s = .next (s.completed n))) ∧
     (spells .tabort .tabortShort shortLong o i n → s.issues w o (shapeTabort o) {} →
       exec i s = .next (s.trapped { cause := .taskAbort, d1 := s.x (fieldReg o.a) }))) ∧
  (∀ (o : LF) (w : Who) (s : State),
     let a := (s.x (fieldReg o.a)).toNat
     let cid := s.cur.cid
     let part := s.cur.part
     (∀ v : Queue,
       let q := (s.x (fieldReg o.b)).toNat
       let bs := s.localBytes a 64
       let ranges := (visRanges bs).filter fun r => r.2 != 0
       let r := s.rebuild a 64
       let held : Option Nat := if s.cur.stepping = some w then some s.cur.id else none
       s.issues w o (shapeLnch o) {} → (s.member w).wait = none → s.cur.spec = false →
       s.inScratch a 64 = true → a % 64 = 0 → s.localHazard w a 64 false = false → s.badLineIn a 64 = none → s.queueOf cid q = some v → part = partOf cid → part < 8 →
       ((visRanges bs).any fun r => r.2 == 0 && r.1 != 0) = false → r.checkAll ranges rightR = .ok () →
       (∀ c ∈ s.copies, c.task ≠ s.cur.id) →
       let s1 := ranges.foldl (fun (u : State) r => u.wbRange s.cur.cluster cid (u.vaOf cid r.1) r.2) r
       let s2 := (s1.enqueueRecord part q v { s1.memberAcc with cluster := none } ⟨s.cur.launch, held, false⟩ bs).childAdded cid s.cur.launch
       (v.stall = true → exec (.lnch o) s = .next (s1.blockWith (.reservePool none))) ∧
       (v.stall = false → v.tail < 62 →
         (held = none → exec (.lnch o) s = .next (s2.external.completed 8)) ∧
         (held ≠ none → exec (.lnch o) s = .next (s2.external.completedWith 8 (BitVec.ofNat 64 q) 1)))) ∧
     (∀ (u : State) (ps : List Tlb) (desc : List Byte) (report : Bool),
       let n := if o.sub.getLsbD 3 then 8 else 4
       let m := 256 ^ n
       let b := s.x (fieldReg o.a)
       let sgn (v : Nat) : Int := if 2 * v < m then v else (v : Int) - m
       let d := parseDesc desc
       let va := d.vbase + brefOff b
       let x := (u.wbAll s.cur.cluster cid).waitRead d b ps va n report
       let v := x.2.1 &&& (s.x (fieldReg o.d)).toNat % m
       let k := (s.x (fieldReg o.b)).toNat % m
       let cond := (o.sub.extractLsb' 0 3).toNat
       let holds : Bool :=
         if cond = 0 then v == k else if cond = 1 then v != k else if cond = 2 then v < k else if cond = 3 then k ≤ v
         else if cond = 4 then sgn v < sgn k else sgn k ≤ sgn v
       s.issues w o (shapeTwait o) {} → s.cur.spec = false →
       ((∀ a k x f d, (s.member w).wait ≠ some (.twait a k x f d)) ∧ brefOff b % n = 0 ∧ s.passes cid b n rightA = true ∧
           desc = s.descBytes cid b ∧ report = true) ∨
         (∃ a k x f, (s.member w).wait = some (.twait a k x f desc) ∧ report = !f) →
       s.translateUnder d s.memberAcc b n false = .ok (u, ps) → s.ownCopies w = [] →
       (holds = true → exec (.twait o) s =
         .next (((x.1.invAll s.cur.cluster cid).external.setX (fieldReg o.d) (BitVec.ofNat 64 x.2.1)).completed 8)) ∧
       (holds = false → exec (.twait o) s = .next (x.1.blockWith (.twait va n (BitVec.ofNat 64 x.2.1) x.2.2 desc)))))

/-- What a task reads of itself and its place (13 R258, R259, R261) and the clearing of local bytes (13 R266): `specq` gives the
speculation word, `vdist` the hop distance of two virtual dies, all ones outside the table; `kstat` the word of a block; `scrub`
zeroes aligned lines of a scratchpad. -/
def Obligations.TaskQueries : Prop :=
  ∀ (o : LF) (w : Who) (s : State) (i : Instr) (n : Nat),
    let b := s.x (fieldReg o.a)
    let len := (s.x (fieldReg o.b)).toNat
    (spells .specq .specqShort shortLong o i n → s.issues w o (shapeSpecq o) {} →
      (s.cur.tcb = 0 → exec i s = .next ((s.setX (fieldReg o.d) 0).completed n)) ∧
      (s.cur.tcb ≠ 0 → exec i s = .next ((s.setX (fieldReg o.d) (BitVec.ofNat 64
        (64 * s.cur.slot1 + 16 * s.cur.slot0 + (if s.cur.spec then 2 * s.cur.depth + 1 else 0)))).completed n))) ∧
    (spells .vdist .vdistShort shortLong o i n → s.issues w o (shapeVdist o) {} →
      let vs := s.vdies s.cur.cid
      let c := s.x (fieldReg o.b)
      (b.toNat < vs.length → c.toNat < vs.length →
        exec i s = .next ((s.setX (fieldReg o.d) (BitVec.ofNat 64 (s.hops (vs.getD b.toNat 0) (vs.getD c.toNat 0)))).completed n)) ∧
      (vs.length ≤ b.toNat ∨ vs.length ≤ c.toNat →
        exec i s = .next ((s.setX (fieldReg o.d) (BitVec.allOnes 64)).completed n))) ∧
    (∀ (u : State) (ps : List Tlb) (p : Page), spells .kstat .kstatShort shortLong o i n → s.issues w o (shapeKstat o) {} →
      s.passes s.cur.cid b 1 rightR = true → s.translatePages s.memberAcc b 1 false = .ok (u, ps) →
      pageOf ps (s.vaOf s.cur.cid b) = some p →
      let pa := p.at (s.vaOf s.cur.cid b)
      let v := u.settle pa
      exec i s = .next ((v.setX (fieldReg o.d) (v.blockWord (v.block pa) (s.desc s.cur.cid b).keyslot p.nb)).completed n)) ∧
    (spells .scrub .scrubShort shortLong o i n → s.issues w o (shapeScrub o) {} →
      let a := b.toNat
      (len = 0 → exec i s = .next (s.completed n)) ∧
      (len ≠ 0 → s.inScratch a len = false → exec i s = .next (s.trapped (trapAt .localAddr b len))) ∧
      (len ≠ 0 → s.inScratch a len = true → a % 64 ≠ 0 ∨ len % 64 ≠ 0 → exec i s = .next (s.trapped (trapAt .align b len))) ∧
      (len ≠ 0 → s.inScratch a len = true → a % 64 = 0 → len % 64 = 0 → s.localHazard w a len true = false →
        exec i s = .next ((s.setLocalBytes a (List.replicate len 0)).completed n)))

/-- Key rotation and dead ranges (13 R260, R267, 22 R369, R374): `krot` rotates each block of its range to the current half of
its key slot and gives the number of blocks that failed; `mdead` marks each block of its range dead. A length of 0 changes
nothing; an address or a length that is not whole blocks stops them. They stall a speculative task. That a length of 0 comes before the
alignment of the address, gives 0 in `krot` and counts as an external operation is the model's choice (log entry 24). What the lock of a
block holds is performed before the block is marked dead (22 R374). -/
def Obligations.BlockInstructions : Prop :=
  ∀ (o : LF) (w : Who) (s u : State) (ps : List Tlb),
    let b := s.x (fieldReg o.a)
    let n := (s.x (fieldReg o.b)).toNat
    let va := s.vaOf s.cur.cid b
    let d := s.desc s.cur.cid b
    (∀ p ∈ ([(.krot o, shapeKrot o), (.mdead o, shapeMdead o)] : List (Instr × Shape)),
      s.issues w o p.2 {} → s.cur.spec = true → exec p.1 s = .next (s.blockWith .spec)) ∧
    (s.issues w o (shapeKrot o) {} → s.cur.spec = false →
      (n % 4096 ≠ 0 ∨ 1048576 < n → exec (.krot o) s = .next (s.trapped (trapOf .illegalOperand))) ∧
      (n = 0 → exec (.krot o) s = .next ((s.external.setX (fieldReg o.d) 0).completed 8)) ∧
      (n ≠ 0 → n % 4096 = 0 → n ≤ 1048576 → va % 4096 ≠ 0 → exec (.krot o) s = .next (s.trapped (trapAt .align b n))) ∧
      (n ≠ 0 → n % 4096 = 0 → n ≤ 1048576 → va % 4096 = 0 → s.passes s.cur.cid b n (rightR ||| rightW) = true →
        s.translatePages s.memberAcc b n true = .ok (u, ps) → s.bufHazard w va n true = false →
        let x := (blockStarts va n).foldl (fun (x : State × Nat) a =>
          match pageOf ps a with
          | none => x
          | some p => ((x.1.rotateBlock b a (p.at a) d.keyslot).1, x.2 + (x.1.rotateBlock b a (p.at a) d.keyslot).2)) (u, 0)
        exec (.krot o) s = .next ((x.1.external.setX (fieldReg o.d) (BitVec.ofNat 64 x.2)).completed 8))) ∧
    (s.issues w o (shapeMdead o) {} → s.cur.spec = false →
      (n = 0 → exec (.mdead o) s = .next (s.external.completed 8)) ∧
      (n ≠ 0 → va % 4096 ≠ 0 ∨ n % 4096 ≠ 0 → exec (.mdead o) s = .next (s.trapped (trapAt .align b n))) ∧
      (n ≠ 0 → va % 4096 = 0 → n % 4096 = 0 → s.passes s.cur.cid b n rightW = true → d.de = false →
        exec (.mdead o) s = .next (s.trapped (trapAt .bufRights b n))) ∧
      (n ≠ 0 → va % 4096 = 0 → n % 4096 = 0 → s.passes s.cur.cid b n rightW = true → d.de = true →
        (∀ a ∈ blockStarts va n, s.onNbPage a = false) →
        s.translatePages s.memberAcc b n true = .ok (u, ps) → s.bufHazard w va n true = false →
        let u1 := u.wbRange s.cur.cluster s.cur.cid va n
        let u2 := (blockStarts va n).foldl (fun (x : State) a => match pageOf ps a with
          | none => x
          | some p => x.killBlock (p.at a)) u1
        exec (.mdead o) s = .next ((u2.invRange s.cur.cluster s.cur.cid va n).external.completed 8)))

/-- Sealed images (13 R262-R265): `seal` of ranges that pass its checks writes back their lines, writes the image at IMAGE and
gives its size in x[D]; `unseal` of a readable image, read after the dirty bytes that its cluster holds of it (05 R82), gives its verdict in x[D]: 0 with the ranges written, 1 to 4 with none of
them written. -/
def Obligations.SealedImages : Prop :=
  ∀ (o : LF) (w : Who) (s : State),
    let a := (s.x (fieldReg o.a)).toNat
    let cid := s.cur.cid
    let d := s.sealDesc a
    (s.issues w o (shapeSealImage o) {} → s.cur.spec = true → exec (.sealImage o) s = .next (s.blockWith .spec)) ∧
    (s.issues w o (shapeUnsealImage o) {} → s.cur.spec = true → exec (.unsealImage o) s = .next (s.blockWith .spec)) ∧
    (∀ (u v : State) (ps qs : List Tlb),
      let len := 64 + 16 * d.2.2.1
      let rs := parseRanges (s.localBytes (a + 64) (16 * d.2.2.1)) d.2.2.1
      let size := imageSize rs
      let ranges := rs.map fun r => (r.1, r.2.1)
      let r := s.rebuild a len
      s.issues w o (shapeSealImage o) {} → s.cur.spec = false → a % 64 = 0 → s.inScratch a 64 = true → s.inScratch a len = true →
      s.localHazard w a 64 false = false → s.localHazard w a len false = false → s.badLineIn a len = none → d.2.2.2 = false → 1 ≤ d.2.2.1 → d.2.2.1 ≤ 8 → (∀ r ∈ rs, rangeOk r = true) → size ≤ d.2.1 →
      (∀ r ∈ rs, meets (s.vaOf cid d.1) size (s.vaOf cid r.1) r.2.1 = false) →
      r.checkAll ranges rightR = .ok () → r.passes cid d.1 size rightW = true →
      r.translateAll ranges false = .ok (u, ps) → u.translateAll [(d.1, size)] true = .ok (v, qs) →
      (∀ c ∈ s.copies, c.task ≠ s.cur.id) → s.bufHazard w (s.vaOf cid d.1) size true = false →
      let u1 := ranges.foldl (fun (x : State) r => x.wbRange s.cur.cluster cid (x.vaOf cid r.1) r.2) v
      exec (.sealImage o) s =
        .next ((((u1.sealImage d.1 rs (ps ++ qs)).external).setX (fieldReg o.d) (BitVec.ofNat 64 size)).completed 8)) ∧
    (∀ (u : State) (ps : List Tlb),
      let x := (u.wbRange s.cur.cluster cid (s.vaOf cid d.1) d.2.1).sealRead d.1 ps d.2.1
      let r := s.rebuild a 64
      s.issues w o (shapeUnsealImage o) {} → s.cur.spec = false → s.inScratch a 64 = true → a % 64 = 0 → s.badLineIn a 64 = none →
      s.localHazard w a 64 false = false → d.2.2.2 = false → d.2.2.1 = 0 → r.passes cid d.1 d.2.1 rightR = true →
      r.translatePages r.memberAcc d.1 d.2.1 false = .ok (u, ps) → s.bufHazard w (s.vaOf cid d.1) d.2.1 false = false →
      (∀ code, x.1.unsealVerdict x.2 d.2.1 = .error code →
        exec (.unsealImage o) s = .next ((x.1.external.setX (fieldReg o.d) (BitVec.ofNat 64 code)).completed 8) ∧
          1 ≤ code ∧ code ≤ 4) ∧
      (∀ rs v qs, x.1.unsealVerdict x.2 d.2.1 = .ok rs →
        x.1.translateAll (rs.map fun r => (r.1.1, r.1.2.1)) true = .ok (v, qs) →
        (∀ r ∈ rs, x.1.bufHazard w (x.1.vaOf x.1.cur.cid r.1.1) r.1.2.1 true = false) →
        exec (.unsealImage o) s = .next (((v.unsealWrite qs rs).external.setX (fieldReg o.d) 0).completed 8)))

/-! ### Class 15 (23) -/

/-- The die's sorter, image and debug instructions of class 15 (23 R383-R387, 18 R313, R314, R320, R321): on the task its
selector names each has the effect and the status that the manual gives; REFUSED, BADARG, STATE, NOIMG and VERIFY leave
the task as it is, but for VERIFY, which fails it. `tresm` and `tcanc` are the hub's, and REFUSED on a die controller's hart. One that waits
ends with its status once that is settled. A step restores the task's team where a core and its stamps are free, and can be
abandoned while it waits for one or is blocked; `tresm.rel` releases every record that the debugger holds. The model's own choices here:
`ckrb` of a task with no checkpoint inside its speculation (log entry 26), where a step runs and what it holds (29), which of two statuses
is given (30), the save of a parked or held task (31), and what an abandoned step leaves asked for (70). -/
def Obligations.TaskAnswers : Prop :=
  ∀ (o : LF) (h : Fin 16) (s : State) (t : Task),
    let b := (s.x (fieldReg o.b)).toNat
    let status (u : State) (code : Nat) : State := (u.setX (fieldReg o.d) (BitVec.ofNat 64 code)).completed 8
    let waits (u : State) (k : HartWait) : State := u.setHart h { u.hart h with wait := some k }
    let hold (u : State) (r : Nat) : State := { u with cur := { u.cur with stop := some (.save r), preemptAt := u.hub.time } }
    let sel := s.selected h (s.x (fieldReg o.a)).toNat
    (∀ (i : Instr) (sh : Shape) (code : Nat), (i, sh) ∈ ([(.ctxsv o, shapeCtxsv o), (.ctxsvHalt o, shapeCtxsvHalt o),
        (.ctxrs o, shapeCtxrs o), (.ckpt o, shapeCkpt o), (.ckrb o, shapeCkrb o)] : List (Instr × Shape)) →
      s.issuesSys h o sh → sel = .error code → exec i s = .next (status s code)) ∧
    (∀ (i : Instr) (sh : Shape), (i, sh) ∈ ([(.tresmResume o, shapeTresmResume o),
        (.tresmRestart o, shapeTresmRestart o), (.tresmStep o, shapeTresmStep o), (.tresmAbandon o, shapeTresmAbandon o),
        (.tresmRel o, shapeTresmRel o), (.tresmSvc o, shapeTresmSvc o), (.tcanc o, shapeTcanc o)] : List (Instr × Shape)) →
      s.issuesSys h o sh →
      (8 ≤ h.val → exec i s = .next (status s 1)) ∧
      (∀ code, h.val < 8 → sel = .error code → exec i s = .next (status s code))) ∧
    (∀ (i : Instr) (sh : Shape) (code : Nat), (i, sh) ∈ ([(.ctxsv o, shapeCtxsv o), (.ctxsvHalt o, shapeCtxsvHalt o),
        (.ckpt o, shapeCkpt o), (.ckrb o, shapeCkrb o)] : List (Instr × Shape)) →
      s.focus = .hart h → (s.hart h).mode ≠ 0 → sh.fieldsOk o = true → (s.hart h).wait = some (.status code) →
      exec i s = .next (status (s.setHart h { s.hart h with wait := none }) code)) ∧
    (sel = .ok t →
      (∀ p ∈ ([(.ctxsv o, shapeCtxsv o, 1), (.ctxsvHalt o, shapeCtxsvHalt o, 5)] : List (Instr × Shape × Nat)),
        s.issuesSys h o p.2.1 →
        (t.state ≠ .running → exec p.1 s = .next (status s 3)) ∧
        (t.state = .running → t.core = none → exec p.1 s = .next (status (s.withTask t.id fun u => u.finishSave p.2.2) 0)) ∧
        (t.state = .running → t.core ≠ none → t.stop = none →
          exec p.1 s = .next (waits (s.withTask t.id fun u => hold u p.2.2) (.saved t.id))) ∧
        (t.state = .running → t.core ≠ none → t.stop ≠ none → exec p.1 s = .next (waits s (.saved t.id)))) ∧
      (s.issuesSys h o (shapeCtxrs o) →
        (t.state ≠ .saved ∧ t.state ≠ .rolledBack) ∨ (t.halted = false ∧ t.reason ≠ 7) ∨ t.stepping ≠ none →
        exec (.ctxrs o) s = .next (status s 3)) ∧
      (s.issuesSys h o (shapeCkpt o) → t.state ≠ .running → exec (.ckpt o) s = .next (status s 3)) ∧
      (s.issuesSys h o (shapeCkrb o) → t.state ≠ .running ∨ s.rollbackable t = false →
        exec (.ckrb o) s = .next (status s 3)) ∧
      (s.issuesSys h o (shapeCtxrs o) → t.state = .saved ∨ t.state = .rolledBack → t.halted = true ∨ t.reason = 7 →
        t.stepping = none →
        (t.image = false → exec (.ctxrs o) s = .next (status s 4)) ∧
        (t.image = true → s.verifies t.id = false → exec (.ctxrs o) s = .next (status (s.failedImage t.id) 6)) ∧
        (t.image = true → s.verifies t.id = true → exec (.ctxrs o) s = .next (status ((s.withTask t.id fun u =>
          ({ u with cur := { u.cur with halted := false } } : State).makeReady).readied [t.id]) 0))) ∧
      (s.issuesSys h o (shapeCkpt o) → t.state = .running →
        exec (.ckpt o) s = .next (waits (s.withTask t.id fun u => { u with cur := { u.cur with ckptDue := true } }) (.ckpt t.id))) ∧
      (s.issuesSys h o (shapeCkrb o) → t.state = .running → s.rollbackable t = true →
        (t.ckptInSpec = true → exec (.ckrb o) s = .next (status (s.withTask t.id fun u => u.rollback 3) 0)) ∧
        (t.ckptInSpec = false → t.policy.getLsbD 3 = true → exec (.ckrb o) s = .next (status ((s.withTask t.id State.kill).noted s) 0)) ∧
        (t.ckptInSpec = false → t.policy.getLsbD 3 = false → t.core = none →
          exec (.ckrb o) s = .next (status (s.withTask t.id fun u => u.finishSave 1) 0)) ∧
        (t.ckptInSpec = false → t.policy.getLsbD 3 = false → t.core ≠ none →
          exec (.ckrb o) s = .next (waits (s.withTask t.id fun u => u.applyPolicy .save 1) (.saved t.id))))) ∧
    (h.val < 8 → sel = .ok t →
      (∀ p ∈ ([(.tresmResume o, shapeTresmResume o), (.tresmRestart o, shapeTresmRestart o), (.tresmAbandon o, shapeTresmAbandon o),
          (.tresmRel o, shapeTresmRel o)] : List (Instr × Shape)),
        s.issuesSys h o p.2 → b ≠ 0 → exec p.1 s = .next (status s 2)) ∧
      (∀ p ∈ ([(.tresmResume o, shapeTresmResume o), (.tresmRestart o, shapeTresmRestart o)] : List (Instr × Shape)),
        s.issuesSys h o p.2 → b = 0 → t.answerable = false → exec p.1 s = .next (status s 3)) ∧
      (s.issuesSys h o (shapeTresmStep o) → b ≤ 2 → t.answerable = false → exec (.tresmStep o) s = .next (status s 3)) ∧
      (s.issuesSys h o (shapeTresmStep o) → 2 < b → exec (.tresmStep o) s = .next (status s 2)) ∧
      (s.issuesSys h o (shapeTcanc o) → t.answerable = false → exec (.tcanc o) s = .next (status s 3)) ∧
      (t.answerable = true →
        (s.issuesSys h o (shapeTresmResume o) → b = 0 → t.image = true → s.verifies t.id = true →
          exec (.tresmResume o) s = .next (status ((s.withTask t.id fun u => u.releaseHeld.resumeTask).readied [t.id]) 0)) ∧
        (s.issuesSys h o (shapeTresmRestart o) → b = 0 →
          exec (.tresmRestart o) s = .next (status ((s.withTask t.id fun u => u.releaseHeld.restartTask).readied [t.id]) 0)) ∧
        (s.issuesSys h o (shapeTresmStep o) → b ≤ 2 → t.image = true → (t.team.member (whoOf b)).ended = false →
          s.verifies t.id = true →
          exec (.tresmStep o) s = .next (status (s.withTask t.id fun u => u.beginStep (whoOf b)) 0)) ∧
        (∀ p ∈ ([(.tresmResume o, shapeTresmResume o, b = 0),
            (.tresmStep o, shapeTresmStep o, b ≤ 2 ∧ (t.team.member (whoOf b)).ended = false)] : List (Instr × Shape × Prop)),
          s.issuesSys h o p.2.1 → p.2.2 →
          (t.image = false → b ≤ 2 → exec p.1 s = .next (status s 4)) ∧
          (t.image = true → s.verifies t.id = false → exec p.1 s = .next (status (s.failedImage t.id) 6))) ∧
        (s.issuesSys h o (shapeTcanc o) → exec (.tcanc o) s = .next (status (s.withTask t.id State.cancel) 0))) ∧
      (s.issuesSys h o (shapeTresmAbandon o) → b = 0 →
        (t.stepping = none → exec (.tresmAbandon o) s = .next (status s 3)) ∧
        (∀ w, t.stepping = some w →
          (t.core ≠ none → (t.team.member w).wait = none → exec (.tresmAbandon o) s = .next (status s 3)) ∧
          (t.core = none ∨ (t.team.member w).wait ≠ none →
            exec (.tresmAbandon o) s = .next (status (s.withTask t.id fun u =>
              (u.setMember w (u.member w).abandoned).stepEnds w 0 (BitVec.allOnes 64)) 0)))) ∧
      (s.issuesSys h o (shapeTresmRel o) → b = 0 →
        ((s.focusTask t.id).heldChildren = 0 → exec (.tresmRel o) s = .next (status s 3)) ∧
        ((s.focusTask t.id).heldChildren ≠ 0 → exec (.tresmRel o) s = .next (status (s.withTask t.id State.releaseHeld) 0))) ∧
      (s.issuesSys h o (shapeTresmSvc o) → s.blockAt b = true → (s.answerAt b).ok = true →
        let r := s.answerAt b
        let w := whoOf r.member
        (t.state ≠ .done → t.state ≠ .cancelled → (t.team.member w).svc = some r.tag → (t.team.member w).answer = none →
          exec (.tresmSvc o) s = .next (status (s.withTask t.id fun u =>
            if r.action = 0 then u.deliverReturn w r else u.deliverFault w r) 0)) ∧
        (t.state = .done ∨ t.state = .cancelled ∨ (t.team.member w).svc ≠ some r.tag ∨ (t.team.member w).answer ≠ none →
          exec (.tresmSvc o) s = .next (status s 3))) ∧
      (s.issuesSys h o (shapeTresmSvc o) → s.blockAt b = false ∨ (s.answerAt b).ok = false →
        exec (.tresmSvc o) s = .next (status s 2)))

/-- The hub's instructions of class 15 (23 R388-R394, 19 R334, 20 R339, 21 R358-R362, 22 R368, 24 R406, 25 R409), on a hart of
the hub that may act on the partition, with operands in range and the state they need: key slots are loaded and cleared by
halves, translations invalidated, virtual-die tables written, dies lent and recalled, queue segments linked, records posted,
stamps and time set. On a die controller's hart those marked "hub" answer REFUSED. One that waits ends with its status once that is settled.
The model's own choices here: what is performed before a slot is cleared (log entry 32), the slot that `qlink` passes over where no
producer stalls (33), what a new table does to the tasks of its context (34), and `tadj` on a package that follows a master (87). -/
def Obligations.HubInstructions : Prop :=
  ∀ (o : LF) (h : Fin 16) (s : State),
    let a := s.x (fieldReg o.a)
    let b := s.x (fieldReg o.b)
    let status (u : State) (code : Nat) : State := (u.setX (fieldReg o.d) (BitVec.ofNat 64 code)).completed 8
    let waits (u : State) (k : HartWait) : State := u.setHart h { u.hart h with wait := some k }
    let p := (a.extractLsb' 0 3).toNat
    let n := (a.extractLsb' 8 6).toNat
    let k := s.keySlot n
    let g := s.genKey p n
    let may (q : Nat) : Prop := (s.hart h).mayActOn q = true
    let fits : Prop := a &&& ~~~0x3F07#64 = 0
    let die := a.toNat
    (∀ i ∈ ([(.tlbir o, shapeTlbir o), (.ksload o, shapeKsload o), (.ksloadNew o, shapeKsloadNew o), (.ksclr o, shapeKsclr o),
        (.ksclrAll o, shapeKsclrAll o), (.slmap o, shapeSlmap o), (.slend o, shapeSlend o), (.slrcl o, shapeSlrcl o),
        (.qlink o, shapeQlink o), (.errpost o, shapeErrpost o), (.tset o, shapeTset o), (.tadj o, shapeTadj o)] : List (Instr × Shape)),
      8 ≤ h.val → s.issuesSys h o i.2 → exec i.1 s = .next (status s 1)) ∧
    (∀ (i : Instr) (sh : Shape) (code : Nat), (i, sh) ∈ ([(.tlbir o, shapeTlbir o), (.slrcl o, shapeSlrcl o)] : List (Instr × Shape)) →
      s.focus = .hart h → (s.hart h).mode ≠ 0 → sh.fieldsOk o = true → (s.hart h).wait = some (.status code) →
      exec i s = .next (status (s.setHart h { s.hart h with wait := none }) code)) ∧
    (h.val < 8 →
      (may p → fits →
        (s.issuesSys h o (shapeKsloadNew o) → b = 0 → (s.part p).tenant ≠ none → 8 ≤ k.part →
          exec (.ksloadNew o) s = .next (status ((s.setKeySlot n ⟨p, g, none, false⟩).takeGen p) 0)) ∧
        (k.part = p →
          (s.issuesSys h o (shapeKsload o) → (s.part p).tenant ≠ none → k.h0 = none ∨ k.h1 = none →
            exec (.ksload o) s = .next (status ((s.setKeySlot n
              (if k.cur then { k with h0 := g, cur := false } else { k with h1 := g, cur := true })).takeGen p) 0)) ∧
          (s.issuesSys h o (shapeKsload o) → k.h0 ≠ none → k.h1 ≠ none → exec (.ksload o) s = .next (status s 3)) ∧
          (s.issuesSys h o (shapeKsclr o) →
            (b = 0 → k.h0 ≠ none → exec (.ksclr o) s = .next (status ((s.settleSlot n).setKeySlot n { k with h0 := none }) 0)) ∧
            (b = 1 → k.h1 ≠ none → exec (.ksclr o) s = .next (status ((s.settleSlot n).setKeySlot n { k with h1 := none }) 0))) ∧
          (s.issuesSys h o (shapeKsclrAll o) →
            exec (.ksclrAll o) s = .next (status ((s.settleSlot n).setKeySlot n ⟨8, none, none, false⟩) 0)))) ∧
      (s.issuesSys h o (shapeTlbir o) →
        let cid := b.toNat / 2 ^ 52
        let len := b.toNat % 2 ^ 52
        may (partOf cid) → die % 4096 = 0 → len % 4096 = 0 → len ≠ 0 → die + len ≤ 2 ^ 56 →
        exec (.tlbir o) s = .next (waits (s.startInval h cid die len) (.tlbir s.nextId))) ∧
      (∀ (c : Context) (new : List Nat), s.issuesSys h o (shapeSlmap o) → may (partOf die) → die < 4096 →
        s.blockAt b.toNat = true → s.ctx? die = some c →
        s.vdieTable (partOf die) (s.fwRead b.toNat 16) = some new →
        (s.ctxBusy die = true → exec (.slmap o) s = .next (status s 3)) ∧
        (s.ctxBusy die = false → exec (.slmap o) s = .next (status (s.bindVdies c new (s.fwRead b.toNat 16)) 0))) ∧
      (∀ q, s.issuesSys h o (shapeSlend o) → s.blockAt die = true →
        let f (at_ m : Nat) : Nat := s.physNat (die + at_) m
        s.sliceOwner (f 0 1) = some q → may q → f 1 1 < 8 → f 1 1 ≠ q → f 2 1 < (s.part (f 1 1)).slices.length → f 3 1 < 2 →
        140 ≤ f 4 4 → f 4 4 ≤ 10000 → f 8 8 = 0 → (s.die (f 0 1)).loan = none → (s.die (f 0 1)).stands = true → s.dieIdle q (f 0 1) = true →
        let s1 := (s.scrubDie (f 0 1)).rekey [q, f 1 1]
        exec (.slend o) s = .next (status (s1.setDie (f 0 1)
          { s1.die (f 0 1) with loan := some ⟨q, f 1 1, f 2 1, f 4 4, f 3 1 == 1, none, []⟩, keys := some (f 1 1) }) 0)) ∧
      (s.issuesSys h o (shapeSlrcl o) → die < 8 → may ((s.sliceOwner die).getD 8) →
        ((s.die die).loan = none → exec (.slrcl o) s = .next (status s 3)) ∧
        ((s.die die).loan ≠ none → exec (.slrcl o) s = .next (waits ((s.startRecall die).noted s) (.recall die)))) ∧
      (∀ v : Queue, s.issuesSys h o (shapeQlink o) → may p → fits → (s.part p).queue n = some v →
        let u := s.devTouch (s.deviceAcc v.cid) (b + 4032) 64
        let used : Bool := (u.devRead (u.deviceAcc v.cid) (b + 4032) 64).any (· != 0)
        let s1 := if v.stall then u else u.setPart p ((u.part p).setQueue n { v with posted := v.posted ++ [⟨0, none, true⟩] })
        (s.vaOf v.cid b % 4096 ≠ 0 ∨ s.passes v.cid b 4096 (rightR ||| rightW) = false → exec (.qlink o) s = .next (status s 2)) ∧
        (s.vaOf v.cid b % 4096 = 0 → s.passes v.cid b 4096 (rightR ||| rightW) = true →
          (used = true → exec (.qlink o) s = .next (status u 2)) ∧
          (used = false → v.tail ≠ 62 → exec (.qlink o) s = .next (status u 3)) ∧
          (used = false → v.tail = 62 → exec (.qlink o) s = .next (status (s1.linkSegment p n b) 0)))) ∧
      (s.issuesSys h o (shapeErrpost o) → may (partOf die) → die < 4096 → s.blockAt b.toNat = true →
        s.physNat (b.toNat + 4) 2 = die → s.ctx? die ≠ none →
        let x := s.post die o.fmt.toNat (s.fwRead b.toNat 64)
        exec (.errpost o) s = .next (status x.1 (if x.2 then 0 else 5))) ∧
      (s.issuesSys h o (shapeTset o) →
        (s.hub.timeLocked = true ∨ (s.hub.domain = true ∧ s.hub.tmaster = false) → exec (.tset o) s = .next (status s 3)) ∧
        (s.hub.timeLocked = false → s.hub.domain = false ∨ s.hub.tmaster = true →
          exec (.tset o) s = .next (status { s with hub := { s.hub with time := a.toNat } } 0))) ∧
      (s.issuesSys h o (shapeTadj o) →
        (a.toInt < -4194304 ∨ 4194304 < a.toInt → exec (.tadj o) s = .next (status s 2)) ∧
        (-4194304 ≤ a.toInt → a.toInt ≤ 4194304 → s.hub.domain = true → s.hub.tmaster = false →
          exec (.tadj o) s = .next (status s 3)) ∧
        (-4194304 ≤ a.toInt → a.toInt ≤ 4194304 → s.hub.domain = false ∨ s.hub.tmaster = true →
          exec (.tadj o) s = .next (status { s with hub := { s.hub with rate := a.toInt } } 0)))) ∧
    (s.issuesSys h o (shapeStmp o) → die < 8 → b.toNat ≤ 1360 → may ((s.sliceOwner die).getD 8) → h.val < 8 ∨ h.val = 8 + die →
      exec (.stmp o) s = .next (status (s.setDie die
        { s.die die with stampSet := b.toNat, pool := min b.toNat (s.die die).cap }) 0))

/-! ### Events -/

/-- Events of one task, named by its identity (02 R26, R31, R34, 04 R61, 05 R84, 06 R104-R110, 18 R308, R322, R323, 20
R346-R355): under its condition each has its effect on that task, brought into focus and put back, and one that names no task changes nothing; the
arguments are the model's (log entry 10). What becomes READY by one of them starts the
automatic recalls of lent dies (21 R362); the hang timer is the time the team has not moved (18 R322). Which task takes the place of a
victim that no policy can take is the model's reading (log entry 82), and so are the moment and the members that DETAIL of HANG tells of
(log entry 40) and how a save that is abandoned ends (log entry 92). -/
def Obligations.TaskEvents : Prop :=
  (∀ (s : State), s.task? (s.arg 0) = none → ∀ i ∈ ([.landing, .trap, .taskComplete, .assayNotice, .assayVerdict, .proofStoreTimeout,
     .teamSwap, .swapRequeue, .hangTimeout, .saveComplete, .checkpointDue, .checkpointTaken, .drainTimeout] : List Instr), exec i s = .next s) ∧
  ∀ (s : State), s.task? (s.arg 0) ≠ none →
    let u := s.focusTask (s.arg 0)
    let c := u.cur
    let p := u.part c.part
    let next (v : State) : Host.Outcome State Fault Refusal := .next (v.focusTask s.cur.id)
    let noted (v : State) : Host.Outcome State Fault Refusal := .next ((v.focusTask s.cur.id).noted s)
    let passed (since us : Nat) : Prop := since + 16000 * us ≤ u.hub.time
    let onCore : Prop := c.state = .running ∧ c.core ≠ none ∧ c.stop = none
    let alive : List Member := [c.team.seq, c.team.ld, c.team.st].filter fun m => !m.ended
    let slot := s.arg 1
    (exec .landing s = next (if c.spec then u.setTeam c.team.landDue
      else ((c.team.landings.filter fun e => e.delay == 0).filterMap fun e => e.mx).foldl
        (fun (x : State) n => x.completePm c.cid c.vdie 2 n) (u.setTeam c.team.landDue))) ∧
    (∀ r, c.stop = some (.trap r) → u.inFlight c.id = false → exec .trap s = next (u.finishTrap r)) ∧
    (c.live = true → c.allEnded = true → c.spec = false → c.stepping = none → u.inFlight c.id = false →
      c.state = .running ∨ c.parked = false → exec .taskComplete s = next u.complete) ∧
    (∀ good, c.assay slot = .sent good →
      let v := u.touchSlot true slot
      exec .assayNotice s = next { v with cur := v.cur.setAssay slot (.formed (good && v.assaySlot slot)) }) ∧
    (c.assay slot = .formed true →
      exec .assayVerdict s = noted ({ u with cur := (c.setAssay slot .idle).passSlot slot } : State).tryCommit) ∧
    (c.assay slot = .formed false →
      exec .assayVerdict s = noted ({ u with cur := c.setAssay slot .idle } : State).squash) ∧
    (c.spec = true → c.proofFull = true → passed c.fullAt p.teamWait → exec .proofStoreTimeout s = noted u.squash) ∧
    (onCore → alive.any Member.swappable = true → c.proofFull = false → passed c.issuedAt p.teamWait →
      exec .teamSwap s = next { u with cur := { c with stop := some (.save 2), preemptAt := u.hub.time } }) ∧
    (c.state = .saved → c.reason = 2 → c.halted = false →
      (alive.any Member.timedWait = true ∧ passed c.swappedAt p.teamWait) ∨ (∃ w, u.awaited w = true) →
      exec .swapRequeue s = next (u.makeReady.readied [c.id])) ∧
    (c.core ≠ none → 16000 * p.hang ≤ c.hung →
      (∀ w, c.stop = none → u.hangMember = some w →
        exec .hangTimeout s = noted (u.takeTrap w { cause := .hang, d1 := u.hangDetail c })) ∧
      (c.stop ≠ none → exec .hangTimeout s = noted u.abandonStop)) ∧
    (∀ r, c.stop = some (.save r) → u.inFlight c.id = false → c.allEnded = false ∨ c.spec = true →
      exec .saveComplete s = next (u.finishSave r)) ∧
    (onCore → passed c.ckptAt p.ckptInt ∨ u.logHolds c 7 = true → exec .checkpointDue s = next { u with cur := { c with ckptDue := true } }) ∧
    (onCore → c.ckptDue = true → u.inFlight c.id = false →
      ∃ v, exec .checkpointTaken s = next v ∧ v.cur.ckpt = some c.team ∧ v.cur.ckptDue = false ∧ v.cur.log = [] ∧
        v.mem = u.mem ∧ v.clus = u.clus) ∧
    (onCore → c.draining = true → c.allEnded = false → u.underRecall c = false → passed c.preemptAt p.drainMax →
      let v : State := { u with cur := { c with draining := false } }
      let chosen := v.choose v.cur ((v.newcomerOf v.cur).any v.urgentTask) none
      (∀ q, chosen = some q → exec .drainTimeout s = noted (v.applyPolicy q 1)) ∧
      (chosen = none → exec .drainTimeout s = noted (v.replaceVictim v.cur)))

/-- Events of the sorters and the Postmaster (02 R21-R33, 06 R104, 20 R336-R354, 21 R362, R363, 24 R396): starts, pre-emption,
gang switches, recalls, and the acceptance, dispatch and credit of launch queues. A record that a debugger holds is not accepted, and one
discarded while held is passed over (18 R321); a quantum is 100 microseconds of package time; a stepped task takes a core as a started one
does (18 R320). The model's own choices here: the arguments (log entry 10), when a quantum's tick comes (39),
whose member states a late kill tells (40), the fresh queue of a window without a descriptor (51), the supervisor's submissions (79) and the
reply that tells the owner of a reset slice (83). -/
def Obligations.SchedulerEvents : Prop :=
  ∀ (s : State),
    let a := s.arg 0
    let b := s.arg 1
    let passed (since us : Nat) : Prop := since + 16000 * us ≤ s.hub.time
    let bs8 := ((s.args.drop 4).take 8).flatMap fun w => leBytes 8 w
    let size := if s.arg 2 = 0 then s.arg 3 else 0
    (∀ t, s.task? a = some t →
      (s.startsOn t b = true → exec .taskStart s = .next ((s.startTask t b).noted s)) ∧
      (s.startsOn t b = false → s.stepsOn t b = true → exec .taskStart s = .next (s.withTask t.id fun u => u.stepOn b)) ∧
      (∀ l d q vs, t.queued = true → (s.queueHead t.die).map Task.id = some t.id → s.startable t = false →
        s.launch? t.cid t.launch = some l → s.preemptDie t = some d → s.covered t d = false → (s.part l.part).queue l.queue = some q →
        coverDemand (s.victims t d q.urgent none) (s.stampsLeft t d + s.stampsDue t) t.demand = some vs → vs.length ≤ q.tokens →
        exec .preempt s = .next ((s.preemptFor t l q vs 0).noted s))) ∧
    (let u := s.withTask a fun v => (v.touchSlot false 0).touchSlot false 1
     ∀ t, u.task? a = some t → u.grants t b = true → exec .speculativeStart s = .next (u.startSpec t b)) ∧
    (∀ c, s.gang = none → s.ctx? a = some c → c.gang = true →
      exec .gangSwitch s = .next (((s.allTasks.filter fun t => t.cid == a && t.state == .running && t.core.isSome && t.stop.isNone).foldl
        (fun (u : State) t => u.withTask t.id fun v => v.preemptOne true none 7)
        { s with gang := some ⟨a, b, s.hub.time, [], [], s.gangMembers a⟩ }).noted s)) ∧
    (∀ g, s.gang = some g → g.cid = a →
      (b ∈ s.gangDies a → s.gangOn a b = [] → b ∉ g.votes →
        exec .gangVote s = .next (s.commitGang { g with votes := g.votes ++ [b] } (s.args.drop 2))) ∧
      (passed g.tick 120 → exec .gangVoteDeadline s =
        .next (((s.allTasks.filter fun t => t.cid == a && t.state == .running && t.core.isSome).foldl
          (fun (u : State) t => u.withTask t.id fun v => v.forceRollback 7) s).noted s)) ∧
      (passed g.tick 170 →
        let late := (s.gangDies a).filter fun d => !g.votes.contains d && !g.resets.contains d
        let s1 := late.foldl (fun (u : State) d => (u.resetDieWith (u.detailIn g.members) d).tellOwner d) { s with reply := [] }
        exec .gangResetDeadline s = .next ((s1.commitGang { g with resets := g.resets ++ late } (s.args.drop 1)).noted s))) ∧
    (∀ l r, (s.die a).loan = some l → l.recalledAt = some r →
      (passed r (l.deadline - 20) → s.borrowers a l.borrower ≠ [] →
        exec .recallDeadline s = .next ((s.resetDieWith (s.detailIn l.members) a).noted s)) ∧
      (s.borrowers a l.borrower = [] → exec .recallReturn s = .next (s.returnDie a l))) ∧
    ((s.part a).queue b = none → s.arg 12 ≠ 1 → s.barServes a = true → b < 64 → s.arg 2 < 64 →
      let none' : Queue := ⟨0, 0, 0, 0, 4096, 0, 0, false, 0, 0, 0, 0, 0, 0, 0, false, []⟩
      exec .hostLaunchSubmit s = .next (s.hostSubmit a b size none' bs8)) ∧
    (∀ v c, (s.part a).queue b = some v →
      (s.ctx? v.cid = some c → v.pending = true → s.serves v = true → (v.posted.headD ⟨0, none, false⟩).holder = none →
        let at_ := v.headSeg + BitVec.ofNat 64 (64 * v.head)
        let u := s.devTouch (s.deviceAcc v.cid) at_ 64
        ((v.posted.headD ⟨0, none, false⟩).dropped = false →
          exec .launchAccept s = .next (u.acceptRecord a b v c (u.devRead (u.deviceAcc v.cid) at_ 64))) ∧
        ((v.posted.headD ⟨0, none, false⟩).dropped = true → exec .launchAccept s = .next (s.advanceHead a b v))) ∧
      (s.arg 12 = 1 → exec .hostLaunchSubmit s = .next (s.supervisorSubmit a b v bs8)) ∧
      (s.arg 12 ≠ 1 → s.barServes a = true → b < 64 → s.arg 2 < 64 →
        exec .hostLaunchSubmit s = .next (s.hostSubmit a b size v bs8)) ∧
      (v.refill ≠ 0 → v.refillAt ≤ s.hub.time → exec .tokenRefill s = .next (s.setPart a ((s.part a).setQueue b
        { v with tokens := if v.tokens < v.tokcap then v.tokens + 1 else v.tokens, refillAt := v.refillAt + 16000 * v.refill })))) ∧
    (∀ x, s.servedQueue a = some b → s.nextTask a b = some x → exec .dispatch s = .next (s.dispatchOne x.1 x.2)) ∧
    ((s.part a).tick < s.hub.time / 1600000 →
      exec .quantumTick s = .next (((s.setPart a { s.part a with tick := (s.part a).tick + 1 }).applySched a).credited a)) ∧
    (let s1 := s.setPart a { s.part a with pool := (s.part a).pool ++ (s.args.drop 1).map fun n => BitVec.ofNat 64 n }
     exec .reservePoolRefill s = .next (((s1.part a).queues.map (·.1)).foldl (fun (u : State) q => u.unstall a q) s1))

/-- Events of memory (05 R81, R87-R91, 07 R119-R128, 12 R230, R236, R237, 18 R318, 19 R327-R334, 22 R371-R373, 24 R399-R401):
evictions, copies, grants, near-bank queries, collectives, transactions at their homes, and translations. What reaches a locked block is
held there, and is performed in the order of its arrival when the block unlocks (22 R373, R374); part of a copy may be performed ahead of
its end (04 R69), and a local line that a copy then finds unreadable is its member's fault (04 R72); a line's ECC, MAC or counter failure,
or a scratchpad line's, is an event (04 R72, 22 R371). A transaction arrives once the burst that carries it is accepted, and one is sent
while the replay buffers of its route have room (24 R400, R401). The model's own choices here: the arguments (log entry 10), how a copy is
performed in parts (1, 9), which accesses travel as transactions (42), what a locked block's queue is (54), that a free object is granted at
once (58) and what damage a line may suffer (81). -/
def Obligations.MemoryEvents : Prop :=
  ∀ (s : State),
    let a := s.arg 0
    let b := s.arg 1
    (∀ l, s.cached a b (s.arg 2) = some l →
      let u := s.dropCache l.cluster l.cid l.va
      let src := 1 + l.cluster / 32
      let dst := if pkgOf l.pa = s.hub.pkgid.toNat then 16 + stackOf l.pa else 0
      (l.dirty = 0 → exec .cacheEviction s = .next u) ∧
      (l.dirty ≠ 0 → s.maySend src dst = false → exec .cacheEviction s = .next s) ∧
      (l.dirty ≠ 0 → s.maySend src dst = true → exec .cacheEviction s = .next { u with
        nextId := u.nextId + 1,
        txns := u.txns ++ [⟨u.nextId, l.cid, src, dst, l.pa / 64 * 64, l.va, l.slot, l.nb, l.bref, 64, .write l.data l.dirty, false⟩] })) ∧
    (∀ c, (s.copies.find? fun c => c.id == a) = some c →
      let unread (ms : List (Move × List (Nat × Byte))) : List Move := (ms.filter unreadMove).map Prod.fst
      let todo : List (Move × List (Nat × Byte)) := (c.todo[s.arg 2]?).toList
      (b = 0 → exec .copyComplete s = .next (s.withTask c.task fun u =>
        ((u.finishCopy c).map fun v => v.copyFault c (unread c.todo)).getD u.freezeFull)) ∧
      (b = 1 → exec .copyComplete s = .next (s.withTask c.task fun u =>
        (u.copyAhead c (s.arg 2) (s.arg 3)).copyFault c (unread (todo.flatMap fun m => (c.atom (s.arg 2) (s.arg 3) m).1)))) ∧
      (2 ≤ b → exec .copyComplete s = .next (s.withTask c.task fun u =>
        (u.copyEarly c (s.arg 2) (s.arg 3)).copyFault c (unread (todo.flatMap fun m => partOfMove m (s.arg 3) 1))))) ∧
    (∀ (u : State) (c : Copy) (ms : List Move), (∀ m ∈ ms, ∀ l, m.src = .loc l → u.badLineIn l m.len = none) → u.copyFault c ms = u) ∧
    (∀ y, s.sync? a b = some y → exec .syncGrant s = .next (s.setSync y.grant) ∧ exec .directoryMessage s = .next (s.setSync y.grant)) ∧
    (∀ q, (s.queries.find? fun q => q.id == a) = some q →
      (q.accepted = false → s.nbLoad (stackOf q.frame) < 64 → exec .nbqAccept s = .next (s.nbAccept q)) ∧
      (q.accepted = true → exec .nbEngineRecord s = .next (s.nbEngine q b)) ∧
      (q.accepted = true → (∀ r ∈ q.records, r.posted = true) → exec .nbSummary s = .next (s.nbFinish q))) ∧
    (b < 256 → s.arg 2 < 4 → (b, s.arg 2) ∉ (s.mdie a).refreshed → exec .sameBankRefresh s =
      .next (s.setMdie a { s.mdie a with refreshed := (s.mdie a).refreshed ++ [(b, s.arg 2)] })) ∧
    (∀ c x, s.coll? a b = some c → (c.sends.find? fun x => x.sender == s.arg 2 && x.receiver == s.arg 3 && !x.done) = some x →
      let pair := (s.arg 2, s.arg 3)
      exec .collArrival s = .next ((s.performSend c x).settleColl
        { c with sends := markSend (s.arg 2) (s.arg 3) c.sends,
                 counted := if pair ∈ c.counted then c.counted else c.counted ++ [pair] })) ∧
    (∀ t, s.txn? a = some t → t.accepted = false →
      ∀ i ∈ ([.homeRead, .homeWrite, .homeAtomic, .completion, .acknowledgementToken, .managementMessage] : List Instr), exec i s = .next s) ∧
    (∀ t, s.txn? a = some t → t.accepted = true → s.txnFirst t = true → s.routed t.src t.dst = true →
      let u : State := { s with txns := s.txns.filter fun x => x.tag != t.tag }
      ((s.block t.pa).locked = false →
        let x := u.homeRead t.cid t.slot t.pa
        let bytes (n : Nat) : Nat := leNat ((x.1.drop (t.pa % 64)).take n)
        (∀ n, t.kind = .read n → exec .homeRead s =
          .next ((u.answerTxn t (.completion (BitVec.ofNat 512 (bytes n))) n).reportErrors (x.2.toList.map t.failed))) ∧
        (∀ data mask, t.kind = .write data mask →
          let w := u.lineOut t.cid t.slot t.nb t.bref t.pa data mask
          exec .homeWrite s = .next ((w.1.answerTxn t .ack 0).reportErrors w.2)) ∧
        (∀ op n v, t.kind = .atomic op n v →
          (∀ e, x.2 = some e → exec .homeAtomic s = .next ((u.answerTxn t (.completion 0) n).reportErrors [t.failed e])) ∧
          (x.2 = none →
            let new := amoNew op n (bytes n) (v.toNat % 256 ^ n)
            let l := lineOf (t.pa % 64) (leBytes n new)
            let w := u.lineOut t.cid t.slot t.nb t.bref t.pa l.1 l.2
            let answer : TxnKind := .completion (BitVec.ofNat 512 (bytes n))
            (new = bytes n → exec .homeAtomic s = .next (u.answerTxn t answer n)) ∧
            (new ≠ bytes n → exec .homeAtomic s = .next ((w.1.answerTxn t answer n).reportErrors w.2))))) ∧
      ((s.block t.pa).locked = true →
        let held : State := u.setBlock t.pa { u.block t.pa with held := (u.block t.pa).held ++ [t] }
        exec .homeRead s = .next held ∧ exec .homeWrite s = .next held ∧ exec .homeAtomic s = .next held) ∧
      (∀ v, t.kind = .completion v → exec .completion s =
        .next { u with reply := (List.range 8).map fun i => v.extractLsb' (64 * i) 64 }) ∧
      (t.kind = .ack → exec .acknowledgementToken s = .next u) ∧
      (t.kind = .mgmt → exec .managementMessage s = .next u)) ∧
    (let k := s.block (4096 * a)
     let z := k.held.foldl (fun (u : State × List Report) t => ((u.1.serve t).sent t, u.2 ++ (u.1.serve t).reports))
       (s.setBlock (4096 * a) { k with locked := false, held := [] }, [])
     (k.locked = true → exec .blockUnlock s = .next (z.1.reportErrors z.2)) ∧
     (k.locked = false → exec .blockUnlock s = .next s)) ∧
    (let pa := 64 * a
     let m := s.mdie (stackOf pa)
     let d := s.die (a / 32)
     (b ≠ 5 → b ≤ 12 → s.homeOf pa = .here → s.damageAt pa = none → (s.block pa).dead = false → exec .errorScrub s =
       .next { s.setMdie (stackOf pa) { m with errcnt := if b < 3 then m.errcnt + 1 else m.errcnt } with
         damage := (a, damageOf b) :: s.damage }) ∧
     (b = 5 → a < 256 → s.arg 2 < 131072 → (a, s.arg 2) ∉ s.clusBad →
       exec .errorScrub s = .next { s.setDie (a / 32) { d with errcnt := d.errcnt + 1 } with clusBad := s.clusBad ++ [(a, s.arg 2)] })) ∧
    (∀ v, (s.invals.find? fun v => v.ticket == a) = some v → s.invalReady v = true →
      exec .tlbirAck s = .next (s.finishInval v)) ∧
    ((s.desc a (s.brefOfVa a b)).length ≠ 0 → s.arg 3 < 256 →
      let x := s.translate (s.clusterAcc a (s.arg 3)) (s.desc a (s.brefOfVa a b)) b (s.arg 2 != 0)
      (∀ u p, x = .ok (u, p) → exec .pageWalk s = .next u) ∧ (∀ m, x = .error m → exec .pageWalk s = .next m.state))

/-- The interface states (22 R377): LOCK freezes block 6 and moves CONFIG_UNLOCKED to CONFIG_LOCKED; START moves CONFIG_LOCKED to RUN
and enables the IDE stream that has keys; STOP out of CONFIG_LOCKED or RUN, or an IDE failure there, zeroises the tenant record and
the key slots; any other state of the interface leaves each request without effect; the report and state requests give them. Each
SPDM request is answered, the digests by SHAKE256 of the chain and the measurements by the signed blocks 1 to 6. The peer handshake (22 R379,
R380): each message in its turn, within 10 ms, that passes the checks moves the handshake on with the bytes of the answer, its ML-KEM-1024
and ML-DSA-65 those of FIPS 203 and 204; at its end the responder holds the record sent with the initiator admitted, the initiator has
admitted the responder, and both have loaded the link keys; a message that fails a check, or none in time, ends the handshake, changes
nothing else, and the supervisor is told. The model's own choices here: the arguments (log entry 10), the numbers of the interface states
and the order of the SPDM requests (44), the form of VERSION and CHALLENGE_AUTH, of which 22 R378 gives the kinds only (11), the seeds, the
chains and the measured code (80), IDE streams that carry nothing before they have keys (84), and the path keys counted anew (35). -/
def Obligations.AttestationEvents : Prop :=
  (∀ (s : State),
     let part := s.arg 0
     let p := s.part part
     let port := s.arg 0
     let v := s.spdm port
     let answer (s : State) (k nonce : Nat) : State := { s with reply := responseWords (Config.attestation k port nonce) }
     (part < 8 → p.tdi = .unlocked →
       exec .lockInterfaceRequest s = .next (s.setPart part { p with tdi := .locked, block6 := some (s.block6Now part) })) ∧
     (8 ≤ part ∨ p.tdi ≠ .unlocked → exec .lockInterfaceRequest s = .next s) ∧
     (part < 8 → p.tdi = .locked →
       exec .startInterfaceRequest s = .next (s.setPart part { p with tdi := .run, ideUp := p.ideKeys })) ∧
     (8 ≤ part ∨ p.tdi ≠ .locked → exec .startInterfaceRequest s = .next s) ∧
     (part < 8 → p.tdi = .locked ∨ p.tdi = .run →
       let z := s.zeroise part
       exec .stopInterfaceRequest s =
         .next (z.setPart part { z.part part with tdi := .unlocked, block6 := none, ideKeys := false, ideUp := false }) ∧
       (z.part part).tenant = none ∧ ∀ n < 64, (z.keySlot n).part ≠ part) ∧
     (part < 8 → p.tdi = .error → exec .stopInterfaceRequest s = .next (s.setPart part { p with tdi := .unlocked })) ∧
     (8 ≤ part ∨ p.tdi = .unlocked → exec .stopInterfaceRequest s = .next s) ∧
     (part = 8 → exec .ideStreamFailure s = .next { s with hub := { s.hub with mgmtIde := false } }) ∧
     (part ≠ 8 →
       let e := s.tdiError part
       exec .ideStreamFailure s = .next (e.setPart part { e.part part with ideKeys := false, ideUp := false })) ∧
     (part < 8 → p.tdi = .locked ∨ p.tdi = .run →
       ((s.tdiError part).part part).tdi = .error ∧ ((s.tdiError part).part part).tenant = none ∧
       ∀ n < 64, ((s.tdiError part).keySlot n).part ≠ part) ∧
     (p.tdi = .unlocked ∨ p.tdi = .error → s.tdiError part = s) ∧
     ((s.spdm part).session = true →
       (part < 8 → exec .ideKm s = .next (s.setPart part { p with ideKeys := true, ideUp := p.tdi == .run })) ∧
       (part = 8 → exec .ideKm s = .next { s with hub := { s.hub with mgmtIde := true } })) ∧
     ((s.spdm part).session = false → exec .ideKm s = .next s) ∧
     (part < 8 → p.tdi = .locked → (s.spdm part).session = true → (s.args.drop 3).length ≤ 16 →
       exec .tenantSet s = .next (s.setPart part { p with
         tenant := some ⟨BitVec.ofNat 256 (s.arg 1), BitVec.ofNat 64 (s.arg 2), (s.args.drop 3).map fun n => BitVec.ofNat 512 n, []⟩,
         genno := 1, pathEpoch := p.pathEpoch + 1, bursts := [] })) ∧
     (p.tdi ≠ .locked ∨ (s.spdm part).session = false ∨ 16 < (s.args.drop 3).length → exec .tenantSet s = .next s) ∧
     (exec .getTdispVersion s = .next (answer s 1 0)) ∧ (exec .getTdispCapabilities s = .next (answer s 2 0)) ∧
     (exec .getDeviceInterfaceReport s = .next { s with reply :=
       ([p.slices.length] ++ p.slices ++ [524288 * part] ++ (p.block6.getD (s.block6Now part))).map fun n => BitVec.ofNat 64 n }) ∧
     (exec .getDeviceInterfaceState s = .next { s with reply := [if p.tdi = .unlocked then 0 else if p.tdi = .locked then 1
       else if p.tdi = .run then 2 else 3] }) ∧
     (port < 9 →
       (v.phase ≤ 4 → exec .getVersion s = .next { s.setSpdm port { v with phase := 1, session := false } with
         reply := messageWords [0x10, 0x04, 0, 0, 0, 1, 0x00, 0x13] }) ∧
       (v.phase = 1 → exec .getCapabilities s = .next (answer (s.setSpdm port { v with phase := 2 }) 17 0)) ∧
       (v.phase = 2 → exec .negotiateAlgorithms s = .next (answer (s.setSpdm port { v with phase := 3 }) 18 0)) ∧
       (3 ≤ v.phase →
         exec .getDigests s = .next { s.setSpdm port v with reply := messageWords (shake256 Config.ownChain 64) } ∧
         exec .getCertificate s = .next { s.setSpdm port v with reply := messageWords Config.ownChain } ∧
         (let shown := shake256 Config.ownChain 64 ++ digestBytes (Config.freeNonce s.freeCount)
          let answer := shown ++ deviceSign (Config.spdmTranscript port s.freeCount ++ leBytes 32 (s.arg 1) ++ shown)
          exec .challenge s = .next { s.setSpdm port v with reply := messageWords answer }) ∧
         exec .keyExchange s = .next (answer (s.setSpdm port { v with phase := 4, session := false }) 23 (s.arg 1)) ∧
         (let blocks := s.measurements (if port < 8 then port else s.arg 1)
          exec .getMeasurements s = .next { s.setSpdm port v with
            reply := messageWords (blocks ++ deviceSign (blocks ++ leBytes 32 (s.arg 2))) })) ∧
       (v.phase = 4 → s.arg 1 ≠ 0 → exec .finish s = .next (answer (s.setSpdm port { v with session := true }) 24 0)) ∧
       (v.session = true → exec .endSession s = .next (answer (s.setSpdm port { v with phase := 3, session := false }) 25 0)))) ∧
  (∀ (s : State),
     let part := s.arg 0
     let peer := s.arg 1
     let p := s.part part
     let now := s.hub.time
     let fails : State := (s.setPart part { p with join := none }).notify part 3 0
     let turn (initiator : Bool) (phase : Nat) (j : Join) : Bool :=
       j.peer == peer && j.initiator == initiator && j.phase == phase && now ≤ j.since + 160000000
     let runs : Bool := p.tdi == .locked || p.tdi == .run
     part < 8 →
     (s.isPeer peer = true → p.join = none →
       (s.arg 2 = 2 → p.tenant ≠ none →
         let m := s.joinHello part peer s.freeCount
         exec .joinHello s =
           .next { s.setPart part { p with join := some ⟨peer, true, 1, now, s.freeCount, m, [], []⟩ } with reply := messageWords m }) ∧
       (s.arg 2 ≠ 2 →
         let m := s.joinMessage 3
         let r := s.joinReply part peer s.freeCount m
         let passes : Bool := s.joinShape 1 peer 1744 m && joinSender peer s.freeCount m && runs &&
           kemKeyOk ((m.drop 48).take 1568)
         exec .joinHello s = .next (if passes then
           { s.setPart part { p with join := some ⟨peer, false, 1, now, s.freeCount, m, r.1, r.2⟩ } with reply := messageWords r.1 } else fails))) ∧
     (∀ j, p.join = some j →
       let m := s.joinMessage 2
       let d := joinDigest m
       let k := (joinKeys j.secret j.hello j.reply).2.2
       exec .joinHello s = .next s ∧
       (∀ t, p.tenant = some t →
         (let z := kemSeed j.number
          let x := kemDecaps z.1 z.2 ((m.drop 48).take 1568)
          let passes : Bool := turn true 1 j && s.joinShape 2 peer 5053 m && joinSender peer s.freeCount m &&
            chainVerifies (Config.peerChain peer) (labelBytes "G7 join R" ++ joinTh1 j.hello m) (m.drop 1744) &&
            t.peers.contains d && (t.admitted.contains d || t.admitted.length < 64)
          exec .joinReply s = .next (if passes then
            { s.setPart part { p with join := some { j with phase := 2, since := now, reply := m, secret := x } } with
              reply := messageWords (s.joinFinish part peer t x j.hello m) } else fails)) ∧
         (let passes : Bool := turn true 2 j && s.joinShape 4 peer 32 m && m.drop 16 == joinDoneTag j.secret j.hello j.reply
          exec .joinDone s = .next (if passes then ((s.setPart part { p with
            tenant := some (t.admits (joinDigest j.reply)), join := none }).loadLinkKeys part peer k.1 k.2) else fails)) ∧
         joinDigest j.reply ∈ (t.admits (joinDigest j.reply)).admitted) ∧
       (p.tenant = none → exec .joinReply s = .next fails ∧ exec .joinDone s = .next fails) ∧
       (let i := joinDigest j.hello
        let held (t : Tenant) (g : BitVec 32) : State :=
          { (s.setPart part { p with tenant := some t, genno := g, pathEpoch := p.pathEpoch + 1, bursts := [], join := none }).loadLinkKeys
              part peer k.2 k.1 with reply := messageWords (s.joinDone part peer j.secret j.hello j.reply) }
        let sent : Option Tenant := joinUnwrap (joinKeys j.secret j.hello j.reply).1 m
        let passes : Bool := turn false 1 j && s.joinShape 3 peer m.length m && 3389 ≤ m.length &&
          chainVerifies (Config.peerChain peer) (labelBytes "G7 join I" ++ joinTh2 j.hello j.reply) ((m.drop 16).take 3309) && runs
        exec .joinFinish s = .next (match sent, p.tenant with
          | some r, none => if passes then held { r with admitted := [i] } 1 else fails
          | some r, some t => if passes && t.id == r.id && (t.admitted.contains i || t.admitted.length < 64) then
              held ({ t with trk := r.trk, peers := r.peers }.admits i) p.genno else fails
          | none, _ => fails)) ∧
       (j.since + 160000000 ≤ now → exec .joinTimeout s = .next fails))) ∧
  (∀ (s : State) (part peer n : Nat) (mine theirs : List Byte), n < 24 →
     ((s.loadLinkKeys part peer mine theirs).port n).keyFrom part peer = some ⟨part, peer, theirs, 0⟩)

/-- Events of the die links, package time and UALink (21 R364, 22 R375, R376, 23 R394, 24 R399-R406): a burst of at most eight flits that
comes over a link of its route, in sequence, with the closing tag its path key gives, is accepted, and its transactions may be delivered; an
earlier number is a duplicate; any other is a failure of the burst, as a bad CRC or a reserved TYPE is of a flit, and the fourth failure in
succession of the same one takes the link down, which retrains within 1 ms or does not come back; dies then cut off are noted; a die cut off
for 1 ms is orphaned; a child is asked at most once in an interval of 1 µs, or of 100 µs for a package, and its exchange slews its clock by
the offset of the four times and keeps the delay; the master counts at its corrected rate without loss (23 R394); a peer's transaction under
a port's key for the partition is decrypted and performed at its home where its tag is right, and its answer sealed, and is counted and dropped
where it is not; a lane fault halves the lanes. The model's own choices here: the arguments (log entry 10), a path of one delay both ways and
the floor of a half (50), the asymmetry configured (12), when a die is orphaned (43), which transactions travel in bursts (42), and the
routing table, the time port and UALinkSec's header and numbers (49). -/
def Obligations.LinkEvents : Prop :=
  ∀ (s : State),
    let n := s.arg 0
    let l := s.link n
    let p := s.port n
    let down : State := (s.setLink n { l with up := false, fails := 0, failing := [], downAt := s.hub.time }).noteCuts
    let failing (key : List Nat) : State :=
      let k := if l.failing = key then l.fails + 1 else 1
      if 4 ≤ k then down else s.setLink n { l with fails := k, failing := key, replays := l.replays + 1 }
    let off (parent child delay turn : Int) : Int := (((child + delay) - parent) - ((parent + 2 * delay + turn) - (child + delay + turn))) / 2
    let found (parent child delay turn : Int) : Int := (((child + delay) - parent) + ((parent + 2 * delay + turn) - (child + delay + turn))) / 2
    (let seq := s.arg 1
     let part := s.arg 2
     let src := s.arg 3
     let dst := s.arg 4
     let ts := s.txns.filter fun t => t.src == src && t.dst == dst && (s.args.drop 6).contains t.tag && !t.accepted && t.part == part
     let right : Bool := !ts.isEmpty && (ts.length + 3) / 3 ≤ 8 && seq == s.nextBurst part src dst &&
       beBytes 16 (s.arg 5) == (gcmSeal (s.pathKey part src dst) (burstIv src dst seq)
         (ts.flatMap fun t => t.header seq) (ts.flatMap fun t => t.kind.payload)).2
     let taken : State := (s.setLink n { l with fails := 0, failing := [] }).burstTaken part src dst
     (∀ route, l.up = true → s.routeOf src dst = some route → n ∈ route → s.nextBurst part src dst ≤ seq →
       exec .burstTag s = .next (if right then
         { taken with txns := taken.txns.map fun t => if ts.any fun u => u.tag == t.tag then { t with accepted := true } else t }
         else failing [part, src, dst, seq])) ∧
     (l.up = false ∨ s.routeOf src dst = none ∨ (∃ route, s.routeOf src dst = some route ∧ n ∉ route) ∨ seq < s.nextBurst part src dst →
       exec .burstTag s = .next s)) ∧
    (∀ t : Txn, t.part = match t.kind with
      | .mgmt => 8
      | .time _ => 8
      | _ => partOf t.cid) ∧
    (l.up = true → s.arg 2 = 0 ∨ (∃ type ∈ s.args.drop 3, 8 < type) → exec .replayRequest s = .next (failing [s.arg 1 % 256])) ∧
    (l.up = false ∨ (s.arg 2 ≠ 0 ∧ ∀ type ∈ s.args.drop 3, type ≤ 8) → exec .replayRequest s = .next s) ∧
    (l.up = true → exec .linkDown s = .next down) ∧
    (l.up = false → exec .linkDown s = .next s) ∧
    (l.up = true ∨ s.hub.time < l.downAt + 16000000 →
      exec .linkUp s = .next (s.setLink n { l with up := true, fails := 0, failing := [] }).noteCuts) ∧
    (l.up = false → l.downAt + 16000000 ≤ s.hub.time → exec .linkUp s = .next s) ∧
    (∀ d < 8, (s.noteCuts.die d).cutAt = if s.cdConnected d then none else some ((s.die d).cutAt.getD (s.die d).time)) ∧
    (1 ≤ n → n ≤ 8 → (s.die (n - 1)).present = true → (s.die (n - 1)).orphan = false →
      (∀ t, (s.die (n - 1)).cutAt = some t → t + 16000000 ≤ (s.die (n - 1)).time →
        exec .orphanTimeout s = .next ((s.orphanDie (n - 1)).noted s)) ∧
      ((s.die (n - 1)).cutAt = none → exec .orphanTimeout s = .next s)) ∧
    (16 ≤ n → n ≤ 31 → (s.mdie (n - 16)).present = true → (s.mdie (n - 16)).orphan = false →
      (∀ t, (s.mdie (n - 16)).cutAt = some t → t + 16000000 ≤ (s.mdie (n - 16)).time →
        exec .orphanTimeout s = .next (s.orphanStack (n - 16))) ∧
      ((s.mdie (n - 16)).cutAt = none → exec .orphanTimeout s = .next s)) ∧
    (let every := if n = 0 then 1600000 else 16000
     let c := s.clockOf n
     let asked : State := { s.setClock n { c with tick := s.hub.time / every, asked := true } with reply := [BitVec.ofNat 64 s.hub.time] }
     (s.timeLinkUp n = true → c.tick < s.hub.time / every →
       exec .timeExchangeTick s = .next (if n = 0 then asked else asked.burstTaken 8 0 n)) ∧
     (s.timeLinkUp n = false ∨ s.hub.time / every ≤ c.tick → exec .timeExchangeTick s = .next s) ∧
     (c.asked = false → exec .timeExchange s = .next s) ∧
     (∀ off delay k, (c.exchange off delay k).asked = false ∧ (c.exchange off delay k).delay = delay)) ∧
    (∀ (b : Hub) (e : Nat), b.ahead = 0 → b.clock.slew = 0 → b.clock.frac < 16000000 → -4294967296 ≤ b.rate →
      (((b.elapse e).time : Int) * 4294967296 + (b.elapse e).frac = b.time * 4294967296 + b.frac + e * (4294967296 + b.rate))) ∧
    (1 ≤ n → n ≤ 8 → s.timeLinkUp n = true → (s.die (n - 1)).clock.asked = true → exec .timeExchange s =
      .next ((s.setDie (n - 1) { s.die (n - 1) with
        clock := (s.die (n - 1)).clock.exchange (off s.hub.time (s.die (n - 1)).time (s.arg 1) (s.arg 2))
          (found s.hub.time (s.die (n - 1)).time (s.arg 1) (s.arg 2)) 100 }).burstTaken 8 n 0)) ∧
    (16 ≤ n → n ≤ 31 → s.timeLinkUp n = true → (s.mdie (n - 16)).clock.asked = true → exec .timeExchange s =
      .next ((s.setMdie (n - 16) { s.mdie (n - 16) with
        clock := (s.mdie (n - 16)).clock.exchange (off s.hub.time (s.mdie (n - 16)).time (s.arg 1) (s.arg 2))
          (found s.hub.time (s.mdie (n - 16)).time (s.arg 1) (s.arg 2)) 100 }).burstTaken 8 n 0)) ∧
    (n = 0 → s.hub.domain = true → s.hub.tmaster = false → s.hub.clock.asked = true →
      let here : Int := s.hub.time + s.arg 2
      let fair : Bool := (s.arg 2 : Int) - s.arg 4 ≤ min Config.timePortAsymmetry 768 && (s.arg 4 : Int) - s.arg 2 ≤ min Config.timePortAsymmetry 768
      let t4 : Int := s.arg 1 + s.arg 2 + s.arg 3 + s.arg 4
      exec .timeExchange s = .next (if fair then { s with
        hub := s.hub.exchange (((here - s.arg 1) - (t4 - (here + s.arg 3))) / 2) (((here - s.arg 1) + (t4 - (here + s.arg 3))) / 2) } else s)) ∧
    (1 ≤ n → n ≤ 8 → s.longDown (n - 1) = true → exec .timeUnlockTimeout s = .next (s.setDie (n - 1)
      { s.die (n - 1) with clock := { (s.die (n - 1)).clock with locked := false, good := 0 } })) ∧
    (16 ≤ n → n ≤ 31 → s.longDown (n + 16) = true → exec .timeUnlockTimeout s = .next (s.setMdie (n - 16)
      { s.mdie (n - 16) with clock := { (s.mdie (n - 16)).clock with locked := false, good := 0 } })) ∧
    (let kind := s.arg 1
     let pa := s.arg 2
     let size := s.arg 3
     let cid := s.arg 5
     let peer := s.arg 7
     let b : Word := BitVec.ofNat 64 (s.arg 10)
     let nb : Bool := s.arg 9 != 0
     let h := ualinkHeader kind pa size cid (s.arg 6) nb b
     let cipher := leBytes (if kind = 0 then 0 else if kind = 11 then 2 * size else size) (s.arg 4)
     (∀ k, p.keyFrom (partOf cid) peer = some k → p.up = true → s.isPeer peer = true → s.homeOf pa = .here → pa % 64 + size ≤ 64 → kind ≤ 11 →
       let iv := digestBytes (Config.ualinkIv k.seq)
       let x := (s.setPort n { p with into := usedKey p.into (partOf cid) peer }).ualinkAt kind pa size (gcmOpen k.key iv cipher) cid (s.arg 6) nb b
       let q := x.1.port n
       let answered : State := match q.keyTo (partOf cid) peer with
         | none => { x.1 with reply := [] }
         | some o =>
           let y := gcmSeal o.key (digestBytes (Config.ualinkIv o.seq)) h x.2
           { x.1.setPort n { q with out := usedKey q.out (partOf cid) peer } with reply := messageWords (y.1 ++ y.2) }
       exec .ualinkTransaction s = .next (if gcmTag k.key iv h cipher = beBytes 16 (s.arg 8) then answered
         else { s.setPort n { p with errs := p.errs + 1 } with reply := [] })) ∧
     (p.keyFrom (partOf cid) peer = none → exec .ualinkTransaction s = .next s)) ∧
    (∀ (size old : Nat) (bs : List Byte),
      ualinkNew 11 size old bs = if old = leNat (bs.take size) then leNat ((bs.drop size).take size) else old) ∧
    (2 ≤ p.lanes → exec .ualinkLaneFault s = .next (s.setPort n { p with lanes := p.lanes / 2, errs := p.errs + 1 })) ∧
    (p.lanes ≤ 1 → exec .ualinkLaneFault s = .next (s.setPort n { p with up := false, errs := p.errs + 1 }))

/-- Events of the management owner and the host port (21 R356, R357, R365, 24 R395-R398, R404, 25 R410): the first claim wins, PREF
between two of one cycle; a handover's target claims in its second; the owner's requests take effect and others are answered REFUSED;
silence of the BMC and a link-down of the host clear their ownership, and EPOCH rises at each change of OWNER; a die's firmware writes
its remap registers until they are locked; the management registers read as their fields say; the notification register pops its oldest
entry; aperture accesses are served while the interface runs. The model's own choices here: the arguments (log entry 10), the numbers of
registers to which the manual gives none and the reply 1 of a refused request (44), and, with PREF 0, that a tie goes to the claimant, that the
loser is answered REFUSED, and that the BMC is heard either way (45). -/
def Obligations.ManagementEvents : Prop :=
  ∀ (s : State),
    let m := s.arg 0
    let h := s.heard m
    let b := s.hub
    let owned : Prop := (m = 1 ∨ m = 2) ∧ b.owner.toNat = m
    let cleared (o : BitVec 2) (u : State) : State := { u with hub := { u.hub with owner := o, target := 0, epoch := u.hub.epoch + 1 } }
    (∀ u : State, u.heard 1 = u ∧ u.heard 2 = { u with hub := { u.hub with bmcAt := u.hub.time } }) ∧
    (m = 1 ∨ m = 2 → b.owner = 0 →
      (s.arg 1 = 0 ∨ b.pref = 0 → exec .mgmtClaim s =
        .next { cleared (BitVec.ofNat 2 m) (if s.arg 1 = 0 then h else s.heard 2) with reply := [0] }) ∧
      (s.arg 1 ≠ 0 → b.pref ≠ 0 → exec .mgmtClaim s =
        .next { cleared b.pref (s.heard 2) with reply := [if b.pref = BitVec.ofNat 2 m then 0 else 1] })) ∧
    (m = 1 ∨ m = 2 → s.arg 1 = 0 → b.owner ≠ 0 →
      (b.target = BitVec.ofNat 2 m → b.time ≤ b.targetAt + 16000000000 →
        (b.owner ≠ BitVec.ofNat 2 m → exec .mgmtClaim s = .next { cleared (BitVec.ofNat 2 m) h with reply := [0] }) ∧
        (b.owner = BitVec.ofNat 2 m → exec .mgmtClaim s = .next { h with hub := { h.hub with target := 0 }, reply := [0] })) ∧
      (b.target ≠ BitVec.ofNat 2 m ∨ b.targetAt + 16000000000 < b.time → exec .mgmtClaim s = .next { h with reply := [1] })) ∧
    (m ≠ 1 → m ≠ 2 → exec .mgmtClaim s = .next s) ∧
    (owned → s.arg 1 ≤ 2 → exec .mgmtHandover s =
      .next { h with hub := { h.hub with target := BitVec.ofNat 2 (s.arg 1), targetAt := h.hub.time }, reply := [0] }) ∧
    (owned → exec .pkgcfgLock s = .next { h with hub := { h.hub with pkgLock := true }, reply := [0] }) ∧
    (owned → exec .diestatClear s = .next { h.clearStatus (s.arg 1) (BitVec.ofNat 64 (s.arg 2)) with reply := [0] }) ∧
    (owned → s.arg 1 = pkgcfgReg →
      let v : Word := BitVec.ofNat 64 (s.arg 2)
      (b.pkgLock = false → exec .registerWrite s = .next { h with hub := { h.hub with
        pkgid := v.extractLsb' 0 20, domain := v.getLsbD 21, tmaster := v.getLsbD 23, pkgLock := v.getLsbD 22 }, reply := [0] }) ∧
      (b.pkgLock = true → exec .registerWrite s = .next { h with reply := [0] })) ∧
    (owned → s.arg 1 ≠ pkgcfgReg →
      exec .registerWrite s = .next { h.clearStatus (s.arg 1) (BitVec.ofNat 64 (s.arg 2)) with reply := [0] }) ∧
    (∀ reader < 8, m = 8 + reader →
      let reads (x : Nat) : Prop := exec .registerWrite s = .next { s.heard reader with reply := [BitVec.ofNat 64 x] }
      let status (temp cap evt err : Nat) : Nat := temp % 256 + 256 * (cap / 8 % 256) + 65536 * (evt % 16) + 4294967296 * (err % 4294967296)
      (s.arg 1 = 0 → reads (b.bootStep % 16 + 256 * (b.bootFail % 256) + 65536 * b.bootPresent.toNat)) ∧
      (s.arg 1 = ownerReg → reads (b.owner.toNat + 4 * b.pref.toNat + 16 * b.target.toNat + 256 * b.epoch.toNat)) ∧
      (s.arg 1 = pkgcfgReg → reads (b.pkgid.toNat + 2097152 * b.domain.toNat + 4194304 * b.pkgLock.toNat + 8388608 * b.tmaster.toNat)) ∧
      (s.arg 1 = 0x100 → ∃ t < 256, reads (status t 0 b.evt b.errcnt)) ∧
      (∀ d < 8, s.arg 1 = 0x108 + 8 * d → let v := s.die d; reads (status v.temp v.cap v.evt v.errcnt)) ∧
      (∀ d < 16, s.arg 1 = 0x180 + 8 * d → let v := s.mdie d; reads (status v.temp 0 v.evt v.errcnt))) ∧
    (∀ d j : Nat, m = 16 + d → s.arg 1 = remapReg + j →
      let w : Word := BitVec.ofNat 64 (s.arg 2)
      (d < 8 → j < 4 → (s.die d).remapLock = false → (s.die d).remap.length = 32 →
        ∃ u, exec .registerWrite s = .next u ∧ (∀ e, e ≠ d → u.die e = s.die e) ∧ u.mem = s.mem ∧
          ∀ k < 32, (u.die d).remap[k]? = (if k / 8 = j then some (w.extractLsb' (8 * (k % 8)) 6).toNat else (s.die d).remap[k]?) ∧
            (u.die d).remapOk.getLsbD k = (if k / 8 = j then w.getLsbD (8 * (k % 8) + 6) else (s.die d).remapOk.getLsbD k)) ∧
      ((s.die d).remapLock = true → exec .registerWrite s = .next s)) ∧
    (∀ v, owned → h.partRequest (s.arg 1) (s.arg 2) (s.arg 3) (s.args.drop 4) = some v →
      exec .partitionRequest s = .next { v with reply := [0] }) ∧
    (owned → h.partRequest (s.arg 1) (s.arg 2) (s.arg 3) (s.args.drop 4) = none →
      exec .partitionRequest s = .next { h with reply := [1] }) ∧
    (¬ owned → ∀ i ∈ ([.mgmtHandover, .pkgcfgLock, .diestatClear, .partitionRequest] : List Instr),
      exec i s = .next { h with reply := [1] }) ∧
    (¬ owned → m < 8 → exec .registerWrite s = .next { h with reply := [1] }) ∧
    (b.target ≠ 0 → b.targetAt + 16000000000 ≤ b.time →
      exec .handoverTimeout s = .next { s with hub := { b with target := 0 } }) ∧
    (b.owner = 2 → b.bmcAt + 80000000000 ≤ b.time → exec .bmcSilenceTimeout s = .next (cleared 0 s)) ∧
    (b.owner ≠ 2 ∨ b.time < b.bmcAt + 80000000000 → exec .bmcSilenceTimeout s = .next s) ∧
    (b.owner = 1 → exec .hostLinkDown s = .next (cleared 0 s)) ∧
    (b.owner ≠ 1 → exec .hostLinkDown s = .next s) ∧
    (s.barServes m = true →
      (∀ k cid rest, (s.part m).fifo = (k, cid) :: rest → exec .notificationPop s =
        .next { s.setPart m { s.part m with ovf := false, fifo := rest } with reply := [BitVec.ofNat 64
          (2 ^ 63 + (if (s.part m).ovf then 2 ^ 62 else 0) + k % 4 * 4096 + cid % 4096)] }) ∧
      ((s.part m).fifo = [] → exec .notificationPop s = .next { s.setPart m { s.part m with ovf := false } with
        reply := [BitVec.ofNat 64 (if (s.part m).ovf then 2 ^ 62 else 0)] }) ∧
      (1 ≤ s.arg 2 → s.arg 1 < 2 ^ 36 → exec .apertureRead s = .next (s.aperRead m (s.arg 1) (s.arg 2))) ∧
      (s.arg 1 < 2 ^ 36 → exec .apertureWrite s =
        .next (s.aperWrite m (s.arg 1) ((s.args.drop 2).map fun n => BitVec.ofNat 8 n))) ∧
      (s.aperture m (s.arg 1) false = none → 1 ≤ s.arg 2 → s.arg 1 < 2 ^ 36 → exec .apertureRead s =
        .next { s.setPart m { s.part m with aperr := (s.part m).aperr + 1 } with reply := [] }) ∧
      (s.aperture m (s.arg 1) true = none → s.arg 1 < 2 ^ 36 → exec .apertureWrite s =
        .next { s.setPart m { s.part m with aperr := (s.part m).aperr + 1 } with reply := [] })) ∧
    (s.barServes m = false → ∀ i ∈ ([.notificationPop, .apertureRead, .apertureWrite] : List Instr),
      exec i s = .next { s with reply := [] })

/-- Events of firmware's records, bring-up, resets and thermal limits (18 R323, 19 R325, R331, R335, 20 R336-R341, 21 R356, R364, 24
R398, 25 R407, R409, R410): each record within its ranges is written and one outside them changes nothing; bring-up runs step by step, the
remap tables as the fuses give them until step 6 locks them, the master loaded in step 7, and the counters that are never to repeat survive
it; a die is reset or brought back; a watchdog that M has not serviced resets its hart; the thermal cap falls by 68 above 100 degrees, to no
less than 680, and rises by 68 below 95, to no more than 1360, and above 115 degrees a compute die is reset. The model's own choices here:
the arguments (log entry 10), what services the watchdog (41), how a returned die's links are timed (43), what survives POWER_UP (45), the
event with which a step of bring-up ends (46), and the fresh queue of a changed CID (51). -/
def Obligations.FirmwareEvents : Prop :=
  ∀ (s : State),
    let a := s.arg 0
    let b := s.arg 1
    let p := s.part a
    let now := s.hub.time
    (a < 8 →
      (p.tdi = .unlocked ∨ p.tdi = .error →
        let o := p.pendingSched.getD (p.teamWait, p.hang, p.drainMax, p.ckptInt, p.proofsz)
        let keep (v lo hi old : Nat) : Nat := if lo ≤ v ∧ v ≤ hi then v else old
        exec .schedBlockWrite s = .next (s.setPart a { p with pendingSched := some (keep b 10 10000 o.1,
          keep (s.arg 2) 1000 1000000 o.2.1, keep (s.arg 3) 0 1000 o.2.2.1, keep (s.arg 4) 10 1000 o.2.2.2.1,
          keep (s.arg 5) 0 2 o.2.2.2.2) })) ∧
      (p.tdi = .locked ∨ p.tdi = .run → exec .schedBlockWrite s = .next s)) ∧
    (let cid := s.arg 2
     let v (u : Queue) : Queue :=
       { u with
         weight := s.arg 3, prio := s.arg 4 % 16, urgent := s.arg 4 / 16 = 1, tokcap := s.arg 5, refill := s.arg 6,
         refillAt := if s.arg 6 = 0 then u.refillAt else now + 16000 * s.arg 6 }
     let seg : Word := BitVec.ofNat 64 (s.arg 7)
     let fresh (acc ref : Nat) : Queue := ⟨seg, seg, 0, 0, cid, 0, 0, false, 0, 0, 0, 0, 0, acc, ref, false, []⟩
     (s.queueOk a b cid (s.arg 3) (s.arg 4) (s.arg 5) (s.arg 6) = true →
       (∀ u, p.queue b = some u → u.cid = cid → exec .queueDescWrite s = .next (s.setPart a (p.setQueue b (v u)))) ∧
       (∀ u, p.queue b = some u → u.cid ≠ cid → exec .queueDescWrite s = .next (s.setPart a (p.setQueue b (v (fresh u.accepted u.refused))))) ∧
       (p.queue b = none → exec .queueDescWrite s = .next (s.setPart a (p.setQueue b (v (fresh 0 0)))))) ∧
     (s.queueOk a b cid (s.arg 3) (s.arg 4) (s.arg 5) (s.arg 6) = false → exec .queueDescWrite s = .next s)) ∧
    (let bs := wordBytes (s.args.drop 1)
     let cid := leNat (bs.take 2)
     (a < 8 → partOf cid = a → p.slices ≠ [] →
       (∀ c d, s.ctx? cid = some c → parseContext bs c.vdies c.launchCount c.slots c.used = some d →
         exec .contextDescWrite s = .next (s.setCtx d)) ∧
       (∀ c, s.ctx? cid = some c → parseContext bs c.vdies c.launchCount c.slots c.used = none → exec .contextDescWrite s = .next s) ∧
       (∀ d, s.ctx? cid = none → parseContext bs p.slices 0 [] [] = some d →
         exec .contextDescWrite s = .next (({ s with contexts := s.contexts ++ [d] }).fwWrite d.vdtab (tableBytes p.slices)))) ∧
     (8 ≤ a ∨ partOf cid ≠ a ∨ p.slices = [] → exec .contextDescWrite s = .next s)) ∧
    (∀ c, s.ctx? b = some c →
      let bs := wordBytes (s.args.drop 3)
      let owner := leNat ((bs.drop 16).take 2)
      let slot := leNat ((bs.drop 21).take 1)
      let k := s.keySlot slot
      let fits : Prop := partOf b = a ∧ s.arg 2 < 4096 ∧ bs.length = 64 ∧ partOf owner = a ∧ owner < 4096 ∧ slot < 64 ∧ k.part = a ∧
        (k.h0 ≠ none ∨ k.h1 ≠ none)
      (fits → exec .bdtWrite s = .next (s.fwWrite (c.bdt + 64 * s.arg 2) bs)) ∧ (¬ fits → exec .bdtWrite s = .next s)) ∧
    (s.ctx? b = none → exec .bdtWrite s = .next s) ∧
    (let size := s.arg 2
     let ns := s.args.drop 3
     let m := s.mdie b
     let fs := ns.map fun n => s.hub.pkgid.toNat * 2 ^ 40 + b * 2 ^ 36 + 4096 * n
     let fits : Prop := (size = 4096 ∨ size = 65536 ∨ size = 0x200000) ∧ b < 16 ∧ b / 2 ∈ p.slices ∧
       ∀ n ∈ ns, 4096 * n % size = 0 ∧ n + size / 4096 ≤ 14680064
     let pools (old : List Nat) (top : Nat) : State := s.setMdie b { m with
       pools := (m.pools.filter fun q => !(q.1 == a && q.2.1 == size)) ++ [(a, size, old ++ fs, max top (old ++ fs).length)] }
     (fits → (m.pools.find? fun q => q.1 == a && q.2.1 == size) = none → fs.length ≤ 65536 →
       exec .poolFrameAdd s = .next (pools [] 0)) ∧
     (∀ q, fits → (m.pools.find? fun q => q.1 == a && q.2.1 == size) = some q → (q.2.2.1 ++ fs).length ≤ 65536 →
       exec .poolFrameAdd s = .next (pools q.2.2.1 q.2.2.2)) ∧
     (¬ fits → exec .poolFrameAdd s = .next s)) ∧
    (b < 64 → s.arg 3 < 4096 → s.arg 3 / 512 = a → a < 8 → exec .apertureTableWrite s = .next (s.setPart a { p with
      apertures := (p.apertures.filter fun k => k.1 != b) ++
        [(b, ⟨BitVec.ofNat 64 (s.arg 2), s.arg 3, s.arg 4 % 2 = 1, s.arg 4 / 2 % 2 = 1⟩)] })) ∧
    (64 ≤ b ∨ 4096 ≤ s.arg 3 ∨ partOf (s.arg 3) ≠ a → exec .apertureTableWrite s = .next s) ∧
    (1 ≤ a → a ≤ 8 → exec .dieReset s = .next ((s.resetDie (a - 1)).noted s) ∧ ((s.resetDie (a - 1)).die (a - 1)).inReset = true) ∧
    (16 ≤ a → a ≤ 31 → exec .dieReset s = .next (s.resetStack (a - 16)) ∧ ((s.resetStack (a - 16)).mdie (a - 16)).inReset = true) ∧
    (let d := s.die (a - 1)
     let parts := (s.sliceOwner (a - 1)).toList ++ (d.loan.map Loan.borrower).toList
     1 ≤ a → a ≤ 8 →
       (d.inReset = true ∨ d.orphan = true → exec .dieReturn s = .next (((s.setDie (a - 1) { d with
         inReset := false, orphan := false, clock := blankClock, keys := d.loan.map Loan.borrower }).rekey parts).retrain a)) ∧
       (d.inReset = false → d.orphan = false → exec .dieReturn s = .next s)) ∧
    (let m := s.mdie (a - 16)
     16 ≤ a → a ≤ 31 →
       (m.inReset = true ∨ m.orphan = true →
         let u := (s.setMdie (a - 16) { m with inReset := false, orphan := false, clock := blankClock, refreshed := [] }).killStack (a - 16)
         exec .dieReturn s = .next (u.retrain a) ∧
         ∀ pa, pa / 2 ^ 36 = (s.hub.pkgid.toNat * 2 ^ 40 + (a - 16) * 2 ^ 36) / 2 ^ 36 → Sparse.get 0 u.mem pa = 0) ∧
       (m.inReset = false → m.orphan = false → exec .dieReturn s = .next s)) ∧
    (let k := s.hub.bootStep
     let fs := (s.args.drop 2).take b
     let peers := s.args.drop (2 + b)
     let z : State := { s.blank with hub := { s.blank.hub with
       pkgid := s.hub.pkgid, domain := s.hub.domain, tmaster := s.hub.tmaster, owner := s.hub.owner, epoch := s.hub.epoch } }
     let first (u : State) : State := if failsAt fs 1 0 then u else { u with hub := { u.hub with bootStep := 2 } }
     (k = 15 → exec .powerUp s = .next s) ∧
     (k = 0 → exec .powerUp s = .next (first z)) ∧
     (exec .moduleReset s = .next (first s.blank)) ∧
     (k ≠ 0 → k ≠ 15 →
       ((k = 1 ∧ failsAt fs 1 0 = true) ∨ s.hub.bootFail = 2 → exec .powerUp s = .next s) ∧
       (k = 2 → failsAt fs 2 0 = true → exec .powerUp s = .next { s with hub := { s.hub with bootFail := 2 } }) ∧
       ((k = 1 → failsAt fs 1 0 = false) → (k = 2 → failsAt fs 2 0 = false) → s.hub.bootFail ≠ 2 →
         let u := s.bootStage k a fs peers
         exec .powerUp s = .next { u with hub := { u.hub with bootStep := if k < 9 then k + 1 else 15 } }))) ∧
    (let z := s.blank
     z.hub.pref = s.hub.pref ∧ z.hub.bootStep = 1 ∧ z.mem = [] ∧ z.clus = [] ∧ z.harts = State.reset.harts ∧
     (∀ n < 8,
       let q := z.part n
       q.tenant = none ∧ q.sealCtr = (s.part n).sealCtr ∧ q.saveCtr = (s.part n).saveCtr ∧ q.pathEpoch = (s.part n).pathEpoch + 1) ∧
     (∀ d < 8, (z.die d).remapLock = false ∧
       (z.die d).remap = ((List.range 34).filter fun c => !(s.die d).harvested.contains c).take 32)) ∧
    (∀ (t : Nat) (fs peers : List Nat),
      let at_ (k : Nat) : State := s.bootStage k t fs peers
      (at_ 8).hub.pkgLock = true ∧ (at_ 7).hub.time = t % 2 ^ 64 ∧ (at_ 7).hub.timeLocked = true ∧
      ∀ d < 8,
        (((at_ 3).die d).present = !(failsAt fs 3 (1 + d) || failsAt fs 3 (16 + 2 * d) || failsAt fs 3 (17 + 2 * d))) ∧
        ((at_ 6).die d).remapLock = true ∧ ((at_ 7).die d).time = t % 2 ^ 64 ∧
        (((at_ 7).die d).present = true → ((at_ 7).die d).clock.locked = true) ∧
        (at_ 9).hub.bootPresent.getLsbD d = (s.die d).present ∧ ((at_ 9).die d).pool = min 1360 (s.die d).cap) ∧
    (∀ h : a < 16,
      let v := s.hart ⟨a, h⟩
      let r := s.setHart ⟨a, h⟩ blankHart
      (v.wdog = true → exec .firmwareWatchdog s = .next (s.setHart ⟨a, h⟩ { v with wdog := false })) ∧
      (v.wdog = false → a < 8 → exec .firmwareWatchdog s = .next { r with hub := { r.hub with evt := r.hub.evt ||| 1 } }) ∧
      (v.wdog = false → 8 ≤ a → exec .firmwareWatchdog s = .next (((r.setDie (a - 8)
        { r.die (a - 8) with evt := (r.die (a - 8)).evt ||| 1 }).takeOffDie (a - 8) s.hangDetail).noted s))) ∧
    (a < 8 →
      (let d := s.die a
       let cap := if 100 < b then max 680 (d.cap - 68) else if b < 95 then min 1360 (d.cap + 68) else d.cap
       let u := s.setDie a { d with cap := cap, temp := b, capAt := now, pool := min d.stampSet cap }
       let r := (u.resetDie a).noted u
       d.capAt + 16000000 ≤ now → exec .thermalCapStep s = .next
         (if 115 < b ∧ d.present = true then r.setDie a { r.die a with evt := (r.die a).evt ||| 2 } else u)) ∧
      (now < (s.die a).capAt + 16000000 → exec .thermalCapStep s = .next s)) ∧
    (1 ≤ a → a ≤ 8 → b ≤ 115 ∨ (s.die (a - 1)).present = false →
      exec .thermalTrip s = .next (s.setDie (a - 1) { s.die (a - 1) with temp := b })) ∧
    (1 ≤ a → a ≤ 8 → 115 < b → (s.die (a - 1)).present = true →
      let u := s.setDie (a - 1) { s.die (a - 1) with temp := b }
      let r := (u.resetDie (a - 1)).noted u
      exec .thermalTrip s = .next (r.setDie (a - 1) { r.die (a - 1) with evt := (r.die (a - 1)).evt ||| 2 })) ∧
    (16 ≤ a → a ≤ 31 →
      let m := (s.mdie (a - 16)).refilled now
      let evt := if 105 < b ∧ m.present = true then m.evt ||| 2 else m.evt
      let u := s.setMdie (a - 16) { m with temp := b, halved := 85 < b, evt := evt }
      exec .thermalTrip s = .next (if 105 < b ∧ m.present = true then u.resetStack (a - 16) else u))

end
end

