-- ==== Sys2Proof/Laws/Crypto.lean ====
section
/-! SUPPORT. Laws of the algorithms: the sizes of keys and blocks, and that opening undoes sealing. -/

namespace Sys2Proof.Machine

theorem addBytes_length (a b : List Byte) : (addBytes a b).length = min a.length b.length := by simp [addBytes]

theorem addBytes_cancel : ∀ a b : List Byte, a.length ≤ b.length → addBytes (addBytes a b) b = a
  | [], _, _ => by simp [addBytes]
  | x :: a, [], h => by simp at h
  | x :: a, y :: b, h => by
    have ih := addBytes_cancel a b (by simpa using h)
    simp only [addBytes, List.zipWith_cons_cons, List.cons.injEq] at ih ⊢
    exact ⟨by rw [BitVec.xor_assoc, BitVec.xor_self, BitVec.xor_zero], ih⟩

/-! ### SHAKE256 -/

theorem keccakRound_length (a : List Word) (rc : Word) : (keccakRound a rc).length = 25 := by simp [keccakRound]

theorem keccakF_length {a : List Word} (h : a.length = 25) : (keccakF a).length = 25 := by
  have : ∀ (rcs : List Word) (a : List Word), a.length = 25 → (rcs.foldl keccakRound a).length = 25 := by
    intro rcs
    induction rcs with
    | nil => exact fun _ h => h
    | cons r _ ih => exact fun a _ => ih _ (keccakRound_length a r)
  exact this keccakRc a h

theorem keccakAbsorb_length {a : List Word} (h : a.length = 25) (bs : List Byte) : (keccakAbsorb a bs).length = 25 :=
  keccakF_length (by simp [h])

theorem keccakBytes_length : ∀ a : List Word, (keccakBytes a).length = 8 * a.length
  | [] => rfl
  | x :: a => by
    have ih := keccakBytes_length a
    simp only [keccakBytes] at ih
    simp only [keccakBytes, List.flatMap_cons, List.length_append, ih, List.length_cons]
    simp [leBytes]; omega

theorem squeeze_length (rate k : Nat) (hr : rate ≤ 200) : ∀ a : List Word, a.length = 25 → (squeeze rate k a).length = k * rate := by
  induction k with
  | zero => intro _ _; simp [squeeze]
  | succ k ih =>
    intro a h
    simp only [squeeze, List.length_append, List.length_take, keccakBytes_length, h, ih _ (keccakF_length h), Nat.succ_mul]
    omega

/-- As many bytes of output come as are asked for. -/
theorem sponge_length (rate : Nat) (dom : Byte) (bs : List Byte) (n : Nat) (h0 : 0 < rate) (hr : rate ≤ 200) :
    (sponge rate dom bs n).length = n := by
  have : ∀ (xs : List (List Byte)) (a : List Word), a.length = 25 → (xs.foldl keccakAbsorb a).length = 25 := by
    intro xs
    induction xs with
    | nil => exact fun _ h => h
    | cons x _ ih => exact fun a ha => ih _ (keccakAbsorb_length ha x)
  have hn : n ≤ (n + rate - 1) / rate * rate := by
    have := Nat.div_add_mod (n + rate - 1) rate
    have := Nat.mod_lt (n + rate - 1) h0
    rw [Nat.mul_comm]
    omega
  have ha := this (spongeBlocks rate dom (bs.length / rate + 1) bs) (List.replicate 25 0) (by rfl)
  simp only [sponge, List.length_take, squeeze_length rate _ hr _ ha]
  omega

theorem shake256_length (bs : List Byte) (n : Nat) : (shake256 bs n).length = n := sponge_length 136 _ bs n (by decide) (by decide)

/-! ### AES-256 -/

theorem aesSchedule_words (n : Nat) : ∀ (rcon : Byte) (ws : List (List Byte)), 8 ≤ ws.length → (∀ w ∈ ws, w.length = 4) →
    (aesSchedule n rcon ws).length = n + ws.length ∧ ∀ w ∈ aesSchedule n rcon ws, w.length = 4 := by
  induction n with
  | zero => intro _ ws _ h; exact ⟨by simp [aesSchedule], h⟩
  | succ n ih =>
    intro rcon ws hl h
    have at_ : ∀ k, k < 8 → (ws.getD k []).length = 4 := by
      intro k hk
      have : k < ws.length := by omega
      rw [List.getD_eq_getElem _ _ this]
      exact h _ (List.getElem_mem this)
    have h0 := at_ 0 (by omega)
    have h7 := at_ 7 (by omega)
    have key : ∀ w : List Byte, w.length = 4 → ∀ r,
        (aesSchedule n r (w :: ws)).length = n + 1 + ws.length ∧ ∀ x ∈ aesSchedule n r (w :: ws), x.length = 4 := by
      intro w hw r
      have := ih r (w :: ws) (by simp; omega) (by simpa [hw] using h)
      exact ⟨by rw [this.1]; simp; omega, this.2⟩
    simp only [aesSchedule]
    apply key
    rw [List.length_zipWith, h7]
    split
    · cases hr : (List.drop 1 (ws.getD 0 []) ++ List.take 1 (ws.getD 0 [])).map aesSub with
      | nil => have := congrArg List.length hr; simp at this; rw [List.getD_eq_getElem?_getD] at h0; simp_all
      | cons x rest => have := congrArg List.length hr; simp only [List.length_map, List.length_append, List.length_drop, List.length_take, h0, List.length_cons] at this ⊢; omega
    · split
      · rw [List.length_map, h0]; rfl
      · rw [h0]; rfl

/-- Each of the fifteen round keys has sixteen bytes. -/
theorem aesKeys_length {key : List Byte} (h : key.length = 32) : (aesKeys key).length = 15 ∧ ∀ k ∈ aesKeys key, k.length = 16 := by
  have hw := aesSchedule_words 52 1 (((List.range 8).map fun i => (key.drop (4 * i)).take 4).reverse) (by simp)
    (by intro w hw
        simp only [List.mem_reverse, List.mem_map, List.mem_range] at hw
        obtain ⟨i, hi, rfl⟩ := hw
        simp [h]; omega)
  refine ⟨by simp [aesKeys], ?_⟩
  intro k hk
  simp only [aesKeys, List.mem_map, List.mem_range] at hk
  obtain ⟨r, hr, rfl⟩ := hk
  generalize aesSchedule 52 1 _ = ws at hw
  have all4 : ∀ (xs : List (List Byte)), (∀ x ∈ xs, x.length = 4) → xs.flatten.length = 4 * xs.length := by
    intro xs
    induction xs with
    | nil => intro _; rfl
    | cons x xs ih =>
      intro hx
      simp only [List.flatten_cons, List.length_append, List.length_cons, ih fun y hy => hx y (by simp [hy]), hx x (by simp)]
      omega
  rw [all4 _ fun x hx => hw.2 x (List.mem_reverse.mp (List.mem_of_mem_drop (List.mem_of_mem_take hx)))]
  simp only [List.length_take, List.length_drop, List.length_reverse, hw.1, List.length_map, List.length_range]
  omega

/-- A block of output has sixteen bytes. -/
theorem aes256_length {key : List Byte} (h : key.length = 32) (b : List Byte) : (aes256 key b).length = 16 := by
  obtain ⟨hl, hk⟩ := aesKeys_length h
  unfold aes256
  split
  · rename_i e; simp [e] at hl
  · rename_i k0 ks e
    rw [e] at hl hk
    have h13 : 13 < ks.length := by simp at hl; omega
    simp only [addBytes_length, aesShift, List.length_map, List.length_range]
    rw [List.getD_eq_getElem _ _ h13, hk _ (List.mem_cons_of_mem _ (List.getElem_mem h13))]
    rfl

/-! ### GCM -/

/-- The stream on successive blocks. -/
def gcmRun (key iv : List Byte) (n : Nat) (bs : List (List Byte)) : List Byte :=
  match bs with
  | [] => []
  | b :: bs => addBytes b (aes256 key (iv ++ beBytes 4 n)) ++ gcmRun key iv (n + 1) bs

theorem gcmRun_eq (key iv : List Byte) (bs : List (List Byte)) (n k : Nat) :
    ((bs.zipIdx k).flatMap fun b => addBytes b.1 (aes256 key (iv ++ beBytes 4 (n + b.2)))) = gcmRun key iv (n + k) bs := by
  induction bs generalizing k with
  | nil => rfl
  | cons b bs ih => simp only [List.zipIdx_cons, List.flatMap_cons, gcmRun, ih, Nat.add_assoc]

theorem gcmStream_eq (key iv : List Byte) (n : Nat) (bs : List Byte) :
    gcmStream key iv n bs = (gcmRun key iv n (blocks16 (bs.length + 1) bs)).take bs.length := by
  simp only [gcmStream, gcmRun_eq, Nat.add_zero]

/-- On whole blocks the stream is its own inverse. -/
theorem gcmStream_whole {key : List Byte} (hk : key.length = 32) (iv : List Byte) : ∀ (m n : Nat) (bs : List Byte) (f : Nat),
    bs.length = 16 * m → bs.length < f → (gcmRun key iv n (blocks16 f bs)).length = bs.length ∧
      gcmRun key iv n (blocks16 f (gcmRun key iv n (blocks16 f bs))) = bs := by
  intro m
  induction m with
  | zero =>
    intro n bs f hb hf
    obtain rfl : bs = [] := List.length_eq_zero_iff.mp (by omega)
    cases f with
    | zero => omega
    | succ f => simp [blocks16, gcmRun]
  | succ m ih =>
    intro n bs f hb hf
    cases f with
    | zero => omega
    | succ f =>
      have ha := aes256_length hk (iv ++ beBytes 4 n)
      generalize he : aes256 key (iv ++ beBytes 4 n) = e at ha
      have hne : bs.isEmpty = false := by cases bs with | nil => simp at hb | cons _ _ => rfl
      have hx : (addBytes (bs.take 16) e).length = 16 := by rw [addBytes_length, List.length_take, ha]; omega
      have hd : (bs.drop 16).length = 16 * m := by rw [List.length_drop]; omega
      obtain ⟨h1, h2⟩ := ih (n + 1) (bs.drop 16) f hd (by omega)
      have run : gcmRun key iv n (blocks16 (f + 1) bs) = addBytes (bs.take 16) e ++ gcmRun key iv (n + 1) (blocks16 f (bs.drop 16)) := by
        simp only [blocks16, hne, Bool.false_eq_true, if_false, gcmRun, he]
        rw [show 16 - bs.length = 0 by omega]; simp
      rw [run]
      generalize hr : gcmRun key iv (n + 1) (blocks16 f (bs.drop 16)) = r at h1 h2
      refine ⟨by rw [List.length_append, hx, h1, hd, hb]; omega, ?_⟩
      have hne2 : (addBytes (bs.take 16) e ++ r).isEmpty = false := by
        cases hh : addBytes (bs.take 16) e ++ r with
        | nil => have := congrArg List.length hh; rw [List.length_append, hx] at this; simp at this
        | cons _ _ => rfl
      have hl : (addBytes (bs.take 16) e ++ r).length = 16 + 16 * m := by rw [List.length_append, hx, h1, hd]
      simp only [blocks16, hne2, Bool.false_eq_true, if_false, gcmRun, he, hl]
      rw [show 16 - (16 + 16 * m) = 0 by omega, List.take_left' hx, List.drop_left' hx, h2]
      simp only [List.replicate_zero, List.append_nil]
      rw [addBytes_cancel _ _ (by rw [List.length_take, ha]; omega), List.take_append_drop]

theorem gcmStream_length {key : List Byte} (hk : key.length = 32) (iv : List Byte) (n m : Nat) {bs : List Byte} (h : bs.length = 16 * m) :
    (gcmStream key iv n bs).length = bs.length := by
  rw [gcmStream_eq, List.length_take, (gcmStream_whole hk iv m n bs _ h (Nat.lt_succ_self _)).1, Nat.min_self]

/-- Opening undoes sealing, on whole blocks. -/
theorem gcmOpen_gcmStream {key : List Byte} (hk : key.length = 32) (iv : List Byte) (m : Nat) {bs : List Byte} (h : bs.length = 16 * m) :
    gcmOpen key iv (gcmStream key iv 2 bs) = bs := by
  obtain ⟨h1, h2⟩ := gcmStream_whole hk iv m 2 bs (bs.length + 1) h (Nat.lt_succ_self _)
  unfold gcmOpen
  rw [gcmStream_eq key iv 2 (gcmStream key iv 2 bs), gcmStream_length hk iv 2 m h, gcmStream_eq]
  rw [List.take_of_length_le (Nat.le_of_eq h1), h2, List.take_of_length_le (Nat.le_refl _)]

end Sys2Proof.Machine
end

