-- ==== Sys2Proof/Laws/Encoding.lean ====
section
/-! SUPPORT. Every field of every layout of the encoder, read back (08 R133, 09 R155). -/

namespace Sys2Proof

/-- A bit of the R layout. -/
theorem getLsbD_encR (f7 : BitVec 7) (rs2 rs1 : Reg) (f3 : BitVec 3) (rd : Reg) (opc : BitVec 7) (i : Nat) : (encR f7 rs2 rs1 f3 rd opc).getLsbD i =
    (if i < 7 then opc.getLsbD i else if i < 12 then rd.getLsbD (i - 7) else if i < 15 then f3.getLsbD (i - 12) else if i < 20 then rs1.getLsbD (i - 15) else if i < 25 then rs2.getLsbD (i - 20) else f7.getLsbD (i - 25)) := by
  show BitVec.getLsbD (w := 7+5+5+3+5+7) (f7 ++ rs2 ++ rs1 ++ f3 ++ rd ++ opc) _ = _
  simp only [BitVec.getLsbD_append]
  grind

@[simp] theorem fOpcode_encR (f7 : BitVec 7) (rs2 rs1 : Reg) (f3 : BitVec 3) (rd : Reg) (opc : BitVec 7) : fOpcode (encR f7 rs2 rs1 f3 rd opc) = opc := by
  refine BitVec.eq_of_getLsbD_eq fun i hi => ?_
  simp only [fOpcode, BitVec.getLsbD_extractLsb', getLsbD_encR]
  grind

@[simp] theorem fRd_encR (f7 : BitVec 7) (rs2 rs1 : Reg) (f3 : BitVec 3) (rd : Reg) (opc : BitVec 7) : fRd (encR f7 rs2 rs1 f3 rd opc) = rd := by
  refine BitVec.eq_of_getLsbD_eq fun i hi => ?_
  simp only [fRd, BitVec.getLsbD_extractLsb', getLsbD_encR]
  grind

@[simp] theorem fF3_encR (f7 : BitVec 7) (rs2 rs1 : Reg) (f3 : BitVec 3) (rd : Reg) (opc : BitVec 7) : fF3 (encR f7 rs2 rs1 f3 rd opc) = f3 := by
  refine BitVec.eq_of_getLsbD_eq fun i hi => ?_
  simp only [fF3, BitVec.getLsbD_extractLsb', getLsbD_encR]
  grind

@[simp] theorem fRs1_encR (f7 : BitVec 7) (rs2 rs1 : Reg) (f3 : BitVec 3) (rd : Reg) (opc : BitVec 7) : fRs1 (encR f7 rs2 rs1 f3 rd opc) = rs1 := by
  refine BitVec.eq_of_getLsbD_eq fun i hi => ?_
  simp only [fRs1, BitVec.getLsbD_extractLsb', getLsbD_encR]
  grind

@[simp] theorem fRs2_encR (f7 : BitVec 7) (rs2 rs1 : Reg) (f3 : BitVec 3) (rd : Reg) (opc : BitVec 7) : fRs2 (encR f7 rs2 rs1 f3 rd opc) = rs2 := by
  refine BitVec.eq_of_getLsbD_eq fun i hi => ?_
  simp only [fRs2, BitVec.getLsbD_extractLsb', getLsbD_encR]
  grind

@[simp] theorem fF7_encR (f7 : BitVec 7) (rs2 rs1 : Reg) (f3 : BitVec 3) (rd : Reg) (opc : BitVec 7) : fF7 (encR f7 rs2 rs1 f3 rd opc) = f7 := by
  refine BitVec.eq_of_getLsbD_eq fun i hi => ?_
  simp only [fF7, BitVec.getLsbD_extractLsb', getLsbD_encR]
  grind

/-- A bit of the I layout. -/
theorem getLsbD_encI (imm : BitVec 12) (rs1 : Reg) (f3 : BitVec 3) (rd : Reg) (opc : BitVec 7) (i : Nat) : (encI imm rs1 f3 rd opc).getLsbD i =
    (if i < 7 then opc.getLsbD i else if i < 12 then rd.getLsbD (i - 7) else if i < 15 then f3.getLsbD (i - 12) else if i < 20 then rs1.getLsbD (i - 15) else imm.getLsbD (i - 20)) := by
  show BitVec.getLsbD (w := 12+5+3+5+7) (imm ++ rs1 ++ f3 ++ rd ++ opc) _ = _
  simp only [BitVec.getLsbD_append]
  grind

@[simp] theorem fOpcode_encI (imm : BitVec 12) (rs1 : Reg) (f3 : BitVec 3) (rd : Reg) (opc : BitVec 7) : fOpcode (encI imm rs1 f3 rd opc) = opc := by
  refine BitVec.eq_of_getLsbD_eq fun i hi => ?_
  simp only [fOpcode, BitVec.getLsbD_extractLsb', getLsbD_encI]
  grind

@[simp] theorem fRd_encI (imm : BitVec 12) (rs1 : Reg) (f3 : BitVec 3) (rd : Reg) (opc : BitVec 7) : fRd (encI imm rs1 f3 rd opc) = rd := by
  refine BitVec.eq_of_getLsbD_eq fun i hi => ?_
  simp only [fRd, BitVec.getLsbD_extractLsb', getLsbD_encI]
  grind

@[simp] theorem fF3_encI (imm : BitVec 12) (rs1 : Reg) (f3 : BitVec 3) (rd : Reg) (opc : BitVec 7) : fF3 (encI imm rs1 f3 rd opc) = f3 := by
  refine BitVec.eq_of_getLsbD_eq fun i hi => ?_
  simp only [fF3, BitVec.getLsbD_extractLsb', getLsbD_encI]
  grind

@[simp] theorem fRs1_encI (imm : BitVec 12) (rs1 : Reg) (f3 : BitVec 3) (rd : Reg) (opc : BitVec 7) : fRs1 (encI imm rs1 f3 rd opc) = rs1 := by
  refine BitVec.eq_of_getLsbD_eq fun i hi => ?_
  simp only [fRs1, BitVec.getLsbD_extractLsb', getLsbD_encI]
  grind

@[simp] theorem fImmI_encI (imm : BitVec 12) (rs1 : Reg) (f3 : BitVec 3) (rd : Reg) (opc : BitVec 7) : fImmI (encI imm rs1 f3 rd opc) = imm := by
  refine BitVec.eq_of_getLsbD_eq fun i hi => ?_
  simp only [fImmI, BitVec.getLsbD_extractLsb', getLsbD_encI]
  grind

/-- A bit of the U layout. -/
theorem getLsbD_encU (imm : BitVec 20) (rd : Reg) (opc : BitVec 7) (i : Nat) : (encU imm rd opc).getLsbD i =
    (if i < 7 then opc.getLsbD i else if i < 12 then rd.getLsbD (i - 7) else imm.getLsbD (i - 12)) := by
  show BitVec.getLsbD (w := 20+5+7) (imm ++ rd ++ opc) _ = _
  simp only [BitVec.getLsbD_append]
  grind

@[simp] theorem fOpcode_encU (imm : BitVec 20) (rd : Reg) (opc : BitVec 7) : fOpcode (encU imm rd opc) = opc := by
  refine BitVec.eq_of_getLsbD_eq fun i hi => ?_
  simp only [fOpcode, BitVec.getLsbD_extractLsb', getLsbD_encU]
  grind

@[simp] theorem fRd_encU (imm : BitVec 20) (rd : Reg) (opc : BitVec 7) : fRd (encU imm rd opc) = rd := by
  refine BitVec.eq_of_getLsbD_eq fun i hi => ?_
  simp only [fRd, BitVec.getLsbD_extractLsb', getLsbD_encU]
  grind

@[simp] theorem fImmU_encU (imm : BitVec 20) (rd : Reg) (opc : BitVec 7) : fImmU (encU imm rd opc) = imm := by
  refine BitVec.eq_of_getLsbD_eq fun i hi => ?_
  simp only [fImmU, BitVec.getLsbD_extractLsb', getLsbD_encU]
  grind

/-- A bit of the S layout. -/
theorem getLsbD_encS (imm : BitVec 12) (rs2 rs1 : Reg) (f3 : BitVec 3) (opc : BitVec 7) (i : Nat) : (encS imm rs2 rs1 f3 opc).getLsbD i =
    (if i < 7 then opc.getLsbD i else if i < 12 then imm.getLsbD (i - 7) else if i < 15 then f3.getLsbD (i - 12)
      else if i < 20 then rs1.getLsbD (i - 15) else if i < 25 then rs2.getLsbD (i - 20) else imm.getLsbD (i - 20)) := by
  show BitVec.getLsbD (w := 7+5+5+3+5+7) (imm.extractLsb' 5 7 ++ rs2 ++ rs1 ++ f3 ++ imm.extractLsb' 0 5 ++ opc) _ = _
  simp only [BitVec.getLsbD_append, BitVec.getLsbD_extractLsb']
  grind

@[simp] theorem fOpcode_encS (imm : BitVec 12) (rs2 rs1 : Reg) (f3 : BitVec 3) (opc : BitVec 7) : fOpcode (encS imm rs2 rs1 f3 opc) = opc := by
  refine BitVec.eq_of_getLsbD_eq fun i hi => ?_
  simp only [fOpcode, BitVec.getLsbD_extractLsb', getLsbD_encS]
  grind

@[simp] theorem fF3_encS (imm : BitVec 12) (rs2 rs1 : Reg) (f3 : BitVec 3) (opc : BitVec 7) : fF3 (encS imm rs2 rs1 f3 opc) = f3 := by
  refine BitVec.eq_of_getLsbD_eq fun i hi => ?_
  simp only [fF3, BitVec.getLsbD_extractLsb', getLsbD_encS]
  grind

@[simp] theorem fRs1_encS (imm : BitVec 12) (rs2 rs1 : Reg) (f3 : BitVec 3) (opc : BitVec 7) : fRs1 (encS imm rs2 rs1 f3 opc) = rs1 := by
  refine BitVec.eq_of_getLsbD_eq fun i hi => ?_
  simp only [fRs1, BitVec.getLsbD_extractLsb', getLsbD_encS]
  grind

@[simp] theorem fRs2_encS (imm : BitVec 12) (rs2 rs1 : Reg) (f3 : BitVec 3) (opc : BitVec 7) : fRs2 (encS imm rs2 rs1 f3 opc) = rs2 := by
  refine BitVec.eq_of_getLsbD_eq fun i hi => ?_
  simp only [fRs2, BitVec.getLsbD_extractLsb', getLsbD_encS]
  grind

@[simp] theorem fImmS_encS (imm : BitVec 12) (rs2 rs1 : Reg) (f3 : BitVec 3) (opc : BitVec 7) : fImmS (encS imm rs2 rs1 f3 opc) = imm := by
  refine BitVec.eq_of_getLsbD_eq fun i hi => ?_
  simp only [fImmS, BitVec.getLsbD_append, BitVec.getLsbD_extractLsb', getLsbD_encS]
  grind

/-- A bit of the B layout. -/
theorem getLsbD_encB (imm : BitVec 12) (rs2 rs1 : Reg) (f3 : BitVec 3) (i : Nat) : (encB imm rs2 rs1 f3).getLsbD i =
    (if i < 7 then (0x63#7).getLsbD i else if i < 8 then imm.getLsbD (i + 3) else if i < 12 then imm.getLsbD (i - 8)
      else if i < 15 then f3.getLsbD (i - 12) else if i < 20 then rs1.getLsbD (i - 15) else if i < 25 then rs2.getLsbD (i - 20)
      else if i < 31 then imm.getLsbD (i - 21) else if i < 32 then imm.getLsbD (i - 20) else false) := by
  show BitVec.getLsbD (w := 1+6+5+5+3+4+1+7) (imm.extractLsb' 11 1 ++ imm.extractLsb' 4 6 ++ rs2 ++ rs1 ++ f3
    ++ imm.extractLsb' 0 4 ++ imm.extractLsb' 10 1 ++ 0x63#7) _ = _
  simp only [BitVec.getLsbD_append, BitVec.getLsbD_extractLsb']
  grind

@[simp] theorem fOpcode_encB (imm : BitVec 12) (rs2 rs1 : Reg) (f3 : BitVec 3) : fOpcode (encB imm rs2 rs1 f3) = 0x63#7 := by
  refine BitVec.eq_of_getLsbD_eq fun i hi => ?_
  simp only [fOpcode, BitVec.getLsbD_extractLsb', getLsbD_encB]
  grind

@[simp] theorem fF3_encB (imm : BitVec 12) (rs2 rs1 : Reg) (f3 : BitVec 3) : fF3 (encB imm rs2 rs1 f3) = f3 := by
  refine BitVec.eq_of_getLsbD_eq fun i hi => ?_
  simp only [fF3, BitVec.getLsbD_extractLsb', getLsbD_encB]
  grind

@[simp] theorem fRs1_encB (imm : BitVec 12) (rs2 rs1 : Reg) (f3 : BitVec 3) : fRs1 (encB imm rs2 rs1 f3) = rs1 := by
  refine BitVec.eq_of_getLsbD_eq fun i hi => ?_
  simp only [fRs1, BitVec.getLsbD_extractLsb', getLsbD_encB]
  grind

@[simp] theorem fRs2_encB (imm : BitVec 12) (rs2 rs1 : Reg) (f3 : BitVec 3) : fRs2 (encB imm rs2 rs1 f3) = rs2 := by
  refine BitVec.eq_of_getLsbD_eq fun i hi => ?_
  simp only [fRs2, BitVec.getLsbD_extractLsb', getLsbD_encB]
  grind

@[simp] theorem fImmB_encB (imm : BitVec 12) (rs2 rs1 : Reg) (f3 : BitVec 3) : fImmB (encB imm rs2 rs1 f3) = imm := by
  refine BitVec.eq_of_getLsbD_eq fun i hi => ?_
  simp only [fImmB, BitVec.getLsbD_append, BitVec.getLsbD_extractLsb', getLsbD_encB]
  grind

/-- A bit of the J layout. -/
theorem getLsbD_encJ (imm : BitVec 20) (rd : Reg) (i : Nat) : (encJ imm rd).getLsbD i =
    (if i < 7 then (0x6F#7).getLsbD i else if i < 12 then rd.getLsbD (i - 7) else if i < 20 then imm.getLsbD (i - 1)
      else if i < 21 then imm.getLsbD (i - 10) else if i < 31 then imm.getLsbD (i - 21) else if i < 32 then imm.getLsbD (i - 12) else false) := by
  show BitVec.getLsbD (w := 1+10+1+8+5+7) (imm.extractLsb' 19 1 ++ imm.extractLsb' 0 10 ++ imm.extractLsb' 10 1
    ++ imm.extractLsb' 11 8 ++ rd ++ 0x6F#7) _ = _
  simp only [BitVec.getLsbD_append, BitVec.getLsbD_extractLsb']
  grind

@[simp] theorem fOpcode_encJ (imm : BitVec 20) (rd : Reg) : fOpcode (encJ imm rd) = 0x6F#7 := by
  refine BitVec.eq_of_getLsbD_eq fun i hi => ?_
  simp only [fOpcode, BitVec.getLsbD_extractLsb', getLsbD_encJ]
  grind

@[simp] theorem fRd_encJ (imm : BitVec 20) (rd : Reg) : fRd (encJ imm rd) = rd := by
  refine BitVec.eq_of_getLsbD_eq fun i hi => ?_
  simp only [fRd, BitVec.getLsbD_extractLsb', getLsbD_encJ]
  grind

@[simp] theorem fImmJ_encJ (imm : BitVec 20) (rd : Reg) : fImmJ (encJ imm rd) = imm := by
  refine BitVec.eq_of_getLsbD_eq fun i hi => ?_
  simp only [fImmJ, BitVec.getLsbD_append, BitVec.getLsbD_extractLsb', getLsbD_encJ]
  grind

/-- The shift amount of a 64-bit shift by an immediate. -/
@[simp] theorem shamt_encI (h sh : BitVec 6) (rs1 : Reg) (f3 : BitVec 3) (rd : Reg) (opc : BitVec 7) :
    (encI (h ++ sh) rs1 f3 rd opc).extractLsb' 20 6 = sh := by
  refine BitVec.eq_of_getLsbD_eq fun i hi => ?_
  simp only [BitVec.getLsbD_extractLsb', getLsbD_encI, BitVec.getLsbD_append]
  grind

/-- The high bits of a 12-bit immediate of two halves. -/
@[simp] theorem high6 (h sh : BitVec 6) : (h ++ sh : BitVec 12).extractLsb' 6 6 = h := by
  refine BitVec.eq_of_getLsbD_eq fun i hi => ?_
  simp only [BitVec.getLsbD_extractLsb', BitVec.getLsbD_append]
  grind

/-- A bit of a long form. -/
theorem getLsbD_encL (o : LF) (op : BitVec 6) (cls : BitVec 4) (i : Nat) : (encL o op cls).getLsbD i =
    (if i < 7 then (0x3F#7).getLsbD i else if i < 11 then cls.getLsbD (i - 7) else if i < 17 then op.getLsbD (i - 11) else if i < 28 then o.d.getLsbD (i - 17) else if i < 39 then o.a.getLsbD (i - 28) else if i < 50 then o.b.getLsbD (i - 39) else if i < 54 then o.fmt.getLsbD (i - 50) else if i < 56 then o.grp.getLsbD (i - 54) else if i < 57 then o.t.getLsbD (i - 56) else if i < 58 then o.m.getLsbD (i - 57) else o.sub.getLsbD (i - 58)) := by
  show BitVec.getLsbD (w := 6+1+1+2+4+11+11+11+6+4+7) (o.sub ++ o.m ++ o.t ++ o.grp ++ o.fmt ++ o.b ++ o.a ++ o.d ++ op ++ cls ++ 0x3F#7) _ = _
  simp only [BitVec.getLsbD_append]
  grind (splits := 30)

/-- The operand fields of a long form. -/
@[simp] theorem fLF_encL (o : LF) (op : BitVec 6) (cls : BitVec 4) : fLF (encL o op cls) = o := by
  obtain ⟨sub, m, t, grp, fmt, b, a, d⟩ := o
  simp only [fLF, LF.mk.injEq]
  refine ⟨?_, ?_, ?_, ?_, ?_, ?_, ?_, ?_⟩ <;>
    (refine BitVec.eq_of_getLsbD_eq fun i hi => ?_
     simp only [BitVec.getLsbD_extractLsb', getLsbD_encL]
     grind)

/-- CLASS of a long form. -/
@[simp] theorem cls_encL (o : LF) (op : BitVec 6) (cls : BitVec 4) : (encL o op cls).extractLsb' 7 4 = cls := by
  refine BitVec.eq_of_getLsbD_eq fun i hi => ?_
  simp only [BitVec.getLsbD_extractLsb', getLsbD_encL]
  grind

/-- OP of a long form. -/
@[simp] theorem op_encL (o : LF) (op : BitVec 6) (cls : BitVec 4) : (encL o op cls).extractLsb' 11 6 = op := by
  refine BitVec.eq_of_getLsbD_eq fun i hi => ?_
  simp only [BitVec.getLsbD_extractLsb', getLsbD_encL]
  grind

/-- The major opcode of a long form. -/
@[simp] theorem major_encL (o : LF) (op : BitVec 6) (cls : BitVec 4) : fOpcode ((encL o op cls).extractLsb' 0 32) = 0x3F#7 := by
  refine BitVec.eq_of_getLsbD_eq fun i hi => ?_
  simp only [fOpcode, BitVec.getLsbD_extractLsb', getLsbD_encL]
  grind

/-- The two words of a long form, joined again. -/
@[simp] theorem join_words (w : BitVec 64) : w.extractLsb' 32 32 ++ w.extractLsb' 0 32 = w := by
  refine BitVec.eq_of_getLsbD_eq fun i hi => ?_
  simp only [BitVec.getLsbD_append, BitVec.getLsbD_extractLsb']
  grind

end Sys2Proof
end

