-- ==== Sys2Proof/Laws/State.lean ====
section
/-! SUPPORT. Every field of the state after every named update of one part of it, and every field of a team after its updates. -/

namespace Sys2Proof.Machine

/-! ### `setTeam` -/

@[simp] theorem State.setTeam_focus (s : State) (t : Team) : (s.setTeam t).focus = s.focus := rfl
@[simp] theorem State.setTeam_agenda (s : State) (t : Team) : (s.setTeam t).agenda = s.agenda := rfl
@[simp] theorem State.setTeam_glances (s : State) (t : Team) : (s.setTeam t).glances = s.glances := rfl
@[simp] theorem State.setTeam_seen (s : State) (t : Team) : (s.setTeam t).seen = s.seen := rfl
@[simp] theorem State.setTeam_args (s : State) (t : Team) : (s.setTeam t).args = s.args := rfl
@[simp] theorem State.setTeam_reply (s : State) (t : Team) : (s.setTeam t).reply = s.reply := rfl
@[simp] theorem State.setTeam_freeCount (s : State) (t : Team) : (s.setTeam t).freeCount = s.freeCount := rfl
@[simp] theorem State.setTeam_tasks (s : State) (t : Team) : (s.setTeam t).tasks = s.tasks := rfl
@[simp] theorem State.setTeam_nextId (s : State) (t : Team) : (s.setTeam t).nextId = s.nextId := rfl
@[simp] theorem State.setTeam_launches (s : State) (t : Team) : (s.setTeam t).launches = s.launches := rfl
@[simp] theorem State.setTeam_contexts (s : State) (t : Team) : (s.setTeam t).contexts = s.contexts := rfl
@[simp] theorem State.setTeam_parts (s : State) (t : Team) : (s.setTeam t).parts = s.parts := rfl
@[simp] theorem State.setTeam_keySlots (s : State) (t : Team) : (s.setTeam t).keySlots = s.keySlots := rfl
@[simp] theorem State.setTeam_postmarks (s : State) (t : Team) : (s.setTeam t).postmarks = s.postmarks := rfl
@[simp] theorem State.setTeam_syncs (s : State) (t : Team) : (s.setTeam t).syncs = s.syncs := rfl
@[simp] theorem State.setTeam_copies (s : State) (t : Team) : (s.setTeam t).copies = s.copies := rfl
@[simp] theorem State.setTeam_queries (s : State) (t : Team) : (s.setTeam t).queries = s.queries := rfl
@[simp] theorem State.setTeam_colls (s : State) (t : Team) : (s.setTeam t).colls = s.colls := rfl
@[simp] theorem State.setTeam_invals (s : State) (t : Team) : (s.setTeam t).invals = s.invals := rfl
@[simp] theorem State.setTeam_gang (s : State) (t : Team) : (s.setTeam t).gang = s.gang := rfl
@[simp] theorem State.setTeam_txns (s : State) (t : Team) : (s.setTeam t).txns = s.txns := rfl
@[simp] theorem State.setTeam_cache (s : State) (t : Team) : (s.setTeam t).cache = s.cache := rfl
@[simp] theorem State.setTeam_tlbs (s : State) (t : Team) : (s.setTeam t).tlbs = s.tlbs := rfl
@[simp] theorem State.setTeam_mem (s : State) (t : Team) : (s.setTeam t).mem = s.mem := rfl
@[simp] theorem State.setTeam_blocks (s : State) (t : Team) : (s.setTeam t).blocks = s.blocks := rfl
@[simp] theorem State.setTeam_nodes (s : State) (t : Team) : (s.setTeam t).nodes = s.nodes := rfl
@[simp] theorem State.setTeam_damage (s : State) (t : Team) : (s.setTeam t).damage = s.damage := rfl
@[simp] theorem State.setTeam_clus (s : State) (t : Team) : (s.setTeam t).clus = s.clus := rfl
@[simp] theorem State.setTeam_clusBad (s : State) (t : Team) : (s.setTeam t).clusBad = s.clusBad := rfl
@[simp] theorem State.setTeam_proofszHeld (s : State) (t : Team) : (s.setTeam t).proofszHeld = s.proofszHeld := rfl
@[simp] theorem State.setTeam_dies (s : State) (t : Team) : (s.setTeam t).dies = s.dies := rfl
@[simp] theorem State.setTeam_mdies (s : State) (t : Team) : (s.setTeam t).mdies = s.mdies := rfl
@[simp] theorem State.setTeam_links (s : State) (t : Team) : (s.setTeam t).links = s.links := rfl
@[simp] theorem State.setTeam_hub (s : State) (t : Team) : (s.setTeam t).hub = s.hub := rfl
@[simp] theorem State.setTeam_harts (s : State) (t : Team) : (s.setTeam t).harts = s.harts := rfl

/-! ### `setMember` -/

@[simp] theorem State.setMember_focus (s : State) (w : Who) (m : Member) : (s.setMember w m).focus = s.focus := rfl
@[simp] theorem State.setMember_agenda (s : State) (w : Who) (m : Member) : (s.setMember w m).agenda = s.agenda := rfl
@[simp] theorem State.setMember_glances (s : State) (w : Who) (m : Member) : (s.setMember w m).glances = s.glances := rfl
@[simp] theorem State.setMember_seen (s : State) (w : Who) (m : Member) : (s.setMember w m).seen = s.seen := rfl
@[simp] theorem State.setMember_args (s : State) (w : Who) (m : Member) : (s.setMember w m).args = s.args := rfl
@[simp] theorem State.setMember_reply (s : State) (w : Who) (m : Member) : (s.setMember w m).reply = s.reply := rfl
@[simp] theorem State.setMember_freeCount (s : State) (w : Who) (m : Member) : (s.setMember w m).freeCount = s.freeCount := rfl
@[simp] theorem State.setMember_tasks (s : State) (w : Who) (m : Member) : (s.setMember w m).tasks = s.tasks := rfl
@[simp] theorem State.setMember_nextId (s : State) (w : Who) (m : Member) : (s.setMember w m).nextId = s.nextId := rfl
@[simp] theorem State.setMember_launches (s : State) (w : Who) (m : Member) : (s.setMember w m).launches = s.launches := rfl
@[simp] theorem State.setMember_contexts (s : State) (w : Who) (m : Member) : (s.setMember w m).contexts = s.contexts := rfl
@[simp] theorem State.setMember_parts (s : State) (w : Who) (m : Member) : (s.setMember w m).parts = s.parts := rfl
@[simp] theorem State.setMember_keySlots (s : State) (w : Who) (m : Member) : (s.setMember w m).keySlots = s.keySlots := rfl
@[simp] theorem State.setMember_postmarks (s : State) (w : Who) (m : Member) : (s.setMember w m).postmarks = s.postmarks := rfl
@[simp] theorem State.setMember_syncs (s : State) (w : Who) (m : Member) : (s.setMember w m).syncs = s.syncs := rfl
@[simp] theorem State.setMember_copies (s : State) (w : Who) (m : Member) : (s.setMember w m).copies = s.copies := rfl
@[simp] theorem State.setMember_queries (s : State) (w : Who) (m : Member) : (s.setMember w m).queries = s.queries := rfl
@[simp] theorem State.setMember_colls (s : State) (w : Who) (m : Member) : (s.setMember w m).colls = s.colls := rfl
@[simp] theorem State.setMember_invals (s : State) (w : Who) (m : Member) : (s.setMember w m).invals = s.invals := rfl
@[simp] theorem State.setMember_gang (s : State) (w : Who) (m : Member) : (s.setMember w m).gang = s.gang := rfl
@[simp] theorem State.setMember_txns (s : State) (w : Who) (m : Member) : (s.setMember w m).txns = s.txns := rfl
@[simp] theorem State.setMember_cache (s : State) (w : Who) (m : Member) : (s.setMember w m).cache = s.cache := rfl
@[simp] theorem State.setMember_tlbs (s : State) (w : Who) (m : Member) : (s.setMember w m).tlbs = s.tlbs := rfl
@[simp] theorem State.setMember_mem (s : State) (w : Who) (m : Member) : (s.setMember w m).mem = s.mem := rfl
@[simp] theorem State.setMember_blocks (s : State) (w : Who) (m : Member) : (s.setMember w m).blocks = s.blocks := rfl
@[simp] theorem State.setMember_nodes (s : State) (w : Who) (m : Member) : (s.setMember w m).nodes = s.nodes := rfl
@[simp] theorem State.setMember_damage (s : State) (w : Who) (m : Member) : (s.setMember w m).damage = s.damage := rfl
@[simp] theorem State.setMember_clus (s : State) (w : Who) (m : Member) : (s.setMember w m).clus = s.clus := rfl
@[simp] theorem State.setMember_clusBad (s : State) (w : Who) (m : Member) : (s.setMember w m).clusBad = s.clusBad := rfl
@[simp] theorem State.setMember_proofszHeld (s : State) (w : Who) (m : Member) : (s.setMember w m).proofszHeld = s.proofszHeld := rfl
@[simp] theorem State.setMember_dies (s : State) (w : Who) (m : Member) : (s.setMember w m).dies = s.dies := rfl
@[simp] theorem State.setMember_mdies (s : State) (w : Who) (m : Member) : (s.setMember w m).mdies = s.mdies := rfl
@[simp] theorem State.setMember_links (s : State) (w : Who) (m : Member) : (s.setMember w m).links = s.links := rfl
@[simp] theorem State.setMember_hub (s : State) (w : Who) (m : Member) : (s.setMember w m).hub = s.hub := rfl
@[simp] theorem State.setMember_harts (s : State) (w : Who) (m : Member) : (s.setMember w m).harts = s.harts := rfl

/-! ### `setHart` -/

@[simp] theorem State.setHart_focus (s : State) (h : Fin 16) (v : Hart) : (s.setHart h v).focus = s.focus := rfl
@[simp] theorem State.setHart_agenda (s : State) (h : Fin 16) (v : Hart) : (s.setHart h v).agenda = s.agenda := rfl
@[simp] theorem State.setHart_glances (s : State) (h : Fin 16) (v : Hart) : (s.setHart h v).glances = s.glances := rfl
@[simp] theorem State.setHart_seen (s : State) (h : Fin 16) (v : Hart) : (s.setHart h v).seen = s.seen := rfl
@[simp] theorem State.setHart_args (s : State) (h : Fin 16) (v : Hart) : (s.setHart h v).args = s.args := rfl
@[simp] theorem State.setHart_reply (s : State) (h : Fin 16) (v : Hart) : (s.setHart h v).reply = s.reply := rfl
@[simp] theorem State.setHart_freeCount (s : State) (h : Fin 16) (v : Hart) : (s.setHart h v).freeCount = s.freeCount := rfl
@[simp] theorem State.setHart_cur (s : State) (h : Fin 16) (v : Hart) : (s.setHart h v).cur = s.cur := rfl
@[simp] theorem State.setHart_tasks (s : State) (h : Fin 16) (v : Hart) : (s.setHart h v).tasks = s.tasks := rfl
@[simp] theorem State.setHart_nextId (s : State) (h : Fin 16) (v : Hart) : (s.setHart h v).nextId = s.nextId := rfl
@[simp] theorem State.setHart_launches (s : State) (h : Fin 16) (v : Hart) : (s.setHart h v).launches = s.launches := rfl
@[simp] theorem State.setHart_contexts (s : State) (h : Fin 16) (v : Hart) : (s.setHart h v).contexts = s.contexts := rfl
@[simp] theorem State.setHart_parts (s : State) (h : Fin 16) (v : Hart) : (s.setHart h v).parts = s.parts := rfl
@[simp] theorem State.setHart_keySlots (s : State) (h : Fin 16) (v : Hart) : (s.setHart h v).keySlots = s.keySlots := rfl
@[simp] theorem State.setHart_postmarks (s : State) (h : Fin 16) (v : Hart) : (s.setHart h v).postmarks = s.postmarks := rfl
@[simp] theorem State.setHart_syncs (s : State) (h : Fin 16) (v : Hart) : (s.setHart h v).syncs = s.syncs := rfl
@[simp] theorem State.setHart_copies (s : State) (h : Fin 16) (v : Hart) : (s.setHart h v).copies = s.copies := rfl
@[simp] theorem State.setHart_queries (s : State) (h : Fin 16) (v : Hart) : (s.setHart h v).queries = s.queries := rfl
@[simp] theorem State.setHart_colls (s : State) (h : Fin 16) (v : Hart) : (s.setHart h v).colls = s.colls := rfl
@[simp] theorem State.setHart_invals (s : State) (h : Fin 16) (v : Hart) : (s.setHart h v).invals = s.invals := rfl
@[simp] theorem State.setHart_gang (s : State) (h : Fin 16) (v : Hart) : (s.setHart h v).gang = s.gang := rfl
@[simp] theorem State.setHart_txns (s : State) (h : Fin 16) (v : Hart) : (s.setHart h v).txns = s.txns := rfl
@[simp] theorem State.setHart_cache (s : State) (h : Fin 16) (v : Hart) : (s.setHart h v).cache = s.cache := rfl
@[simp] theorem State.setHart_tlbs (s : State) (h : Fin 16) (v : Hart) : (s.setHart h v).tlbs = s.tlbs := rfl
@[simp] theorem State.setHart_mem (s : State) (h : Fin 16) (v : Hart) : (s.setHart h v).mem = s.mem := rfl
@[simp] theorem State.setHart_blocks (s : State) (h : Fin 16) (v : Hart) : (s.setHart h v).blocks = s.blocks := rfl
@[simp] theorem State.setHart_nodes (s : State) (h : Fin 16) (v : Hart) : (s.setHart h v).nodes = s.nodes := rfl
@[simp] theorem State.setHart_damage (s : State) (h : Fin 16) (v : Hart) : (s.setHart h v).damage = s.damage := rfl
@[simp] theorem State.setHart_clus (s : State) (h : Fin 16) (v : Hart) : (s.setHart h v).clus = s.clus := rfl
@[simp] theorem State.setHart_clusBad (s : State) (h : Fin 16) (v : Hart) : (s.setHart h v).clusBad = s.clusBad := rfl
@[simp] theorem State.setHart_proofszHeld (s : State) (h : Fin 16) (v : Hart) : (s.setHart h v).proofszHeld = s.proofszHeld := rfl
@[simp] theorem State.setHart_dies (s : State) (h : Fin 16) (v : Hart) : (s.setHart h v).dies = s.dies := rfl
@[simp] theorem State.setHart_mdies (s : State) (h : Fin 16) (v : Hart) : (s.setHart h v).mdies = s.mdies := rfl
@[simp] theorem State.setHart_links (s : State) (h : Fin 16) (v : Hart) : (s.setHart h v).links = s.links := rfl
@[simp] theorem State.setHart_hub (s : State) (h : Fin 16) (v : Hart) : (s.setHart h v).hub = s.hub := rfl

/-! ### `setPm` -/

@[simp] theorem State.setPm_focus (s : State) (c d k : Nat) (p : Postmark) : (s.setPm c d k p).focus = s.focus := rfl
@[simp] theorem State.setPm_agenda (s : State) (c d k : Nat) (p : Postmark) : (s.setPm c d k p).agenda = s.agenda := rfl
@[simp] theorem State.setPm_glances (s : State) (c d k : Nat) (p : Postmark) : (s.setPm c d k p).glances = s.glances := rfl
@[simp] theorem State.setPm_seen (s : State) (c d k : Nat) (p : Postmark) : (s.setPm c d k p).seen = s.seen := rfl
@[simp] theorem State.setPm_args (s : State) (c d k : Nat) (p : Postmark) : (s.setPm c d k p).args = s.args := rfl
@[simp] theorem State.setPm_reply (s : State) (c d k : Nat) (p : Postmark) : (s.setPm c d k p).reply = s.reply := rfl
@[simp] theorem State.setPm_freeCount (s : State) (c d k : Nat) (p : Postmark) : (s.setPm c d k p).freeCount = s.freeCount := rfl
@[simp] theorem State.setPm_cur (s : State) (c d k : Nat) (p : Postmark) : (s.setPm c d k p).cur = s.cur := rfl
@[simp] theorem State.setPm_tasks (s : State) (c d k : Nat) (p : Postmark) : (s.setPm c d k p).tasks = s.tasks := rfl
@[simp] theorem State.setPm_nextId (s : State) (c d k : Nat) (p : Postmark) : (s.setPm c d k p).nextId = s.nextId := rfl
@[simp] theorem State.setPm_launches (s : State) (c d k : Nat) (p : Postmark) : (s.setPm c d k p).launches = s.launches := rfl
@[simp] theorem State.setPm_contexts (s : State) (c d k : Nat) (p : Postmark) : (s.setPm c d k p).contexts = s.contexts := rfl
@[simp] theorem State.setPm_parts (s : State) (c d k : Nat) (p : Postmark) : (s.setPm c d k p).parts = s.parts := rfl
@[simp] theorem State.setPm_keySlots (s : State) (c d k : Nat) (p : Postmark) : (s.setPm c d k p).keySlots = s.keySlots := rfl
@[simp] theorem State.setPm_syncs (s : State) (c d k : Nat) (p : Postmark) : (s.setPm c d k p).syncs = s.syncs := rfl
@[simp] theorem State.setPm_copies (s : State) (c d k : Nat) (p : Postmark) : (s.setPm c d k p).copies = s.copies := rfl
@[simp] theorem State.setPm_queries (s : State) (c d k : Nat) (p : Postmark) : (s.setPm c d k p).queries = s.queries := rfl
@[simp] theorem State.setPm_colls (s : State) (c d k : Nat) (p : Postmark) : (s.setPm c d k p).colls = s.colls := rfl
@[simp] theorem State.setPm_invals (s : State) (c d k : Nat) (p : Postmark) : (s.setPm c d k p).invals = s.invals := rfl
@[simp] theorem State.setPm_gang (s : State) (c d k : Nat) (p : Postmark) : (s.setPm c d k p).gang = s.gang := rfl
@[simp] theorem State.setPm_txns (s : State) (c d k : Nat) (p : Postmark) : (s.setPm c d k p).txns = s.txns := rfl
@[simp] theorem State.setPm_cache (s : State) (c d k : Nat) (p : Postmark) : (s.setPm c d k p).cache = s.cache := rfl
@[simp] theorem State.setPm_tlbs (s : State) (c d k : Nat) (p : Postmark) : (s.setPm c d k p).tlbs = s.tlbs := rfl
@[simp] theorem State.setPm_mem (s : State) (c d k : Nat) (p : Postmark) : (s.setPm c d k p).mem = s.mem := rfl
@[simp] theorem State.setPm_blocks (s : State) (c d k : Nat) (p : Postmark) : (s.setPm c d k p).blocks = s.blocks := rfl
@[simp] theorem State.setPm_nodes (s : State) (c d k : Nat) (p : Postmark) : (s.setPm c d k p).nodes = s.nodes := rfl
@[simp] theorem State.setPm_damage (s : State) (c d k : Nat) (p : Postmark) : (s.setPm c d k p).damage = s.damage := rfl
@[simp] theorem State.setPm_clus (s : State) (c d k : Nat) (p : Postmark) : (s.setPm c d k p).clus = s.clus := rfl
@[simp] theorem State.setPm_clusBad (s : State) (c d k : Nat) (p : Postmark) : (s.setPm c d k p).clusBad = s.clusBad := rfl
@[simp] theorem State.setPm_proofszHeld (s : State) (c d k : Nat) (p : Postmark) : (s.setPm c d k p).proofszHeld = s.proofszHeld := rfl
@[simp] theorem State.setPm_dies (s : State) (c d k : Nat) (p : Postmark) : (s.setPm c d k p).dies = s.dies := rfl
@[simp] theorem State.setPm_mdies (s : State) (c d k : Nat) (p : Postmark) : (s.setPm c d k p).mdies = s.mdies := rfl
@[simp] theorem State.setPm_links (s : State) (c d k : Nat) (p : Postmark) : (s.setPm c d k p).links = s.links := rfl
@[simp] theorem State.setPm_hub (s : State) (c d k : Nat) (p : Postmark) : (s.setPm c d k p).hub = s.hub := rfl
@[simp] theorem State.setPm_harts (s : State) (c d k : Nat) (p : Postmark) : (s.setPm c d k p).harts = s.harts := rfl

/-! ### `setCtx` -/

@[simp] theorem State.setCtx_focus (s : State) (c : Context) : (s.setCtx c).focus = s.focus := rfl
@[simp] theorem State.setCtx_agenda (s : State) (c : Context) : (s.setCtx c).agenda = s.agenda := rfl
@[simp] theorem State.setCtx_glances (s : State) (c : Context) : (s.setCtx c).glances = s.glances := rfl
@[simp] theorem State.setCtx_seen (s : State) (c : Context) : (s.setCtx c).seen = s.seen := rfl
@[simp] theorem State.setCtx_args (s : State) (c : Context) : (s.setCtx c).args = s.args := rfl
@[simp] theorem State.setCtx_reply (s : State) (c : Context) : (s.setCtx c).reply = s.reply := rfl
@[simp] theorem State.setCtx_freeCount (s : State) (c : Context) : (s.setCtx c).freeCount = s.freeCount := rfl
@[simp] theorem State.setCtx_cur (s : State) (c : Context) : (s.setCtx c).cur = s.cur := rfl
@[simp] theorem State.setCtx_tasks (s : State) (c : Context) : (s.setCtx c).tasks = s.tasks := rfl
@[simp] theorem State.setCtx_nextId (s : State) (c : Context) : (s.setCtx c).nextId = s.nextId := rfl
@[simp] theorem State.setCtx_launches (s : State) (c : Context) : (s.setCtx c).launches = s.launches := rfl
@[simp] theorem State.setCtx_parts (s : State) (c : Context) : (s.setCtx c).parts = s.parts := rfl
@[simp] theorem State.setCtx_keySlots (s : State) (c : Context) : (s.setCtx c).keySlots = s.keySlots := rfl
@[simp] theorem State.setCtx_postmarks (s : State) (c : Context) : (s.setCtx c).postmarks = s.postmarks := rfl
@[simp] theorem State.setCtx_syncs (s : State) (c : Context) : (s.setCtx c).syncs = s.syncs := rfl
@[simp] theorem State.setCtx_copies (s : State) (c : Context) : (s.setCtx c).copies = s.copies := rfl
@[simp] theorem State.setCtx_queries (s : State) (c : Context) : (s.setCtx c).queries = s.queries := rfl
@[simp] theorem State.setCtx_colls (s : State) (c : Context) : (s.setCtx c).colls = s.colls := rfl
@[simp] theorem State.setCtx_invals (s : State) (c : Context) : (s.setCtx c).invals = s.invals := rfl
@[simp] theorem State.setCtx_gang (s : State) (c : Context) : (s.setCtx c).gang = s.gang := rfl
@[simp] theorem State.setCtx_txns (s : State) (c : Context) : (s.setCtx c).txns = s.txns := rfl
@[simp] theorem State.setCtx_cache (s : State) (c : Context) : (s.setCtx c).cache = s.cache := rfl
@[simp] theorem State.setCtx_tlbs (s : State) (c : Context) : (s.setCtx c).tlbs = s.tlbs := rfl
@[simp] theorem State.setCtx_mem (s : State) (c : Context) : (s.setCtx c).mem = s.mem := rfl
@[simp] theorem State.setCtx_blocks (s : State) (c : Context) : (s.setCtx c).blocks = s.blocks := rfl
@[simp] theorem State.setCtx_nodes (s : State) (c : Context) : (s.setCtx c).nodes = s.nodes := rfl
@[simp] theorem State.setCtx_damage (s : State) (c : Context) : (s.setCtx c).damage = s.damage := rfl
@[simp] theorem State.setCtx_clus (s : State) (c : Context) : (s.setCtx c).clus = s.clus := rfl
@[simp] theorem State.setCtx_clusBad (s : State) (c : Context) : (s.setCtx c).clusBad = s.clusBad := rfl
@[simp] theorem State.setCtx_proofszHeld (s : State) (c : Context) : (s.setCtx c).proofszHeld = s.proofszHeld := rfl
@[simp] theorem State.setCtx_dies (s : State) (c : Context) : (s.setCtx c).dies = s.dies := rfl
@[simp] theorem State.setCtx_mdies (s : State) (c : Context) : (s.setCtx c).mdies = s.mdies := rfl
@[simp] theorem State.setCtx_links (s : State) (c : Context) : (s.setCtx c).links = s.links := rfl
@[simp] theorem State.setCtx_hub (s : State) (c : Context) : (s.setCtx c).hub = s.hub := rfl
@[simp] theorem State.setCtx_harts (s : State) (c : Context) : (s.setCtx c).harts = s.harts := rfl

/-! ### `setBlock` -/

@[simp] theorem State.setBlock_focus (s : State) (a : Nat) (b : Block) : (s.setBlock a b).focus = s.focus := rfl
@[simp] theorem State.setBlock_agenda (s : State) (a : Nat) (b : Block) : (s.setBlock a b).agenda = s.agenda := rfl
@[simp] theorem State.setBlock_glances (s : State) (a : Nat) (b : Block) : (s.setBlock a b).glances = s.glances := rfl
@[simp] theorem State.setBlock_seen (s : State) (a : Nat) (b : Block) : (s.setBlock a b).seen = s.seen := rfl
@[simp] theorem State.setBlock_args (s : State) (a : Nat) (b : Block) : (s.setBlock a b).args = s.args := rfl
@[simp] theorem State.setBlock_reply (s : State) (a : Nat) (b : Block) : (s.setBlock a b).reply = s.reply := rfl
@[simp] theorem State.setBlock_freeCount (s : State) (a : Nat) (b : Block) : (s.setBlock a b).freeCount = s.freeCount := rfl
@[simp] theorem State.setBlock_cur (s : State) (a : Nat) (b : Block) : (s.setBlock a b).cur = s.cur := rfl
@[simp] theorem State.setBlock_tasks (s : State) (a : Nat) (b : Block) : (s.setBlock a b).tasks = s.tasks := rfl
@[simp] theorem State.setBlock_nextId (s : State) (a : Nat) (b : Block) : (s.setBlock a b).nextId = s.nextId := rfl
@[simp] theorem State.setBlock_launches (s : State) (a : Nat) (b : Block) : (s.setBlock a b).launches = s.launches := rfl
@[simp] theorem State.setBlock_contexts (s : State) (a : Nat) (b : Block) : (s.setBlock a b).contexts = s.contexts := rfl
@[simp] theorem State.setBlock_parts (s : State) (a : Nat) (b : Block) : (s.setBlock a b).parts = s.parts := rfl
@[simp] theorem State.setBlock_keySlots (s : State) (a : Nat) (b : Block) : (s.setBlock a b).keySlots = s.keySlots := rfl
@[simp] theorem State.setBlock_postmarks (s : State) (a : Nat) (b : Block) : (s.setBlock a b).postmarks = s.postmarks := rfl
@[simp] theorem State.setBlock_syncs (s : State) (a : Nat) (b : Block) : (s.setBlock a b).syncs = s.syncs := rfl
@[simp] theorem State.setBlock_copies (s : State) (a : Nat) (b : Block) : (s.setBlock a b).copies = s.copies := rfl
@[simp] theorem State.setBlock_queries (s : State) (a : Nat) (b : Block) : (s.setBlock a b).queries = s.queries := rfl
@[simp] theorem State.setBlock_colls (s : State) (a : Nat) (b : Block) : (s.setBlock a b).colls = s.colls := rfl
@[simp] theorem State.setBlock_invals (s : State) (a : Nat) (b : Block) : (s.setBlock a b).invals = s.invals := rfl
@[simp] theorem State.setBlock_gang (s : State) (a : Nat) (b : Block) : (s.setBlock a b).gang = s.gang := rfl
@[simp] theorem State.setBlock_txns (s : State) (a : Nat) (b : Block) : (s.setBlock a b).txns = s.txns := rfl
@[simp] theorem State.setBlock_cache (s : State) (a : Nat) (b : Block) : (s.setBlock a b).cache = s.cache := rfl
@[simp] theorem State.setBlock_tlbs (s : State) (a : Nat) (b : Block) : (s.setBlock a b).tlbs = s.tlbs := rfl
@[simp] theorem State.setBlock_mem (s : State) (a : Nat) (b : Block) : (s.setBlock a b).mem = s.mem := rfl
@[simp] theorem State.setBlock_nodes (s : State) (a : Nat) (b : Block) : (s.setBlock a b).nodes = s.nodes := rfl
@[simp] theorem State.setBlock_damage (s : State) (a : Nat) (b : Block) : (s.setBlock a b).damage = s.damage := rfl
@[simp] theorem State.setBlock_clus (s : State) (a : Nat) (b : Block) : (s.setBlock a b).clus = s.clus := rfl
@[simp] theorem State.setBlock_clusBad (s : State) (a : Nat) (b : Block) : (s.setBlock a b).clusBad = s.clusBad := rfl
@[simp] theorem State.setBlock_proofszHeld (s : State) (a : Nat) (b : Block) : (s.setBlock a b).proofszHeld = s.proofszHeld := rfl
@[simp] theorem State.setBlock_dies (s : State) (a : Nat) (b : Block) : (s.setBlock a b).dies = s.dies := rfl
@[simp] theorem State.setBlock_mdies (s : State) (a : Nat) (b : Block) : (s.setBlock a b).mdies = s.mdies := rfl
@[simp] theorem State.setBlock_links (s : State) (a : Nat) (b : Block) : (s.setBlock a b).links = s.links := rfl
@[simp] theorem State.setBlock_hub (s : State) (a : Nat) (b : Block) : (s.setBlock a b).hub = s.hub := rfl
@[simp] theorem State.setBlock_harts (s : State) (a : Nat) (b : Block) : (s.setBlock a b).harts = s.harts := rfl

/-! ### `setLaunch` -/

@[simp] theorem State.setLaunch_focus (s : State) (l : Launch) : (s.setLaunch l).focus = s.focus := rfl
@[simp] theorem State.setLaunch_agenda (s : State) (l : Launch) : (s.setLaunch l).agenda = s.agenda := rfl
@[simp] theorem State.setLaunch_glances (s : State) (l : Launch) : (s.setLaunch l).glances = s.glances := rfl
@[simp] theorem State.setLaunch_seen (s : State) (l : Launch) : (s.setLaunch l).seen = s.seen := rfl
@[simp] theorem State.setLaunch_args (s : State) (l : Launch) : (s.setLaunch l).args = s.args := rfl
@[simp] theorem State.setLaunch_reply (s : State) (l : Launch) : (s.setLaunch l).reply = s.reply := rfl
@[simp] theorem State.setLaunch_freeCount (s : State) (l : Launch) : (s.setLaunch l).freeCount = s.freeCount := rfl
@[simp] theorem State.setLaunch_cur (s : State) (l : Launch) : (s.setLaunch l).cur = s.cur := rfl
@[simp] theorem State.setLaunch_tasks (s : State) (l : Launch) : (s.setLaunch l).tasks = s.tasks := rfl
@[simp] theorem State.setLaunch_nextId (s : State) (l : Launch) : (s.setLaunch l).nextId = s.nextId := rfl
@[simp] theorem State.setLaunch_contexts (s : State) (l : Launch) : (s.setLaunch l).contexts = s.contexts := rfl
@[simp] theorem State.setLaunch_parts (s : State) (l : Launch) : (s.setLaunch l).parts = s.parts := rfl
@[simp] theorem State.setLaunch_keySlots (s : State) (l : Launch) : (s.setLaunch l).keySlots = s.keySlots := rfl
@[simp] theorem State.setLaunch_postmarks (s : State) (l : Launch) : (s.setLaunch l).postmarks = s.postmarks := rfl
@[simp] theorem State.setLaunch_syncs (s : State) (l : Launch) : (s.setLaunch l).syncs = s.syncs := rfl
@[simp] theorem State.setLaunch_copies (s : State) (l : Launch) : (s.setLaunch l).copies = s.copies := rfl
@[simp] theorem State.setLaunch_queries (s : State) (l : Launch) : (s.setLaunch l).queries = s.queries := rfl
@[simp] theorem State.setLaunch_colls (s : State) (l : Launch) : (s.setLaunch l).colls = s.colls := rfl
@[simp] theorem State.setLaunch_invals (s : State) (l : Launch) : (s.setLaunch l).invals = s.invals := rfl
@[simp] theorem State.setLaunch_gang (s : State) (l : Launch) : (s.setLaunch l).gang = s.gang := rfl
@[simp] theorem State.setLaunch_txns (s : State) (l : Launch) : (s.setLaunch l).txns = s.txns := rfl
@[simp] theorem State.setLaunch_cache (s : State) (l : Launch) : (s.setLaunch l).cache = s.cache := rfl
@[simp] theorem State.setLaunch_tlbs (s : State) (l : Launch) : (s.setLaunch l).tlbs = s.tlbs := rfl
@[simp] theorem State.setLaunch_mem (s : State) (l : Launch) : (s.setLaunch l).mem = s.mem := rfl
@[simp] theorem State.setLaunch_blocks (s : State) (l : Launch) : (s.setLaunch l).blocks = s.blocks := rfl
@[simp] theorem State.setLaunch_nodes (s : State) (l : Launch) : (s.setLaunch l).nodes = s.nodes := rfl
@[simp] theorem State.setLaunch_damage (s : State) (l : Launch) : (s.setLaunch l).damage = s.damage := rfl
@[simp] theorem State.setLaunch_clus (s : State) (l : Launch) : (s.setLaunch l).clus = s.clus := rfl
@[simp] theorem State.setLaunch_clusBad (s : State) (l : Launch) : (s.setLaunch l).clusBad = s.clusBad := rfl
@[simp] theorem State.setLaunch_proofszHeld (s : State) (l : Launch) : (s.setLaunch l).proofszHeld = s.proofszHeld := rfl
@[simp] theorem State.setLaunch_dies (s : State) (l : Launch) : (s.setLaunch l).dies = s.dies := rfl
@[simp] theorem State.setLaunch_mdies (s : State) (l : Launch) : (s.setLaunch l).mdies = s.mdies := rfl
@[simp] theorem State.setLaunch_links (s : State) (l : Launch) : (s.setLaunch l).links = s.links := rfl
@[simp] theorem State.setLaunch_hub (s : State) (l : Launch) : (s.setLaunch l).hub = s.hub := rfl
@[simp] theorem State.setLaunch_harts (s : State) (l : Launch) : (s.setLaunch l).harts = s.harts := rfl

/-! ### `setSync` -/

@[simp] theorem State.setSync_focus (s : State) (y : Sync) : (s.setSync y).focus = s.focus := rfl
@[simp] theorem State.setSync_agenda (s : State) (y : Sync) : (s.setSync y).agenda = s.agenda := rfl
@[simp] theorem State.setSync_glances (s : State) (y : Sync) : (s.setSync y).glances = s.glances := rfl
@[simp] theorem State.setSync_seen (s : State) (y : Sync) : (s.setSync y).seen = s.seen := rfl
@[simp] theorem State.setSync_args (s : State) (y : Sync) : (s.setSync y).args = s.args := rfl
@[simp] theorem State.setSync_reply (s : State) (y : Sync) : (s.setSync y).reply = s.reply := rfl
@[simp] theorem State.setSync_freeCount (s : State) (y : Sync) : (s.setSync y).freeCount = s.freeCount := rfl
@[simp] theorem State.setSync_cur (s : State) (y : Sync) : (s.setSync y).cur = s.cur := rfl
@[simp] theorem State.setSync_tasks (s : State) (y : Sync) : (s.setSync y).tasks = s.tasks := rfl
@[simp] theorem State.setSync_nextId (s : State) (y : Sync) : (s.setSync y).nextId = s.nextId := rfl
@[simp] theorem State.setSync_launches (s : State) (y : Sync) : (s.setSync y).launches = s.launches := rfl
@[simp] theorem State.setSync_contexts (s : State) (y : Sync) : (s.setSync y).contexts = s.contexts := rfl
@[simp] theorem State.setSync_parts (s : State) (y : Sync) : (s.setSync y).parts = s.parts := rfl
@[simp] theorem State.setSync_keySlots (s : State) (y : Sync) : (s.setSync y).keySlots = s.keySlots := rfl
@[simp] theorem State.setSync_postmarks (s : State) (y : Sync) : (s.setSync y).postmarks = s.postmarks := rfl
@[simp] theorem State.setSync_copies (s : State) (y : Sync) : (s.setSync y).copies = s.copies := rfl
@[simp] theorem State.setSync_queries (s : State) (y : Sync) : (s.setSync y).queries = s.queries := rfl
@[simp] theorem State.setSync_colls (s : State) (y : Sync) : (s.setSync y).colls = s.colls := rfl
@[simp] theorem State.setSync_invals (s : State) (y : Sync) : (s.setSync y).invals = s.invals := rfl
@[simp] theorem State.setSync_gang (s : State) (y : Sync) : (s.setSync y).gang = s.gang := rfl
@[simp] theorem State.setSync_txns (s : State) (y : Sync) : (s.setSync y).txns = s.txns := rfl
@[simp] theorem State.setSync_cache (s : State) (y : Sync) : (s.setSync y).cache = s.cache := rfl
@[simp] theorem State.setSync_tlbs (s : State) (y : Sync) : (s.setSync y).tlbs = s.tlbs := rfl
@[simp] theorem State.setSync_mem (s : State) (y : Sync) : (s.setSync y).mem = s.mem := rfl
@[simp] theorem State.setSync_blocks (s : State) (y : Sync) : (s.setSync y).blocks = s.blocks := rfl
@[simp] theorem State.setSync_nodes (s : State) (y : Sync) : (s.setSync y).nodes = s.nodes := rfl
@[simp] theorem State.setSync_damage (s : State) (y : Sync) : (s.setSync y).damage = s.damage := rfl
@[simp] theorem State.setSync_clus (s : State) (y : Sync) : (s.setSync y).clus = s.clus := rfl
@[simp] theorem State.setSync_clusBad (s : State) (y : Sync) : (s.setSync y).clusBad = s.clusBad := rfl
@[simp] theorem State.setSync_proofszHeld (s : State) (y : Sync) : (s.setSync y).proofszHeld = s.proofszHeld := rfl
@[simp] theorem State.setSync_dies (s : State) (y : Sync) : (s.setSync y).dies = s.dies := rfl
@[simp] theorem State.setSync_mdies (s : State) (y : Sync) : (s.setSync y).mdies = s.mdies := rfl
@[simp] theorem State.setSync_links (s : State) (y : Sync) : (s.setSync y).links = s.links := rfl
@[simp] theorem State.setSync_hub (s : State) (y : Sync) : (s.setSync y).hub = s.hub := rfl
@[simp] theorem State.setSync_harts (s : State) (y : Sync) : (s.setSync y).harts = s.harts := rfl

/-! ### `setColl` -/

@[simp] theorem State.setColl_focus (s : State) (c : Coll) : (s.setColl c).focus = s.focus := rfl
@[simp] theorem State.setColl_agenda (s : State) (c : Coll) : (s.setColl c).agenda = s.agenda := rfl
@[simp] theorem State.setColl_glances (s : State) (c : Coll) : (s.setColl c).glances = s.glances := rfl
@[simp] theorem State.setColl_seen (s : State) (c : Coll) : (s.setColl c).seen = s.seen := rfl
@[simp] theorem State.setColl_args (s : State) (c : Coll) : (s.setColl c).args = s.args := rfl
@[simp] theorem State.setColl_reply (s : State) (c : Coll) : (s.setColl c).reply = s.reply := rfl
@[simp] theorem State.setColl_freeCount (s : State) (c : Coll) : (s.setColl c).freeCount = s.freeCount := rfl
@[simp] theorem State.setColl_cur (s : State) (c : Coll) : (s.setColl c).cur = s.cur := rfl
@[simp] theorem State.setColl_tasks (s : State) (c : Coll) : (s.setColl c).tasks = s.tasks := rfl
@[simp] theorem State.setColl_nextId (s : State) (c : Coll) : (s.setColl c).nextId = s.nextId := rfl
@[simp] theorem State.setColl_launches (s : State) (c : Coll) : (s.setColl c).launches = s.launches := rfl
@[simp] theorem State.setColl_contexts (s : State) (c : Coll) : (s.setColl c).contexts = s.contexts := rfl
@[simp] theorem State.setColl_parts (s : State) (c : Coll) : (s.setColl c).parts = s.parts := rfl
@[simp] theorem State.setColl_keySlots (s : State) (c : Coll) : (s.setColl c).keySlots = s.keySlots := rfl
@[simp] theorem State.setColl_postmarks (s : State) (c : Coll) : (s.setColl c).postmarks = s.postmarks := rfl
@[simp] theorem State.setColl_syncs (s : State) (c : Coll) : (s.setColl c).syncs = s.syncs := rfl
@[simp] theorem State.setColl_copies (s : State) (c : Coll) : (s.setColl c).copies = s.copies := rfl
@[simp] theorem State.setColl_queries (s : State) (c : Coll) : (s.setColl c).queries = s.queries := rfl
@[simp] theorem State.setColl_invals (s : State) (c : Coll) : (s.setColl c).invals = s.invals := rfl
@[simp] theorem State.setColl_gang (s : State) (c : Coll) : (s.setColl c).gang = s.gang := rfl
@[simp] theorem State.setColl_txns (s : State) (c : Coll) : (s.setColl c).txns = s.txns := rfl
@[simp] theorem State.setColl_cache (s : State) (c : Coll) : (s.setColl c).cache = s.cache := rfl
@[simp] theorem State.setColl_tlbs (s : State) (c : Coll) : (s.setColl c).tlbs = s.tlbs := rfl
@[simp] theorem State.setColl_mem (s : State) (c : Coll) : (s.setColl c).mem = s.mem := rfl
@[simp] theorem State.setColl_blocks (s : State) (c : Coll) : (s.setColl c).blocks = s.blocks := rfl
@[simp] theorem State.setColl_nodes (s : State) (c : Coll) : (s.setColl c).nodes = s.nodes := rfl
@[simp] theorem State.setColl_damage (s : State) (c : Coll) : (s.setColl c).damage = s.damage := rfl
@[simp] theorem State.setColl_clus (s : State) (c : Coll) : (s.setColl c).clus = s.clus := rfl
@[simp] theorem State.setColl_clusBad (s : State) (c : Coll) : (s.setColl c).clusBad = s.clusBad := rfl
@[simp] theorem State.setColl_proofszHeld (s : State) (c : Coll) : (s.setColl c).proofszHeld = s.proofszHeld := rfl
@[simp] theorem State.setColl_dies (s : State) (c : Coll) : (s.setColl c).dies = s.dies := rfl
@[simp] theorem State.setColl_mdies (s : State) (c : Coll) : (s.setColl c).mdies = s.mdies := rfl
@[simp] theorem State.setColl_links (s : State) (c : Coll) : (s.setColl c).links = s.links := rfl
@[simp] theorem State.setColl_hub (s : State) (c : Coll) : (s.setColl c).hub = s.hub := rfl
@[simp] theorem State.setColl_harts (s : State) (c : Coll) : (s.setColl c).harts = s.harts := rfl

/-! ### `setQuery` -/

@[simp] theorem State.setQuery_focus (s : State) (q : Query) : (s.setQuery q).focus = s.focus := rfl
@[simp] theorem State.setQuery_agenda (s : State) (q : Query) : (s.setQuery q).agenda = s.agenda := rfl
@[simp] theorem State.setQuery_glances (s : State) (q : Query) : (s.setQuery q).glances = s.glances := rfl
@[simp] theorem State.setQuery_seen (s : State) (q : Query) : (s.setQuery q).seen = s.seen := rfl
@[simp] theorem State.setQuery_args (s : State) (q : Query) : (s.setQuery q).args = s.args := rfl
@[simp] theorem State.setQuery_reply (s : State) (q : Query) : (s.setQuery q).reply = s.reply := rfl
@[simp] theorem State.setQuery_freeCount (s : State) (q : Query) : (s.setQuery q).freeCount = s.freeCount := rfl
@[simp] theorem State.setQuery_cur (s : State) (q : Query) : (s.setQuery q).cur = s.cur := rfl
@[simp] theorem State.setQuery_tasks (s : State) (q : Query) : (s.setQuery q).tasks = s.tasks := rfl
@[simp] theorem State.setQuery_nextId (s : State) (q : Query) : (s.setQuery q).nextId = s.nextId := rfl
@[simp] theorem State.setQuery_launches (s : State) (q : Query) : (s.setQuery q).launches = s.launches := rfl
@[simp] theorem State.setQuery_contexts (s : State) (q : Query) : (s.setQuery q).contexts = s.contexts := rfl
@[simp] theorem State.setQuery_parts (s : State) (q : Query) : (s.setQuery q).parts = s.parts := rfl
@[simp] theorem State.setQuery_keySlots (s : State) (q : Query) : (s.setQuery q).keySlots = s.keySlots := rfl
@[simp] theorem State.setQuery_postmarks (s : State) (q : Query) : (s.setQuery q).postmarks = s.postmarks := rfl
@[simp] theorem State.setQuery_syncs (s : State) (q : Query) : (s.setQuery q).syncs = s.syncs := rfl
@[simp] theorem State.setQuery_copies (s : State) (q : Query) : (s.setQuery q).copies = s.copies := rfl
@[simp] theorem State.setQuery_colls (s : State) (q : Query) : (s.setQuery q).colls = s.colls := rfl
@[simp] theorem State.setQuery_invals (s : State) (q : Query) : (s.setQuery q).invals = s.invals := rfl
@[simp] theorem State.setQuery_gang (s : State) (q : Query) : (s.setQuery q).gang = s.gang := rfl
@[simp] theorem State.setQuery_txns (s : State) (q : Query) : (s.setQuery q).txns = s.txns := rfl
@[simp] theorem State.setQuery_cache (s : State) (q : Query) : (s.setQuery q).cache = s.cache := rfl
@[simp] theorem State.setQuery_tlbs (s : State) (q : Query) : (s.setQuery q).tlbs = s.tlbs := rfl
@[simp] theorem State.setQuery_mem (s : State) (q : Query) : (s.setQuery q).mem = s.mem := rfl
@[simp] theorem State.setQuery_blocks (s : State) (q : Query) : (s.setQuery q).blocks = s.blocks := rfl
@[simp] theorem State.setQuery_nodes (s : State) (q : Query) : (s.setQuery q).nodes = s.nodes := rfl
@[simp] theorem State.setQuery_damage (s : State) (q : Query) : (s.setQuery q).damage = s.damage := rfl
@[simp] theorem State.setQuery_clus (s : State) (q : Query) : (s.setQuery q).clus = s.clus := rfl
@[simp] theorem State.setQuery_clusBad (s : State) (q : Query) : (s.setQuery q).clusBad = s.clusBad := rfl
@[simp] theorem State.setQuery_proofszHeld (s : State) (q : Query) : (s.setQuery q).proofszHeld = s.proofszHeld := rfl
@[simp] theorem State.setQuery_dies (s : State) (q : Query) : (s.setQuery q).dies = s.dies := rfl
@[simp] theorem State.setQuery_mdies (s : State) (q : Query) : (s.setQuery q).mdies = s.mdies := rfl
@[simp] theorem State.setQuery_links (s : State) (q : Query) : (s.setQuery q).links = s.links := rfl
@[simp] theorem State.setQuery_hub (s : State) (q : Query) : (s.setQuery q).hub = s.hub := rfl
@[simp] theorem State.setQuery_harts (s : State) (q : Query) : (s.setQuery q).harts = s.harts := rfl

/-! ### Writes at a home -/

/-- A state that differs from another in what writes at a home change, and no more: memory, counters, the tree, damage, and the harts'
reservations (22 R372, R373). -/
def State.memoryOnly (s t : State) : Prop :=
  ∃ m b n d hs, t = { s with mem := m, blocks := b, nodes := n, damage := d, harts := hs }

theorem State.memoryOnly_refl (s : State) : s.memoryOnly s := ⟨s.mem, s.blocks, s.nodes, s.damage, s.harts, rfl⟩

theorem State.memoryOnly_trans {s t u : State} (h : s.memoryOnly t) (h' : t.memoryOnly u) : s.memoryOnly u := by
  obtain ⟨_, _, _, _, _, rfl⟩ := h
  obtain ⟨_, _, _, _, _, rfl⟩ := h'
  exact ⟨_, _, _, _, _, rfl⟩

/-- Steps that each change no more than memory, one after the other. -/
theorem State.memoryOnly_foldl {α : Type} (f : State → α → State) (hf : ∀ u a, State.memoryOnly u (f u a)) :
    ∀ (as : List α) (s : State), s.memoryOnly (as.foldl f s)
  | [], s => s.memoryOnly_refl
  | a :: as, s => State.memoryOnly_trans (hf s a) (State.memoryOnly_foldl f hf as (f s a))

theorem State.setBlock_only (s : State) (pa : Nat) (b : Block) : s.memoryOnly (s.setBlock pa b) := ⟨s.mem, _, s.nodes, s.damage, s.harts, rfl⟩

theorem State.heal_only (s : State) (pa : Nat) : s.memoryOnly (s.heal pa) := ⟨s.mem, s.blocks, s.nodes, _, s.harts, rfl⟩

theorem State.putLine_only (s : State) (pa : Nat) (data : BitVec 512) (mask : BitVec 64) : s.memoryOnly (s.putLine pa data mask) :=
  ⟨_, s.blocks, _, s.damage, _, rfl⟩

theorem State.healBlock_only (s : State) (pa : Nat) : s.memoryOnly (s.healBlock pa) := ⟨s.mem, s.blocks, s.nodes, _, s.harts, rfl⟩

theorem State.reencrypt_only (s : State) (cid slot pa : Nat) : s.memoryOnly (s.reencrypt cid slot pa).1 :=
  State.memoryOnly_trans
    (State.memoryOnly_trans
      (State.memoryOnly_foldl (fun (u : State) a => { u with mem := Sparse.clear u.mem a 64 })
        (fun u _ => ⟨_, u.blocks, u.nodes, u.damage, u.harts, rfl⟩) (s.badLines cid slot pa) s)
      (State.healBlock_only _ pa))
    (State.setBlock_only _ pa _)

/-- What a write at a home changes. -/
theorem State.homeWrite_only (s : State) (cid slot : Nat) (nb : Bool) (pa : Nat) (data : BitVec 512) (mask : BitVec 64) :
    s.memoryOnly (s.homeWrite cid slot nb pa data mask).1 := by
  have put (u : State) (b : Block) : u.memoryOnly ((u.setBlock pa b).putLine pa data mask) :=
    State.memoryOnly_trans (u.setBlock_only pa b) (State.putLine_only _ pa data mask)
  unfold State.homeWrite
  dsimp only
  split
  · exact s.memoryOnly_refl
  · split
    · exact s.memoryOnly_refl
    · split
      · split
        · exact s.memoryOnly_refl
        · exact State.memoryOnly_trans (s.healBlock_only pa) (put (s.healBlock pa) _)
      · split
        · exact s.memoryOnly_refl
        · exact s.memoryOnly_refl
        · refine State.memoryOnly_trans ?_ (put _ _)
          split
          · exact s.reencrypt_only cid slot pa
          · dsimp only
            split
            · exact s.heal_only pa
            · exact s.memoryOnly_refl

/-- What a write of firmware's or the page walker's changes. -/
theorem State.fwWrite_only (s : State) (a : Nat) (bs : List Byte) : s.memoryOnly (s.fwWrite a bs) := by
  unfold State.fwWrite
  refine State.memoryOnly_foldl _ ?_ _ s
  intro u p
  exact u.homeWrite_only _ _ _ _ _ _

/-- Such a state's tasks. -/
theorem State.memoryOnly_cur {s t : State} (h : s.memoryOnly t) : t.cur = s.cur := by
  obtain ⟨_, _, _, _, _, rfl⟩ := h
  rfl

/-- A page-table entry written leaves the focused task as it is. -/
@[simp] theorem State.setPte_cur (s : State) (a v : Nat) : (s.setPte a v).cur = s.cur := State.memoryOnly_cur (s.fwWrite_only a (leBytes 8 v))

/-! ### `setDie` -/

@[simp] theorem State.setDie_focus (s : State) (n : Nat) (d : Die) : (s.setDie n d).focus = s.focus := by
  unfold State.setDie; split <;> rfl
@[simp] theorem State.setDie_agenda (s : State) (n : Nat) (d : Die) : (s.setDie n d).agenda = s.agenda := by
  unfold State.setDie; split <;> rfl
@[simp] theorem State.setDie_glances (s : State) (n : Nat) (d : Die) : (s.setDie n d).glances = s.glances := by
  unfold State.setDie; split <;> rfl
@[simp] theorem State.setDie_seen (s : State) (n : Nat) (d : Die) : (s.setDie n d).seen = s.seen := by
  unfold State.setDie; split <;> rfl
@[simp] theorem State.setDie_args (s : State) (n : Nat) (d : Die) : (s.setDie n d).args = s.args := by
  unfold State.setDie; split <;> rfl
@[simp] theorem State.setDie_reply (s : State) (n : Nat) (d : Die) : (s.setDie n d).reply = s.reply := by
  unfold State.setDie; split <;> rfl
@[simp] theorem State.setDie_freeCount (s : State) (n : Nat) (d : Die) : (s.setDie n d).freeCount = s.freeCount := by
  unfold State.setDie; split <;> rfl
@[simp] theorem State.setDie_cur (s : State) (n : Nat) (d : Die) : (s.setDie n d).cur = s.cur := by
  unfold State.setDie; split <;> rfl
@[simp] theorem State.setDie_tasks (s : State) (n : Nat) (d : Die) : (s.setDie n d).tasks = s.tasks := by
  unfold State.setDie; split <;> rfl
@[simp] theorem State.setDie_nextId (s : State) (n : Nat) (d : Die) : (s.setDie n d).nextId = s.nextId := by
  unfold State.setDie; split <;> rfl
@[simp] theorem State.setDie_launches (s : State) (n : Nat) (d : Die) : (s.setDie n d).launches = s.launches := by
  unfold State.setDie; split <;> rfl
@[simp] theorem State.setDie_contexts (s : State) (n : Nat) (d : Die) : (s.setDie n d).contexts = s.contexts := by
  unfold State.setDie; split <;> rfl
@[simp] theorem State.setDie_parts (s : State) (n : Nat) (d : Die) : (s.setDie n d).parts = s.parts := by
  unfold State.setDie; split <;> rfl
@[simp] theorem State.setDie_keySlots (s : State) (n : Nat) (d : Die) : (s.setDie n d).keySlots = s.keySlots := by
  unfold State.setDie; split <;> rfl
@[simp] theorem State.setDie_postmarks (s : State) (n : Nat) (d : Die) : (s.setDie n d).postmarks = s.postmarks := by
  unfold State.setDie; split <;> rfl
@[simp] theorem State.setDie_syncs (s : State) (n : Nat) (d : Die) : (s.setDie n d).syncs = s.syncs := by
  unfold State.setDie; split <;> rfl
@[simp] theorem State.setDie_copies (s : State) (n : Nat) (d : Die) : (s.setDie n d).copies = s.copies := by
  unfold State.setDie; split <;> rfl
@[simp] theorem State.setDie_queries (s : State) (n : Nat) (d : Die) : (s.setDie n d).queries = s.queries := by
  unfold State.setDie; split <;> rfl
@[simp] theorem State.setDie_colls (s : State) (n : Nat) (d : Die) : (s.setDie n d).colls = s.colls := by
  unfold State.setDie; split <;> rfl
@[simp] theorem State.setDie_invals (s : State) (n : Nat) (d : Die) : (s.setDie n d).invals = s.invals := by
  unfold State.setDie; split <;> rfl
@[simp] theorem State.setDie_gang (s : State) (n : Nat) (d : Die) : (s.setDie n d).gang = s.gang := by
  unfold State.setDie; split <;> rfl
@[simp] theorem State.setDie_txns (s : State) (n : Nat) (d : Die) : (s.setDie n d).txns = s.txns := by
  unfold State.setDie; split <;> rfl
@[simp] theorem State.setDie_cache (s : State) (n : Nat) (d : Die) : (s.setDie n d).cache = s.cache := by
  unfold State.setDie; split <;> rfl
@[simp] theorem State.setDie_tlbs (s : State) (n : Nat) (d : Die) : (s.setDie n d).tlbs = s.tlbs := by
  unfold State.setDie; split <;> rfl
@[simp] theorem State.setDie_mem (s : State) (n : Nat) (d : Die) : (s.setDie n d).mem = s.mem := by
  unfold State.setDie; split <;> rfl
@[simp] theorem State.setDie_blocks (s : State) (n : Nat) (d : Die) : (s.setDie n d).blocks = s.blocks := by
  unfold State.setDie; split <;> rfl
@[simp] theorem State.setDie_nodes (s : State) (n : Nat) (d : Die) : (s.setDie n d).nodes = s.nodes := by
  unfold State.setDie; split <;> rfl
@[simp] theorem State.setDie_damage (s : State) (n : Nat) (d : Die) : (s.setDie n d).damage = s.damage := by
  unfold State.setDie; split <;> rfl
@[simp] theorem State.setDie_clus (s : State) (n : Nat) (d : Die) : (s.setDie n d).clus = s.clus := by
  unfold State.setDie; split <;> rfl
@[simp] theorem State.setDie_clusBad (s : State) (n : Nat) (d : Die) : (s.setDie n d).clusBad = s.clusBad := by
  unfold State.setDie; split <;> rfl
@[simp] theorem State.setDie_proofszHeld (s : State) (n : Nat) (d : Die) : (s.setDie n d).proofszHeld = s.proofszHeld := by
  unfold State.setDie; split <;> rfl
@[simp] theorem State.setDie_mdies (s : State) (n : Nat) (d : Die) : (s.setDie n d).mdies = s.mdies := by
  unfold State.setDie; split <;> rfl
@[simp] theorem State.setDie_links (s : State) (n : Nat) (d : Die) : (s.setDie n d).links = s.links := by
  unfold State.setDie; split <;> rfl
@[simp] theorem State.setDie_hub (s : State) (n : Nat) (d : Die) : (s.setDie n d).hub = s.hub := by
  unfold State.setDie; split <;> rfl
@[simp] theorem State.setDie_harts (s : State) (n : Nat) (d : Die) : (s.setDie n d).harts = s.harts := by
  unfold State.setDie; split <;> rfl

/-! ### `setMdie` -/

@[simp] theorem State.setMdie_focus (s : State) (n : Nat) (d : Stack) : (s.setMdie n d).focus = s.focus := by
  unfold State.setMdie; split <;> rfl
@[simp] theorem State.setMdie_agenda (s : State) (n : Nat) (d : Stack) : (s.setMdie n d).agenda = s.agenda := by
  unfold State.setMdie; split <;> rfl
@[simp] theorem State.setMdie_glances (s : State) (n : Nat) (d : Stack) : (s.setMdie n d).glances = s.glances := by
  unfold State.setMdie; split <;> rfl
@[simp] theorem State.setMdie_seen (s : State) (n : Nat) (d : Stack) : (s.setMdie n d).seen = s.seen := by
  unfold State.setMdie; split <;> rfl
@[simp] theorem State.setMdie_args (s : State) (n : Nat) (d : Stack) : (s.setMdie n d).args = s.args := by
  unfold State.setMdie; split <;> rfl
@[simp] theorem State.setMdie_reply (s : State) (n : Nat) (d : Stack) : (s.setMdie n d).reply = s.reply := by
  unfold State.setMdie; split <;> rfl
@[simp] theorem State.setMdie_freeCount (s : State) (n : Nat) (d : Stack) : (s.setMdie n d).freeCount = s.freeCount := by
  unfold State.setMdie; split <;> rfl
@[simp] theorem State.setMdie_cur (s : State) (n : Nat) (d : Stack) : (s.setMdie n d).cur = s.cur := by
  unfold State.setMdie; split <;> rfl
@[simp] theorem State.setMdie_tasks (s : State) (n : Nat) (d : Stack) : (s.setMdie n d).tasks = s.tasks := by
  unfold State.setMdie; split <;> rfl
@[simp] theorem State.setMdie_nextId (s : State) (n : Nat) (d : Stack) : (s.setMdie n d).nextId = s.nextId := by
  unfold State.setMdie; split <;> rfl
@[simp] theorem State.setMdie_launches (s : State) (n : Nat) (d : Stack) : (s.setMdie n d).launches = s.launches := by
  unfold State.setMdie; split <;> rfl
@[simp] theorem State.setMdie_contexts (s : State) (n : Nat) (d : Stack) : (s.setMdie n d).contexts = s.contexts := by
  unfold State.setMdie; split <;> rfl
@[simp] theorem State.setMdie_parts (s : State) (n : Nat) (d : Stack) : (s.setMdie n d).parts = s.parts := by
  unfold State.setMdie; split <;> rfl
@[simp] theorem State.setMdie_keySlots (s : State) (n : Nat) (d : Stack) : (s.setMdie n d).keySlots = s.keySlots := by
  unfold State.setMdie; split <;> rfl
@[simp] theorem State.setMdie_postmarks (s : State) (n : Nat) (d : Stack) : (s.setMdie n d).postmarks = s.postmarks := by
  unfold State.setMdie; split <;> rfl
@[simp] theorem State.setMdie_syncs (s : State) (n : Nat) (d : Stack) : (s.setMdie n d).syncs = s.syncs := by
  unfold State.setMdie; split <;> rfl
@[simp] theorem State.setMdie_copies (s : State) (n : Nat) (d : Stack) : (s.setMdie n d).copies = s.copies := by
  unfold State.setMdie; split <;> rfl
@[simp] theorem State.setMdie_queries (s : State) (n : Nat) (d : Stack) : (s.setMdie n d).queries = s.queries := by
  unfold State.setMdie; split <;> rfl
@[simp] theorem State.setMdie_colls (s : State) (n : Nat) (d : Stack) : (s.setMdie n d).colls = s.colls := by
  unfold State.setMdie; split <;> rfl
@[simp] theorem State.setMdie_invals (s : State) (n : Nat) (d : Stack) : (s.setMdie n d).invals = s.invals := by
  unfold State.setMdie; split <;> rfl
@[simp] theorem State.setMdie_gang (s : State) (n : Nat) (d : Stack) : (s.setMdie n d).gang = s.gang := by
  unfold State.setMdie; split <;> rfl
@[simp] theorem State.setMdie_txns (s : State) (n : Nat) (d : Stack) : (s.setMdie n d).txns = s.txns := by
  unfold State.setMdie; split <;> rfl
@[simp] theorem State.setMdie_cache (s : State) (n : Nat) (d : Stack) : (s.setMdie n d).cache = s.cache := by
  unfold State.setMdie; split <;> rfl
@[simp] theorem State.setMdie_tlbs (s : State) (n : Nat) (d : Stack) : (s.setMdie n d).tlbs = s.tlbs := by
  unfold State.setMdie; split <;> rfl
@[simp] theorem State.setMdie_mem (s : State) (n : Nat) (d : Stack) : (s.setMdie n d).mem = s.mem := by
  unfold State.setMdie; split <;> rfl
@[simp] theorem State.setMdie_blocks (s : State) (n : Nat) (d : Stack) : (s.setMdie n d).blocks = s.blocks := by
  unfold State.setMdie; split <;> rfl
@[simp] theorem State.setMdie_nodes (s : State) (n : Nat) (d : Stack) : (s.setMdie n d).nodes = s.nodes := by
  unfold State.setMdie; split <;> rfl
@[simp] theorem State.setMdie_damage (s : State) (n : Nat) (d : Stack) : (s.setMdie n d).damage = s.damage := by
  unfold State.setMdie; split <;> rfl
@[simp] theorem State.setMdie_clus (s : State) (n : Nat) (d : Stack) : (s.setMdie n d).clus = s.clus := by
  unfold State.setMdie; split <;> rfl
@[simp] theorem State.setMdie_clusBad (s : State) (n : Nat) (d : Stack) : (s.setMdie n d).clusBad = s.clusBad := by
  unfold State.setMdie; split <;> rfl
@[simp] theorem State.setMdie_proofszHeld (s : State) (n : Nat) (d : Stack) : (s.setMdie n d).proofszHeld = s.proofszHeld := by
  unfold State.setMdie; split <;> rfl
@[simp] theorem State.setMdie_dies (s : State) (n : Nat) (d : Stack) : (s.setMdie n d).dies = s.dies := by
  unfold State.setMdie; split <;> rfl
@[simp] theorem State.setMdie_links (s : State) (n : Nat) (d : Stack) : (s.setMdie n d).links = s.links := by
  unfold State.setMdie; split <;> rfl
@[simp] theorem State.setMdie_hub (s : State) (n : Nat) (d : Stack) : (s.setMdie n d).hub = s.hub := by
  unfold State.setMdie; split <;> rfl
@[simp] theorem State.setMdie_harts (s : State) (n : Nat) (d : Stack) : (s.setMdie n d).harts = s.harts := by
  unfold State.setMdie; split <;> rfl

/-! ### `setKeySlot` -/

@[simp] theorem State.setKeySlot_focus (s : State) (n : Nat) (k : KeySlot) : (s.setKeySlot n k).focus = s.focus := by
  unfold State.setKeySlot; split <;> rfl
@[simp] theorem State.setKeySlot_agenda (s : State) (n : Nat) (k : KeySlot) : (s.setKeySlot n k).agenda = s.agenda := by
  unfold State.setKeySlot; split <;> rfl
@[simp] theorem State.setKeySlot_glances (s : State) (n : Nat) (k : KeySlot) : (s.setKeySlot n k).glances = s.glances := by
  unfold State.setKeySlot; split <;> rfl
@[simp] theorem State.setKeySlot_seen (s : State) (n : Nat) (k : KeySlot) : (s.setKeySlot n k).seen = s.seen := by
  unfold State.setKeySlot; split <;> rfl
@[simp] theorem State.setKeySlot_args (s : State) (n : Nat) (k : KeySlot) : (s.setKeySlot n k).args = s.args := by
  unfold State.setKeySlot; split <;> rfl
@[simp] theorem State.setKeySlot_reply (s : State) (n : Nat) (k : KeySlot) : (s.setKeySlot n k).reply = s.reply := by
  unfold State.setKeySlot; split <;> rfl
@[simp] theorem State.setKeySlot_freeCount (s : State) (n : Nat) (k : KeySlot) : (s.setKeySlot n k).freeCount = s.freeCount := by
  unfold State.setKeySlot; split <;> rfl
@[simp] theorem State.setKeySlot_cur (s : State) (n : Nat) (k : KeySlot) : (s.setKeySlot n k).cur = s.cur := by
  unfold State.setKeySlot; split <;> rfl
@[simp] theorem State.setKeySlot_tasks (s : State) (n : Nat) (k : KeySlot) : (s.setKeySlot n k).tasks = s.tasks := by
  unfold State.setKeySlot; split <;> rfl
@[simp] theorem State.setKeySlot_nextId (s : State) (n : Nat) (k : KeySlot) : (s.setKeySlot n k).nextId = s.nextId := by
  unfold State.setKeySlot; split <;> rfl
@[simp] theorem State.setKeySlot_launches (s : State) (n : Nat) (k : KeySlot) : (s.setKeySlot n k).launches = s.launches := by
  unfold State.setKeySlot; split <;> rfl
@[simp] theorem State.setKeySlot_contexts (s : State) (n : Nat) (k : KeySlot) : (s.setKeySlot n k).contexts = s.contexts := by
  unfold State.setKeySlot; split <;> rfl
@[simp] theorem State.setKeySlot_parts (s : State) (n : Nat) (k : KeySlot) : (s.setKeySlot n k).parts = s.parts := by
  unfold State.setKeySlot; split <;> rfl
@[simp] theorem State.setKeySlot_postmarks (s : State) (n : Nat) (k : KeySlot) : (s.setKeySlot n k).postmarks = s.postmarks := by
  unfold State.setKeySlot; split <;> rfl
@[simp] theorem State.setKeySlot_syncs (s : State) (n : Nat) (k : KeySlot) : (s.setKeySlot n k).syncs = s.syncs := by
  unfold State.setKeySlot; split <;> rfl
@[simp] theorem State.setKeySlot_copies (s : State) (n : Nat) (k : KeySlot) : (s.setKeySlot n k).copies = s.copies := by
  unfold State.setKeySlot; split <;> rfl
@[simp] theorem State.setKeySlot_queries (s : State) (n : Nat) (k : KeySlot) : (s.setKeySlot n k).queries = s.queries := by
  unfold State.setKeySlot; split <;> rfl
@[simp] theorem State.setKeySlot_colls (s : State) (n : Nat) (k : KeySlot) : (s.setKeySlot n k).colls = s.colls := by
  unfold State.setKeySlot; split <;> rfl
@[simp] theorem State.setKeySlot_invals (s : State) (n : Nat) (k : KeySlot) : (s.setKeySlot n k).invals = s.invals := by
  unfold State.setKeySlot; split <;> rfl
@[simp] theorem State.setKeySlot_gang (s : State) (n : Nat) (k : KeySlot) : (s.setKeySlot n k).gang = s.gang := by
  unfold State.setKeySlot; split <;> rfl
@[simp] theorem State.setKeySlot_txns (s : State) (n : Nat) (k : KeySlot) : (s.setKeySlot n k).txns = s.txns := by
  unfold State.setKeySlot; split <;> rfl
@[simp] theorem State.setKeySlot_cache (s : State) (n : Nat) (k : KeySlot) : (s.setKeySlot n k).cache = s.cache := by
  unfold State.setKeySlot; split <;> rfl
@[simp] theorem State.setKeySlot_tlbs (s : State) (n : Nat) (k : KeySlot) : (s.setKeySlot n k).tlbs = s.tlbs := by
  unfold State.setKeySlot; split <;> rfl
@[simp] theorem State.setKeySlot_mem (s : State) (n : Nat) (k : KeySlot) : (s.setKeySlot n k).mem = s.mem := by
  unfold State.setKeySlot; split <;> rfl
@[simp] theorem State.setKeySlot_blocks (s : State) (n : Nat) (k : KeySlot) : (s.setKeySlot n k).blocks = s.blocks := by
  unfold State.setKeySlot; split <;> rfl
@[simp] theorem State.setKeySlot_nodes (s : State) (n : Nat) (k : KeySlot) : (s.setKeySlot n k).nodes = s.nodes := by
  unfold State.setKeySlot; split <;> rfl
@[simp] theorem State.setKeySlot_damage (s : State) (n : Nat) (k : KeySlot) : (s.setKeySlot n k).damage = s.damage := by
  unfold State.setKeySlot; split <;> rfl
@[simp] theorem State.setKeySlot_clus (s : State) (n : Nat) (k : KeySlot) : (s.setKeySlot n k).clus = s.clus := by
  unfold State.setKeySlot; split <;> rfl
@[simp] theorem State.setKeySlot_clusBad (s : State) (n : Nat) (k : KeySlot) : (s.setKeySlot n k).clusBad = s.clusBad := by
  unfold State.setKeySlot; split <;> rfl
@[simp] theorem State.setKeySlot_proofszHeld (s : State) (n : Nat) (k : KeySlot) : (s.setKeySlot n k).proofszHeld = s.proofszHeld := by
  unfold State.setKeySlot; split <;> rfl
@[simp] theorem State.setKeySlot_dies (s : State) (n : Nat) (k : KeySlot) : (s.setKeySlot n k).dies = s.dies := by
  unfold State.setKeySlot; split <;> rfl
@[simp] theorem State.setKeySlot_mdies (s : State) (n : Nat) (k : KeySlot) : (s.setKeySlot n k).mdies = s.mdies := by
  unfold State.setKeySlot; split <;> rfl
@[simp] theorem State.setKeySlot_links (s : State) (n : Nat) (k : KeySlot) : (s.setKeySlot n k).links = s.links := by
  unfold State.setKeySlot; split <;> rfl
@[simp] theorem State.setKeySlot_hub (s : State) (n : Nat) (k : KeySlot) : (s.setKeySlot n k).hub = s.hub := by
  unfold State.setKeySlot; split <;> rfl
@[simp] theorem State.setKeySlot_harts (s : State) (n : Nat) (k : KeySlot) : (s.setKeySlot n k).harts = s.harts := by
  unfold State.setKeySlot; split <;> rfl

/-! ### `setPart` -/

@[simp] theorem State.setPart_focus (s : State) (p : Nat) (v : Part) : (s.setPart p v).focus = s.focus := by
  unfold State.setPart; split <;> rfl
@[simp] theorem State.setPart_agenda (s : State) (p : Nat) (v : Part) : (s.setPart p v).agenda = s.agenda := by
  unfold State.setPart; split <;> rfl
@[simp] theorem State.setPart_glances (s : State) (p : Nat) (v : Part) : (s.setPart p v).glances = s.glances := by
  unfold State.setPart; split <;> rfl
@[simp] theorem State.setPart_seen (s : State) (p : Nat) (v : Part) : (s.setPart p v).seen = s.seen := by
  unfold State.setPart; split <;> rfl
@[simp] theorem State.setPart_args (s : State) (p : Nat) (v : Part) : (s.setPart p v).args = s.args := by
  unfold State.setPart; split <;> rfl
@[simp] theorem State.setPart_reply (s : State) (p : Nat) (v : Part) : (s.setPart p v).reply = s.reply := by
  unfold State.setPart; split <;> rfl
@[simp] theorem State.setPart_freeCount (s : State) (p : Nat) (v : Part) : (s.setPart p v).freeCount = s.freeCount := by
  unfold State.setPart; split <;> rfl
@[simp] theorem State.setPart_cur (s : State) (p : Nat) (v : Part) : (s.setPart p v).cur = s.cur := by
  unfold State.setPart; split <;> rfl
@[simp] theorem State.setPart_tasks (s : State) (p : Nat) (v : Part) : (s.setPart p v).tasks = s.tasks := by
  unfold State.setPart; split <;> rfl
@[simp] theorem State.setPart_nextId (s : State) (p : Nat) (v : Part) : (s.setPart p v).nextId = s.nextId := by
  unfold State.setPart; split <;> rfl
@[simp] theorem State.setPart_launches (s : State) (p : Nat) (v : Part) : (s.setPart p v).launches = s.launches := by
  unfold State.setPart; split <;> rfl
@[simp] theorem State.setPart_contexts (s : State) (p : Nat) (v : Part) : (s.setPart p v).contexts = s.contexts := by
  unfold State.setPart; split <;> rfl
@[simp] theorem State.setPart_keySlots (s : State) (p : Nat) (v : Part) : (s.setPart p v).keySlots = s.keySlots := by
  unfold State.setPart; split <;> rfl
@[simp] theorem State.setPart_postmarks (s : State) (p : Nat) (v : Part) : (s.setPart p v).postmarks = s.postmarks := by
  unfold State.setPart; split <;> rfl
@[simp] theorem State.setPart_syncs (s : State) (p : Nat) (v : Part) : (s.setPart p v).syncs = s.syncs := by
  unfold State.setPart; split <;> rfl
@[simp] theorem State.setPart_copies (s : State) (p : Nat) (v : Part) : (s.setPart p v).copies = s.copies := by
  unfold State.setPart; split <;> rfl
@[simp] theorem State.setPart_queries (s : State) (p : Nat) (v : Part) : (s.setPart p v).queries = s.queries := by
  unfold State.setPart; split <;> rfl
@[simp] theorem State.setPart_colls (s : State) (p : Nat) (v : Part) : (s.setPart p v).colls = s.colls := by
  unfold State.setPart; split <;> rfl
@[simp] theorem State.setPart_invals (s : State) (p : Nat) (v : Part) : (s.setPart p v).invals = s.invals := by
  unfold State.setPart; split <;> rfl
@[simp] theorem State.setPart_gang (s : State) (p : Nat) (v : Part) : (s.setPart p v).gang = s.gang := by
  unfold State.setPart; split <;> rfl
@[simp] theorem State.setPart_txns (s : State) (p : Nat) (v : Part) : (s.setPart p v).txns = s.txns := by
  unfold State.setPart; split <;> rfl
@[simp] theorem State.setPart_cache (s : State) (p : Nat) (v : Part) : (s.setPart p v).cache = s.cache := by
  unfold State.setPart; split <;> rfl
@[simp] theorem State.setPart_tlbs (s : State) (p : Nat) (v : Part) : (s.setPart p v).tlbs = s.tlbs := by
  unfold State.setPart; split <;> rfl
@[simp] theorem State.setPart_mem (s : State) (p : Nat) (v : Part) : (s.setPart p v).mem = s.mem := by
  unfold State.setPart; split <;> rfl
@[simp] theorem State.setPart_blocks (s : State) (p : Nat) (v : Part) : (s.setPart p v).blocks = s.blocks := by
  unfold State.setPart; split <;> rfl
@[simp] theorem State.setPart_nodes (s : State) (p : Nat) (v : Part) : (s.setPart p v).nodes = s.nodes := by
  unfold State.setPart; split <;> rfl
@[simp] theorem State.setPart_damage (s : State) (p : Nat) (v : Part) : (s.setPart p v).damage = s.damage := by
  unfold State.setPart; split <;> rfl
@[simp] theorem State.setPart_clus (s : State) (p : Nat) (v : Part) : (s.setPart p v).clus = s.clus := by
  unfold State.setPart; split <;> rfl
@[simp] theorem State.setPart_clusBad (s : State) (p : Nat) (v : Part) : (s.setPart p v).clusBad = s.clusBad := by
  unfold State.setPart; split <;> rfl
@[simp] theorem State.setPart_proofszHeld (s : State) (p : Nat) (v : Part) : (s.setPart p v).proofszHeld = s.proofszHeld := by
  unfold State.setPart; split <;> rfl
@[simp] theorem State.setPart_dies (s : State) (p : Nat) (v : Part) : (s.setPart p v).dies = s.dies := by
  unfold State.setPart; split <;> rfl
@[simp] theorem State.setPart_mdies (s : State) (p : Nat) (v : Part) : (s.setPart p v).mdies = s.mdies := by
  unfold State.setPart; split <;> rfl
@[simp] theorem State.setPart_links (s : State) (p : Nat) (v : Part) : (s.setPart p v).links = s.links := by
  unfold State.setPart; split <;> rfl
@[simp] theorem State.setPart_hub (s : State) (p : Nat) (v : Part) : (s.setPart p v).hub = s.hub := by
  unfold State.setPart; split <;> rfl
@[simp] theorem State.setPart_harts (s : State) (p : Nat) (v : Part) : (s.setPart p v).harts = s.harts := by
  unfold State.setPart; split <;> rfl

/-! ### `setLink` -/

@[simp] theorem State.setLink_focus (s : State) (n : Nat) (l : Link) : (s.setLink n l).focus = s.focus := by
  unfold State.setLink; split <;> rfl
@[simp] theorem State.setLink_agenda (s : State) (n : Nat) (l : Link) : (s.setLink n l).agenda = s.agenda := by
  unfold State.setLink; split <;> rfl
@[simp] theorem State.setLink_glances (s : State) (n : Nat) (l : Link) : (s.setLink n l).glances = s.glances := by
  unfold State.setLink; split <;> rfl
@[simp] theorem State.setLink_seen (s : State) (n : Nat) (l : Link) : (s.setLink n l).seen = s.seen := by
  unfold State.setLink; split <;> rfl
@[simp] theorem State.setLink_args (s : State) (n : Nat) (l : Link) : (s.setLink n l).args = s.args := by
  unfold State.setLink; split <;> rfl
@[simp] theorem State.setLink_reply (s : State) (n : Nat) (l : Link) : (s.setLink n l).reply = s.reply := by
  unfold State.setLink; split <;> rfl
@[simp] theorem State.setLink_freeCount (s : State) (n : Nat) (l : Link) : (s.setLink n l).freeCount = s.freeCount := by
  unfold State.setLink; split <;> rfl
@[simp] theorem State.setLink_cur (s : State) (n : Nat) (l : Link) : (s.setLink n l).cur = s.cur := by
  unfold State.setLink; split <;> rfl
@[simp] theorem State.setLink_tasks (s : State) (n : Nat) (l : Link) : (s.setLink n l).tasks = s.tasks := by
  unfold State.setLink; split <;> rfl
@[simp] theorem State.setLink_nextId (s : State) (n : Nat) (l : Link) : (s.setLink n l).nextId = s.nextId := by
  unfold State.setLink; split <;> rfl
@[simp] theorem State.setLink_launches (s : State) (n : Nat) (l : Link) : (s.setLink n l).launches = s.launches := by
  unfold State.setLink; split <;> rfl
@[simp] theorem State.setLink_contexts (s : State) (n : Nat) (l : Link) : (s.setLink n l).contexts = s.contexts := by
  unfold State.setLink; split <;> rfl
@[simp] theorem State.setLink_parts (s : State) (n : Nat) (l : Link) : (s.setLink n l).parts = s.parts := by
  unfold State.setLink; split <;> rfl
@[simp] theorem State.setLink_keySlots (s : State) (n : Nat) (l : Link) : (s.setLink n l).keySlots = s.keySlots := by
  unfold State.setLink; split <;> rfl
@[simp] theorem State.setLink_postmarks (s : State) (n : Nat) (l : Link) : (s.setLink n l).postmarks = s.postmarks := by
  unfold State.setLink; split <;> rfl
@[simp] theorem State.setLink_syncs (s : State) (n : Nat) (l : Link) : (s.setLink n l).syncs = s.syncs := by
  unfold State.setLink; split <;> rfl
@[simp] theorem State.setLink_copies (s : State) (n : Nat) (l : Link) : (s.setLink n l).copies = s.copies := by
  unfold State.setLink; split <;> rfl
@[simp] theorem State.setLink_queries (s : State) (n : Nat) (l : Link) : (s.setLink n l).queries = s.queries := by
  unfold State.setLink; split <;> rfl
@[simp] theorem State.setLink_colls (s : State) (n : Nat) (l : Link) : (s.setLink n l).colls = s.colls := by
  unfold State.setLink; split <;> rfl
@[simp] theorem State.setLink_invals (s : State) (n : Nat) (l : Link) : (s.setLink n l).invals = s.invals := by
  unfold State.setLink; split <;> rfl
@[simp] theorem State.setLink_gang (s : State) (n : Nat) (l : Link) : (s.setLink n l).gang = s.gang := by
  unfold State.setLink; split <;> rfl
@[simp] theorem State.setLink_txns (s : State) (n : Nat) (l : Link) : (s.setLink n l).txns = s.txns := by
  unfold State.setLink; split <;> rfl
@[simp] theorem State.setLink_cache (s : State) (n : Nat) (l : Link) : (s.setLink n l).cache = s.cache := by
  unfold State.setLink; split <;> rfl
@[simp] theorem State.setLink_tlbs (s : State) (n : Nat) (l : Link) : (s.setLink n l).tlbs = s.tlbs := by
  unfold State.setLink; split <;> rfl
@[simp] theorem State.setLink_mem (s : State) (n : Nat) (l : Link) : (s.setLink n l).mem = s.mem := by
  unfold State.setLink; split <;> rfl
@[simp] theorem State.setLink_blocks (s : State) (n : Nat) (l : Link) : (s.setLink n l).blocks = s.blocks := by
  unfold State.setLink; split <;> rfl
@[simp] theorem State.setLink_nodes (s : State) (n : Nat) (l : Link) : (s.setLink n l).nodes = s.nodes := by
  unfold State.setLink; split <;> rfl
@[simp] theorem State.setLink_damage (s : State) (n : Nat) (l : Link) : (s.setLink n l).damage = s.damage := by
  unfold State.setLink; split <;> rfl
@[simp] theorem State.setLink_clus (s : State) (n : Nat) (l : Link) : (s.setLink n l).clus = s.clus := by
  unfold State.setLink; split <;> rfl
@[simp] theorem State.setLink_clusBad (s : State) (n : Nat) (l : Link) : (s.setLink n l).clusBad = s.clusBad := by
  unfold State.setLink; split <;> rfl
@[simp] theorem State.setLink_proofszHeld (s : State) (n : Nat) (l : Link) : (s.setLink n l).proofszHeld = s.proofszHeld := by
  unfold State.setLink; split <;> rfl
@[simp] theorem State.setLink_dies (s : State) (n : Nat) (l : Link) : (s.setLink n l).dies = s.dies := by
  unfold State.setLink; split <;> rfl
@[simp] theorem State.setLink_mdies (s : State) (n : Nat) (l : Link) : (s.setLink n l).mdies = s.mdies := by
  unfold State.setLink; split <;> rfl
@[simp] theorem State.setLink_hub (s : State) (n : Nat) (l : Link) : (s.setLink n l).hub = s.hub := by
  unfold State.setLink; split <;> rfl
@[simp] theorem State.setLink_harts (s : State) (n : Nat) (l : Link) : (s.setLink n l).harts = s.harts := by
  unfold State.setLink; split <;> rfl

/-! ### `setPort` -/

@[simp] theorem State.setPort_focus (s : State) (n : Nat) (p : Port) : (s.setPort n p).focus = s.focus := by
  unfold State.setPort; split <;> rfl
@[simp] theorem State.setPort_agenda (s : State) (n : Nat) (p : Port) : (s.setPort n p).agenda = s.agenda := by
  unfold State.setPort; split <;> rfl
@[simp] theorem State.setPort_glances (s : State) (n : Nat) (p : Port) : (s.setPort n p).glances = s.glances := by
  unfold State.setPort; split <;> rfl
@[simp] theorem State.setPort_seen (s : State) (n : Nat) (p : Port) : (s.setPort n p).seen = s.seen := by
  unfold State.setPort; split <;> rfl
@[simp] theorem State.setPort_args (s : State) (n : Nat) (p : Port) : (s.setPort n p).args = s.args := by
  unfold State.setPort; split <;> rfl
@[simp] theorem State.setPort_reply (s : State) (n : Nat) (p : Port) : (s.setPort n p).reply = s.reply := by
  unfold State.setPort; split <;> rfl
@[simp] theorem State.setPort_freeCount (s : State) (n : Nat) (p : Port) : (s.setPort n p).freeCount = s.freeCount := by
  unfold State.setPort; split <;> rfl
@[simp] theorem State.setPort_cur (s : State) (n : Nat) (p : Port) : (s.setPort n p).cur = s.cur := by
  unfold State.setPort; split <;> rfl
@[simp] theorem State.setPort_tasks (s : State) (n : Nat) (p : Port) : (s.setPort n p).tasks = s.tasks := by
  unfold State.setPort; split <;> rfl
@[simp] theorem State.setPort_nextId (s : State) (n : Nat) (p : Port) : (s.setPort n p).nextId = s.nextId := by
  unfold State.setPort; split <;> rfl
@[simp] theorem State.setPort_launches (s : State) (n : Nat) (p : Port) : (s.setPort n p).launches = s.launches := by
  unfold State.setPort; split <;> rfl
@[simp] theorem State.setPort_contexts (s : State) (n : Nat) (p : Port) : (s.setPort n p).contexts = s.contexts := by
  unfold State.setPort; split <;> rfl
@[simp] theorem State.setPort_parts (s : State) (n : Nat) (p : Port) : (s.setPort n p).parts = s.parts := by
  unfold State.setPort; split <;> rfl
@[simp] theorem State.setPort_keySlots (s : State) (n : Nat) (p : Port) : (s.setPort n p).keySlots = s.keySlots := by
  unfold State.setPort; split <;> rfl
@[simp] theorem State.setPort_postmarks (s : State) (n : Nat) (p : Port) : (s.setPort n p).postmarks = s.postmarks := by
  unfold State.setPort; split <;> rfl
@[simp] theorem State.setPort_syncs (s : State) (n : Nat) (p : Port) : (s.setPort n p).syncs = s.syncs := by
  unfold State.setPort; split <;> rfl
@[simp] theorem State.setPort_copies (s : State) (n : Nat) (p : Port) : (s.setPort n p).copies = s.copies := by
  unfold State.setPort; split <;> rfl
@[simp] theorem State.setPort_queries (s : State) (n : Nat) (p : Port) : (s.setPort n p).queries = s.queries := by
  unfold State.setPort; split <;> rfl
@[simp] theorem State.setPort_colls (s : State) (n : Nat) (p : Port) : (s.setPort n p).colls = s.colls := by
  unfold State.setPort; split <;> rfl
@[simp] theorem State.setPort_invals (s : State) (n : Nat) (p : Port) : (s.setPort n p).invals = s.invals := by
  unfold State.setPort; split <;> rfl
@[simp] theorem State.setPort_gang (s : State) (n : Nat) (p : Port) : (s.setPort n p).gang = s.gang := by
  unfold State.setPort; split <;> rfl
@[simp] theorem State.setPort_txns (s : State) (n : Nat) (p : Port) : (s.setPort n p).txns = s.txns := by
  unfold State.setPort; split <;> rfl
@[simp] theorem State.setPort_cache (s : State) (n : Nat) (p : Port) : (s.setPort n p).cache = s.cache := by
  unfold State.setPort; split <;> rfl
@[simp] theorem State.setPort_tlbs (s : State) (n : Nat) (p : Port) : (s.setPort n p).tlbs = s.tlbs := by
  unfold State.setPort; split <;> rfl
@[simp] theorem State.setPort_mem (s : State) (n : Nat) (p : Port) : (s.setPort n p).mem = s.mem := by
  unfold State.setPort; split <;> rfl
@[simp] theorem State.setPort_blocks (s : State) (n : Nat) (p : Port) : (s.setPort n p).blocks = s.blocks := by
  unfold State.setPort; split <;> rfl
@[simp] theorem State.setPort_nodes (s : State) (n : Nat) (p : Port) : (s.setPort n p).nodes = s.nodes := by
  unfold State.setPort; split <;> rfl
@[simp] theorem State.setPort_damage (s : State) (n : Nat) (p : Port) : (s.setPort n p).damage = s.damage := by
  unfold State.setPort; split <;> rfl
@[simp] theorem State.setPort_clus (s : State) (n : Nat) (p : Port) : (s.setPort n p).clus = s.clus := by
  unfold State.setPort; split <;> rfl
@[simp] theorem State.setPort_clusBad (s : State) (n : Nat) (p : Port) : (s.setPort n p).clusBad = s.clusBad := by
  unfold State.setPort; split <;> rfl
@[simp] theorem State.setPort_proofszHeld (s : State) (n : Nat) (p : Port) : (s.setPort n p).proofszHeld = s.proofszHeld := by
  unfold State.setPort; split <;> rfl
@[simp] theorem State.setPort_dies (s : State) (n : Nat) (p : Port) : (s.setPort n p).dies = s.dies := by
  unfold State.setPort; split <;> rfl
@[simp] theorem State.setPort_mdies (s : State) (n : Nat) (p : Port) : (s.setPort n p).mdies = s.mdies := by
  unfold State.setPort; split <;> rfl
@[simp] theorem State.setPort_links (s : State) (n : Nat) (p : Port) : (s.setPort n p).links = s.links := by
  unfold State.setPort; split <;> rfl
@[simp] theorem State.setPort_harts (s : State) (n : Nat) (p : Port) : (s.setPort n p).harts = s.harts := by
  unfold State.setPort; split <;> rfl

/-! ### `setX` -/

@[simp] theorem State.setX_focus (s : State) (r : Reg) (a : Word) : (s.setX r a).focus = s.focus := by
  unfold State.setX; split <;> rfl
@[simp] theorem State.setX_agenda (s : State) (r : Reg) (a : Word) : (s.setX r a).agenda = s.agenda := by
  unfold State.setX; split <;> rfl
@[simp] theorem State.setX_glances (s : State) (r : Reg) (a : Word) : (s.setX r a).glances = s.glances := by
  unfold State.setX; split <;> rfl
@[simp] theorem State.setX_seen (s : State) (r : Reg) (a : Word) : (s.setX r a).seen = s.seen := by
  unfold State.setX; split <;> rfl
@[simp] theorem State.setX_args (s : State) (r : Reg) (a : Word) : (s.setX r a).args = s.args := by
  unfold State.setX; split <;> rfl
@[simp] theorem State.setX_reply (s : State) (r : Reg) (a : Word) : (s.setX r a).reply = s.reply := by
  unfold State.setX; split <;> rfl
@[simp] theorem State.setX_freeCount (s : State) (r : Reg) (a : Word) : (s.setX r a).freeCount = s.freeCount := by
  unfold State.setX; split <;> rfl
@[simp] theorem State.setX_tasks (s : State) (r : Reg) (a : Word) : (s.setX r a).tasks = s.tasks := by
  unfold State.setX; split <;> rfl
@[simp] theorem State.setX_nextId (s : State) (r : Reg) (a : Word) : (s.setX r a).nextId = s.nextId := by
  unfold State.setX; split <;> rfl
@[simp] theorem State.setX_launches (s : State) (r : Reg) (a : Word) : (s.setX r a).launches = s.launches := by
  unfold State.setX; split <;> rfl
@[simp] theorem State.setX_contexts (s : State) (r : Reg) (a : Word) : (s.setX r a).contexts = s.contexts := by
  unfold State.setX; split <;> rfl
@[simp] theorem State.setX_parts (s : State) (r : Reg) (a : Word) : (s.setX r a).parts = s.parts := by
  unfold State.setX; split <;> rfl
@[simp] theorem State.setX_keySlots (s : State) (r : Reg) (a : Word) : (s.setX r a).keySlots = s.keySlots := by
  unfold State.setX; split <;> rfl
@[simp] theorem State.setX_postmarks (s : State) (r : Reg) (a : Word) : (s.setX r a).postmarks = s.postmarks := by
  unfold State.setX; split <;> rfl
@[simp] theorem State.setX_syncs (s : State) (r : Reg) (a : Word) : (s.setX r a).syncs = s.syncs := by
  unfold State.setX; split <;> rfl
@[simp] theorem State.setX_copies (s : State) (r : Reg) (a : Word) : (s.setX r a).copies = s.copies := by
  unfold State.setX; split <;> rfl
@[simp] theorem State.setX_queries (s : State) (r : Reg) (a : Word) : (s.setX r a).queries = s.queries := by
  unfold State.setX; split <;> rfl
@[simp] theorem State.setX_colls (s : State) (r : Reg) (a : Word) : (s.setX r a).colls = s.colls := by
  unfold State.setX; split <;> rfl
@[simp] theorem State.setX_invals (s : State) (r : Reg) (a : Word) : (s.setX r a).invals = s.invals := by
  unfold State.setX; split <;> rfl
@[simp] theorem State.setX_gang (s : State) (r : Reg) (a : Word) : (s.setX r a).gang = s.gang := by
  unfold State.setX; split <;> rfl
@[simp] theorem State.setX_txns (s : State) (r : Reg) (a : Word) : (s.setX r a).txns = s.txns := by
  unfold State.setX; split <;> rfl
@[simp] theorem State.setX_cache (s : State) (r : Reg) (a : Word) : (s.setX r a).cache = s.cache := by
  unfold State.setX; split <;> rfl
@[simp] theorem State.setX_tlbs (s : State) (r : Reg) (a : Word) : (s.setX r a).tlbs = s.tlbs := by
  unfold State.setX; split <;> rfl
@[simp] theorem State.setX_mem (s : State) (r : Reg) (a : Word) : (s.setX r a).mem = s.mem := by
  unfold State.setX; split <;> rfl
@[simp] theorem State.setX_blocks (s : State) (r : Reg) (a : Word) : (s.setX r a).blocks = s.blocks := by
  unfold State.setX; split <;> rfl
@[simp] theorem State.setX_nodes (s : State) (r : Reg) (a : Word) : (s.setX r a).nodes = s.nodes := by
  unfold State.setX; split <;> rfl
@[simp] theorem State.setX_damage (s : State) (r : Reg) (a : Word) : (s.setX r a).damage = s.damage := by
  unfold State.setX; split <;> rfl
@[simp] theorem State.setX_clus (s : State) (r : Reg) (a : Word) : (s.setX r a).clus = s.clus := by
  unfold State.setX; split <;> rfl
@[simp] theorem State.setX_clusBad (s : State) (r : Reg) (a : Word) : (s.setX r a).clusBad = s.clusBad := by
  unfold State.setX; split <;> rfl
@[simp] theorem State.setX_proofszHeld (s : State) (r : Reg) (a : Word) : (s.setX r a).proofszHeld = s.proofszHeld := by
  unfold State.setX; split <;> rfl
@[simp] theorem State.setX_dies (s : State) (r : Reg) (a : Word) : (s.setX r a).dies = s.dies := by
  unfold State.setX; split <;> rfl
@[simp] theorem State.setX_mdies (s : State) (r : Reg) (a : Word) : (s.setX r a).mdies = s.mdies := by
  unfold State.setX; split <;> rfl
@[simp] theorem State.setX_links (s : State) (r : Reg) (a : Word) : (s.setX r a).links = s.links := by
  unfold State.setX; split <;> rfl
@[simp] theorem State.setX_hub (s : State) (r : Reg) (a : Word) : (s.setX r a).hub = s.hub := by
  unfold State.setX; split <;> rfl

/-! ### `setSpdm` -/

@[simp] theorem State.setSpdm_focus (s : State) (n : Nat) (v : Spdm) : (s.setSpdm n v).focus = s.focus := by
  unfold State.setSpdm; split <;> rfl
@[simp] theorem State.setSpdm_agenda (s : State) (n : Nat) (v : Spdm) : (s.setSpdm n v).agenda = s.agenda := by
  unfold State.setSpdm; split <;> rfl
@[simp] theorem State.setSpdm_glances (s : State) (n : Nat) (v : Spdm) : (s.setSpdm n v).glances = s.glances := by
  unfold State.setSpdm; split <;> rfl
@[simp] theorem State.setSpdm_seen (s : State) (n : Nat) (v : Spdm) : (s.setSpdm n v).seen = s.seen := by
  unfold State.setSpdm; split <;> rfl
@[simp] theorem State.setSpdm_args (s : State) (n : Nat) (v : Spdm) : (s.setSpdm n v).args = s.args := by
  unfold State.setSpdm; split <;> rfl
@[simp] theorem State.setSpdm_reply (s : State) (n : Nat) (v : Spdm) : (s.setSpdm n v).reply = s.reply := by
  unfold State.setSpdm; split <;> rfl
@[simp] theorem State.setSpdm_freeCount (s : State) (n : Nat) (v : Spdm) : (s.setSpdm n v).freeCount = s.freeCount := by
  unfold State.setSpdm; split <;> rfl
@[simp] theorem State.setSpdm_cur (s : State) (n : Nat) (v : Spdm) : (s.setSpdm n v).cur = s.cur := by
  unfold State.setSpdm; split <;> rfl
@[simp] theorem State.setSpdm_tasks (s : State) (n : Nat) (v : Spdm) : (s.setSpdm n v).tasks = s.tasks := by
  unfold State.setSpdm; split <;> rfl
@[simp] theorem State.setSpdm_nextId (s : State) (n : Nat) (v : Spdm) : (s.setSpdm n v).nextId = s.nextId := by
  unfold State.setSpdm; split <;> rfl
@[simp] theorem State.setSpdm_launches (s : State) (n : Nat) (v : Spdm) : (s.setSpdm n v).launches = s.launches := by
  unfold State.setSpdm; split <;> rfl
@[simp] theorem State.setSpdm_contexts (s : State) (n : Nat) (v : Spdm) : (s.setSpdm n v).contexts = s.contexts := by
  unfold State.setSpdm; split <;> rfl
@[simp] theorem State.setSpdm_parts (s : State) (n : Nat) (v : Spdm) : (s.setSpdm n v).parts = s.parts := by
  unfold State.setSpdm; split <;> rfl
@[simp] theorem State.setSpdm_keySlots (s : State) (n : Nat) (v : Spdm) : (s.setSpdm n v).keySlots = s.keySlots := by
  unfold State.setSpdm; split <;> rfl
@[simp] theorem State.setSpdm_postmarks (s : State) (n : Nat) (v : Spdm) : (s.setSpdm n v).postmarks = s.postmarks := by
  unfold State.setSpdm; split <;> rfl
@[simp] theorem State.setSpdm_syncs (s : State) (n : Nat) (v : Spdm) : (s.setSpdm n v).syncs = s.syncs := by
  unfold State.setSpdm; split <;> rfl
@[simp] theorem State.setSpdm_copies (s : State) (n : Nat) (v : Spdm) : (s.setSpdm n v).copies = s.copies := by
  unfold State.setSpdm; split <;> rfl
@[simp] theorem State.setSpdm_queries (s : State) (n : Nat) (v : Spdm) : (s.setSpdm n v).queries = s.queries := by
  unfold State.setSpdm; split <;> rfl
@[simp] theorem State.setSpdm_colls (s : State) (n : Nat) (v : Spdm) : (s.setSpdm n v).colls = s.colls := by
  unfold State.setSpdm; split <;> rfl
@[simp] theorem State.setSpdm_invals (s : State) (n : Nat) (v : Spdm) : (s.setSpdm n v).invals = s.invals := by
  unfold State.setSpdm; split <;> rfl
@[simp] theorem State.setSpdm_gang (s : State) (n : Nat) (v : Spdm) : (s.setSpdm n v).gang = s.gang := by
  unfold State.setSpdm; split <;> rfl
@[simp] theorem State.setSpdm_txns (s : State) (n : Nat) (v : Spdm) : (s.setSpdm n v).txns = s.txns := by
  unfold State.setSpdm; split <;> rfl
@[simp] theorem State.setSpdm_cache (s : State) (n : Nat) (v : Spdm) : (s.setSpdm n v).cache = s.cache := by
  unfold State.setSpdm; split <;> rfl
@[simp] theorem State.setSpdm_tlbs (s : State) (n : Nat) (v : Spdm) : (s.setSpdm n v).tlbs = s.tlbs := by
  unfold State.setSpdm; split <;> rfl
@[simp] theorem State.setSpdm_mem (s : State) (n : Nat) (v : Spdm) : (s.setSpdm n v).mem = s.mem := by
  unfold State.setSpdm; split <;> rfl
@[simp] theorem State.setSpdm_blocks (s : State) (n : Nat) (v : Spdm) : (s.setSpdm n v).blocks = s.blocks := by
  unfold State.setSpdm; split <;> rfl
@[simp] theorem State.setSpdm_nodes (s : State) (n : Nat) (v : Spdm) : (s.setSpdm n v).nodes = s.nodes := by
  unfold State.setSpdm; split <;> rfl
@[simp] theorem State.setSpdm_damage (s : State) (n : Nat) (v : Spdm) : (s.setSpdm n v).damage = s.damage := by
  unfold State.setSpdm; split <;> rfl
@[simp] theorem State.setSpdm_clus (s : State) (n : Nat) (v : Spdm) : (s.setSpdm n v).clus = s.clus := by
  unfold State.setSpdm; split <;> rfl
@[simp] theorem State.setSpdm_clusBad (s : State) (n : Nat) (v : Spdm) : (s.setSpdm n v).clusBad = s.clusBad := by
  unfold State.setSpdm; split <;> rfl
@[simp] theorem State.setSpdm_proofszHeld (s : State) (n : Nat) (v : Spdm) : (s.setSpdm n v).proofszHeld = s.proofszHeld := by
  unfold State.setSpdm; split <;> rfl
@[simp] theorem State.setSpdm_dies (s : State) (n : Nat) (v : Spdm) : (s.setSpdm n v).dies = s.dies := by
  unfold State.setSpdm; split <;> rfl
@[simp] theorem State.setSpdm_mdies (s : State) (n : Nat) (v : Spdm) : (s.setSpdm n v).mdies = s.mdies := by
  unfold State.setSpdm; split <;> rfl
@[simp] theorem State.setSpdm_links (s : State) (n : Nat) (v : Spdm) : (s.setSpdm n v).links = s.links := by
  unfold State.setSpdm; split <;> rfl
@[simp] theorem State.setSpdm_harts (s : State) (n : Nat) (v : Spdm) : (s.setSpdm n v).harts = s.harts := by
  unfold State.setSpdm; split <;> rfl

/-! ### Teams -/

@[simp] theorem Team.setMember_vfile (t : Team) (w : Who) (m : Member) : (t.setMember w m).vfile = t.vfile := by cases w <;> rfl
@[simp] theorem State.setMember_team_vfile (s : State) (w : Who) (m : Member) : (s.setMember w m).cur.team.vfile = s.cur.team.vfile := by
  cases w <;> rfl
@[simp] theorem Team.setMember_spilled (t : Team) (w : Who) (m : Member) : (t.setMember w m).spilled = t.spilled := by cases w <;> rfl
@[simp] theorem State.setMember_team_spilled (s : State) (w : Who) (m : Member) : (s.setMember w m).cur.team.spilled = s.cur.team.spilled := by
  cases w <;> rfl
@[simp] theorem Team.setMember_wb (t : Team) (w : Who) (m : Member) : (t.setMember w m).wb = t.wb := by cases w <;> rfl
@[simp] theorem State.setMember_team_wb (s : State) (w : Who) (m : Member) : (s.setMember w m).cur.team.wb = s.cur.team.wb := by
  cases w <;> rfl
@[simp] theorem Team.setMember_fs (t : Team) (w : Who) (m : Member) : (t.setMember w m).fs = t.fs := by cases w <;> rfl
@[simp] theorem State.setMember_team_fs (s : State) (w : Who) (m : Member) : (s.setMember w m).cur.team.fs = s.cur.team.fs := by
  cases w <;> rfl
@[simp] theorem Team.setMember_lo (t : Team) (w : Who) (m : Member) : (t.setMember w m).lo = t.lo := by cases w <;> rfl
@[simp] theorem State.setMember_team_lo (s : State) (w : Who) (m : Member) : (s.setMember w m).cur.team.lo = s.cur.team.lo := by
  cases w <;> rfl
@[simp] theorem Team.setMember_links (t : Team) (w : Who) (m : Member) : (t.setMember w m).links = t.links := by cases w <;> rfl
@[simp] theorem State.setMember_team_links (s : State) (w : Who) (m : Member) : (s.setMember w m).cur.team.links = s.cur.team.links := by
  cases w <;> rfl
@[simp] theorem Team.setMember_acc (t : Team) (w : Who) (m : Member) : (t.setMember w m).acc = t.acc := by cases w <;> rfl
@[simp] theorem State.setMember_team_acc (s : State) (w : Who) (m : Member) : (s.setMember w m).cur.team.acc = s.cur.team.acc := by
  cases w <;> rfl
@[simp] theorem Team.setMember_h (t : Team) (w : Who) (m : Member) : (t.setMember w m).h = t.h := by cases w <;> rfl
@[simp] theorem State.setMember_team_h (s : State) (w : Who) (m : Member) : (s.setMember w m).cur.team.h = s.cur.team.h := by
  cases w <;> rfl
@[simp] theorem Team.setMember_lc (t : Team) (w : Who) (m : Member) : (t.setMember w m).lc = t.lc := by cases w <;> rfl
@[simp] theorem State.setMember_team_lc (s : State) (w : Who) (m : Member) : (s.setMember w m).cur.team.lc = s.cur.team.lc := by
  cases w <;> rfl
@[simp] theorem Team.setMember_loops (t : Team) (w : Who) (m : Member) : (t.setMember w m).loops = t.loops := by cases w <;> rfl
@[simp] theorem State.setMember_team_loops (s : State) (w : Who) (m : Member) : (s.setMember w m).cur.team.loops = s.cur.team.loops := by
  cases w <;> rfl
@[simp] theorem Team.setMember_masks (t : Team) (w : Who) (m : Member) : (t.setMember w m).masks = t.masks := by cases w <;> rfl
@[simp] theorem State.setMember_team_masks (s : State) (w : Who) (m : Member) : (s.setMember w m).cur.team.masks = s.cur.team.masks := by
  cases w <;> rfl
@[simp] theorem Team.setMember_landings (t : Team) (w : Who) (m : Member) : (t.setMember w m).landings = t.landings := by cases w <;> rfl
@[simp] theorem State.setMember_team_landings (s : State) (w : Who) (m : Member) : (s.setMember w m).cur.team.landings = s.cur.team.landings := by
  cases w <;> rfl
@[simp] theorem Team.setMember_bypass (t : Team) (w : Who) (m : Member) : (t.setMember w m).bypass = t.bypass := by cases w <;> rfl
@[simp] theorem State.setMember_team_bypass (s : State) (w : Who) (m : Member) : (s.setMember w m).cur.team.bypass = s.cur.team.bypass := by
  cases w <;> rfl
@[simp] theorem Team.setMember_flags (t : Team) (w : Who) (m : Member) : (t.setMember w m).flags = t.flags := by cases w <;> rfl
@[simp] theorem State.setMember_team_flags (s : State) (w : Who) (m : Member) : (s.setMember w m).cur.team.flags = s.cur.team.flags := by
  cases w <;> rfl
@[simp] theorem Team.setMember_flagsNow (t : Team) (w : Who) (m : Member) : (t.setMember w m).flagsNow = t.flagsNow := by cases w <;> rfl
@[simp] theorem State.setMember_team_flagsNow (s : State) (w : Who) (m : Member) : (s.setMember w m).cur.team.flagsNow = s.cur.team.flagsNow := by
  cases w <;> rfl
@[simp] theorem Team.setMember_rm (t : Team) (w : Who) (m : Member) : (t.setMember w m).rm = t.rm := by cases w <;> rfl
@[simp] theorem State.setMember_team_rm (s : State) (w : Who) (m : Member) : (s.setMember w m).cur.team.rm = s.cur.team.rm := by
  cases w <;> rfl
@[simp] theorem Team.setMember_srseed (t : Team) (w : Who) (m : Member) : (t.setMember w m).srseed = t.srseed := by cases w <;> rfl
@[simp] theorem State.setMember_team_srseed (s : State) (w : Who) (m : Member) : (s.setMember w m).cur.team.srseed = s.cur.team.srseed := by
  cases w <;> rfl
@[simp] theorem Team.setMember_ft (t : Team) (w : Who) (m : Member) : (t.setMember w m).ft = t.ft := by cases w <;> rfl
@[simp] theorem State.setMember_team_ft (s : State) (w : Who) (m : Member) : (s.setMember w m).cur.team.ft = s.cur.team.ft := by
  cases w <;> rfl
@[simp] theorem Team.setMember_selCtr (t : Team) (w : Who) (m : Member) : (t.setMember w m).selCtr = t.selCtr := by cases w <;> rfl
@[simp] theorem State.setMember_team_selCtr (s : State) (w : Who) (m : Member) : (s.setMember w m).cur.team.selCtr = s.cur.team.selCtr := by
  cases w <;> rfl
@[simp] theorem Team.setMember_selBase (t : Team) (w : Who) (m : Member) : (t.setMember w m).selBase = t.selBase := by cases w <;> rfl
@[simp] theorem State.setMember_team_selBase (s : State) (w : Who) (m : Member) : (s.setMember w m).cur.team.selBase = s.cur.team.selBase := by
  cases w <;> rfl
@[simp] theorem Team.setMember_clock (t : Team) (w : Who) (m : Member) : (t.setMember w m).clock = t.clock := by cases w <;> rfl
@[simp] theorem State.setMember_team_clock (s : State) (w : Who) (m : Member) : (s.setMember w m).cur.team.clock = s.cur.team.clock := by
  cases w <;> rfl
@[simp] theorem Team.setMember_matBusy (t : Team) (w : Who) (m : Member) : (t.setMember w m).matBusy = t.matBusy := by cases w <;> rfl
@[simp] theorem State.setMember_team_matBusy (s : State) (w : Who) (m : Member) : (s.setMember w m).cur.team.matBusy = s.cur.team.matBusy := by
  cases w <;> rfl
@[simp] theorem Team.setMember_debt (t : Team) (w : Who) (m : Member) : (t.setMember w m).debt = t.debt := by cases w <;> rfl
@[simp] theorem State.setMember_team_debt (s : State) (w : Who) (m : Member) : (s.setMember w m).cur.team.debt = s.cur.team.debt := by
  cases w <;> rfl
@[simp] theorem Team.setMember_tq (t : Team) (w : Who) (m : Member) : (t.setMember w m).tq = t.tq := by cases w <;> rfl
@[simp] theorem State.setMember_team_tq (s : State) (w : Who) (m : Member) : (s.setMember w m).cur.team.tq = s.cur.team.tq := by
  cases w <;> rfl
@[simp] theorem Team.setMember_ph (t : Team) (w : Who) (m : Member) : (t.setMember w m).ph = t.ph := by cases w <;> rfl
@[simp] theorem State.setMember_team_ph (s : State) (w : Who) (m : Member) : (s.setMember w m).cur.team.ph = s.cur.team.ph := by
  cases w <;> rfl
@[simp] theorem Team.setMember_scratch (t : Team) (w : Who) (m : Member) : (t.setMember w m).scratch = t.scratch := by cases w <;> rfl
@[simp] theorem State.setMember_team_scratch (s : State) (w : Who) (m : Member) : (s.setMember w m).cur.team.scratch = s.cur.team.scratch := by
  cases w <;> rfl
@[simp] theorem State.setTeam_cur_id (s : State) (t : Team) : (s.setTeam t).cur.id = s.cur.id := rfl
@[simp] theorem State.setTeam_cur_part (s : State) (t : Team) : (s.setTeam t).cur.part = s.cur.part := rfl
@[simp] theorem State.setTeam_cur_cid (s : State) (t : Team) : (s.setTeam t).cur.cid = s.cur.cid := rfl
@[simp] theorem State.setTeam_cur_tcb (s : State) (t : Team) : (s.setTeam t).cur.tcb = s.cur.tcb := rfl
@[simp] theorem State.setTeam_cur_launch (s : State) (t : Team) : (s.setTeam t).cur.launch = s.cur.launch := rfl
@[simp] theorem State.setTeam_cur_linear (s : State) (t : Team) : (s.setTeam t).cur.linear = s.cur.linear := rfl
@[simp] theorem State.setTeam_cur_tx (s : State) (t : Team) : (s.setTeam t).cur.tx = s.cur.tx := rfl
@[simp] theorem State.setTeam_cur_ty (s : State) (t : Team) : (s.setTeam t).cur.ty = s.cur.ty := rfl
@[simp] theorem State.setTeam_cur_tz (s : State) (t : Team) : (s.setTeam t).cur.tz = s.cur.tz := rfl
@[simp] theorem State.setTeam_cur_vdie (s : State) (t : Team) : (s.setTeam t).cur.vdie = s.cur.vdie := rfl
@[simp] theorem State.setTeam_cur_die (s : State) (t : Team) : (s.setTeam t).cur.die = s.cur.die := rfl
@[simp] theorem State.setTeam_cur_state (s : State) (t : Team) : (s.setTeam t).cur.state = s.cur.state := rfl
@[simp] theorem State.setTeam_cur_spec (s : State) (t : Team) : (s.setTeam t).cur.spec = s.cur.spec := rfl
@[simp] theorem State.setTeam_cur_depth (s : State) (t : Team) : (s.setTeam t).cur.depth = s.cur.depth := rfl
@[simp] theorem State.setTeam_cur_prio (s : State) (t : Team) : (s.setTeam t).cur.prio = s.cur.prio := rfl
@[simp] theorem State.setTeam_cur_effPrio (s : State) (t : Team) : (s.setTeam t).cur.effPrio = s.cur.effPrio := rfl
@[simp] theorem State.setTeam_cur_policy (s : State) (t : Team) : (s.setTeam t).cur.policy = s.cur.policy := rfl
@[simp] theorem State.setTeam_cur_stamps (s : State) (t : Team) : (s.setTeam t).cur.stamps = s.cur.stamps := rfl
@[simp] theorem State.setTeam_cur_est (s : State) (t : Team) : (s.setTeam t).cur.est = s.cur.est := rfl
@[simp] theorem State.setTeam_cur_vframe (s : State) (t : Team) : (s.setTeam t).cur.vframe = s.cur.vframe := rfl
@[simp] theorem State.setTeam_cur_spill (s : State) (t : Team) : (s.setTeam t).cur.spill = s.cur.spill := rfl
@[simp] theorem State.setTeam_cur_phcfg (s : State) (t : Team) : (s.setTeam t).cur.phcfg = s.cur.phcfg := rfl
@[simp] theorem State.setTeam_cur_args (s : State) (t : Team) : (s.setTeam t).cur.args = s.cur.args := rfl
@[simp] theorem State.setTeam_cur_code (s : State) (t : Team) : (s.setTeam t).cur.code = s.cur.code := rfl
@[simp] theorem State.setTeam_cur_trips (s : State) (t : Team) : (s.setTeam t).cur.trips = s.cur.trips := rfl
@[simp] theorem State.setTeam_cur_deps (s : State) (t : Team) : (s.setTeam t).cur.deps = s.cur.deps := rfl
@[simp] theorem State.setTeam_cur_nsucc (s : State) (t : Team) : (s.setTeam t).cur.nsucc = s.cur.nsucc := rfl
@[simp] theorem State.setTeam_cur_succ (s : State) (t : Team) : (s.setTeam t).cur.succ = s.cur.succ := rfl
@[simp] theorem State.setTeam_cur_specIn (s : State) (t : Team) : (s.setTeam t).cur.specIn = s.cur.specIn := rfl
@[simp] theorem State.setTeam_cur_predOut (s : State) (t : Team) : (s.setTeam t).cur.predOut = s.cur.predOut := rfl
@[simp] theorem State.setTeam_cur_tol (s : State) (t : Team) : (s.setTeam t).cur.tol = s.cur.tol := rfl
@[simp] theorem State.setTeam_cur_hist (s : State) (t : Team) : (s.setTeam t).cur.hist = s.cur.hist := rfl
@[simp] theorem State.setTeam_cur_donePm (s : State) (t : Team) : (s.setTeam t).cur.donePm = s.cur.donePm := rfl
@[simp] theorem State.setTeam_cur_fault (s : State) (t : Team) : (s.setTeam t).cur.fault = s.cur.fault := rfl
@[simp] theorem State.setTeam_cur_core (s : State) (t : Team) : (s.setTeam t).cur.core = s.cur.core := rfl
@[simp] theorem State.setTeam_cur_lastCluster (s : State) (t : Team) : (s.setTeam t).cur.lastCluster = s.cur.lastCluster := rfl
@[simp] theorem State.setTeam_cur_anchorOnly (s : State) (t : Team) : (s.setTeam t).cur.anchorOnly = s.cur.anchorOnly := rfl
@[simp] theorem State.setTeam_cur_readyAt (s : State) (t : Team) : (s.setTeam t).cur.readyAt = s.cur.readyAt := rfl
@[simp] theorem State.setTeam_cur_hasRun (s : State) (t : Team) : (s.setTeam t).cur.hasRun = s.cur.hasRun := rfl
@[simp] theorem State.setTeam_cur_fresh (s : State) (t : Team) : (s.setTeam t).cur.fresh = s.cur.fresh := rfl
@[simp] theorem State.setTeam_cur_runTime (s : State) (t : Team) : (s.setTeam t).cur.runTime = s.cur.runTime := rfl
@[simp] theorem State.setTeam_cur_startedAt (s : State) (t : Team) : (s.setTeam t).cur.startedAt = s.cur.startedAt := rfl
@[simp] theorem State.setTeam_cur_issuedAt (s : State) (t : Team) : (s.setTeam t).cur.issuedAt = s.cur.issuedAt := rfl
@[simp] theorem State.setTeam_cur_stop (s : State) (t : Team) : (s.setTeam t).cur.stop = s.cur.stop := rfl
@[simp] theorem State.setTeam_cur_halted (s : State) (t : Team) : (s.setTeam t).cur.halted = s.cur.halted := rfl
@[simp] theorem State.setTeam_cur_stepping (s : State) (t : Team) : (s.setTeam t).cur.stepping = s.cur.stepping := rfl
@[simp] theorem State.setTeam_cur_parked (s : State) (t : Team) : (s.setTeam t).cur.parked = s.cur.parked := rfl
@[simp] theorem State.setTeam_cur_held (s : State) (t : Team) : (s.setTeam t).cur.held = s.cur.held := rfl
@[simp] theorem State.setTeam_cur_slot0 (s : State) (t : Team) : (s.setTeam t).cur.slot0 = s.cur.slot0 := rfl
@[simp] theorem State.setTeam_cur_slot1 (s : State) (t : Team) : (s.setTeam t).cur.slot1 = s.cur.slot1 := rfl
@[simp] theorem State.setTeam_cur_prod0 (s : State) (t : Team) : (s.setTeam t).cur.prod0 = s.cur.prod0 := rfl
@[simp] theorem State.setTeam_cur_prod1 (s : State) (t : Team) : (s.setTeam t).cur.prod1 = s.cur.prod1 := rfl
@[simp] theorem State.setTeam_cur_assay0 (s : State) (t : Team) : (s.setTeam t).cur.assay0 = s.cur.assay0 := rfl
@[simp] theorem State.setTeam_cur_assay1 (s : State) (t : Team) : (s.setTeam t).cur.assay1 = s.cur.assay1 := rfl
@[simp] theorem State.setTeam_cur_guess0 (s : State) (t : Team) : (s.setTeam t).cur.guess0 = s.cur.guess0 := rfl
@[simp] theorem State.setTeam_cur_guess1 (s : State) (t : Team) : (s.setTeam t).cur.guess1 = s.cur.guess1 := rfl
@[simp] theorem State.setTeam_cur_proof (s : State) (t : Team) : (s.setTeam t).cur.proof = s.cur.proof := rfl
@[simp] theorem State.setTeam_cur_proofFull (s : State) (t : Team) : (s.setTeam t).cur.proofFull = s.cur.proofFull := rfl
@[simp] theorem State.setTeam_cur_fullAt (s : State) (t : Team) : (s.setTeam t).cur.fullAt = s.cur.fullAt := rfl
@[simp] theorem State.setTeam_cur_specNums (s : State) (t : Team) : (s.setTeam t).cur.specNums = s.cur.specNums := rfl
@[simp] theorem State.setTeam_cur_image (s : State) (t : Team) : (s.setTeam t).cur.image = s.cur.image := rfl
@[simp] theorem State.setTeam_cur_sealed (s : State) (t : Team) : (s.setTeam t).cur.sealed = s.cur.sealed := rfl
@[simp] theorem State.setTeam_cur_reason (s : State) (t : Team) : (s.setTeam t).cur.reason = s.cur.reason := rfl
@[simp] theorem State.setTeam_cur_slot (s : State) (t : Team) : (s.setTeam t).cur.slot = s.cur.slot := rfl
@[simp] theorem State.setTeam_cur_svcTag (s : State) (t : Team) : (s.setTeam t).cur.svcTag = s.cur.svcTag := rfl
@[simp] theorem State.setTeam_cur_run (s : State) (t : Team) : (s.setTeam t).cur.run = s.cur.run := rfl
@[simp] theorem State.setTeam_cur_hung (s : State) (t : Team) : (s.setTeam t).cur.hung = s.cur.hung := rfl
@[simp] theorem State.setTeam_cur_ckpt (s : State) (t : Team) : (s.setTeam t).cur.ckpt = s.cur.ckpt := rfl
@[simp] theorem State.setTeam_cur_log (s : State) (t : Team) : (s.setTeam t).cur.log = s.cur.log := rfl
@[simp] theorem State.setTeam_cur_extSince (s : State) (t : Team) : (s.setTeam t).cur.extSince = s.cur.extSince := rfl
@[simp] theorem State.setTeam_cur_ckptDue (s : State) (t : Team) : (s.setTeam t).cur.ckptDue = s.cur.ckptDue := rfl
@[simp] theorem State.setTeam_cur_ckptAt (s : State) (t : Team) : (s.setTeam t).cur.ckptAt = s.cur.ckptAt := rfl
@[simp] theorem State.setTeam_cur_collTags (s : State) (t : Team) : (s.setTeam t).cur.collTags = s.cur.collTags := rfl
@[simp] theorem State.setTeam_cur_swappedAt (s : State) (t : Team) : (s.setTeam t).cur.swappedAt = s.cur.swappedAt := rfl
@[simp] theorem State.setTeam_cur_preemptAt (s : State) (t : Team) : (s.setTeam t).cur.preemptAt = s.cur.preemptAt := rfl
@[simp] theorem State.setTeam_cur_draining (s : State) (t : Team) : (s.setTeam t).cur.draining = s.cur.draining := rfl
@[simp] theorem State.setTeam_cur_reserves (s : State) (t : Team) : (s.setTeam t).cur.reserves = s.cur.reserves := rfl
@[simp] theorem State.setTeam_cur_specAt (s : State) (t : Team) : (s.setTeam t).cur.specAt = s.cur.specAt := rfl

/-! ### Harts that retire an instruction -/

@[simp] theorem Hart.retired_x (v : Hart) : v.retired.x = v.x := rfl
@[simp] theorem Hart.retired_pc (v : Hart) : v.retired.pc = v.pc := rfl
@[simp] theorem Hart.retired_mode (v : Hart) : v.retired.mode = v.mode := rfl
@[simp] theorem Hart.retired_mstatus (v : Hart) : v.retired.mstatus = v.mstatus := rfl
@[simp] theorem Hart.retired_mie (v : Hart) : v.retired.mie = v.mie := rfl
@[simp] theorem Hart.retired_mip (v : Hart) : v.retired.mip = v.mip := rfl
@[simp] theorem Hart.retired_medeleg (v : Hart) : v.retired.medeleg = v.medeleg := rfl
@[simp] theorem Hart.retired_mideleg (v : Hart) : v.retired.mideleg = v.mideleg := rfl
@[simp] theorem Hart.retired_mtvec (v : Hart) : v.retired.mtvec = v.mtvec := rfl
@[simp] theorem Hart.retired_mscratch (v : Hart) : v.retired.mscratch = v.mscratch := rfl
@[simp] theorem Hart.retired_mepc (v : Hart) : v.retired.mepc = v.mepc := rfl
@[simp] theorem Hart.retired_mcause (v : Hart) : v.retired.mcause = v.mcause := rfl
@[simp] theorem Hart.retired_mtval (v : Hart) : v.retired.mtval = v.mtval := rfl
@[simp] theorem Hart.retired_stvec (v : Hart) : v.retired.stvec = v.stvec := rfl
@[simp] theorem Hart.retired_sscratch (v : Hart) : v.retired.sscratch = v.sscratch := rfl
@[simp] theorem Hart.retired_sepc (v : Hart) : v.retired.sepc = v.sepc := rfl
@[simp] theorem Hart.retired_scause (v : Hart) : v.retired.scause = v.scause := rfl
@[simp] theorem Hart.retired_stval (v : Hart) : v.retired.stval = v.stval := rfl
@[simp] theorem Hart.retired_satp (v : Hart) : v.retired.satp = v.satp := rfl
@[simp] theorem Hart.retired_mcycle (v : Hart) : v.retired.mcycle = v.mcycle := rfl
@[simp] theorem Hart.retired_mcounteren (v : Hart) : v.retired.mcounteren = v.mcounteren := rfl
@[simp] theorem Hart.retired_scounteren (v : Hart) : v.retired.scounteren = v.scounteren := rfl
@[simp] theorem Hart.retired_mcountinhibit (v : Hart) : v.retired.mcountinhibit = v.mcountinhibit := rfl
@[simp] theorem Hart.retired_menvcfg (v : Hart) : v.retired.menvcfg = v.menvcfg := rfl
@[simp] theorem Hart.retired_senvcfg (v : Hart) : v.retired.senvcfg = v.senvcfg := rfl
@[simp] theorem Hart.retired_partid (v : Hart) : v.retired.partid = v.partid := rfl
@[simp] theorem Hart.retired_resv (v : Hart) : v.retired.resv = v.resv := rfl
@[simp] theorem Hart.retired_wait (v : Hart) : v.retired.wait = v.wait := rfl


/-! ### What an update writes -/

/-- The team that was put in place. -/
@[simp] theorem State.setTeam_team (s : State) (t : Team) : (s.setTeam t).cur.team = t := rfl

/-- The member that was put in place. -/
@[simp] theorem Team.member_setMember (t : Team) (w : Who) (m : Member) : (t.setMember w m).member w = m := by cases w <;> rfl

/-- Another member stays. -/
theorem Team.member_setMember_ne (t : Team) (w v : Who) (m : Member) (h : v ≠ w) : (t.setMember w m).member v = t.member v := by
  cases w <;> cases v <;> first | rfl | exact absurd rfl h

/-- The member that was put in place, in the state. -/
@[simp] theorem State.member_setMember (s : State) (w : Who) (m : Member) : (s.setMember w m).member w = m := Team.member_setMember ..

/-- The hart that was put in place. -/
@[simp] theorem State.hart_setHart (s : State) (h : Fin 16) (v : Hart) : (s.setHart h v).hart h = v := by
  show (s.harts.set h.val v h.isLt)[h.val]'h.isLt = v
  simp

/-- Another hart stays. -/
theorem State.hart_setHart_ne (s : State) (h k : Fin 16) (v : Hart) (hk : k ≠ h) : (s.setHart h v).hart k = s.hart k := by
  have : h.val ≠ k.val := fun e => hk (Fin.ext e.symm)
  show (s.harts.set h.val v h.isLt)[k.val]'k.isLt = s.harts[k.val]'k.isLt
  simp [this]

/-- `x0` reads 0. -/
@[simp] theorem regGet_zero (v : Vector Word 32) : regGet v 0 = 0 := rfl

/-- A write of `x0` is dropped. -/
@[simp] theorem regSet_zero (v : Vector Word 32) (a : Word) : regSet v 0 a = v := rfl

/-- The register that was written. -/
theorem regGet_regSet (v : Vector Word 32) (r : Reg) (a : Word) (h : r ≠ 0) : regGet (regSet v r a) r = a := by
  rw [regGet, regSet, if_neg h, if_neg h]
  show (v.set r.toNat a r.isLt)[r.toNat]'r.isLt = a
  simp

/-- Another register stays. -/
theorem regGet_regSet_ne (v : Vector Word 32) (r q : Reg) (a : Word) (h : q ≠ r) : regGet (regSet v r a) q = regGet v q := by
  have : r.toNat ≠ q.toNat := fun e => h (BitVec.eq_of_toNat_eq e.symm)
  by_cases hr : r = 0
  · simp [regSet, hr]
  · by_cases hq : q = 0
    · simp [regGet, hq]
    · rw [regGet, regSet, if_neg hr, if_neg hq, regGet, if_neg hq]
      show (v.set r.toNat a r.isLt)[q.toNat]'q.isLt = v[q.toNat]'q.isLt
      simp [this]

/-- Every register after a write, at once. -/
theorem State.x_setX (s : State) (r q : Reg) (a : Word) : (s.setX r a).x q = if q = r ∧ r ≠ 0 then a else s.x q := by
  have key (v : Vector Word 32) : regGet (regSet v r a) q = if q = r ∧ r ≠ 0 then a else regGet v q := by
    by_cases hr : r = 0
    · subst hr; rw [regSet_zero, if_neg fun h => h.2 rfl]
    · by_cases hq : q = r
      · subst hq; rw [if_pos ⟨rfl, hr⟩, regGet_regSet _ _ _ hr]
      · rw [if_neg fun h => hq h.1, regGet_regSet_ne _ _ _ _ hq]
  cases hf : s.focus <;> simp only [State.setX, State.x, hf, State.setMember_focus, State.setHart_focus, State.member_setMember,
    State.hart_setHart, key]

end Sys2Proof.Machine
end

