-- ==== Sys2Proof/Laws/Ops.lean ====
section
/-! SUPPORT. What the shared operations of an instruction can do: how its effect ends, when it issues and what follows, stated
once, so that no later proof unfolds them; and what passing time leaves alone. -/

namespace Sys2Proof.Machine

/-! ### How an effect ends -/

theorem Eff.finish_done (n : Nat) (s : State) : (Eff.done s).finish n = .next (s.completed n) := rfl
theorem Eff.finish_doneWith (n : Nat) (s : State) (a b : Word) : (Eff.doneWith s a b).finish n = .next (s.completedWith n a b) := rfl
theorem Eff.finish_jump (n : Nat) (s : State) (pc : Word) : (Eff.jump s pc).finish n = .next (s.jumped pc) := rfl
theorem Eff.finish_stay (n : Nat) (s : State) (w : Wait) : (Eff.stay w s).finish n = .next (s.blockWith w) := rfl
theorem Eff.finish_drain (n : Nat) (s : State) : (Eff.drain s).finish n = .next s.drainCycle := rfl
theorem Eff.finish_trap (n : Nat) (s : State) (t : Trap) : (Eff.trap t s).finish n = .next (s.trapped t) := rfl
theorem Eff.finish_ends (n : Nat) (s : State) : (Eff.ends s).finish n = .next s := rfl

/-- The end of every effect is a next state: no instruction with a meaning stops the machine. -/
theorem Eff.finish_next (n : Nat) (e : Eff) : ∃ t, e.finish n = .next t := by
  cases e <;> exact ⟨_, rfl⟩

/-! ### Base instructions -/

/-- A base instruction of an agent that owes no drain cycle ends as its effect says. -/
theorem issueBase_ready {s : State} {e : Eff} (h : s.ready) : issueBase s e = e.finish 4 := by
  unfold issueBase
  split
  · rename_i hf; simp [h hf]
  · rfl

theorem issueBase_done {s s' : State} (h : s.ready) : issueBase s (.done s') = .next (s'.completed 4) := by
  rw [issueBase_ready h, Eff.finish_done]
theorem issueBase_jump {s s' : State} {pc : Word} (h : s.ready) : issueBase s (.jump s' pc) = .next (s'.jumped pc) := by
  rw [issueBase_ready h, Eff.finish_jump]
theorem issueBase_trap {s s' : State} {t : Trap} (h : s.ready) : issueBase s (.trap t s') = .next (s'.trapped t) := by
  rw [issueBase_ready h, Eff.finish_trap]
theorem writeRd_eq (s : State) (rd : Reg) (v : Word) : writeRd s rd v = .done (s.setX rd v) := rfl

/-- What a base instruction can do: owe a drain cycle, or end as its effect says. -/
theorem issueBase_cases (s : State) (e : Eff) : issueBase s e = .next s.drainOwed.drainCycle ∨ issueBase s e = e.finish 4 := by
  unfold issueBase
  split
  · split
    · exact .inl rfl
    · exact .inr rfl
  · exact .inr rfl

/-! ### Instructions of classes 0 to 14 -/

/-- One that issues ends as its own effect says. -/
theorem issue_ok {i : Instr} {n : Nat} {o : LF} {sh : Shape} {plan : Team → Res → Plan} {body : Who → Res → State → Eff} {s : State}
    {w : Who} (h : s.issues w o sh (plan s.cur.team (s.cur.team.res o))) :
    issue i n o sh plan body s = (body w (s.cur.team.res o) s).finish n := by
  obtain ⟨hf, hp, hc, hd, hb⟩ := h
  have h1 : (w == Who.seq && (plan s.cur.team (s.cur.team.res o)).drains s.cur.team) = false := by
    cases w <;> simp_all
  have h2 : (o.t == 1 && s.cur.team.bypassConflict (plan s.cur.team (s.cur.team.res o)).lat) = false := by
    by_cases ht : o.t = 1 <;> simp_all
  unfold issue
  simp only [hf, hp, hc, h1, h2]
  rfl

theorem issue_done {i : Instr} {n : Nat} {o : LF} {sh : Shape} {plan : Team → Res → Plan} {body : Who → Res → State → Eff}
    {s s' : State} {w : Who} (h : s.issues w o sh (plan s.cur.team (s.cur.team.res o)))
    (hb : body w (s.cur.team.res o) s = .done s') : issue i n o sh plan body s = .next (s'.completed n) := by
  rw [issue_ok h, hb, Eff.finish_done]

/-- Everything the issue of an instruction of classes 0 to 14 can do. -/
theorem issue_cases (i : Instr) (n : Nat) (o : LF) (sh : Shape) (plan : Team → Res → Plan) (body : Who → Res → State → Eff)
    (s : State) :
    (∃ t, issue i n o sh plan body s = .next (s.trapped t)) ∨
    issue i n o sh plan body s = .next s.drainOwed.drainCycle ∨
    ∃ w, s.focus = .member w ∧ issue i n o sh plan body s = (body w (s.cur.team.res o) s).finish n := by
  unfold issue
  split
  · exact .inl ⟨_, rfl⟩
  · rename_i w hf
    dsimp only
    split
    · exact .inl ⟨_, rfl⟩
    · split
      · exact .inl ⟨_, rfl⟩
      · split
        · exact .inr (.inl rfl)
        · split
          · exact .inl ⟨_, rfl⟩
          · exact .inr (.inr ⟨w, hf, rfl⟩)

/-- On a hart every such instruction is illegal (18 R304). -/
theorem issue_on_hart {i : Instr} {n : Nat} {o : LF} {sh : Shape} {plan : Team → Res → Plan} {body : Who → Res → State → Eff}
    {s : State} {h : Fin 16} (hf : s.focus = .hart h) : issue i n o sh plan body s = .next (s.trapped (illegalOnHart i)) := by
  unfold issue
  simp only [hf]
  rfl

/-! ### Class 15 -/

/-- A class 15 instruction that runs ends as its own effect says. -/
theorem issueSys_ok {i : Instr} {o : LF} {sh : Shape} {body : Fin 16 → State → Eff} {s : State} {h : Fin 16}
    (hi : s.issuesSys h o sh) : issueSys i o sh body s = (body h s).finish 8 := by
  obtain ⟨hf, hm, hs, hw⟩ := hi
  unfold issueSys
  simp only [hf, hs, hw]
  rw [if_neg (by simpa using hm)]

/-- In a team it raises PRIVILEGE (23 R382). -/
theorem issueSys_in_team {i : Instr} {o : LF} {sh : Shape} {body : Fin 16 → State → Eff} {s : State} {w : Who}
    (hf : s.focus = .member w) : issueSys i o sh body s = .next (s.trapped (trapOf .privilege)) := by
  unfold issueSys
  simp only [hf]
  rfl

/-- Everything the issue of a class 15 instruction can do. -/
theorem issueSys_cases (i : Instr) (o : LF) (sh : Shape) (body : Fin 16 → State → Eff) (s : State) :
    (∃ t, issueSys i o sh body s = .next (s.trapped t)) ∨
    (∃ h code, s.focus = .hart h ∧
      issueSys i o sh body s =
        .next ((((s.setHart h { s.hart h with wait := none }).setX (fieldReg o.d) (BitVec.ofNat 64 code))).completed 8)) ∨
    ∃ h, s.focus = .hart h ∧ issueSys i o sh body s = (body h s).finish 8 := by
  unfold issueSys
  split
  · exact .inl ⟨_, rfl⟩
  · rename_i h hf
    split
    · exact .inl ⟨_, rfl⟩
    · split
      · exact .inr (.inl ⟨h, _, hf, rfl⟩)
      · exact .inr (.inr ⟨h, hf, rfl⟩)

/-! ### Time -/

@[simp] theorem State.elapse_focus (s : State) : s.elapse.focus = s.focus := rfl
@[simp] theorem State.elapse_agenda (s : State) : s.elapse.agenda = s.agenda := rfl
@[simp] theorem State.elapse_cur (s : State) : s.elapse.cur = s.cur.elapse (Config.freeElapsed s.freeCount) := rfl
@[simp] theorem State.elapse_team (s : State) : s.elapse.cur.team = s.cur.team := rfl
@[simp] theorem State.elapse_mem (s : State) : s.elapse.mem = s.mem := rfl
@[simp] theorem State.elapse_clus (s : State) : s.elapse.clus = s.clus := rfl
@[simp] theorem State.elapse_blocks (s : State) : s.elapse.blocks = s.blocks := rfl
@[simp] theorem State.elapse_damage (s : State) : s.elapse.damage = s.damage := rfl
@[simp] theorem State.elapse_keySlots (s : State) : s.elapse.keySlots = s.keySlots := rfl
@[simp] theorem State.elapse_member (s : State) (w : Who) : s.elapse.member w = s.member w := rfl
@[simp] theorem State.elapse_memberRuns (s : State) (w : Who) : s.elapse.memberRuns w = s.memberRuns w := rfl

@[simp] theorem Hart.elapse_x (v : Hart) (n : Word) : (v.elapse n).x = v.x := rfl
@[simp] theorem Hart.elapse_pc (v : Hart) (n : Word) : (v.elapse n).pc = v.pc := rfl
@[simp] theorem Hart.elapse_mode (v : Hart) (n : Word) : (v.elapse n).mode = v.mode := rfl
@[simp] theorem Hart.elapse_mstatus (v : Hart) (n : Word) : (v.elapse n).mstatus = v.mstatus := rfl
@[simp] theorem Hart.elapse_mie (v : Hart) (n : Word) : (v.elapse n).mie = v.mie := rfl
@[simp] theorem Hart.elapse_mip (v : Hart) (n : Word) : (v.elapse n).mip = v.mip := rfl
@[simp] theorem Hart.elapse_medeleg (v : Hart) (n : Word) : (v.elapse n).medeleg = v.medeleg := rfl
@[simp] theorem Hart.elapse_mideleg (v : Hart) (n : Word) : (v.elapse n).mideleg = v.mideleg := rfl
@[simp] theorem Hart.elapse_mtvec (v : Hart) (n : Word) : (v.elapse n).mtvec = v.mtvec := rfl
@[simp] theorem Hart.elapse_mscratch (v : Hart) (n : Word) : (v.elapse n).mscratch = v.mscratch := rfl
@[simp] theorem Hart.elapse_mepc (v : Hart) (n : Word) : (v.elapse n).mepc = v.mepc := rfl
@[simp] theorem Hart.elapse_mcause (v : Hart) (n : Word) : (v.elapse n).mcause = v.mcause := rfl
@[simp] theorem Hart.elapse_mtval (v : Hart) (n : Word) : (v.elapse n).mtval = v.mtval := rfl
@[simp] theorem Hart.elapse_stvec (v : Hart) (n : Word) : (v.elapse n).stvec = v.stvec := rfl
@[simp] theorem Hart.elapse_sscratch (v : Hart) (n : Word) : (v.elapse n).sscratch = v.sscratch := rfl
@[simp] theorem Hart.elapse_sepc (v : Hart) (n : Word) : (v.elapse n).sepc = v.sepc := rfl
@[simp] theorem Hart.elapse_scause (v : Hart) (n : Word) : (v.elapse n).scause = v.scause := rfl
@[simp] theorem Hart.elapse_stval (v : Hart) (n : Word) : (v.elapse n).stval = v.stval := rfl
@[simp] theorem Hart.elapse_satp (v : Hart) (n : Word) : (v.elapse n).satp = v.satp := rfl
@[simp] theorem Hart.elapse_minstret (v : Hart) (n : Word) : (v.elapse n).minstret = v.minstret := rfl
@[simp] theorem Hart.elapse_mcounteren (v : Hart) (n : Word) : (v.elapse n).mcounteren = v.mcounteren := rfl
@[simp] theorem Hart.elapse_scounteren (v : Hart) (n : Word) : (v.elapse n).scounteren = v.scounteren := rfl
@[simp] theorem Hart.elapse_mcountinhibit (v : Hart) (n : Word) : (v.elapse n).mcountinhibit = v.mcountinhibit := rfl
@[simp] theorem Hart.elapse_menvcfg (v : Hart) (n : Word) : (v.elapse n).menvcfg = v.menvcfg := rfl
@[simp] theorem Hart.elapse_senvcfg (v : Hart) (n : Word) : (v.elapse n).senvcfg = v.senvcfg := rfl
@[simp] theorem Hart.elapse_partid (v : Hart) (n : Word) : (v.elapse n).partid = v.partid := rfl
@[simp] theorem Hart.elapse_resv (v : Hart) (n : Word) : (v.elapse n).resv = v.resv := rfl
@[simp] theorem Hart.elapse_wait (v : Hart) (n : Word) : (v.elapse n).wait = v.wait := rfl
@[simp] theorem Hart.elapse_wdog (v : Hart) (n : Word) : (v.elapse n).wdog = v.wdog := rfl

/-- A hart after some time: only its cycle counter may have moved. -/
@[simp] theorem State.elapse_hart (s : State) (h : Fin 16) : s.elapse.hart h = (s.hart h).elapse (Config.freeCycles h.val s.freeCount) := by
  show (Vector.ofFn _)[h.val]'h.isLt = _
  rw [Vector.getElem_ofFn]

/-- Passing time leaves a memory die's part in the memory as it is. -/
theorem State.elapse_mdie (s : State) (n : Nat) : (s.elapse.mdie n).present = (s.mdie n).present ∧
    (s.elapse.mdie n).inReset = (s.mdie n).inReset ∧ (s.elapse.mdie n).orphan = (s.mdie n).orphan := by
  simp only [State.mdie, State.elapse, Vector.toList_map, List.getD_eq_getElem?_getD, List.getElem?_map]
  cases s.mdies.toList[n]? with
  | none => exact ⟨rfl, rfl, rfl⟩
  | some d => exact ⟨rfl, rfl, rfl⟩

/-- Passing time leaves the homes of addresses as they are. -/
@[simp] theorem State.elapse_homeOf (s : State) (pa : Nat) : s.elapse.homeOf pa = s.homeOf pa := by
  obtain ⟨h1, h2, h3⟩ := s.elapse_mdie (stackOf pa)
  have hk : s.elapse.hub.pkgid = s.hub.pkgid ∧ s.elapse.hub.domain = s.hub.domain ∧ s.elapse.hub.peers = s.hub.peers := ⟨rfl, rfl, rfl⟩
  simp only [State.homeOf, h1, h2, h3, hk.1, hk.2.1, hk.2.2]

/-- Passing time leaves what a line reads as alone. -/
@[simp] theorem State.elapse_readError (s : State) (cid slot pa : Nat) : s.elapse.readError cid slot pa = s.readError cid slot pa := by
  have hd : s.elapse.damageAt pa = s.damageAt pa := rfl
  have hk : ∀ b, s.elapse.keyGood b cid slot pa = s.keyGood b cid slot pa := fun _ => rfl
  have hb : s.elapse.block pa = s.block pa := rfl
  simp only [State.readError, State.elapse_homeOf, hd, hk, hb]

/-- Passing time leaves what firmware and the harts read alone. -/
@[simp] theorem State.elapse_wordAt (s : State) (a : Nat) : s.elapse.wordAt a = s.wordAt a := by
  simp only [State.wordAt, State.fwNat, State.fwRead, State.elapse_readError, State.elapse_mem]

end Sys2Proof.Machine
end

