-- ==== Sys2Proof/Laws/Issue.lean ====
section
/-! SUPPORT. Every Xosin long form is issued by the shared issue of its class with its own fields and shape: one lemma per form,
and the one that says it of all. -/

namespace Sys2Proof.Machine

section
set_option Elab.async false

/-- A long form is issued by the shared issue of classes 0 to 14, or by that of class 15. -/
def Issued (i : Instr) : Prop :=
  ∀ o sh, i.shape = some (o, sh) →
    (sh.cls ≠ 15 ∧ ∃ plan body, ∀ s, exec i s = issue i 8 o sh plan body s) ∨
    (sh.cls = 15 ∧ ∃ body, ∀ s, exec i s = issueSys i o sh body s)

theorem issued_of_long {i : Instr} {o : LF} {sh : Shape} {plan : Team → Res → Plan} {body : Who → Res → State → Eff}
    (hs : i.shape = some (o, sh)) (hc : sh.cls ≠ 15) (he : ∀ s, exec i s = issue i 8 o sh plan body s) : Issued i := by
  intro o' sh' h
  obtain ⟨rfl, rfl⟩ : o = o' ∧ sh = sh' := by simpa [hs] using h
  exact .inl ⟨hc, plan, body, he⟩

theorem issued_of_sys {i : Instr} {o : LF} {sh : Shape} {body : Fin 16 → State → Eff}
    (hs : i.shape = some (o, sh)) (hc : sh.cls = 15) (he : ∀ s, exec i s = issueSys i o sh body s) : Issued i := by
  intro o' sh' h
  obtain ⟨rfl, rfl⟩ : o = o' ∧ sh = sh' := by simpa [hs] using h
  exact .inr ⟨hc, body, he⟩

/-- An instruction with no long form. -/
theorem issued_of_none {i : Instr} (hs : i.shape = none) : Issued i := fun o sh h => by simp [hs] at h

theorem issued_vadd (o : LF) : Issued (.vadd o) := issued_of_long rfl (by simp [shapeVadd]) fun _ => by rw [exec, execVadd]
theorem issued_vsub (o : LF) : Issued (.vsub o) := issued_of_long rfl (by simp [shapeVsub]) fun _ => by rw [exec, execVsub]
theorem issued_vmul (o : LF) : Issued (.vmul o) := issued_of_long rfl (by simp [shapeVmul]) fun _ => by rw [exec, execVmul]
theorem issued_vfma (o : LF) : Issued (.vfma o) := issued_of_long rfl (by simp [shapeVfma]) fun _ => by rw [exec, execVfma]
theorem issued_vmin (o : LF) : Issued (.vmin o) := issued_of_long rfl (by simp [shapeVmin]) fun _ => by rw [exec, execVmin]
theorem issued_vmax (o : LF) : Issued (.vmax o) := issued_of_long rfl (by simp [shapeVmax]) fun _ => by rw [exec, execVmax]
theorem issued_vsgn (o : LF) : Issued (.vsgn o) := issued_of_long rfl (by simp [shapeVsgn]) fun _ => by rw [exec, execVsgn]
theorem issued_vcmp (o : LF) : Issued (.vcmp o) := issued_of_long rfl (by simp [shapeVcmp]) fun _ => by rw [exec, execVcmp]
theorem issued_vclass (o : LF) : Issued (.vclass o) := issued_of_long rfl (by simp [shapeVclass]) fun _ => by rw [exec, execVclass]
theorem issued_viadd (o : LF) : Issued (.viadd o) := issued_of_long rfl (by simp [shapeViadd]) fun _ => by rw [exec, execViadd]
theorem issued_visub (o : LF) : Issued (.visub o) := issued_of_long rfl (by simp [shapeVisub]) fun _ => by rw [exec, execVisub]
theorem issued_vimul (o : LF) : Issued (.vimul o) := issued_of_long rfl (by simp [shapeVimul]) fun _ => by rw [exec, execVimul]
theorem issued_vimulh (o : LF) : Issued (.vimulh o) := issued_of_long rfl (by simp [shapeVimulh]) fun _ => by rw [exec, execVimulh]
theorem issued_vimad (o : LF) : Issued (.vimad o) := issued_of_long rfl (by simp [shapeVimad]) fun _ => by rw [exec, execVimad]
theorem issued_vand (o : LF) : Issued (.vand o) := issued_of_long rfl (by simp [shapeVand]) fun _ => by rw [exec, execVand]
theorem issued_vor (o : LF) : Issued (.vor o) := issued_of_long rfl (by simp [shapeVor]) fun _ => by rw [exec, execVor]
theorem issued_vxor (o : LF) : Issued (.vxor o) := issued_of_long rfl (by simp [shapeVxor]) fun _ => by rw [exec, execVxor]
theorem issued_vshl (o : LF) : Issued (.vshl o) := issued_of_long rfl (by simp [shapeVshl]) fun _ => by rw [exec, execVshl]
theorem issued_vshr (o : LF) : Issued (.vshr o) := issued_of_long rfl (by simp [shapeVshr]) fun _ => by rw [exec, execVshr]
theorem issued_viminmax (o : LF) : Issued (.viminmax o) := issued_of_long rfl (by simp [shapeViminmax]) fun _ => by rw [exec, execViminmax]
theorem issued_vsel (o : LF) : Issued (.vsel o) := issued_of_long rfl (by simp [shapeVsel]) fun _ => by rw [exec, execVsel]
theorem issued_vcvt (o : LF) : Issued (.vcvt o) := issued_of_long rfl (by simp [shapeVcvt]) fun _ => by rw [exec, execVcvt]
theorem issued_vpack (o : LF) : Issued (.vpack o) := issued_of_long rfl (by simp [shapeVpack]) fun _ => by rw [exec, execVpack]
theorem issued_vunpack (o : LF) : Issued (.vunpack o) := issued_of_long rfl (by simp [shapeVunpack]) fun _ => by rw [exec, execVunpack]
theorem issued_vlnmul (o : LF) : Issued (.vlnmul o) := issued_of_long rfl (by simp [shapeVlnmul]) fun _ => by rw [exec, execVlnmul]
theorem issued_vlnlin (o : LF) : Issued (.vlnlin o) := issued_of_long rfl (by simp [shapeVlnlin]) fun _ => by rw [exec, execVlnlin]
theorem issued_vexp2 (o : LF) : Issued (.vexp2 o) := issued_of_long rfl (by simp [shapeVexp2]) fun _ => by rw [exec, execVexp2]
theorem issued_vlog2 (o : LF) : Issued (.vlog2 o) := issued_of_long rfl (by simp [shapeVlog2]) fun _ => by rw [exec, execVlog2]
theorem issued_vrcp (o : LF) : Issued (.vrcp o) := issued_of_long rfl (by simp [shapeVrcp]) fun _ => by rw [exec, execVrcp]
theorem issued_vrsqrt (o : LF) : Issued (.vrsqrt o) := issued_of_long rfl (by simp [shapeVrsqrt]) fun _ => by rw [exec, execVrsqrt]
theorem issued_vsum (o : LF) : Issued (.vsum o) := issued_of_long rfl (by simp [shapeVsum]) fun _ => by rw [exec, execVsum]
theorem issued_vrmax (o : LF) : Issued (.vrmax o) := issued_of_long rfl (by simp [shapeVrmax]) fun _ => by rw [exec, execVrmax]
theorem issued_vperm (o : LF) : Issued (.vperm o) := issued_of_long rfl (by simp [shapeVperm]) fun _ => by rw [exec, execVperm]
theorem issued_vbcast (o : LF) : Issued (.vbcast o) := issued_of_long rfl (by simp [shapeVbcast]) fun _ => by rw [exec, execVbcast]
theorem issued_vslide (o : LF) : Issued (.vslide o) := issued_of_long rfl (by simp [shapeVslide]) fun _ => by rw [exec, execVslide]
theorem issued_vmov (o : LF) : Issued (.vmov o) := issued_of_long rfl (by simp [shapeVmov]) fun _ => by rw [exec, execVmov]
theorem issued_vmvx (o : LF) : Issued (.vmvx o) := issued_of_long rfl (by simp [shapeVmvx]) fun _ => by rw [exec, execVmvx]
theorem issued_vins (o : LF) : Issued (.vins o) := issued_of_long rfl (by simp [shapeVins]) fun _ => by rw [exec, execVins]
theorem issued_vld (o : LF) : Issued (.vld o) := issued_of_long rfl (by simp [shapeVld]) fun _ => by rw [exec, execVld]
theorem issued_vst (o : LF) : Issued (.vst o) := issued_of_long rfl (by simp [shapeVst]) fun _ => by rw [exec, execVst]
theorem issued_vgath (o : LF) : Issued (.vgath o) := issued_of_long rfl (by simp [shapeVgath]) fun _ => by rw [exec, execVgath]
theorem issued_vscat (o : LF) : Issued (.vscat o) := issued_of_long rfl (by simp [shapeVscat]) fun _ => by rw [exec, execVscat]
theorem issued_mpush (o : LF) : Issued (.mpush o) := issued_of_long rfl (by simp [shapeMpush]) fun _ => by rw [exec, execMpush, runMpush]
theorem issued_minv (o : LF) : Issued (.minv o) := issued_of_long rfl (by simp [shapeMinv]) fun _ => by rw [exec, execMinv, runMinv]
theorem issued_mpop (o : LF) : Issued (.mpop o) := issued_of_long rfl (by simp [shapeMpop]) fun _ => by rw [exec, execMpop, runMpop]
theorem issued_mget (o : LF) : Issued (.mget o) := issued_of_long rfl (by simp [shapeMget]) fun _ => by rw [exec, execMget, runMget]
theorem issued_bmz (o : LF) : Issued (.bmz o) := issued_of_long rfl (by simp [shapeBmz]) fun _ => by rw [exec, execBmz]
theorem issued_wenter (o : LF) : Issued (.wenter o) := issued_of_long rfl (by simp [shapeWenter]) fun _ => by rw [exec, execWenter, runWenter]
theorem issued_wleave (o : LF) : Issued (.wleave o) := issued_of_long rfl (by simp [shapeWleave]) fun _ => by rw [exec, execWleave, runWleave]
theorem issued_mma (o : LF) : Issued (.mma o) := issued_of_long rfl (by simp [shapeMma]) fun _ => by rw [exec, execMma]
theorem issued_mmac (o : LF) : Issued (.mmac o) := issued_of_long rfl (by simp [shapeMmac]) fun _ => by rw [exec, execMmac]
theorem issued_mlutb (o : LF) : Issued (.mlutb o) := issued_of_long rfl (by simp [shapeMlutb]) fun _ => by rw [exec, execMlutb]
theorem issued_mlut (o : LF) : Issued (.mlut o) := issued_of_long rfl (by simp [shapeMlut]) fun _ => by rw [exec, execMlut]
theorem issued_azero (o : LF) : Issued (.azero o) := issued_of_long rfl (by simp [shapeAzero]) fun _ => by rw [exec, execAzero]
theorem issued_ald (o : LF) : Issued (.ald o) := issued_of_long rfl (by simp [shapeAld]) fun _ => by rw [exec, execAld]
theorem issued_ast (o : LF) : Issued (.ast o) := issued_of_long rfl (by simp [shapeAst]) fun _ => by rw [exec, execAst]
theorem issued_ardv (o : LF) : Issued (.ardv o) := issued_of_long rfl (by simp [shapeArdv]) fun _ => by rw [exec, execArdv]
theorem issued_awrv (o : LF) : Issued (.awrv o) := issued_of_long rfl (by simp [shapeAwrv]) fun _ => by rw [exec, execAwrv]
theorem issued_hset (o : LF) : Issued (.hset o) := issued_of_long rfl (by simp [shapeHset]) fun _ => by rw [exec, execHset]
theorem issued_hget (o : LF) : Issued (.hget o) := issued_of_long rfl (by simp [shapeHget]) fun _ => by rw [exec, execHget]
theorem issued_hld (o : LF) : Issued (.hld o) := issued_of_long rfl (by simp [shapeHld]) fun _ => by rw [exec, execHld]
theorem issued_hst (o : LF) : Issued (.hst o) := issued_of_long rfl (by simp [shapeHst]) fun _ => by rw [exec, execHst]
theorem issued_hadv (o : LF) : Issued (.hadv o) := issued_of_long rfl (by simp [shapeHadv]) fun _ => by rw [exec, execHadv, runHadv]
theorem issued_loop (o : LF) : Issued (.loop o) := issued_of_long rfl (by simp [shapeLoop]) fun _ => by rw [exec, execLoop]
theorem issued_lcrd (o : LF) : Issued (.lcrd o) := issued_of_long rfl (by simp [shapeLcrd]) fun _ => by rw [exec, execLcrd, runLcrd]
theorem issued_lbrk (o : LF) : Issued (.lbrk o) := issued_of_long rfl (by simp [shapeLbrk]) fun _ => by rw [exec, execLbrk, runLbrk]
theorem issued_fmtset (o : LF) : Issued (.fmtset o) := issued_of_long rfl (by simp [shapeFmtset]) fun _ => by rw [exec, execFmtset]
theorem issued_fmtsel (o : LF) : Issued (.fmtsel o) := issued_of_long rfl (by simp [shapeFmtsel]) fun _ => by rw [exec, execFmtsel, runFmtsel]
theorem issued_fmtget (o : LF) : Issued (.fmtget o) := issued_of_long rfl (by simp [shapeFmtget]) fun _ => by rw [exec, execFmtget, runFmtget]
theorem issued_cpld (o : LF) : Issued (.cpld o) := issued_of_long rfl (by simp [shapeCpld]) fun _ => by rw [exec, execCpld]
theorem issued_cpst (o : LF) : Issued (.cpst o) := issued_of_long rfl (by simp [shapeCpst]) fun _ => by rw [exec, execCpst]
theorem issued_cpgat (o : LF) : Issued (.cpgat o) := issued_of_long rfl (by simp [shapeCpgat]) fun _ => by rw [exec, execCpgat]
theorem issued_cpsca (o : LF) : Issued (.cpsca o) := issued_of_long rfl (by simp [shapeCpsca]) fun _ => by rw [exec, execCpsca]
theorem issued_cploc (o : LF) : Issued (.cploc o) := issued_of_long rfl (by simp [shapeCploc]) fun _ => by rw [exec, execCploc]
theorem issued_cprem (o : LF) : Issued (.cprem o) := issued_of_long rfl (by simp [shapeCprem]) fun _ => by rw [exec, execCprem]
theorem issued_coll (o : LF) : Issued (.coll o) := issued_of_long rfl (by simp [shapeColl]) fun _ => by rw [exec, execColl]
theorem issued_bld (o : LF) : Issued (.bld o) := issued_of_long rfl (by simp [shapeBld]) fun _ => by rw [exec, execBld]
theorem issued_bst (o : LF) : Issued (.bst o) := issued_of_long rfl (by simp [shapeBst]) fun _ => by rw [exec, execBst]
theorem issued_bamo (o : LF) : Issued (.bamo o) := issued_of_long rfl (by simp [shapeBamo]) fun _ => by rw [exec, execBamo]
theorem issued_bcas (o : LF) : Issued (.bcas o) := issued_of_long rfl (by simp [shapeBcas]) fun _ => by rw [exec, execBcas]
theorem issued_acq (o : LF) : Issued (.acq o) := issued_of_long rfl (by simp [shapeAcq]) fun _ => by rw [exec, execAcq, runAcq]
theorem issued_rel (o : LF) : Issued (.rel o) := issued_of_long rfl (by simp [shapeRel]) fun _ => by rw [exec, execRel, runRel]
theorem issued_frange (o : LF) : Issued (.frange o) := issued_of_long rfl (by simp [shapeFrange]) fun _ => by rw [exec, execFrange]
theorem issued_pmrd (o : LF) : Issued (.pmrd o) := issued_of_long rfl (by simp [shapePmrd]) fun _ => by rw [exec, execPmrd, runPmrd]
theorem issued_pmwait (o : LF) : Issued (.pmwait o) := issued_of_long rfl (by simp [shapePmwait]) fun _ => by rw [exec, execPmwait, runPmwait]
theorem issued_wait (o : LF) : Issued (.wait o) := issued_of_long rfl (by simp [shapeWait]) fun _ => by rw [exec, execWait]
theorem issued_phcfg (o : LF) : Issued (.phcfg o) := issued_of_long rfl (by simp [shapePhcfg]) fun _ => by rw [exec, execPhcfg]
theorem issued_phtake (o : LF) : Issued (.phtake o) := issued_of_long rfl (by simp [shapePhtake]) fun _ => by rw [exec, execPhtake, runPhtake]
theorem issued_phgive (o : LF) : Issued (.phgive o) := issued_of_long rfl (by simp [shapePhgive]) fun _ => by rw [exec, execPhgive, runPhgive]
theorem issued_phres (o : LF) : Issued (.phres o) := issued_of_long rfl (by simp [shapePhres]) fun _ => by rw [exec, execPhres, runPhres]
theorem issued_phpost (o : LF) : Issued (.phpost o) := issued_of_long rfl (by simp [shapePhpost]) fun _ => by rw [exec, execPhpost, runPhpost]
theorem issued_phstat (o : LF) : Issued (.phstat o) := issued_of_long rfl (by simp [shapePhstat]) fun _ => by rw [exec, execPhstat, runPhstat]
theorem issued_tqput (o : LF) : Issued (.tqput o) := issued_of_long rfl (by simp [shapeTqput]) fun _ => by rw [exec, execTqput, runTqput]
theorem issued_tqget (o : LF) : Issued (.tqget o) := issued_of_long rfl (by simp [shapeTqget]) fun _ => by rw [exec, execTqget, runTqget]
theorem issued_nbq (o : LF) : Issued (.nbq o) := issued_of_long rfl (by simp [shapeNbq]) fun _ => by rw [exec, execNbq]
theorem issued_nbcan (o : LF) : Issued (.nbcan o) := issued_of_long rfl (by simp [shapeNbcan]) fun _ => by rw [exec, execNbcan, runNbcan]
theorem issued_tenq (o : LF) : Issued (.tenq o) := issued_of_long rfl (by simp [shapeTenq]) fun _ => by rw [exec, execTenq, runTenq]
theorem issued_tend (o : LF) : Issued (.tend o) := issued_of_long rfl (by simp [shapeTend]) fun _ => by rw [exec, execTend, runTend]
theorem issued_tyield (o : LF) : Issued (.tyield o) := issued_of_long rfl (by simp [shapeTyield]) fun _ => by rw [exec, execTyield, runTyield]
theorem issued_lnch (o : LF) : Issued (.lnch o) := issued_of_long rfl (by simp [shapeLnch]) fun _ => by rw [exec, execLnch]
theorem issued_twait (o : LF) : Issued (.twait o) := issued_of_long rfl (by simp [shapeTwait]) fun _ => by rw [exec, execTwait]
theorem issued_specq (o : LF) : Issued (.specq o) := issued_of_long rfl (by simp [shapeSpecq]) fun _ => by rw [exec, execSpecq, runSpecq]
theorem issued_vdist (o : LF) : Issued (.vdist o) := issued_of_long rfl (by simp [shapeVdist]) fun _ => by rw [exec, execVdist, runVdist]
theorem issued_tabort (o : LF) : Issued (.tabort o) := issued_of_long rfl (by simp [shapeTabort]) fun _ => by rw [exec, execTabort, runTabort]
theorem issued_krot (o : LF) : Issued (.krot o) := issued_of_long rfl (by simp [shapeKrot]) fun _ => by rw [exec, execKrot]
theorem issued_kstat (o : LF) : Issued (.kstat o) := issued_of_long rfl (by simp [shapeKstat]) fun _ => by rw [exec, execKstat, runKstat]
theorem issued_sealImage (o : LF) : Issued (.sealImage o) := issued_of_long rfl (by simp [shapeSealImage]) fun _ => by rw [exec, execSealImage]
theorem issued_unsealImage (o : LF) : Issued (.unsealImage o) := issued_of_long rfl (by simp [shapeUnsealImage]) fun _ => by rw [exec, execUnsealImage]
theorem issued_scrub (o : LF) : Issued (.scrub o) := issued_of_long rfl (by simp [shapeScrub]) fun _ => by rw [exec, execScrub, runScrub]
theorem issued_mdead (o : LF) : Issued (.mdead o) := issued_of_long rfl (by simp [shapeMdead]) fun _ => by rw [exec, execMdead]
theorem issued_ctxsv (o : LF) : Issued (.ctxsv o) := issued_of_sys rfl rfl fun _ => by rw [exec, execCtxsv]
theorem issued_ctxsvHalt (o : LF) : Issued (.ctxsvHalt o) := issued_of_sys rfl rfl fun _ => by rw [exec, execCtxsvHalt]
theorem issued_ctxrs (o : LF) : Issued (.ctxrs o) := issued_of_sys rfl rfl fun _ => by rw [exec, execCtxrs]
theorem issued_ckpt (o : LF) : Issued (.ckpt o) := issued_of_sys rfl rfl fun _ => by rw [exec, execCkpt]
theorem issued_ckrb (o : LF) : Issued (.ckrb o) := issued_of_sys rfl rfl fun _ => by rw [exec, execCkrb]
theorem issued_tlbir (o : LF) : Issued (.tlbir o) := issued_of_sys rfl rfl fun _ => by rw [exec, execTlbir]
theorem issued_ksload (o : LF) : Issued (.ksload o) := issued_of_sys rfl rfl fun _ => by rw [exec, execKsload]
theorem issued_ksloadNew (o : LF) : Issued (.ksloadNew o) := issued_of_sys rfl rfl fun _ => by rw [exec, execKsloadNew]
theorem issued_ksclr (o : LF) : Issued (.ksclr o) := issued_of_sys rfl rfl fun _ => by rw [exec, execKsclr]
theorem issued_ksclrAll (o : LF) : Issued (.ksclrAll o) := issued_of_sys rfl rfl fun _ => by rw [exec, execKsclrAll]
theorem issued_slmap (o : LF) : Issued (.slmap o) := issued_of_sys rfl rfl fun _ => by rw [exec, execSlmap]
theorem issued_slend (o : LF) : Issued (.slend o) := issued_of_sys rfl rfl fun _ => by rw [exec, execSlend]
theorem issued_slrcl (o : LF) : Issued (.slrcl o) := issued_of_sys rfl rfl fun _ => by rw [exec, execSlrcl]
theorem issued_qlink (o : LF) : Issued (.qlink o) := issued_of_sys rfl rfl fun _ => by rw [exec, execQlink]
theorem issued_tset (o : LF) : Issued (.tset o) := issued_of_sys rfl rfl fun _ => by rw [exec, execTset]
theorem issued_tadj (o : LF) : Issued (.tadj o) := issued_of_sys rfl rfl fun _ => by rw [exec, execTadj]
theorem issued_errpost (o : LF) : Issued (.errpost o) := issued_of_sys rfl rfl fun _ => by rw [exec, execErrpost]
theorem issued_stmp (o : LF) : Issued (.stmp o) := issued_of_sys rfl rfl fun _ => by rw [exec, execStmp]
theorem issued_tresmResume (o : LF) : Issued (.tresmResume o) := issued_of_sys rfl rfl fun _ => by rw [exec, execTresmResume]
theorem issued_tresmRestart (o : LF) : Issued (.tresmRestart o) := issued_of_sys rfl rfl fun _ => by rw [exec, execTresmRestart]
theorem issued_tresmStep (o : LF) : Issued (.tresmStep o) := issued_of_sys rfl rfl fun _ => by rw [exec, execTresmStep]
theorem issued_tresmAbandon (o : LF) : Issued (.tresmAbandon o) := issued_of_sys rfl rfl fun _ => by rw [exec, execTresmAbandon]
theorem issued_tresmRel (o : LF) : Issued (.tresmRel o) := issued_of_sys rfl rfl fun _ => by rw [exec, execTresmRel]
theorem issued_tresmSvc (o : LF) : Issued (.tresmSvc o) := issued_of_sys rfl rfl fun _ => by rw [exec, execTresmSvc]
theorem issued_tcanc (o : LF) : Issued (.tcanc o) := issued_of_sys rfl rfl fun _ => by rw [exec, execTcanc]

/-- Every long form is issued by the shared issue of its class. -/
theorem issued_all (i : Instr) : Issued i := by
  cases i
  exacts [issued_of_none rfl,
    issued_of_none rfl,
    issued_of_none rfl,
    issued_of_none rfl,
    issued_of_none rfl,
    issued_of_none rfl,
    issued_of_none rfl,
    issued_of_none rfl,
    issued_of_none rfl,
    issued_of_none rfl,
    issued_of_none rfl,
    issued_of_none rfl,
    issued_of_none rfl,
    issued_of_none rfl,
    issued_of_none rfl,
    issued_of_none rfl,
    issued_of_none rfl,
    issued_of_none rfl,
    issued_of_none rfl,
    issued_of_none rfl,
    issued_of_none rfl,
    issued_of_none rfl,
    issued_of_none rfl,
    issued_of_none rfl,
    issued_of_none rfl,
    issued_of_none rfl,
    issued_of_none rfl,
    issued_of_none rfl,
    issued_of_none rfl,
    issued_of_none rfl,
    issued_of_none rfl,
    issued_of_none rfl,
    issued_of_none rfl,
    issued_of_none rfl,
    issued_of_none rfl,
    issued_of_none rfl,
    issued_of_none rfl,
    issued_of_none rfl,
    issued_of_none rfl,
    issued_of_none rfl,
    issued_of_none rfl,
    issued_of_none rfl,
    issued_of_none rfl,
    issued_of_none rfl,
    issued_of_none rfl,
    issued_of_none rfl,
    issued_of_none rfl,
    issued_of_none rfl,
    issued_of_none rfl,
    issued_of_none rfl,
    issued_of_none rfl,
    issued_of_none rfl,
    issued_of_none rfl,
    issued_of_none rfl,
    issued_of_none rfl,
    issued_of_none rfl,
    issued_of_none rfl,
    issued_of_none rfl,
    issued_of_none rfl,
    issued_of_none rfl,
    issued_of_none rfl,
    issued_of_none rfl,
    issued_of_none rfl,
    issued_of_none rfl,
    issued_of_none rfl,
    issued_of_none rfl,
    issued_of_none rfl,
    issued_of_none rfl,
    issued_of_none rfl,
    issued_vadd _,
    issued_vsub _,
    issued_vmul _,
    issued_vfma _,
    issued_vmin _,
    issued_vmax _,
    issued_vsgn _,
    issued_vcmp _,
    issued_vclass _,
    issued_viadd _,
    issued_visub _,
    issued_vimul _,
    issued_vimulh _,
    issued_vimad _,
    issued_vand _,
    issued_vor _,
    issued_vxor _,
    issued_vshl _,
    issued_vshr _,
    issued_viminmax _,
    issued_vsel _,
    issued_vcvt _,
    issued_vpack _,
    issued_vunpack _,
    issued_vlnmul _,
    issued_vlnlin _,
    issued_vexp2 _,
    issued_vlog2 _,
    issued_vrcp _,
    issued_vrsqrt _,
    issued_vsum _,
    issued_vrmax _,
    issued_vperm _,
    issued_vbcast _,
    issued_vslide _,
    issued_vmov _,
    issued_vmvx _,
    issued_vins _,
    issued_vld _,
    issued_vst _,
    issued_vgath _,
    issued_vscat _,
    issued_mpush _,
    issued_minv _,
    issued_mpop _,
    issued_mget _,
    issued_bmz _,
    issued_wenter _,
    issued_wleave _,
    issued_mma _,
    issued_mmac _,
    issued_mlutb _,
    issued_mlut _,
    issued_azero _,
    issued_ald _,
    issued_ast _,
    issued_ardv _,
    issued_awrv _,
    issued_hset _,
    issued_hget _,
    issued_hld _,
    issued_hst _,
    issued_hadv _,
    issued_loop _,
    issued_lcrd _,
    issued_lbrk _,
    issued_fmtset _,
    issued_fmtsel _,
    issued_fmtget _,
    issued_cpld _,
    issued_cpst _,
    issued_cpgat _,
    issued_cpsca _,
    issued_cploc _,
    issued_cprem _,
    issued_coll _,
    issued_bld _,
    issued_bst _,
    issued_bamo _,
    issued_bcas _,
    issued_acq _,
    issued_rel _,
    issued_frange _,
    issued_pmrd _,
    issued_pmwait _,
    issued_wait _,
    issued_phcfg _,
    issued_phtake _,
    issued_phgive _,
    issued_phres _,
    issued_phpost _,
    issued_phstat _,
    issued_tqput _,
    issued_tqget _,
    issued_nbq _,
    issued_nbcan _,
    issued_tenq _,
    issued_tend _,
    issued_tyield _,
    issued_lnch _,
    issued_twait _,
    issued_specq _,
    issued_vdist _,
    issued_tabort _,
    issued_krot _,
    issued_kstat _,
    issued_sealImage _,
    issued_unsealImage _,
    issued_scrub _,
    issued_mdead _,
    issued_ctxsv _,
    issued_ctxsvHalt _,
    issued_ctxrs _,
    issued_ckpt _,
    issued_ckrb _,
    issued_tlbir _,
    issued_ksload _,
    issued_ksloadNew _,
    issued_ksclr _,
    issued_ksclrAll _,
    issued_slmap _,
    issued_slend _,
    issued_slrcl _,
    issued_qlink _,
    issued_tset _,
    issued_tadj _,
    issued_errpost _,
    issued_stmp _,
    issued_tresmResume _,
    issued_tresmRestart _,
    issued_tresmStep _,
    issued_tresmAbandon _,
    issued_tresmRel _,
    issued_tresmSvc _,
    issued_tcanc _,
    issued_of_none rfl,
    issued_of_none rfl,
    issued_of_none rfl,
    issued_of_none rfl,
    issued_of_none rfl,
    issued_of_none rfl,
    issued_of_none rfl,
    issued_of_none rfl,
    issued_of_none rfl,
    issued_of_none rfl,
    issued_of_none rfl,
    issued_of_none rfl,
    issued_of_none rfl,
    issued_of_none rfl,
    issued_of_none rfl,
    issued_of_none rfl,
    issued_of_none rfl,
    issued_of_none rfl,
    issued_of_none rfl,
    issued_of_none rfl,
    issued_of_none rfl,
    issued_of_none rfl,
    issued_of_none rfl,
    issued_of_none rfl,
    issued_of_none rfl,
    issued_of_none rfl,
    issued_of_none rfl,
    issued_of_none rfl,
    issued_of_none rfl,
    issued_of_none rfl,
    issued_of_none rfl,
    issued_of_none rfl,
    issued_of_none rfl,
    issued_of_none rfl,
    issued_of_none rfl,
    issued_of_none rfl,
    issued_of_none rfl,
    issued_of_none rfl,
    issued_of_none rfl,
    issued_of_none rfl,
    issued_of_none rfl,
    issued_of_none rfl,
    issued_of_none rfl,
    issued_of_none rfl,
    issued_of_none rfl,
    issued_of_none rfl,
    issued_of_none rfl,
    issued_of_none rfl,
    issued_of_none rfl,
    issued_of_none rfl,
    issued_of_none rfl,
    issued_of_none rfl,
    issued_of_none rfl,
    issued_of_none rfl,
    issued_of_none rfl,
    issued_of_none rfl,
    issued_of_none rfl,
    issued_of_none rfl,
    issued_of_none rfl,
    issued_of_none rfl,
    issued_of_none rfl,
    issued_of_none rfl,
    issued_of_none rfl,
    issued_of_none rfl,
    issued_of_none rfl,
    issued_of_none rfl,
    issued_of_none rfl,
    issued_of_none rfl,
    issued_of_none rfl,
    issued_of_none rfl,
    issued_of_none rfl,
    issued_of_none rfl,
    issued_of_none rfl,
    issued_of_none rfl,
    issued_of_none rfl,
    issued_of_none rfl,
    issued_of_none rfl,
    issued_of_none rfl,
    issued_of_none rfl,
    issued_of_none rfl,
    issued_of_none rfl,
    issued_of_none rfl,
    issued_of_none rfl,
    issued_of_none rfl,
    issued_of_none rfl,
    issued_of_none rfl,
    issued_of_none rfl,
    issued_of_none rfl,
    issued_of_none rfl,
    issued_of_none rfl,
    issued_of_none rfl,
    issued_of_none rfl,
    issued_of_none rfl,
    issued_of_none rfl,
    issued_of_none rfl,
    issued_of_none rfl,
    issued_of_none rfl,
    issued_of_none rfl,
    issued_of_none rfl,
    issued_of_none rfl,
    issued_of_none rfl,
    issued_of_none rfl,
    issued_of_none rfl,
    issued_of_none rfl,
    issued_of_none rfl,
    issued_of_none rfl,
    issued_of_none rfl,
    issued_of_none rfl,
    issued_of_none rfl,
    issued_of_none rfl,
    issued_of_none rfl,
    issued_of_none rfl,
    issued_of_none rfl,
    issued_of_none rfl,
    issued_of_none rfl,
    issued_of_none rfl,
    issued_of_none rfl,
    issued_of_none rfl,
    issued_of_none rfl,
    issued_of_none rfl,
    issued_of_none rfl,
    issued_of_none rfl,
    issued_of_none rfl,
    issued_of_none rfl,
    issued_of_none rfl,
    issued_of_none rfl,
    issued_of_none rfl,
    issued_of_none rfl,
    issued_of_none rfl,
    issued_of_none rfl,
    issued_of_none rfl,
    issued_of_none rfl,
    issued_of_none rfl,
    issued_of_none rfl,
    issued_of_none rfl,
    issued_of_none rfl,
    issued_of_none rfl,
    issued_of_none rfl,
    issued_of_none rfl,
    issued_of_none rfl,
    issued_of_none rfl,
    issued_of_none rfl,
    issued_of_none rfl,
    issued_of_none rfl,
    issued_of_none rfl,
    issued_of_none rfl,
    issued_of_none rfl,
    issued_of_none rfl,
    issued_of_none rfl,
    issued_of_none rfl]

end

end Sys2Proof.Machine
end

