-- ==== Sys2Proof/Laws/Sparse.lean ====
section
/-! SUPPORT. What the operations over sparse lists and byte memories do: a read after a write, and the canonical form kept. -/

namespace Sys2Proof.Machine

/-- A read of an empty list. -/
@[simp] theorem Sparse.get_nil {α : Type} (d : α) (k : Nat) : Sparse.get d [] k = d := rfl

variable {α : Type} [DecidableEq α]

/-- A read below every key of a list gives the default. -/
theorem Sparse.get_above {d : α} {k : Nat} {l : List (Nat × α)} (h : Sparse.above d k l = true) : ∀ j ≤ k, Sparse.get d l j = d := by
  induction l generalizing k with
  | nil => intro j _; rfl
  | cons a rest ih =>
    obtain ⟨i, v⟩ := a
    simp only [Sparse.above, Bool.and_eq_true, decide_eq_true_eq] at h
    intro j hj
    rw [Sparse.get, if_neg (by omega), ih h.2 j (by omega)]

/-- A list above a key is above every smaller one. -/
theorem Sparse.above_mono {d : α} {j k : Nat} {l : List (Nat × α)} (h : Sparse.above d k l = true) (hj : j ≤ k) :
    Sparse.above d j l = true := by
  cases l with
  | nil => rfl
  | cons a rest =>
    simp only [Sparse.above, Bool.and_eq_true, decide_eq_true_eq] at h ⊢
    exact ⟨⟨by omega, h.1.2⟩, h.2⟩

/-- A list above a key is canonical. -/
theorem Sparse.wf_of_above {d : α} {k : Nat} {l : List (Nat × α)} (h : Sparse.above d k l = true) : Sparse.wf d l = true := by
  cases l with
  | nil => rfl
  | cons a rest =>
    simp only [Sparse.above, Sparse.wf, Bool.and_eq_true, decide_eq_true_eq] at h ⊢
    exact ⟨h.1.2, h.2⟩

/-- An entry put before a list above its key keeps it above every smaller one. -/
theorem Sparse.above_cons {d : α} {j k : Nat} {v : α} {l : List (Nat × α)} (h : Sparse.above d k l = true) (hj : j < k) :
    Sparse.above d j (Sparse.cons d k v l) = true := by
  unfold Sparse.cons
  split
  · exact Sparse.above_mono h (by omega)
  · simp_all [Sparse.above]

/-- A set above a key keeps the list above it. -/
theorem Sparse.above_set {d : α} {j k : Nat} {v : α} {l : List (Nat × α)} (h : Sparse.above d j l = true) (hj : j < k) :
    Sparse.above d j (Sparse.set d l k v) = true := by
  induction l generalizing j with
  | nil => exact Sparse.above_cons (k := k) rfl hj
  | cons a rest ih =>
    obtain ⟨i, w⟩ := a
    have hr := h
    simp only [Sparse.above, Bool.and_eq_true, decide_eq_true_eq] at hr
    rw [Sparse.set]
    split
    · refine Sparse.above_cons (k := k) ?_ hj
      simp_all [Sparse.above]
    · split
      · rename_i he
        subst he
        exact Sparse.above_cons hr.2 hj
      · simp only [Sparse.above, Bool.and_eq_true, decide_eq_true_eq]
        exact ⟨⟨hr.1.1, hr.1.2⟩, ih hr.2 (by omega)⟩

/-- An entry put before a list above its key is canonical. -/
theorem Sparse.wf_cons {d : α} {k : Nat} {v : α} {l : List (Nat × α)} (h : Sparse.above d k l = true) :
    Sparse.wf d (Sparse.cons d k v l) = true := by
  unfold Sparse.cons
  split
  · exact Sparse.wf_of_above h
  · simp_all [Sparse.wf]

/-- A set keeps the canonical form. -/
theorem Sparse.wf_set {d : α} {l : List (Nat × α)} (h : Sparse.wf d l = true) (k : Nat) (v : α) :
    Sparse.wf d (Sparse.set d l k v) = true := by
  cases l with
  | nil => exact Sparse.wf_cons rfl
  | cons a rest =>
    obtain ⟨i, w⟩ := a
    have hr := h
    simp only [Sparse.wf, Bool.and_eq_true, decide_eq_true_eq] at hr
    rw [Sparse.set]
    split
    · refine Sparse.wf_cons ?_
      simp_all [Sparse.above]
    · split
      · rename_i he
        subst he
        exact Sparse.wf_cons hr.2
      · simp only [Sparse.wf, Bool.and_eq_true, decide_eq_true_eq]
        exact ⟨hr.1, Sparse.above_set hr.2 (by omega)⟩

/-- Several sets keep the canonical form. -/
theorem Sparse.wf_setAll {d : α} {l : List (Nat × α)} (h : Sparse.wf d l = true) (kvs : List (Nat × α)) :
    Sparse.wf d (Sparse.setAll d l kvs) = true := by
  unfold Sparse.setAll
  induction kvs generalizing l with
  | nil => exact h
  | cons kv rest ih => exact ih (Sparse.wf_set h kv.1 kv.2)

/-- A read of an entry put first. -/
theorem Sparse.get_cons_same {d : α} {k : Nat} {v : α} {l : List (Nat × α)} (h : Sparse.above d k l = true) :
    Sparse.get d (Sparse.cons d k v l) k = v := by
  unfold Sparse.cons
  split
  · rename_i hv
    rw [Sparse.get_above h k (Nat.le_refl k), hv]
  · simp [Sparse.get]

/-- A read of another key than the one put first. -/
theorem Sparse.get_cons_other {d : α} {j k : Nat} {v : α} {l : List (Nat × α)} (h : j ≠ k) :
    Sparse.get d (Sparse.cons d k v l) j = Sparse.get d l j := by
  unfold Sparse.cons
  split
  · rfl
  · rw [Sparse.get, if_neg (fun e => h e.symm)]

/-- A read of the key just set gives the value set. -/
theorem Sparse.get_set_same {d : α} {l : List (Nat × α)} (h : Sparse.wf d l = true) (k : Nat) (v : α) :
    Sparse.get d (Sparse.set d l k v) k = v := by
  induction l with
  | nil => exact Sparse.get_cons_same rfl
  | cons a rest ih =>
    obtain ⟨i, w⟩ := a
    simp only [Sparse.wf, Bool.and_eq_true, decide_eq_true_eq] at h
    rw [Sparse.set]
    split
    · refine Sparse.get_cons_same ?_
      simp_all [Sparse.above]
    · split
      · rename_i he
        subst he
        exact Sparse.get_cons_same h.2
      · rw [Sparse.get, if_neg (by omega)]
        exact ih (Sparse.wf_of_above h.2)

/-- A set leaves every other key as it was. -/
theorem Sparse.get_set_other {d : α} {j k : Nat} (h : j ≠ k) (l : List (Nat × α)) (v : α) :
    Sparse.get d (Sparse.set d l k v) j = Sparse.get d l j := by
  induction l with
  | nil => exact Sparse.get_cons_other h
  | cons a rest ih =>
    obtain ⟨i, w⟩ := a
    rw [Sparse.set]
    split
    · exact Sparse.get_cons_other h
    · split
      · rename_i he
        subst he
        rw [Sparse.get_cons_other h, Sparse.get, if_neg (fun e => h e.symm)]
      · simp only [Sparse.get]
        split
        · rfl
        · exact ih

/-- A filtered list above a key stays above it. -/
theorem Sparse.above_filter {d : α} {k : Nat} (p : Nat × α → Bool) {l : List (Nat × α)} (h : Sparse.above d k l = true) :
    Sparse.above d k (l.filter p) = true := by
  induction l generalizing k with
  | nil => rfl
  | cons a rest ih =>
    obtain ⟨i, v⟩ := a
    simp only [Sparse.above, Bool.and_eq_true, decide_eq_true_eq] at h
    rw [List.filter_cons]
    split
    · simp only [Sparse.above, Bool.and_eq_true, decide_eq_true_eq]
      exact ⟨h.1, ih h.2⟩
    · exact ih (Sparse.above_mono h.2 (by omega))

/-- What is left of a list keeps the canonical form. -/
theorem Sparse.wf_filter {d : α} (p : Nat × α → Bool) {l : List (Nat × α)} (h : Sparse.wf d l = true) :
    Sparse.wf d (l.filter p) = true := by
  cases l with
  | nil => rfl
  | cons a rest =>
    obtain ⟨i, v⟩ := a
    simp only [Sparse.wf, Bool.and_eq_true, decide_eq_true_eq] at h
    rw [List.filter_cons]
    split
    · simp only [Sparse.wf, Bool.and_eq_true, decide_eq_true_eq]
      exact ⟨h.1, Sparse.above_filter _ h.2⟩
    · exact Sparse.wf_of_above (Sparse.above_filter _ h.2)

/-- Clearing a range keeps the canonical form. -/
theorem Sparse.wf_clear {d : α} {l : List (Nat × α)} (h : Sparse.wf d l = true) (lo n : Nat) :
    Sparse.wf d (Sparse.clear l lo n) = true := Sparse.wf_filter _ h

/-- Successive bytes written keep the canonical form. -/
theorem putBytes_wf {m : List Host.Cell} (h : Memory.wf m = true) (a : Nat) (bs : List Byte) : Memory.wf (putBytes m a bs) = true := by
  induction bs generalizing m a with
  | nil => exact h
  | cons b rest ih => exact ih (Sparse.wf_set h a b) (a + 1)

/-- Bytes outside the ones written read as before. -/
theorem putBytes_other (m : List Host.Cell) (a : Nat) (bs : List Byte) (k : Nat) (h : k < a ∨ a + bs.length ≤ k) :
    Sparse.get 0 (putBytes m a bs) k = Sparse.get 0 m k := by
  induction bs generalizing m a with
  | nil => rfl
  | cons b rest ih =>
    rw [putBytes, ih]
    · refine Sparse.get_set_other ?_ m b
      simp only [List.length_cons] at h
      omega
    · simp only [List.length_cons] at h
      omega

/-- A byte written reads back. -/
theorem putBytes_same {m : List Host.Cell} (h : Memory.wf m = true) (a : Nat) (bs : List Byte) (i : Nat) (hi : i < bs.length) :
    Sparse.get 0 (putBytes m a bs) (a + i) = bs[i] := by
  induction bs generalizing m a i with
  | nil => exact absurd hi (Nat.not_lt_zero i)
  | cons b rest ih =>
    rw [putBytes]
    cases i with
    | zero =>
      rw [putBytes_other _ _ _ _ (by omega)]
      exact Sparse.get_set_same h a b
    | succ j =>
      have := ih (Sparse.wf_set h a b) (a + 1) j (by simpa using hi)
      rw [show a + (j + 1) = a + 1 + j by omega, this]
      rfl

/-- The bytes written read back as a whole. -/
theorem bytesAt_putBytes {m : List Host.Cell} (h : Memory.wf m = true) (a : Nat) (bs : List Byte) :
    bytesAt (putBytes m a bs) a bs.length = bs := by
  apply List.ext_getElem
  · simp [bytesAt]
  · intro i h1 h2
    simp only [bytesAt, List.getElem_map, List.getElem_range]
    exact putBytes_same h a bs i h2

/-- Successive bytes that a write does not meet read as before. -/
theorem bytesAt_putBytes_other (m : List Host.Cell) (a : Nat) (bs : List Byte) (b n : Nat) (h : b + n ≤ a ∨ a + bs.length ≤ b) :
    bytesAt (putBytes m a bs) b n = bytesAt m b n := by
  apply List.map_congr_left
  intro i hi
  have := List.mem_range.mp hi
  exact putBytes_other m a bs (b + i) (by omega)

/-- The length of a number's bytes. -/
@[simp] theorem leBytes_length (n v : Nat) : (leBytes n v).length = n := by
  induction n generalizing v with
  | zero => rfl
  | succ n ih => simp [leBytes, ih]

/-- The bytes of a number read back as the number, within their width. -/
theorem leNat_leBytes (n v : Nat) : leNat (leBytes n v) = v % 256 ^ n := by
  induction n generalizing v with
  | zero => simp [leBytes, leNat, Nat.mod_one]
  | succ n ih =>
    have h : (256 : Nat) ^ (n + 1) = 256 * 256 ^ n := by rw [Nat.pow_succ, Nat.mul_comm]
    rw [leBytes, leNat, ih, BitVec.toNat_ofNat, h, Nat.mod_mul]

end Sys2Proof.Machine
end

