-- ==== Sys2Proof/Laws/Keeps.lean ====
section
/-! SUPPORT. The operations that write memory, the cluster scratchpads, a core's scratchpad or the vector file keep the canonical form of
all of them; and State.reset has it. -/

namespace Sys2Proof.Machine

theorem reset_memoriesOk : State.reset.memoriesOk = true := by decide +kernel

/-- What the canonical form of the memories says. -/
theorem memoriesOk_iff (s : State) : s.memoriesOk = true ↔
    Memory.wf s.mem = true ∧ Memory.wf s.clus = true ∧ ∀ t ∈ s.allTasks, t.filesOk = true := by
  simp [State.memoriesOk, List.all_eq_true, and_assoc]

/-! ### One part replaced -/

/-- A state whose memories and tasks are those of another keeps their form. -/
theorem memoriesOk_same {s t : State} (h : s.memoriesOk = true) (hm : t.mem = s.mem) (hc : t.clus = s.clus)
    (ht : t.allTasks = s.allTasks) : t.memoriesOk = true := by
  rw [memoriesOk_iff] at h ⊢
  rwa [hm, hc, ht]

theorem memoriesOk_mem {s t : State} (h : s.memoriesOk = true) (hm : Memory.wf t.mem = true) (hc : t.clus = s.clus)
    (ht : t.allTasks = s.allTasks) : t.memoriesOk = true := by
  rw [memoriesOk_iff] at h ⊢
  rw [hc, ht]
  exact ⟨hm, h.2⟩

theorem memoriesOk_clus {s t : State} (h : s.memoriesOk = true) (hm : t.mem = s.mem) (hc : Memory.wf t.clus = true)
    (ht : ∀ v ∈ t.allTasks, v.filesOk = true) : t.memoriesOk = true := by
  rw [memoriesOk_iff] at h ⊢
  rw [hm]
  exact ⟨h.1, hc, ht⟩

/-- The focused task replaced by one whose own memories keep their form. -/
theorem memoriesOk_cur {s : State} (h : s.memoriesOk = true) {v : Task} (hv : s.cur.filesOk = true → v.filesOk = true) :
    ({ s with cur := v } : State).memoriesOk = true := by
  rw [memoriesOk_iff] at h ⊢
  refine ⟨h.1, h.2.1, fun t ht => ?_⟩
  rcases List.mem_cons.mp ht with rfl | ht
  · exact hv (h.2.2 _ (List.mem_cons_self ..))
  · exact h.2.2 t (List.mem_cons_of_mem _ ht)

/-- What the canonical form of a team's own memories says. -/
theorem filesOk_iff (t : Team) : t.filesOk = true ↔ Memory.wf t.scratch = true ∧ t.vectorsOk := by
  simp [Team.filesOk, Team.vectorsOk, and_assoc]

/-- A team whose own memories keep the form of those it replaces in the focused task. -/
theorem memoriesOk_setTeam {s : State} (h : s.memoriesOk = true) {t : Team} (ht : s.cur.team.filesOk = true → t.filesOk = true) :
    (s.setTeam t).memoriesOk = true := by
  refine memoriesOk_cur h fun hc => ?_
  simp only [Task.filesOk, Bool.and_eq_true] at hc ⊢
  exact ⟨ht hc.1, hc.2⟩

/-! ### The vector file (04 R61, R66, R77) -/

theorem vectorsOk_fileSet {t : Team} (h : t.vectorsOk) (p : Nat) (v : V256) : (t.fileSet p v).vectorsOk := ⟨Sparse.wf_set h.1 p v, h.2⟩

theorem vectorsOk_vfileSet {t : Team} (h : t.vectorsOk) (a : Nat) (v : V256) : (t.vfileSet a v).vectorsOk := by
  unfold Team.vfileSet
  split
  · exact ⟨h.1, Sparse.wf_set h.2 a v⟩
  · exact vectorsOk_fileSet h _ v

theorem vectorsOk_landWrite {t : Team} (h : t.vectorsOk) (w : LWrite) : (t.landWrite w).vectorsOk := by
  cases w with
  | v a val mask => exact vectorsOk_vfileSet h a _
  | acc i val => exact h
  | h i val mask => exact h

theorem vectorsOk_landWrites (ws : List LWrite) : ∀ {t : Team}, t.vectorsOk → (ws.foldl Team.landWrite t).vectorsOk := by
  induction ws with
  | nil => exact fun h => h
  | cons w _ ih => exact fun h => ih (vectorsOk_landWrite h w)

/-- A restored team keeps the form: what is lost is only taken out. -/
theorem vectorsOk_restored {t : Team} (h : t.vectorsOk) (n : Nat) : (t.restored n).vectorsOk := ⟨Sparse.wf_filter _ h.1, h.2⟩

/-- In canonical form, a physical register reads what was last written to it. -/
theorem fileGet_fileSet {t : Team} (h : t.vectorsOk) (p : Nat) (v : V256) : (t.fileSet p v).fileGet p = v := by
  have hf : (t.stale.filter fun e => e.1 != p).find? (fun e => e.1 == p) = none := by
    rw [List.find?_eq_none]
    intro e he
    simpa using (List.mem_filter.mp he).2
  unfold Team.fileGet Team.fileSet
  dsimp only
  rw [hf]
  exact Sparse.get_set_same h.1 p v

/-- In canonical form, an absolute register reads what was last written to it. -/
theorem vfileGet_vfileSet {t : Team} (h : t.vectorsOk) (a : Nat) (v : V256) : (t.vfileSet a v).vfileGet a = v := by
  unfold Team.vfileSet
  by_cases ha : a < t.lo
  · rw [if_pos ha]
    unfold Team.vfileGet
    rw [if_pos ha]
    exact Sparse.get_set_same h.2 a v
  · rw [if_neg ha]
    unfold Team.vfileGet
    have hl : (t.fileSet (physReg a) v).lo = t.lo := rfl
    rw [hl, if_neg ha]
    exact fileGet_fileSet h _ v

theorem memoriesOk_setBlock {s : State} (h : s.memoriesOk = true) (pa : Nat) (b : Block) : (s.setBlock pa b).memoriesOk = true :=
  memoriesOk_same h rfl rfl rfl

theorem memoriesOk_bump {s : State} (h : s.memoriesOk = true) (pa : Nat) : (s.bump pa).memoriesOk = true := memoriesOk_same h rfl rfl rfl

theorem memoriesOk_heal {s : State} (h : s.memoriesOk = true) (pa : Nat) : (s.heal pa).memoriesOk = true := memoriesOk_same h rfl rfl rfl

theorem memoriesOk_breakResv {s : State} (h : s.memoriesOk = true) (a n : Nat) : (s.breakResv a n).memoriesOk = true :=
  memoriesOk_same h rfl rfl rfl

theorem memoriesOk_setPart {s : State} (h : s.memoriesOk = true) (p : Nat) (v : Part) : (s.setPart p v).memoriesOk = true := by
  unfold State.setPart
  split
  · exact memoriesOk_same h rfl rfl rfl
  · exact h

/-! ### Physical memory -/

/-- Bytes put at an address. -/
theorem memoriesOk_putBytes {s t : State} (h : s.memoriesOk = true) (a : Nat) (bs : List Byte) (hm : t.mem = putBytes s.mem a bs)
    (hc : t.clus = s.clus) (ht : t.allTasks = s.allTasks) : t.memoriesOk = true :=
  memoriesOk_mem h (hm ▸ putBytes_wf ((memoriesOk_iff s).mp h).1 a bs) hc ht

/-- A range cleared. -/
theorem memoriesOk_clear {s t : State} (h : s.memoriesOk = true) (a n : Nat) (hm : t.mem = Sparse.clear s.mem a n)
    (hc : t.clus = s.clus) (ht : t.allTasks = s.allTasks) : t.memoriesOk = true :=
  memoriesOk_mem h (hm ▸ Sparse.wf_clear ((memoriesOk_iff s).mp h).1 a n) hc ht

theorem putMasked_wf {m : List Host.Cell} (h : Memory.wf m = true) (a : Nat) (data : BitVec 512) (mask : BitVec 64) :
    Memory.wf (putMasked m a data mask) = true := by
  have : ∀ (is : List Nat) (m : List Host.Cell), Memory.wf m = true →
      Memory.wf (is.foldl (fun m i => if mask.getLsbD i then Sparse.set 0 m (a + i) (byteOf data i) else m) m) = true := by
    intro is
    induction is with
    | nil => exact fun _ h => h
    | cons i _ ih =>
      intro m h
      refine ih _ ?_
      dsimp only
      split
      · exact Sparse.wf_set h _ _
      · exact h
  exact this _ m h

theorem memoriesOk_markDead {s : State} (h : s.memoriesOk = true) (pa : Nat) : (s.markDead pa).memoriesOk = true :=
  memoriesOk_clear h _ _ rfl rfl rfl

theorem memoriesOk_killStack {s : State} (h : s.memoriesOk = true) (m : Nat) : (s.killStack m).memoriesOk = true :=
  memoriesOk_clear h _ _ rfl rfl rfl

theorem memoriesOk_healBlock {s : State} (h : s.memoriesOk = true) (pa : Nat) : (s.healBlock pa).memoriesOk = true :=
  memoriesOk_same h rfl rfl rfl

theorem memoriesOk_reencrypt {s : State} (h : s.memoriesOk = true) (cid slot pa : Nat) : (s.reencrypt cid slot pa).1.memoriesOk = true := by
  have : ∀ (as : List Nat) (u : State), u.memoriesOk = true →
      (as.foldl (fun (u : State) a => { u with mem := Sparse.clear u.mem a 64 }) u).memoriesOk = true := by
    intro as
    induction as with
    | nil => exact fun _ h => h
    | cons a _ ih => exact fun u h => ih _ (memoriesOk_clear h a 64 rfl rfl rfl)
  exact memoriesOk_setBlock (memoriesOk_healBlock (this _ s h) pa) pa _

/-- The bytes of a line put in memory. -/
theorem memoriesOk_putLine {s : State} (h : s.memoriesOk = true) (pa : Nat) (data : BitVec 512) (mask : BitVec 64) :
    (s.putLine pa data mask).memoriesOk = true :=
  memoriesOk_mem h (putMasked_wf ((memoriesOk_iff s).mp h).1 _ data mask) rfl rfl

/-- A masked write of a line at its home. -/
theorem memoriesOk_homeWrite {s : State} (h : s.memoriesOk = true) (cid slot : Nat) (nb : Bool) (pa : Nat) (data : BitVec 512) (mask : BitVec 64) :
    (s.homeWrite cid slot nb pa data mask).1.memoriesOk = true := by
  have put {u : State} (hu : u.memoriesOk = true) (b : Block) : ((u.setBlock pa b).putLine pa data mask).memoriesOk = true :=
    memoriesOk_putLine (memoriesOk_setBlock hu pa b) pa data mask
  unfold State.homeWrite
  dsimp only
  split
  · exact h
  · split
    · exact h
    · split
      · split
        · exact h
        · exact put (memoriesOk_healBlock h pa) _
      · split
        · exact h
        · exact h
        · refine put ?_ _
          split
          · exact memoriesOk_reencrypt h cid slot pa
          · dsimp only
            split
            · exact memoriesOk_heal h pa
            · exact h

/-- Steps that each keep the form, one after the other. -/
theorem memoriesOk_foldl {α : Type} (f : State → α → State) (hf : ∀ u a, u.memoriesOk = true → (f u a).memoriesOk = true) :
    ∀ (as : List α) {s : State}, s.memoriesOk = true → (as.foldl f s).memoriesOk = true
  | [], _, h => h
  | a :: as, s, h => memoriesOk_foldl f hf as (hf s a h)

/-- A write of firmware's, a hart's or the page walker's. -/
theorem memoriesOk_fwWrite {s : State} (h : s.memoriesOk = true) (a : Nat) (bs : List Byte) : (s.fwWrite a bs).memoriesOk = true := by
  unfold State.fwWrite
  refine memoriesOk_foldl _ ?_ _ h
  intro u p hu
  exact memoriesOk_homeWrite hu ..

theorem memoriesOk_setPte {s : State} (h : s.memoriesOk = true) (a v : Nat) : (s.setPte a v).memoriesOk = true := memoriesOk_fwWrite h a _

theorem memoriesOk_writeImage {s : State} (h : s.memoriesOk = true) (reason : Nat) (x : TState) :
    (s.writeImage reason x).memoriesOk = true := by
  have h1 := memoriesOk_setPart h s.cur.part { s.part s.cur.part with saveCtr := (s.part s.cur.part).saveCtr + 1 }
  unfold State.writeImage
  dsimp only
  split
  · rename_i a _
    have h2 := memoriesOk_fwWrite h1 a (s.imageOf s.cur.part s.cur.cid (s.imageHeader reason x))
    generalize State.fwWrite _ a _ = u at h2 ⊢
    exact memoriesOk_cur h2 id
  · exact memoriesOk_cur h1 id

/-- A privileged hart's store, from the state in which the writes in flight to its line have been performed. -/
theorem memoriesOk_hartStore {s t : State} (i : Fin 16) (base v : Word) (imm : BitVec 12) (n : Nat)
    (h : (s.settle (base + sext12 imm).toNat).memoriesOk = true) (e : s.hartStore i base v imm n = .done t) : t.memoriesOk = true := by
  unfold State.hartStore at e
  dsimp only at e
  split at e
  · cases e
  · split at e
    · cases e
    · injection e with e
      rw [← e]
      exact memoriesOk_fwWrite h _ _

/-! ### Local space -/

theorem memoriesOk_setLocalByte {s : State} (h : s.memoriesOk = true) (a : Nat) (b : Byte) : (s.setLocalByte a b).memoriesOk = true := by
  obtain ⟨_, hc, ht⟩ := (memoriesOk_iff s).mp h
  unfold State.setLocalByte
  dsimp only
  split
  · refine memoriesOk_setTeam h fun hf => ?_
    rw [filesOk_iff] at hf ⊢
    exact ⟨Sparse.wf_set hf.1 _ _, hf.2⟩
  · refine memoriesOk_clus h rfl (Sparse.wf_set hc _ _) fun v hv => ?_
    rcases List.mem_cons.mp hv with rfl | hv
    · exact ht s.cur (List.mem_cons_self ..)
    · exact ht v (List.mem_cons_of_mem _ hv)

theorem memoriesOk_setLocalBytes (bs : List Byte) : ∀ {s : State} (_ : s.memoriesOk = true) (a : Nat),
    (s.setLocalBytes a bs).memoriesOk = true := by
  induction bs with
  | nil => exact fun h _ => h
  | cons b _ ih => exact fun h a => ih (memoriesOk_setLocalByte h a b) (a + 1)

/-- A cluster's scratchpad zeroed. -/
theorem memoriesOk_clearClus {s t : State} (h : s.memoriesOk = true) (a n : Nat) (hm : t.mem = s.mem) (hc : t.clus = Sparse.clear s.clus a n)
    (ht : t.allTasks = s.allTasks) : t.memoriesOk = true :=
  memoriesOk_clus h hm (hc ▸ Sparse.wf_clear ((memoriesOk_iff s).mp h).2.1 a n) (ht ▸ ((memoriesOk_iff s).mp h).2.2)

theorem memoriesOk_zeroOldClusters {s : State} (h : s.memoriesOk = true) (c : Context) (die : Nat) : (s.zeroOldClusters c die).memoriesOk = true := by
  unfold State.zeroOldClusters
  refine memoriesOk_foldl _ ?_ _ h
  intro u k hu
  exact memoriesOk_clearClus hu _ _ rfl rfl rfl

theorem putMasked_clus {s : State} (h : s.memoriesOk = true) (a : Nat) (d : BitVec 512) (k : BitVec 64) :
    ({ s with clus := putMasked s.clus a d k } : State).memoriesOk = true := by
  obtain ⟨_, hc, ht⟩ := (memoriesOk_iff s).mp h
  exact memoriesOk_clus h rfl (putMasked_wf hc a d k) ht

/-- An undo entry of the cluster scratchpad or of the proof store. -/
theorem memoriesOk_undo_local {s : State} (h : s.memoriesOk = true) (e : LogEntry) (he : ∀ line b old mask home, e ≠ .buf line b old mask home) :
    (s.undo e).memoriesOk = true := by
  cases e with
  | clus line old mask => exact putMasked_clus h _ old mask
  | proof line old =>
    refine memoriesOk_cur h ?_
    cases old with
    | none => exact id
    | some l => exact id
  | buf line b old mask home => exact absurd rfl (he line b old mask home)

end Sys2Proof.Machine
end

