-- ==== Sys2Proof/Laws/PerInstr.lean ====
section
/-! SUPPORT. For each instruction: its encoding decodes to it again, every operand as it was (08 R133, R141-R144, 09 R155). -/

namespace Sys2Proof

section
set_option Elab.async false

/-- A well-formed instruction of four or eight bytes is what its own encoding decodes to; an event has no encoding. -/
def Laws.RoundTrip.Statement (i : Instr) : Prop :=
  i.wellFormed = true →
    (∀ w hi, encode32 i = some w → decode w hi = .ok (i, 4)) ∧
    (∀ w, encode64 i = some w → decode (w.extractLsb' 0 32) (some (w.extractLsb' 32 32)) = .ok (i, 8))

/-- The round trip of a four-byte instruction from its decoding as one. -/
theorem trip_of_word {i : Instr} {w : BitVec 32} (h32 : encode32 i = some w) (h64 : encode64 i = none) (ho : fOpcode w ≠ 0x3F#7)
    (hd : i.wellFormed = true → decode32 w = .ok i) : Laws.RoundTrip.Statement i := by
  intro hw
  refine ⟨fun v hi hv => ?_, fun v hv => by simp [h64] at hv⟩
  obtain rfl : w = v := by simpa [h32] using hv
  simp [decode, ho, hd hw]

/-- The round trip of a long form from the row of its CLASS and OP. -/
theorem trip_of_row {i : Instr} {o : LF} {op : BitVec 6} {cls : BitVec 4} (h64 : encode64 i = some (encL o op cls))
    (h32 : encode32 i = none) (hr : i.wellFormed = true → longRow cls.toNat op.toNat o = .ok i) : Laws.RoundTrip.Statement i := by
  intro hw
  refine ⟨fun v hi hv => by simp [h32] at hv, fun v hv => ?_⟩
  obtain rfl : encL o op cls = v := by simpa [h64] using hv
  simp [decode, decodeLong, hr hw, hw]

/-- FMT of a well-formed long form is one its shape accepts. -/
theorem fmt_of_wellFormed {i : Instr} {o : LF} {sh : Shape} (hs : i.shape = some (o, sh)) (h : i.wellFormed = true) :
    sh.fmts.contains o.fmt.toNat = true := by
  simp only [Instr.wellFormed, hs, Shape.fieldsOk] at h
  grind

/-- The round trip of an event, which has no encoding. -/
theorem trip_of_event {i : Instr} (h32 : encode32 i = none) (h64 : encode64 i = none) : Laws.RoundTrip.Statement i :=
  fun _ => ⟨fun _ _ h => by simp [h32] at h, fun _ h => by simp [h64] at h⟩

theorem Laws.RoundTrip.lui (rd : Reg) (imm : BitVec 20) : Laws.RoundTrip.Statement (.lui rd imm) :=
  trip_of_word rfl rfl (by simp) fun h => by simp [decode32]
theorem Laws.RoundTrip.auipc (rd : Reg) (imm : BitVec 20) : Laws.RoundTrip.Statement (.auipc rd imm) :=
  trip_of_word rfl rfl (by simp) fun h => by simp [decode32]
theorem Laws.RoundTrip.jal (rd : Reg) (imm : BitVec 20) : Laws.RoundTrip.Statement (.jal rd imm) :=
  trip_of_word rfl rfl (by simp) fun h => by simp [decode32]
theorem Laws.RoundTrip.jalr (rd : Reg) (rs1 : Reg) (imm : BitVec 12) : Laws.RoundTrip.Statement (.jalr rd rs1 imm) :=
  trip_of_word rfl rfl (by simp) fun h => by simp [decode32]
theorem Laws.RoundTrip.beq (rs1 : Reg) (rs2 : Reg) (imm : BitVec 12) : Laws.RoundTrip.Statement (.beq rs1 rs2 imm) :=
  trip_of_word rfl rfl (by simp) fun h => by simp [decode32, decodeBranch]
theorem Laws.RoundTrip.bne (rs1 : Reg) (rs2 : Reg) (imm : BitVec 12) : Laws.RoundTrip.Statement (.bne rs1 rs2 imm) :=
  trip_of_word rfl rfl (by simp) fun h => by simp [decode32, decodeBranch]
theorem Laws.RoundTrip.blt (rs1 : Reg) (rs2 : Reg) (imm : BitVec 12) : Laws.RoundTrip.Statement (.blt rs1 rs2 imm) :=
  trip_of_word rfl rfl (by simp) fun h => by simp [decode32, decodeBranch]
theorem Laws.RoundTrip.bge (rs1 : Reg) (rs2 : Reg) (imm : BitVec 12) : Laws.RoundTrip.Statement (.bge rs1 rs2 imm) :=
  trip_of_word rfl rfl (by simp) fun h => by simp [decode32, decodeBranch]
theorem Laws.RoundTrip.bltu (rs1 : Reg) (rs2 : Reg) (imm : BitVec 12) : Laws.RoundTrip.Statement (.bltu rs1 rs2 imm) :=
  trip_of_word rfl rfl (by simp) fun h => by simp [decode32, decodeBranch]
theorem Laws.RoundTrip.bgeu (rs1 : Reg) (rs2 : Reg) (imm : BitVec 12) : Laws.RoundTrip.Statement (.bgeu rs1 rs2 imm) :=
  trip_of_word rfl rfl (by simp) fun h => by simp [decode32, decodeBranch]
theorem Laws.RoundTrip.lb (rd : Reg) (rs1 : Reg) (imm : BitVec 12) : Laws.RoundTrip.Statement (.lb rd rs1 imm) :=
  trip_of_word rfl rfl (by simp) fun h => by simp [decode32, decodeLoad]
theorem Laws.RoundTrip.lh (rd : Reg) (rs1 : Reg) (imm : BitVec 12) : Laws.RoundTrip.Statement (.lh rd rs1 imm) :=
  trip_of_word rfl rfl (by simp) fun h => by simp [decode32, decodeLoad]
theorem Laws.RoundTrip.lw (rd : Reg) (rs1 : Reg) (imm : BitVec 12) : Laws.RoundTrip.Statement (.lw rd rs1 imm) :=
  trip_of_word rfl rfl (by simp) fun h => by simp [decode32, decodeLoad]
theorem Laws.RoundTrip.ld (rd : Reg) (rs1 : Reg) (imm : BitVec 12) : Laws.RoundTrip.Statement (.ld rd rs1 imm) :=
  trip_of_word rfl rfl (by simp) fun h => by simp [decode32, decodeLoad]
theorem Laws.RoundTrip.lbu (rd : Reg) (rs1 : Reg) (imm : BitVec 12) : Laws.RoundTrip.Statement (.lbu rd rs1 imm) :=
  trip_of_word rfl rfl (by simp) fun h => by simp [decode32, decodeLoad]
theorem Laws.RoundTrip.lhu (rd : Reg) (rs1 : Reg) (imm : BitVec 12) : Laws.RoundTrip.Statement (.lhu rd rs1 imm) :=
  trip_of_word rfl rfl (by simp) fun h => by simp [decode32, decodeLoad]
theorem Laws.RoundTrip.lwu (rd : Reg) (rs1 : Reg) (imm : BitVec 12) : Laws.RoundTrip.Statement (.lwu rd rs1 imm) :=
  trip_of_word rfl rfl (by simp) fun h => by simp [decode32, decodeLoad]
theorem Laws.RoundTrip.sb (rs1 : Reg) (rs2 : Reg) (imm : BitVec 12) : Laws.RoundTrip.Statement (.sb rs1 rs2 imm) :=
  trip_of_word rfl rfl (by simp) fun h => by simp [decode32, decodeStore]
theorem Laws.RoundTrip.sh (rs1 : Reg) (rs2 : Reg) (imm : BitVec 12) : Laws.RoundTrip.Statement (.sh rs1 rs2 imm) :=
  trip_of_word rfl rfl (by simp) fun h => by simp [decode32, decodeStore]
theorem Laws.RoundTrip.sw (rs1 : Reg) (rs2 : Reg) (imm : BitVec 12) : Laws.RoundTrip.Statement (.sw rs1 rs2 imm) :=
  trip_of_word rfl rfl (by simp) fun h => by simp [decode32, decodeStore]
theorem Laws.RoundTrip.sd (rs1 : Reg) (rs2 : Reg) (imm : BitVec 12) : Laws.RoundTrip.Statement (.sd rs1 rs2 imm) :=
  trip_of_word rfl rfl (by simp) fun h => by simp [decode32, decodeStore]
theorem Laws.RoundTrip.addi (rd : Reg) (rs1 : Reg) (imm : BitVec 12) : Laws.RoundTrip.Statement (.addi rd rs1 imm) :=
  trip_of_word rfl rfl (by simp) fun h => by simp [decode32, decodeOpImm]
theorem Laws.RoundTrip.slti (rd : Reg) (rs1 : Reg) (imm : BitVec 12) : Laws.RoundTrip.Statement (.slti rd rs1 imm) :=
  trip_of_word rfl rfl (by simp) fun h => by simp [decode32, decodeOpImm]
theorem Laws.RoundTrip.sltiu (rd : Reg) (rs1 : Reg) (imm : BitVec 12) : Laws.RoundTrip.Statement (.sltiu rd rs1 imm) :=
  trip_of_word rfl rfl (by simp) fun h => by simp [decode32, decodeOpImm]
theorem Laws.RoundTrip.xori (rd : Reg) (rs1 : Reg) (imm : BitVec 12) : Laws.RoundTrip.Statement (.xori rd rs1 imm) :=
  trip_of_word rfl rfl (by simp) fun h => by simp [decode32, decodeOpImm]
theorem Laws.RoundTrip.ori (rd : Reg) (rs1 : Reg) (imm : BitVec 12) : Laws.RoundTrip.Statement (.ori rd rs1 imm) :=
  trip_of_word rfl rfl (by simp) fun h => by simp [decode32, decodeOpImm]
theorem Laws.RoundTrip.andi (rd : Reg) (rs1 : Reg) (imm : BitVec 12) : Laws.RoundTrip.Statement (.andi rd rs1 imm) :=
  trip_of_word rfl rfl (by simp) fun h => by simp [decode32, decodeOpImm]
theorem Laws.RoundTrip.slli (rd : Reg) (rs1 : Reg) (sh : BitVec 6) : Laws.RoundTrip.Statement (.slli rd rs1 sh) :=
  trip_of_word rfl rfl (by simp) fun h => by simp [decode32, decodeOpImm]
theorem Laws.RoundTrip.srli (rd : Reg) (rs1 : Reg) (sh : BitVec 6) : Laws.RoundTrip.Statement (.srli rd rs1 sh) :=
  trip_of_word rfl rfl (by simp) fun h => by simp [decode32, decodeOpImm]
theorem Laws.RoundTrip.srai (rd : Reg) (rs1 : Reg) (sh : BitVec 6) : Laws.RoundTrip.Statement (.srai rd rs1 sh) :=
  trip_of_word rfl rfl (by simp) fun h => by simp [decode32, decodeOpImm]
theorem Laws.RoundTrip.add (rd : Reg) (rs1 : Reg) (rs2 : Reg) : Laws.RoundTrip.Statement (.add rd rs1 rs2) :=
  trip_of_word rfl rfl (by simp) fun h => by simp [decode32, decodeOp]
theorem Laws.RoundTrip.sub (rd : Reg) (rs1 : Reg) (rs2 : Reg) : Laws.RoundTrip.Statement (.sub rd rs1 rs2) :=
  trip_of_word rfl rfl (by simp) fun h => by simp [decode32, decodeOp]
theorem Laws.RoundTrip.sll (rd : Reg) (rs1 : Reg) (rs2 : Reg) : Laws.RoundTrip.Statement (.sll rd rs1 rs2) :=
  trip_of_word rfl rfl (by simp) fun h => by simp [decode32, decodeOp]
theorem Laws.RoundTrip.slt (rd : Reg) (rs1 : Reg) (rs2 : Reg) : Laws.RoundTrip.Statement (.slt rd rs1 rs2) :=
  trip_of_word rfl rfl (by simp) fun h => by simp [decode32, decodeOp]
theorem Laws.RoundTrip.sltu (rd : Reg) (rs1 : Reg) (rs2 : Reg) : Laws.RoundTrip.Statement (.sltu rd rs1 rs2) :=
  trip_of_word rfl rfl (by simp) fun h => by simp [decode32, decodeOp]
theorem Laws.RoundTrip.xor (rd : Reg) (rs1 : Reg) (rs2 : Reg) : Laws.RoundTrip.Statement (.xor rd rs1 rs2) :=
  trip_of_word rfl rfl (by simp) fun h => by simp [decode32, decodeOp]
theorem Laws.RoundTrip.srl (rd : Reg) (rs1 : Reg) (rs2 : Reg) : Laws.RoundTrip.Statement (.srl rd rs1 rs2) :=
  trip_of_word rfl rfl (by simp) fun h => by simp [decode32, decodeOp]
theorem Laws.RoundTrip.sra (rd : Reg) (rs1 : Reg) (rs2 : Reg) : Laws.RoundTrip.Statement (.sra rd rs1 rs2) :=
  trip_of_word rfl rfl (by simp) fun h => by simp [decode32, decodeOp]
theorem Laws.RoundTrip.or (rd : Reg) (rs1 : Reg) (rs2 : Reg) : Laws.RoundTrip.Statement (.or rd rs1 rs2) :=
  trip_of_word rfl rfl (by simp) fun h => by simp [decode32, decodeOp]
theorem Laws.RoundTrip.and (rd : Reg) (rs1 : Reg) (rs2 : Reg) : Laws.RoundTrip.Statement (.and rd rs1 rs2) :=
  trip_of_word rfl rfl (by simp) fun h => by simp [decode32, decodeOp]
theorem Laws.RoundTrip.mul (rd : Reg) (rs1 : Reg) (rs2 : Reg) : Laws.RoundTrip.Statement (.mul rd rs1 rs2) :=
  trip_of_word rfl rfl (by simp) fun h => by simp [decode32, decodeOp]
theorem Laws.RoundTrip.mulh (rd : Reg) (rs1 : Reg) (rs2 : Reg) : Laws.RoundTrip.Statement (.mulh rd rs1 rs2) :=
  trip_of_word rfl rfl (by simp) fun h => by simp [decode32, decodeOp]
theorem Laws.RoundTrip.mulhsu (rd : Reg) (rs1 : Reg) (rs2 : Reg) : Laws.RoundTrip.Statement (.mulhsu rd rs1 rs2) :=
  trip_of_word rfl rfl (by simp) fun h => by simp [decode32, decodeOp]
theorem Laws.RoundTrip.mulhu (rd : Reg) (rs1 : Reg) (rs2 : Reg) : Laws.RoundTrip.Statement (.mulhu rd rs1 rs2) :=
  trip_of_word rfl rfl (by simp) fun h => by simp [decode32, decodeOp]
theorem Laws.RoundTrip.div (rd : Reg) (rs1 : Reg) (rs2 : Reg) : Laws.RoundTrip.Statement (.div rd rs1 rs2) :=
  trip_of_word rfl rfl (by simp) fun h => by simp [decode32, decodeOp]
theorem Laws.RoundTrip.divu (rd : Reg) (rs1 : Reg) (rs2 : Reg) : Laws.RoundTrip.Statement (.divu rd rs1 rs2) :=
  trip_of_word rfl rfl (by simp) fun h => by simp [decode32, decodeOp]
theorem Laws.RoundTrip.rem (rd : Reg) (rs1 : Reg) (rs2 : Reg) : Laws.RoundTrip.Statement (.rem rd rs1 rs2) :=
  trip_of_word rfl rfl (by simp) fun h => by simp [decode32, decodeOp]
theorem Laws.RoundTrip.remu (rd : Reg) (rs1 : Reg) (rs2 : Reg) : Laws.RoundTrip.Statement (.remu rd rs1 rs2) :=
  trip_of_word rfl rfl (by simp) fun h => by simp [decode32, decodeOp]
theorem Laws.RoundTrip.addiw (rd : Reg) (rs1 : Reg) (imm : BitVec 12) : Laws.RoundTrip.Statement (.addiw rd rs1 imm) :=
  trip_of_word rfl rfl (by simp) fun h => by simp [decode32, decodeOpImm32]
theorem Laws.RoundTrip.slliw (rd : Reg) (rs1 : Reg) (sh : BitVec 5) : Laws.RoundTrip.Statement (.slliw rd rs1 sh) :=
  trip_of_word rfl rfl (by simp) fun h => by simp [decode32, decodeOpImm32]
theorem Laws.RoundTrip.srliw (rd : Reg) (rs1 : Reg) (sh : BitVec 5) : Laws.RoundTrip.Statement (.srliw rd rs1 sh) :=
  trip_of_word rfl rfl (by simp) fun h => by simp [decode32, decodeOpImm32]
theorem Laws.RoundTrip.sraiw (rd : Reg) (rs1 : Reg) (sh : BitVec 5) : Laws.RoundTrip.Statement (.sraiw rd rs1 sh) :=
  trip_of_word rfl rfl (by simp) fun h => by simp [decode32, decodeOpImm32]
theorem Laws.RoundTrip.addw (rd : Reg) (rs1 : Reg) (rs2 : Reg) : Laws.RoundTrip.Statement (.addw rd rs1 rs2) :=
  trip_of_word rfl rfl (by simp) fun h => by simp [decode32, decodeOp32]
theorem Laws.RoundTrip.subw (rd : Reg) (rs1 : Reg) (rs2 : Reg) : Laws.RoundTrip.Statement (.subw rd rs1 rs2) :=
  trip_of_word rfl rfl (by simp) fun h => by simp [decode32, decodeOp32]
theorem Laws.RoundTrip.sllw (rd : Reg) (rs1 : Reg) (rs2 : Reg) : Laws.RoundTrip.Statement (.sllw rd rs1 rs2) :=
  trip_of_word rfl rfl (by simp) fun h => by simp [decode32, decodeOp32]
theorem Laws.RoundTrip.srlw (rd : Reg) (rs1 : Reg) (rs2 : Reg) : Laws.RoundTrip.Statement (.srlw rd rs1 rs2) :=
  trip_of_word rfl rfl (by simp) fun h => by simp [decode32, decodeOp32]
theorem Laws.RoundTrip.sraw (rd : Reg) (rs1 : Reg) (rs2 : Reg) : Laws.RoundTrip.Statement (.sraw rd rs1 rs2) :=
  trip_of_word rfl rfl (by simp) fun h => by simp [decode32, decodeOp32]
theorem Laws.RoundTrip.mulw (rd : Reg) (rs1 : Reg) (rs2 : Reg) : Laws.RoundTrip.Statement (.mulw rd rs1 rs2) :=
  trip_of_word rfl rfl (by simp) fun h => by simp [decode32, decodeOp32]
theorem Laws.RoundTrip.divw (rd : Reg) (rs1 : Reg) (rs2 : Reg) : Laws.RoundTrip.Statement (.divw rd rs1 rs2) :=
  trip_of_word rfl rfl (by simp) fun h => by simp [decode32, decodeOp32]
theorem Laws.RoundTrip.divuw (rd : Reg) (rs1 : Reg) (rs2 : Reg) : Laws.RoundTrip.Statement (.divuw rd rs1 rs2) :=
  trip_of_word rfl rfl (by simp) fun h => by simp [decode32, decodeOp32]
theorem Laws.RoundTrip.remw (rd : Reg) (rs1 : Reg) (rs2 : Reg) : Laws.RoundTrip.Statement (.remw rd rs1 rs2) :=
  trip_of_word rfl rfl (by simp) fun h => by simp [decode32, decodeOp32]
theorem Laws.RoundTrip.remuw (rd : Reg) (rs1 : Reg) (rs2 : Reg) : Laws.RoundTrip.Statement (.remuw rd rs1 rs2) :=
  trip_of_word rfl rfl (by simp) fun h => by simp [decode32, decodeOp32]
theorem Laws.RoundTrip.fence (rd : Reg) (rs1 : Reg) (imm : BitVec 12) : Laws.RoundTrip.Statement (.fence rd rs1 imm) :=
  trip_of_word rfl rfl (by simp) fun h => by simp [decode32]
theorem Laws.RoundTrip.csrrw (rd : Reg) (rs1 : Reg) (csr : BitVec 12) : Laws.RoundTrip.Statement (.csrrw rd rs1 csr) :=
  trip_of_word rfl rfl (by simp) fun h => by simp [decode32, decodeSystem]
theorem Laws.RoundTrip.csrrs (rd : Reg) (rs1 : Reg) (csr : BitVec 12) : Laws.RoundTrip.Statement (.csrrs rd rs1 csr) :=
  trip_of_word rfl rfl (by simp) fun h => by simp [decode32, decodeSystem]
theorem Laws.RoundTrip.csrrc (rd : Reg) (rs1 : Reg) (csr : BitVec 12) : Laws.RoundTrip.Statement (.csrrc rd rs1 csr) :=
  trip_of_word rfl rfl (by simp) fun h => by simp [decode32, decodeSystem]
theorem Laws.RoundTrip.csrrwi (rd : Reg) (rs1 : Reg) (csr : BitVec 12) : Laws.RoundTrip.Statement (.csrrwi rd rs1 csr) :=
  trip_of_word rfl rfl (by simp) fun h => by simp [decode32, decodeSystem]
theorem Laws.RoundTrip.csrrsi (rd : Reg) (rs1 : Reg) (csr : BitVec 12) : Laws.RoundTrip.Statement (.csrrsi rd rs1 csr) :=
  trip_of_word rfl rfl (by simp) fun h => by simp [decode32, decodeSystem]
theorem Laws.RoundTrip.csrrci (rd : Reg) (rs1 : Reg) (csr : BitVec 12) : Laws.RoundTrip.Statement (.csrrci rd rs1 csr) :=
  trip_of_word rfl rfl (by simp) fun h => by simp [decode32, decodeSystem]
theorem Laws.RoundTrip.vadd (o : LF) : Laws.RoundTrip.Statement (.vadd o) := trip_of_row rfl rfl fun _ => rfl
theorem Laws.RoundTrip.vsub (o : LF) : Laws.RoundTrip.Statement (.vsub o) := trip_of_row rfl rfl fun _ => rfl
theorem Laws.RoundTrip.vmul (o : LF) : Laws.RoundTrip.Statement (.vmul o) := trip_of_row rfl rfl fun _ => rfl
theorem Laws.RoundTrip.vfma (o : LF) : Laws.RoundTrip.Statement (.vfma o) := trip_of_row rfl rfl fun _ => rfl
theorem Laws.RoundTrip.vmin (o : LF) : Laws.RoundTrip.Statement (.vmin o) := trip_of_row rfl rfl fun _ => rfl
theorem Laws.RoundTrip.vmax (o : LF) : Laws.RoundTrip.Statement (.vmax o) := trip_of_row rfl rfl fun _ => rfl
theorem Laws.RoundTrip.vsgn (o : LF) : Laws.RoundTrip.Statement (.vsgn o) := trip_of_row rfl rfl fun _ => rfl
theorem Laws.RoundTrip.vcmp (o : LF) : Laws.RoundTrip.Statement (.vcmp o) := trip_of_row rfl rfl fun _ => rfl
theorem Laws.RoundTrip.vclass (o : LF) : Laws.RoundTrip.Statement (.vclass o) := trip_of_row rfl rfl fun _ => rfl
theorem Laws.RoundTrip.viadd (o : LF) : Laws.RoundTrip.Statement (.viadd o) := trip_of_row rfl rfl fun _ => rfl
theorem Laws.RoundTrip.visub (o : LF) : Laws.RoundTrip.Statement (.visub o) := trip_of_row rfl rfl fun _ => rfl
theorem Laws.RoundTrip.vimul (o : LF) : Laws.RoundTrip.Statement (.vimul o) := trip_of_row rfl rfl fun _ => rfl
theorem Laws.RoundTrip.vimulh (o : LF) : Laws.RoundTrip.Statement (.vimulh o) := trip_of_row rfl rfl fun _ => rfl
theorem Laws.RoundTrip.vimad (o : LF) : Laws.RoundTrip.Statement (.vimad o) := trip_of_row rfl rfl fun _ => rfl
theorem Laws.RoundTrip.vand (o : LF) : Laws.RoundTrip.Statement (.vand o) := trip_of_row rfl rfl fun _ => rfl
theorem Laws.RoundTrip.vor (o : LF) : Laws.RoundTrip.Statement (.vor o) := trip_of_row rfl rfl fun _ => rfl
theorem Laws.RoundTrip.vxor (o : LF) : Laws.RoundTrip.Statement (.vxor o) := trip_of_row rfl rfl fun _ => rfl
theorem Laws.RoundTrip.vshl (o : LF) : Laws.RoundTrip.Statement (.vshl o) := trip_of_row rfl rfl fun _ => rfl
theorem Laws.RoundTrip.vshr (o : LF) : Laws.RoundTrip.Statement (.vshr o) := trip_of_row rfl rfl fun _ => rfl
theorem Laws.RoundTrip.viminmax (o : LF) : Laws.RoundTrip.Statement (.viminmax o) := trip_of_row rfl rfl fun _ => rfl
theorem Laws.RoundTrip.vsel (o : LF) : Laws.RoundTrip.Statement (.vsel o) := trip_of_row rfl rfl fun _ => rfl
theorem Laws.RoundTrip.vcvt (o : LF) : Laws.RoundTrip.Statement (.vcvt o) := trip_of_row rfl rfl fun _ => rfl
theorem Laws.RoundTrip.vpack (o : LF) : Laws.RoundTrip.Statement (.vpack o) := trip_of_row rfl rfl fun _ => rfl
theorem Laws.RoundTrip.vunpack (o : LF) : Laws.RoundTrip.Statement (.vunpack o) := trip_of_row rfl rfl fun _ => rfl
theorem Laws.RoundTrip.vlnmul (o : LF) : Laws.RoundTrip.Statement (.vlnmul o) := trip_of_row rfl rfl fun _ => rfl
theorem Laws.RoundTrip.vlnlin (o : LF) : Laws.RoundTrip.Statement (.vlnlin o) := trip_of_row rfl rfl fun _ => rfl
theorem Laws.RoundTrip.vexp2 (o : LF) : Laws.RoundTrip.Statement (.vexp2 o) := trip_of_row rfl rfl fun _ => rfl
theorem Laws.RoundTrip.vlog2 (o : LF) : Laws.RoundTrip.Statement (.vlog2 o) := trip_of_row rfl rfl fun _ => rfl
theorem Laws.RoundTrip.vrcp (o : LF) : Laws.RoundTrip.Statement (.vrcp o) := trip_of_row rfl rfl fun _ => rfl
theorem Laws.RoundTrip.vrsqrt (o : LF) : Laws.RoundTrip.Statement (.vrsqrt o) := trip_of_row rfl rfl fun _ => rfl
theorem Laws.RoundTrip.vsum (o : LF) : Laws.RoundTrip.Statement (.vsum o) := trip_of_row rfl rfl fun _ => rfl
theorem Laws.RoundTrip.vrmax (o : LF) : Laws.RoundTrip.Statement (.vrmax o) := trip_of_row rfl rfl fun _ => rfl
theorem Laws.RoundTrip.vperm (o : LF) : Laws.RoundTrip.Statement (.vperm o) := trip_of_row rfl rfl fun _ => rfl
theorem Laws.RoundTrip.vbcast (o : LF) : Laws.RoundTrip.Statement (.vbcast o) := trip_of_row rfl rfl fun _ => rfl
theorem Laws.RoundTrip.vslide (o : LF) : Laws.RoundTrip.Statement (.vslide o) := trip_of_row rfl rfl fun _ => rfl
theorem Laws.RoundTrip.vmov (o : LF) : Laws.RoundTrip.Statement (.vmov o) := trip_of_row rfl rfl fun _ => rfl
theorem Laws.RoundTrip.vmvx (o : LF) : Laws.RoundTrip.Statement (.vmvx o) := trip_of_row rfl rfl fun _ => rfl
theorem Laws.RoundTrip.vins (o : LF) : Laws.RoundTrip.Statement (.vins o) := trip_of_row rfl rfl fun _ => rfl
theorem Laws.RoundTrip.vld (o : LF) : Laws.RoundTrip.Statement (.vld o) := trip_of_row rfl rfl fun _ => rfl
theorem Laws.RoundTrip.vst (o : LF) : Laws.RoundTrip.Statement (.vst o) := trip_of_row rfl rfl fun _ => rfl
theorem Laws.RoundTrip.vgath (o : LF) : Laws.RoundTrip.Statement (.vgath o) := trip_of_row rfl rfl fun _ => rfl
theorem Laws.RoundTrip.vscat (o : LF) : Laws.RoundTrip.Statement (.vscat o) := trip_of_row rfl rfl fun _ => rfl
theorem Laws.RoundTrip.mpush (o : LF) : Laws.RoundTrip.Statement (.mpush o) := trip_of_row rfl rfl fun _ => rfl
theorem Laws.RoundTrip.minv (o : LF) : Laws.RoundTrip.Statement (.minv o) := trip_of_row rfl rfl fun _ => rfl
theorem Laws.RoundTrip.mpop (o : LF) : Laws.RoundTrip.Statement (.mpop o) := trip_of_row rfl rfl fun _ => rfl
theorem Laws.RoundTrip.mget (o : LF) : Laws.RoundTrip.Statement (.mget o) := trip_of_row rfl rfl fun _ => rfl
theorem Laws.RoundTrip.bmz (o : LF) : Laws.RoundTrip.Statement (.bmz o) := trip_of_row rfl rfl fun _ => rfl
theorem Laws.RoundTrip.wenter (o : LF) : Laws.RoundTrip.Statement (.wenter o) := trip_of_row rfl rfl fun _ => rfl
theorem Laws.RoundTrip.wleave (o : LF) : Laws.RoundTrip.Statement (.wleave o) := trip_of_row rfl rfl fun _ => rfl
theorem Laws.RoundTrip.mma (o : LF) : Laws.RoundTrip.Statement (.mma o) := trip_of_row rfl rfl fun _ => rfl
theorem Laws.RoundTrip.mmac (o : LF) : Laws.RoundTrip.Statement (.mmac o) := trip_of_row rfl rfl fun _ => rfl
theorem Laws.RoundTrip.mlutb (o : LF) : Laws.RoundTrip.Statement (.mlutb o) := trip_of_row rfl rfl fun _ => rfl
theorem Laws.RoundTrip.mlut (o : LF) : Laws.RoundTrip.Statement (.mlut o) := trip_of_row rfl rfl fun _ => rfl
theorem Laws.RoundTrip.azero (o : LF) : Laws.RoundTrip.Statement (.azero o) := trip_of_row rfl rfl fun _ => rfl
theorem Laws.RoundTrip.ald (o : LF) : Laws.RoundTrip.Statement (.ald o) := trip_of_row rfl rfl fun _ => rfl
theorem Laws.RoundTrip.ast (o : LF) : Laws.RoundTrip.Statement (.ast o) := trip_of_row rfl rfl fun _ => rfl
theorem Laws.RoundTrip.ardv (o : LF) : Laws.RoundTrip.Statement (.ardv o) := trip_of_row rfl rfl fun _ => rfl
theorem Laws.RoundTrip.awrv (o : LF) : Laws.RoundTrip.Statement (.awrv o) := trip_of_row rfl rfl fun _ => rfl
theorem Laws.RoundTrip.hset (o : LF) : Laws.RoundTrip.Statement (.hset o) := trip_of_row rfl rfl fun _ => rfl
theorem Laws.RoundTrip.hget (o : LF) : Laws.RoundTrip.Statement (.hget o) := trip_of_row rfl rfl fun _ => rfl
theorem Laws.RoundTrip.hld (o : LF) : Laws.RoundTrip.Statement (.hld o) := trip_of_row rfl rfl fun _ => rfl
theorem Laws.RoundTrip.hst (o : LF) : Laws.RoundTrip.Statement (.hst o) := trip_of_row rfl rfl fun _ => rfl
theorem Laws.RoundTrip.hadv (o : LF) : Laws.RoundTrip.Statement (.hadv o) := trip_of_row rfl rfl fun _ => rfl
theorem Laws.RoundTrip.loop (o : LF) : Laws.RoundTrip.Statement (.loop o) := trip_of_row rfl rfl fun _ => rfl
theorem Laws.RoundTrip.lcrd (o : LF) : Laws.RoundTrip.Statement (.lcrd o) := trip_of_row rfl rfl fun _ => rfl
theorem Laws.RoundTrip.lbrk (o : LF) : Laws.RoundTrip.Statement (.lbrk o) := trip_of_row rfl rfl fun _ => rfl
theorem Laws.RoundTrip.fmtset (o : LF) : Laws.RoundTrip.Statement (.fmtset o) := trip_of_row rfl rfl fun _ => rfl
theorem Laws.RoundTrip.fmtsel (o : LF) : Laws.RoundTrip.Statement (.fmtsel o) := trip_of_row rfl rfl fun _ => rfl
theorem Laws.RoundTrip.fmtget (o : LF) : Laws.RoundTrip.Statement (.fmtget o) := trip_of_row rfl rfl fun _ => rfl
theorem Laws.RoundTrip.cpld (o : LF) : Laws.RoundTrip.Statement (.cpld o) := trip_of_row rfl rfl fun _ => rfl
theorem Laws.RoundTrip.cpst (o : LF) : Laws.RoundTrip.Statement (.cpst o) := trip_of_row rfl rfl fun _ => rfl
theorem Laws.RoundTrip.cpgat (o : LF) : Laws.RoundTrip.Statement (.cpgat o) := trip_of_row rfl rfl fun _ => rfl
theorem Laws.RoundTrip.cpsca (o : LF) : Laws.RoundTrip.Statement (.cpsca o) := trip_of_row rfl rfl fun _ => rfl
theorem Laws.RoundTrip.cploc (o : LF) : Laws.RoundTrip.Statement (.cploc o) := trip_of_row rfl rfl fun _ => rfl
theorem Laws.RoundTrip.cprem (o : LF) : Laws.RoundTrip.Statement (.cprem o) := trip_of_row rfl rfl fun _ => rfl
theorem Laws.RoundTrip.coll (o : LF) : Laws.RoundTrip.Statement (.coll o) := trip_of_row rfl rfl fun _ => rfl
theorem Laws.RoundTrip.bld (o : LF) : Laws.RoundTrip.Statement (.bld o) := trip_of_row rfl rfl fun _ => rfl
theorem Laws.RoundTrip.bst (o : LF) : Laws.RoundTrip.Statement (.bst o) := trip_of_row rfl rfl fun _ => rfl
theorem Laws.RoundTrip.bamo (o : LF) : Laws.RoundTrip.Statement (.bamo o) := trip_of_row rfl rfl fun _ => rfl
theorem Laws.RoundTrip.bcas (o : LF) : Laws.RoundTrip.Statement (.bcas o) := trip_of_row rfl rfl fun _ => rfl
theorem Laws.RoundTrip.acq (o : LF) : Laws.RoundTrip.Statement (.acq o) := trip_of_row rfl rfl fun _ => rfl
theorem Laws.RoundTrip.rel (o : LF) : Laws.RoundTrip.Statement (.rel o) := trip_of_row rfl rfl fun _ => rfl
theorem Laws.RoundTrip.frange (o : LF) : Laws.RoundTrip.Statement (.frange o) := trip_of_row rfl rfl fun _ => rfl
theorem Laws.RoundTrip.pmrd (o : LF) : Laws.RoundTrip.Statement (.pmrd o) := trip_of_row rfl rfl fun _ => rfl
theorem Laws.RoundTrip.pmwait (o : LF) : Laws.RoundTrip.Statement (.pmwait o) := trip_of_row rfl rfl fun _ => rfl
theorem Laws.RoundTrip.wait (o : LF) : Laws.RoundTrip.Statement (.wait o) := trip_of_row rfl rfl fun _ => rfl
theorem Laws.RoundTrip.phcfg (o : LF) : Laws.RoundTrip.Statement (.phcfg o) := trip_of_row rfl rfl fun _ => rfl
theorem Laws.RoundTrip.phtake (o : LF) : Laws.RoundTrip.Statement (.phtake o) := trip_of_row rfl rfl fun _ => rfl
theorem Laws.RoundTrip.phgive (o : LF) : Laws.RoundTrip.Statement (.phgive o) := trip_of_row rfl rfl fun _ => rfl
theorem Laws.RoundTrip.phres (o : LF) : Laws.RoundTrip.Statement (.phres o) := trip_of_row rfl rfl fun _ => rfl
theorem Laws.RoundTrip.phpost (o : LF) : Laws.RoundTrip.Statement (.phpost o) := trip_of_row rfl rfl fun _ => rfl
theorem Laws.RoundTrip.phstat (o : LF) : Laws.RoundTrip.Statement (.phstat o) := trip_of_row rfl rfl fun _ => rfl
theorem Laws.RoundTrip.tqput (o : LF) : Laws.RoundTrip.Statement (.tqput o) := trip_of_row rfl rfl fun _ => rfl
theorem Laws.RoundTrip.tqget (o : LF) : Laws.RoundTrip.Statement (.tqget o) := trip_of_row rfl rfl fun _ => rfl
theorem Laws.RoundTrip.nbq (o : LF) : Laws.RoundTrip.Statement (.nbq o) := trip_of_row rfl rfl fun _ => rfl
theorem Laws.RoundTrip.nbcan (o : LF) : Laws.RoundTrip.Statement (.nbcan o) := trip_of_row rfl rfl fun _ => rfl
theorem Laws.RoundTrip.tenq (o : LF) : Laws.RoundTrip.Statement (.tenq o) := trip_of_row rfl rfl fun _ => rfl
theorem Laws.RoundTrip.tend (o : LF) : Laws.RoundTrip.Statement (.tend o) := trip_of_row rfl rfl fun _ => rfl
theorem Laws.RoundTrip.tyield (o : LF) : Laws.RoundTrip.Statement (.tyield o) := trip_of_row rfl rfl fun _ => rfl
theorem Laws.RoundTrip.lnch (o : LF) : Laws.RoundTrip.Statement (.lnch o) := trip_of_row rfl rfl fun _ => rfl
theorem Laws.RoundTrip.twait (o : LF) : Laws.RoundTrip.Statement (.twait o) := trip_of_row rfl rfl fun _ => rfl
theorem Laws.RoundTrip.specq (o : LF) : Laws.RoundTrip.Statement (.specq o) := trip_of_row rfl rfl fun _ => rfl
theorem Laws.RoundTrip.vdist (o : LF) : Laws.RoundTrip.Statement (.vdist o) := trip_of_row rfl rfl fun _ => rfl
theorem Laws.RoundTrip.tabort (o : LF) : Laws.RoundTrip.Statement (.tabort o) := trip_of_row rfl rfl fun _ => rfl
theorem Laws.RoundTrip.krot (o : LF) : Laws.RoundTrip.Statement (.krot o) := trip_of_row rfl rfl fun _ => rfl
theorem Laws.RoundTrip.kstat (o : LF) : Laws.RoundTrip.Statement (.kstat o) := trip_of_row rfl rfl fun _ => rfl
theorem Laws.RoundTrip.sealImage (o : LF) : Laws.RoundTrip.Statement (.sealImage o) := trip_of_row rfl rfl fun _ => rfl
theorem Laws.RoundTrip.unsealImage (o : LF) : Laws.RoundTrip.Statement (.unsealImage o) := trip_of_row rfl rfl fun _ => rfl
theorem Laws.RoundTrip.scrub (o : LF) : Laws.RoundTrip.Statement (.scrub o) := trip_of_row rfl rfl fun _ => rfl
theorem Laws.RoundTrip.mdead (o : LF) : Laws.RoundTrip.Statement (.mdead o) := trip_of_row rfl rfl fun _ => rfl
theorem Laws.RoundTrip.ctxsv (o : LF) : Laws.RoundTrip.Statement (.ctxsv o) := by
  refine trip_of_row (op := _) (cls := _) rfl rfl fun h => ?_
  have h := fmt_of_wellFormed rfl h
  simp [shapeCtxsv] at h
  simp [longRow, class15Row, h]
theorem Laws.RoundTrip.ctxsvHalt (o : LF) : Laws.RoundTrip.Statement (.ctxsvHalt o) := by
  refine trip_of_row (op := _) (cls := _) rfl rfl fun h => ?_
  have h := fmt_of_wellFormed rfl h
  simp [shapeCtxsvHalt] at h
  simp [longRow, class15Row, h]
theorem Laws.RoundTrip.ctxrs (o : LF) : Laws.RoundTrip.Statement (.ctxrs o) := by
  refine trip_of_row (op := _) (cls := _) rfl rfl fun h => ?_
  have h := fmt_of_wellFormed rfl h
  simp [shapeCtxrs] at h
  simp [longRow, class15Row, h]
theorem Laws.RoundTrip.ckpt (o : LF) : Laws.RoundTrip.Statement (.ckpt o) := by
  refine trip_of_row (op := _) (cls := _) rfl rfl fun h => ?_
  have h := fmt_of_wellFormed rfl h
  simp [shapeCkpt] at h
  simp [longRow, class15Row, h]
theorem Laws.RoundTrip.ckrb (o : LF) : Laws.RoundTrip.Statement (.ckrb o) := by
  refine trip_of_row (op := _) (cls := _) rfl rfl fun h => ?_
  have h := fmt_of_wellFormed rfl h
  simp [shapeCkrb] at h
  simp [longRow, class15Row, h]
theorem Laws.RoundTrip.tlbir (o : LF) : Laws.RoundTrip.Statement (.tlbir o) := by
  refine trip_of_row (op := _) (cls := _) rfl rfl fun h => ?_
  have h := fmt_of_wellFormed rfl h
  simp [shapeTlbir] at h
  simp [longRow, class15Row, h]
theorem Laws.RoundTrip.ksload (o : LF) : Laws.RoundTrip.Statement (.ksload o) := by
  refine trip_of_row (op := _) (cls := _) rfl rfl fun h => ?_
  have h := fmt_of_wellFormed rfl h
  simp [shapeKsload] at h
  simp [longRow, class15Row, h]
theorem Laws.RoundTrip.ksloadNew (o : LF) : Laws.RoundTrip.Statement (.ksloadNew o) := by
  refine trip_of_row (op := _) (cls := _) rfl rfl fun h => ?_
  have h := fmt_of_wellFormed rfl h
  simp [shapeKsloadNew] at h
  simp [longRow, class15Row, h]
theorem Laws.RoundTrip.ksclr (o : LF) : Laws.RoundTrip.Statement (.ksclr o) := by
  refine trip_of_row (op := _) (cls := _) rfl rfl fun h => ?_
  have h := fmt_of_wellFormed rfl h
  simp [shapeKsclr] at h
  simp [longRow, class15Row, h]
theorem Laws.RoundTrip.ksclrAll (o : LF) : Laws.RoundTrip.Statement (.ksclrAll o) := by
  refine trip_of_row (op := _) (cls := _) rfl rfl fun h => ?_
  have h := fmt_of_wellFormed rfl h
  simp [shapeKsclrAll] at h
  simp [longRow, class15Row, h]
theorem Laws.RoundTrip.slmap (o : LF) : Laws.RoundTrip.Statement (.slmap o) := by
  refine trip_of_row (op := _) (cls := _) rfl rfl fun h => ?_
  have h := fmt_of_wellFormed rfl h
  simp [shapeSlmap] at h
  simp [longRow, class15Row, h]
theorem Laws.RoundTrip.slend (o : LF) : Laws.RoundTrip.Statement (.slend o) := by
  refine trip_of_row (op := _) (cls := _) rfl rfl fun h => ?_
  have h := fmt_of_wellFormed rfl h
  simp [shapeSlend] at h
  simp [longRow, class15Row, h]
theorem Laws.RoundTrip.slrcl (o : LF) : Laws.RoundTrip.Statement (.slrcl o) := by
  refine trip_of_row (op := _) (cls := _) rfl rfl fun h => ?_
  have h := fmt_of_wellFormed rfl h
  simp [shapeSlrcl] at h
  simp [longRow, class15Row, h]
theorem Laws.RoundTrip.qlink (o : LF) : Laws.RoundTrip.Statement (.qlink o) := by
  refine trip_of_row (op := _) (cls := _) rfl rfl fun h => ?_
  have h := fmt_of_wellFormed rfl h
  simp [shapeQlink] at h
  simp [longRow, class15Row, h]
theorem Laws.RoundTrip.tset (o : LF) : Laws.RoundTrip.Statement (.tset o) := by
  refine trip_of_row (op := _) (cls := _) rfl rfl fun h => ?_
  have h := fmt_of_wellFormed rfl h
  simp [shapeTset] at h
  simp [longRow, class15Row, h]
theorem Laws.RoundTrip.tadj (o : LF) : Laws.RoundTrip.Statement (.tadj o) := by
  refine trip_of_row (op := _) (cls := _) rfl rfl fun h => ?_
  have h := fmt_of_wellFormed rfl h
  simp [shapeTadj] at h
  simp [longRow, class15Row, h]
theorem Laws.RoundTrip.errpost (o : LF) : Laws.RoundTrip.Statement (.errpost o) := by
  refine trip_of_row (op := _) (cls := _) rfl rfl fun h => ?_
  have h := fmt_of_wellFormed rfl h
  simp [shapeErrpost] at h
  rcases h with h | h | h <;> simp [longRow, class15Row, h]
theorem Laws.RoundTrip.stmp (o : LF) : Laws.RoundTrip.Statement (.stmp o) := by
  refine trip_of_row (op := _) (cls := _) rfl rfl fun h => ?_
  have h := fmt_of_wellFormed rfl h
  simp [shapeStmp] at h
  simp [longRow, class15Row, h]
theorem Laws.RoundTrip.tresmResume (o : LF) : Laws.RoundTrip.Statement (.tresmResume o) := by
  refine trip_of_row (op := _) (cls := _) rfl rfl fun h => ?_
  have h := fmt_of_wellFormed rfl h
  simp [shapeTresmResume] at h
  simp [longRow, class15Row, h]
theorem Laws.RoundTrip.tresmRestart (o : LF) : Laws.RoundTrip.Statement (.tresmRestart o) := by
  refine trip_of_row (op := _) (cls := _) rfl rfl fun h => ?_
  have h := fmt_of_wellFormed rfl h
  simp [shapeTresmRestart] at h
  simp [longRow, class15Row, h]
theorem Laws.RoundTrip.tresmStep (o : LF) : Laws.RoundTrip.Statement (.tresmStep o) := by
  refine trip_of_row (op := _) (cls := _) rfl rfl fun h => ?_
  have h := fmt_of_wellFormed rfl h
  simp [shapeTresmStep] at h
  simp [longRow, class15Row, h]
theorem Laws.RoundTrip.tresmAbandon (o : LF) : Laws.RoundTrip.Statement (.tresmAbandon o) := by
  refine trip_of_row (op := _) (cls := _) rfl rfl fun h => ?_
  have h := fmt_of_wellFormed rfl h
  simp [shapeTresmAbandon] at h
  simp [longRow, class15Row, h]
theorem Laws.RoundTrip.tresmRel (o : LF) : Laws.RoundTrip.Statement (.tresmRel o) := by
  refine trip_of_row (op := _) (cls := _) rfl rfl fun h => ?_
  have h := fmt_of_wellFormed rfl h
  simp [shapeTresmRel] at h
  simp [longRow, class15Row, h]
theorem Laws.RoundTrip.tresmSvc (o : LF) : Laws.RoundTrip.Statement (.tresmSvc o) := by
  refine trip_of_row (op := _) (cls := _) rfl rfl fun h => ?_
  have h := fmt_of_wellFormed rfl h
  simp [shapeTresmSvc] at h
  simp [longRow, class15Row, h]
theorem Laws.RoundTrip.tcanc (o : LF) : Laws.RoundTrip.Statement (.tcanc o) := by
  refine trip_of_row (op := _) (cls := _) rfl rfl fun h => ?_
  have h := fmt_of_wellFormed rfl h
  simp [shapeTcanc] at h
  simp [longRow, class15Row, h]
theorem Laws.RoundTrip.bldBShort (rd : Reg) (rs1 : Reg) (imm : BitVec 12) : Laws.RoundTrip.Statement (.bldBShort rd rs1 imm) :=
  trip_of_word rfl rfl (by simp) fun h => by simp [decode32, decodeCustom0]
theorem Laws.RoundTrip.bldHShort (rd : Reg) (rs1 : Reg) (imm : BitVec 12) : Laws.RoundTrip.Statement (.bldHShort rd rs1 imm) :=
  trip_of_word rfl rfl (by simp) fun h => by simp [decode32, decodeCustom0]
theorem Laws.RoundTrip.bldWShort (rd : Reg) (rs1 : Reg) (imm : BitVec 12) : Laws.RoundTrip.Statement (.bldWShort rd rs1 imm) :=
  trip_of_word rfl rfl (by simp) fun h => by simp [decode32, decodeCustom0]
theorem Laws.RoundTrip.bldDShort (rd : Reg) (rs1 : Reg) (imm : BitVec 12) : Laws.RoundTrip.Statement (.bldDShort rd rs1 imm) :=
  trip_of_word rfl rfl (by simp) fun h => by simp [decode32, decodeCustom0]
theorem Laws.RoundTrip.bstBShort (rs1 : Reg) (rs2 : Reg) (imm : BitVec 12) : Laws.RoundTrip.Statement (.bstBShort rs1 rs2 imm) :=
  trip_of_word rfl rfl (by simp) fun h => by simp [decode32, decodeCustom0]
theorem Laws.RoundTrip.bstHShort (rs1 : Reg) (rs2 : Reg) (imm : BitVec 12) : Laws.RoundTrip.Statement (.bstHShort rs1 rs2 imm) :=
  trip_of_word rfl rfl (by simp) fun h => by simp [decode32, decodeCustom0]
theorem Laws.RoundTrip.bstWShort (rs1 : Reg) (rs2 : Reg) (imm : BitVec 12) : Laws.RoundTrip.Statement (.bstWShort rs1 rs2 imm) :=
  trip_of_word rfl rfl (by simp) fun h => by simp [decode32, decodeCustom0]
theorem Laws.RoundTrip.bstDShort (rs1 : Reg) (rs2 : Reg) (imm : BitVec 12) : Laws.RoundTrip.Statement (.bstDShort rs1 rs2 imm) :=
  trip_of_word rfl rfl (by simp) fun h => by simp [decode32, decodeCustom0]
theorem Laws.RoundTrip.acqShort (rd : Reg) (rs1 : Reg) (rs2 : Reg) : Laws.RoundTrip.Statement (.acqShort rd rs1 rs2) :=
  trip_of_word rfl rfl (by simp) fun h => by simp [decode32, decodeCustom1, custom1Row, Instr.hasShortFields, h]
theorem Laws.RoundTrip.acqShShort (rd : Reg) (rs1 : Reg) (rs2 : Reg) : Laws.RoundTrip.Statement (.acqShShort rd rs1 rs2) :=
  trip_of_word rfl rfl (by simp) fun h => by simp [decode32, decodeCustom1, custom1Row, Instr.hasShortFields, h]
theorem Laws.RoundTrip.relShort (rd : Reg) (rs1 : Reg) (rs2 : Reg) : Laws.RoundTrip.Statement (.relShort rd rs1 rs2) :=
  trip_of_word rfl rfl (by simp) fun h => by simp [decode32, decodeCustom1, custom1Row, Instr.hasShortFields, h]
theorem Laws.RoundTrip.pmrdShort (rd : Reg) (rs1 : Reg) (rs2 : Reg) : Laws.RoundTrip.Statement (.pmrdShort rd rs1 rs2) :=
  trip_of_word rfl rfl (by simp) fun h => by simp [decode32, decodeCustom1, custom1Row, Instr.hasShortFields, h]
theorem Laws.RoundTrip.pmwaitShort (rd : Reg) (rs1 : Reg) (rs2 : Reg) : Laws.RoundTrip.Statement (.pmwaitShort rd rs1 rs2) :=
  trip_of_word rfl rfl (by simp) fun h => by simp [decode32, decodeCustom1, custom1Row, Instr.hasShortFields, h]
theorem Laws.RoundTrip.phresShort (rd : Reg) (rs1 : Reg) (rs2 : Reg) : Laws.RoundTrip.Statement (.phresShort rd rs1 rs2) :=
  trip_of_word rfl rfl (by simp) fun h => by simp [decode32, decodeCustom1, custom1Row, Instr.hasShortFields, h]
theorem Laws.RoundTrip.phpostShort (rd : Reg) (rs1 : Reg) (rs2 : Reg) : Laws.RoundTrip.Statement (.phpostShort rd rs1 rs2) :=
  trip_of_word rfl rfl (by simp) fun h => by simp [decode32, decodeCustom1, custom1Row, Instr.hasShortFields, h]
theorem Laws.RoundTrip.phtakeShort (rd : Reg) (rs1 : Reg) (rs2 : Reg) : Laws.RoundTrip.Statement (.phtakeShort rd rs1 rs2) :=
  trip_of_word rfl rfl (by simp) fun h => by simp [decode32, decodeCustom1, custom1Row, Instr.hasShortFields, h]
theorem Laws.RoundTrip.phgiveShort (rd : Reg) (rs1 : Reg) (rs2 : Reg) : Laws.RoundTrip.Statement (.phgiveShort rd rs1 rs2) :=
  trip_of_word rfl rfl (by simp) fun h => by simp [decode32, decodeCustom1, custom1Row, Instr.hasShortFields, h]
theorem Laws.RoundTrip.phstatShort (rd : Reg) (rs1 : Reg) (rs2 : Reg) : Laws.RoundTrip.Statement (.phstatShort rd rs1 rs2) :=
  trip_of_word rfl rfl (by simp) fun h => by simp [decode32, decodeCustom1, custom1Row, Instr.hasShortFields, h]
theorem Laws.RoundTrip.tqputShort (rd : Reg) (rs1 : Reg) (rs2 : Reg) : Laws.RoundTrip.Statement (.tqputShort rd rs1 rs2) :=
  trip_of_word rfl rfl (by simp) fun h => by simp [decode32, decodeCustom1, custom1Row, Instr.hasShortFields, h]
theorem Laws.RoundTrip.tqgetShort (rd : Reg) (rs1 : Reg) (rs2 : Reg) : Laws.RoundTrip.Statement (.tqgetShort rd rs1 rs2) :=
  trip_of_word rfl rfl (by simp) fun h => by simp [decode32, decodeCustom1, custom1Row, Instr.hasShortFields, h]
theorem Laws.RoundTrip.tqgetPkShort (rd : Reg) (rs1 : Reg) (rs2 : Reg) : Laws.RoundTrip.Statement (.tqgetPkShort rd rs1 rs2) :=
  trip_of_word rfl rfl (by simp) fun h => by simp [decode32, decodeCustom1, custom1Row, Instr.hasShortFields, h]
theorem Laws.RoundTrip.vdistShort (rd : Reg) (rs1 : Reg) (rs2 : Reg) : Laws.RoundTrip.Statement (.vdistShort rd rs1 rs2) :=
  trip_of_word rfl rfl (by simp) fun h => by simp [decode32, decodeCustom1, custom1Row, Instr.hasShortFields, h]
theorem Laws.RoundTrip.specqShort (rd : Reg) (rs1 : Reg) (rs2 : Reg) : Laws.RoundTrip.Statement (.specqShort rd rs1 rs2) :=
  trip_of_word rfl rfl (by simp) fun h => by simp [decode32, decodeCustom1, custom1Row, Instr.hasShortFields, h]
theorem Laws.RoundTrip.kstatShort (rd : Reg) (rs1 : Reg) (rs2 : Reg) : Laws.RoundTrip.Statement (.kstatShort rd rs1 rs2) :=
  trip_of_word rfl rfl (by simp) fun h => by simp [decode32, decodeCustom1, custom1Row, Instr.hasShortFields, h]
theorem Laws.RoundTrip.lcrdShort (rd : Reg) (rs1 : Reg) (rs2 : Reg) : Laws.RoundTrip.Statement (.lcrdShort rd rs1 rs2) :=
  trip_of_word rfl rfl (by simp) fun h => by simp [decode32, decodeCustom1, custom1Row, Instr.hasShortFields, h]
theorem Laws.RoundTrip.lbrkShort (rd : Reg) (rs1 : Reg) (rs2 : Reg) : Laws.RoundTrip.Statement (.lbrkShort rd rs1 rs2) :=
  trip_of_word rfl rfl (by simp) fun h => by simp [decode32, decodeCustom1, custom1Row, Instr.hasShortFields, h]
theorem Laws.RoundTrip.fmtselShort (rd : Reg) (rs1 : Reg) (rs2 : Reg) : Laws.RoundTrip.Statement (.fmtselShort rd rs1 rs2) :=
  trip_of_word rfl rfl (by simp) fun h => by simp [decode32, decodeCustom1, custom1Row, Instr.hasShortFields, h]
theorem Laws.RoundTrip.fmtgetShort (rd : Reg) (rs1 : Reg) (rs2 : Reg) : Laws.RoundTrip.Statement (.fmtgetShort rd rs1 rs2) :=
  trip_of_word rfl rfl (by simp) fun h => by simp [decode32, decodeCustom1, custom1Row, Instr.hasShortFields, h]
theorem Laws.RoundTrip.mgetShort (rd : Reg) (rs1 : Reg) (rs2 : Reg) : Laws.RoundTrip.Statement (.mgetShort rd rs1 rs2) :=
  trip_of_word rfl rfl (by simp) fun h => by simp [decode32, decodeCustom1, custom1Row, Instr.hasShortFields, h]
theorem Laws.RoundTrip.mpushShort (rd : Reg) (rs1 : Reg) (rs2 : Reg) : Laws.RoundTrip.Statement (.mpushShort rd rs1 rs2) :=
  trip_of_word rfl rfl (by simp) fun h => by simp [decode32, decodeCustom1, custom1Row, Instr.hasShortFields, h]
theorem Laws.RoundTrip.wenterShort (rd : Reg) (rs1 : Reg) (rs2 : Reg) : Laws.RoundTrip.Statement (.wenterShort rd rs1 rs2) :=
  trip_of_word rfl rfl (by simp) fun h => by simp [decode32, decodeCustom1, custom1Row, Instr.hasShortFields, h]
theorem Laws.RoundTrip.nbcanShort (rd : Reg) (rs1 : Reg) (rs2 : Reg) : Laws.RoundTrip.Statement (.nbcanShort rd rs1 rs2) :=
  trip_of_word rfl rfl (by simp) fun h => by simp [decode32, decodeCustom1, custom1Row, Instr.hasShortFields, h]
theorem Laws.RoundTrip.tabortShort (rd : Reg) (rs1 : Reg) (rs2 : Reg) : Laws.RoundTrip.Statement (.tabortShort rd rs1 rs2) :=
  trip_of_word rfl rfl (by simp) fun h => by simp [decode32, decodeCustom1, custom1Row, Instr.hasShortFields, h]
theorem Laws.RoundTrip.scrubShort (rd : Reg) (rs1 : Reg) (rs2 : Reg) : Laws.RoundTrip.Statement (.scrubShort rd rs1 rs2) :=
  trip_of_word rfl rfl (by simp) fun h => by simp [decode32, decodeCustom1, custom1Row, Instr.hasShortFields, h]
theorem Laws.RoundTrip.hadvShort (rd : Reg) (rs1 : Reg) (rs2 : Reg) : Laws.RoundTrip.Statement (.hadvShort rd rs1 rs2) :=
  trip_of_word rfl rfl (by simp) fun h => by simp [decode32, decodeCustom1, custom1Row, Instr.hasShortFields, h]
theorem Laws.RoundTrip.tenqShort (rd : Reg) (rs1 : Reg) (rs2 : Reg) : Laws.RoundTrip.Statement (.tenqShort rd rs1 rs2) :=
  trip_of_word rfl rfl (by simp) fun h => by simp [decode32, decodeCustom1, custom1Row, Instr.hasShortFields, h]
theorem Laws.RoundTrip.ecall : Laws.RoundTrip.Statement (.ecall) := trip_of_word rfl rfl (by decide) fun _ => by decide
theorem Laws.RoundTrip.ebreak : Laws.RoundTrip.Statement (.ebreak) := trip_of_word rfl rfl (by decide) fun _ => by decide
theorem Laws.RoundTrip.tlbirAck : Laws.RoundTrip.Statement (.tlbirAck) := trip_of_event rfl rfl
theorem Laws.RoundTrip.tendShort : Laws.RoundTrip.Statement (.tendShort) :=
  trip_of_word rfl rfl (by simp) fun h => by simp [decode32, decodeCustom1, custom1Row, Instr.hasShortFields, h]
theorem Laws.RoundTrip.tyieldShort : Laws.RoundTrip.Statement (.tyieldShort) :=
  trip_of_word rfl rfl (by simp) fun h => by simp [decode32, decodeCustom1, custom1Row, Instr.hasShortFields, h]
theorem Laws.RoundTrip.minvShort : Laws.RoundTrip.Statement (.minvShort) :=
  trip_of_word rfl rfl (by simp) fun h => by simp [decode32, decodeCustom1, custom1Row, Instr.hasShortFields, h]
theorem Laws.RoundTrip.mpopShort : Laws.RoundTrip.Statement (.mpopShort) :=
  trip_of_word rfl rfl (by simp) fun h => by simp [decode32, decodeCustom1, custom1Row, Instr.hasShortFields, h]
theorem Laws.RoundTrip.wleaveShort : Laws.RoundTrip.Statement (.wleaveShort) :=
  trip_of_word rfl rfl (by simp) fun h => by simp [decode32, decodeCustom1, custom1Row, Instr.hasShortFields, h]
theorem Laws.RoundTrip.landing : Laws.RoundTrip.Statement (.landing) := trip_of_event rfl rfl
theorem Laws.RoundTrip.trap : Laws.RoundTrip.Statement (.trap) := trip_of_event rfl rfl
theorem Laws.RoundTrip.launchAccept : Laws.RoundTrip.Statement (.launchAccept) := trip_of_event rfl rfl
theorem Laws.RoundTrip.hostLaunchSubmit : Laws.RoundTrip.Statement (.hostLaunchSubmit) := trip_of_event rfl rfl
theorem Laws.RoundTrip.quantumTick : Laws.RoundTrip.Statement (.quantumTick) := trip_of_event rfl rfl
theorem Laws.RoundTrip.dispatch : Laws.RoundTrip.Statement (.dispatch) := trip_of_event rfl rfl
theorem Laws.RoundTrip.tokenRefill : Laws.RoundTrip.Statement (.tokenRefill) := trip_of_event rfl rfl
theorem Laws.RoundTrip.taskStart : Laws.RoundTrip.Statement (.taskStart) := trip_of_event rfl rfl
theorem Laws.RoundTrip.taskComplete : Laws.RoundTrip.Statement (.taskComplete) := trip_of_event rfl rfl
theorem Laws.RoundTrip.speculativeStart : Laws.RoundTrip.Statement (.speculativeStart) := trip_of_event rfl rfl
theorem Laws.RoundTrip.assayNotice : Laws.RoundTrip.Statement (.assayNotice) := trip_of_event rfl rfl
theorem Laws.RoundTrip.assayVerdict : Laws.RoundTrip.Statement (.assayVerdict) := trip_of_event rfl rfl
theorem Laws.RoundTrip.proofStoreTimeout : Laws.RoundTrip.Statement (.proofStoreTimeout) := trip_of_event rfl rfl
theorem Laws.RoundTrip.teamSwap : Laws.RoundTrip.Statement (.teamSwap) := trip_of_event rfl rfl
theorem Laws.RoundTrip.swapRequeue : Laws.RoundTrip.Statement (.swapRequeue) := trip_of_event rfl rfl
theorem Laws.RoundTrip.hangTimeout : Laws.RoundTrip.Statement (.hangTimeout) := trip_of_event rfl rfl
theorem Laws.RoundTrip.firmwareWatchdog : Laws.RoundTrip.Statement (.firmwareWatchdog) := trip_of_event rfl rfl
theorem Laws.RoundTrip.preempt : Laws.RoundTrip.Statement (.preempt) := trip_of_event rfl rfl
theorem Laws.RoundTrip.drainTimeout : Laws.RoundTrip.Statement (.drainTimeout) := trip_of_event rfl rfl
theorem Laws.RoundTrip.saveComplete : Laws.RoundTrip.Statement (.saveComplete) := trip_of_event rfl rfl
theorem Laws.RoundTrip.checkpointDue : Laws.RoundTrip.Statement (.checkpointDue) := trip_of_event rfl rfl
theorem Laws.RoundTrip.checkpointTaken : Laws.RoundTrip.Statement (.checkpointTaken) := trip_of_event rfl rfl
theorem Laws.RoundTrip.gangSwitch : Laws.RoundTrip.Statement (.gangSwitch) := trip_of_event rfl rfl
theorem Laws.RoundTrip.gangVote : Laws.RoundTrip.Statement (.gangVote) := trip_of_event rfl rfl
theorem Laws.RoundTrip.gangVoteDeadline : Laws.RoundTrip.Statement (.gangVoteDeadline) := trip_of_event rfl rfl
theorem Laws.RoundTrip.gangResetDeadline : Laws.RoundTrip.Statement (.gangResetDeadline) := trip_of_event rfl rfl
theorem Laws.RoundTrip.cacheEviction : Laws.RoundTrip.Statement (.cacheEviction) := trip_of_event rfl rfl
theorem Laws.RoundTrip.copyComplete : Laws.RoundTrip.Statement (.copyComplete) := trip_of_event rfl rfl
theorem Laws.RoundTrip.syncGrant : Laws.RoundTrip.Statement (.syncGrant) := trip_of_event rfl rfl
theorem Laws.RoundTrip.nbqAccept : Laws.RoundTrip.Statement (.nbqAccept) := trip_of_event rfl rfl
theorem Laws.RoundTrip.nbEngineRecord : Laws.RoundTrip.Statement (.nbEngineRecord) := trip_of_event rfl rfl
theorem Laws.RoundTrip.nbSummary : Laws.RoundTrip.Statement (.nbSummary) := trip_of_event rfl rfl
theorem Laws.RoundTrip.sameBankRefresh : Laws.RoundTrip.Statement (.sameBankRefresh) := trip_of_event rfl rfl
theorem Laws.RoundTrip.collArrival : Laws.RoundTrip.Statement (.collArrival) := trip_of_event rfl rfl
theorem Laws.RoundTrip.homeRead : Laws.RoundTrip.Statement (.homeRead) := trip_of_event rfl rfl
theorem Laws.RoundTrip.homeWrite : Laws.RoundTrip.Statement (.homeWrite) := trip_of_event rfl rfl
theorem Laws.RoundTrip.blockUnlock : Laws.RoundTrip.Statement (.blockUnlock) := trip_of_event rfl rfl
theorem Laws.RoundTrip.homeAtomic : Laws.RoundTrip.Statement (.homeAtomic) := trip_of_event rfl rfl
theorem Laws.RoundTrip.errorScrub : Laws.RoundTrip.Statement (.errorScrub) := trip_of_event rfl rfl
theorem Laws.RoundTrip.completion : Laws.RoundTrip.Statement (.completion) := trip_of_event rfl rfl
theorem Laws.RoundTrip.acknowledgementToken : Laws.RoundTrip.Statement (.acknowledgementToken) := trip_of_event rfl rfl
theorem Laws.RoundTrip.directoryMessage : Laws.RoundTrip.Statement (.directoryMessage) := trip_of_event rfl rfl
theorem Laws.RoundTrip.managementMessage : Laws.RoundTrip.Statement (.managementMessage) := trip_of_event rfl rfl
theorem Laws.RoundTrip.burstTag : Laws.RoundTrip.Statement (.burstTag) := trip_of_event rfl rfl
theorem Laws.RoundTrip.replayRequest : Laws.RoundTrip.Statement (.replayRequest) := trip_of_event rfl rfl
theorem Laws.RoundTrip.linkDown : Laws.RoundTrip.Statement (.linkDown) := trip_of_event rfl rfl
theorem Laws.RoundTrip.linkUp : Laws.RoundTrip.Statement (.linkUp) := trip_of_event rfl rfl
theorem Laws.RoundTrip.orphanTimeout : Laws.RoundTrip.Statement (.orphanTimeout) := trip_of_event rfl rfl
theorem Laws.RoundTrip.timeExchangeTick : Laws.RoundTrip.Statement (.timeExchangeTick) := trip_of_event rfl rfl
theorem Laws.RoundTrip.timeExchange : Laws.RoundTrip.Statement (.timeExchange) := trip_of_event rfl rfl
theorem Laws.RoundTrip.pageWalk : Laws.RoundTrip.Statement (.pageWalk) := trip_of_event rfl rfl
theorem Laws.RoundTrip.recallDeadline : Laws.RoundTrip.Statement (.recallDeadline) := trip_of_event rfl rfl
theorem Laws.RoundTrip.recallReturn : Laws.RoundTrip.Statement (.recallReturn) := trip_of_event rfl rfl
theorem Laws.RoundTrip.notificationPop : Laws.RoundTrip.Statement (.notificationPop) := trip_of_event rfl rfl
theorem Laws.RoundTrip.apertureRead : Laws.RoundTrip.Statement (.apertureRead) := trip_of_event rfl rfl
theorem Laws.RoundTrip.apertureWrite : Laws.RoundTrip.Statement (.apertureWrite) := trip_of_event rfl rfl
theorem Laws.RoundTrip.mgmtClaim : Laws.RoundTrip.Statement (.mgmtClaim) := trip_of_event rfl rfl
theorem Laws.RoundTrip.mgmtHandover : Laws.RoundTrip.Statement (.mgmtHandover) := trip_of_event rfl rfl
theorem Laws.RoundTrip.handoverTimeout : Laws.RoundTrip.Statement (.handoverTimeout) := trip_of_event rfl rfl
theorem Laws.RoundTrip.bmcSilenceTimeout : Laws.RoundTrip.Statement (.bmcSilenceTimeout) := trip_of_event rfl rfl
theorem Laws.RoundTrip.hostLinkDown : Laws.RoundTrip.Statement (.hostLinkDown) := trip_of_event rfl rfl
theorem Laws.RoundTrip.pkgcfgLock : Laws.RoundTrip.Statement (.pkgcfgLock) := trip_of_event rfl rfl
theorem Laws.RoundTrip.diestatClear : Laws.RoundTrip.Statement (.diestatClear) := trip_of_event rfl rfl
theorem Laws.RoundTrip.registerWrite : Laws.RoundTrip.Statement (.registerWrite) := trip_of_event rfl rfl
theorem Laws.RoundTrip.partitionRequest : Laws.RoundTrip.Statement (.partitionRequest) := trip_of_event rfl rfl
theorem Laws.RoundTrip.bdtWrite : Laws.RoundTrip.Statement (.bdtWrite) := trip_of_event rfl rfl
theorem Laws.RoundTrip.schedBlockWrite : Laws.RoundTrip.Statement (.schedBlockWrite) := trip_of_event rfl rfl
theorem Laws.RoundTrip.poolFrameAdd : Laws.RoundTrip.Statement (.poolFrameAdd) := trip_of_event rfl rfl
theorem Laws.RoundTrip.tenantSet : Laws.RoundTrip.Statement (.tenantSet) := trip_of_event rfl rfl
theorem Laws.RoundTrip.getTdispVersion : Laws.RoundTrip.Statement (.getTdispVersion) := trip_of_event rfl rfl
theorem Laws.RoundTrip.getTdispCapabilities : Laws.RoundTrip.Statement (.getTdispCapabilities) := trip_of_event rfl rfl
theorem Laws.RoundTrip.lockInterfaceRequest : Laws.RoundTrip.Statement (.lockInterfaceRequest) := trip_of_event rfl rfl
theorem Laws.RoundTrip.getDeviceInterfaceReport : Laws.RoundTrip.Statement (.getDeviceInterfaceReport) := trip_of_event rfl rfl
theorem Laws.RoundTrip.getDeviceInterfaceState : Laws.RoundTrip.Statement (.getDeviceInterfaceState) := trip_of_event rfl rfl
theorem Laws.RoundTrip.startInterfaceRequest : Laws.RoundTrip.Statement (.startInterfaceRequest) := trip_of_event rfl rfl
theorem Laws.RoundTrip.stopInterfaceRequest : Laws.RoundTrip.Statement (.stopInterfaceRequest) := trip_of_event rfl rfl
theorem Laws.RoundTrip.ideKm : Laws.RoundTrip.Statement (.ideKm) := trip_of_event rfl rfl
theorem Laws.RoundTrip.ideStreamFailure : Laws.RoundTrip.Statement (.ideStreamFailure) := trip_of_event rfl rfl
theorem Laws.RoundTrip.getVersion : Laws.RoundTrip.Statement (.getVersion) := trip_of_event rfl rfl
theorem Laws.RoundTrip.getCapabilities : Laws.RoundTrip.Statement (.getCapabilities) := trip_of_event rfl rfl
theorem Laws.RoundTrip.negotiateAlgorithms : Laws.RoundTrip.Statement (.negotiateAlgorithms) := trip_of_event rfl rfl
theorem Laws.RoundTrip.getDigests : Laws.RoundTrip.Statement (.getDigests) := trip_of_event rfl rfl
theorem Laws.RoundTrip.getCertificate : Laws.RoundTrip.Statement (.getCertificate) := trip_of_event rfl rfl
theorem Laws.RoundTrip.challenge : Laws.RoundTrip.Statement (.challenge) := trip_of_event rfl rfl
theorem Laws.RoundTrip.getMeasurements : Laws.RoundTrip.Statement (.getMeasurements) := trip_of_event rfl rfl
theorem Laws.RoundTrip.keyExchange : Laws.RoundTrip.Statement (.keyExchange) := trip_of_event rfl rfl
theorem Laws.RoundTrip.finish : Laws.RoundTrip.Statement (.finish) := trip_of_event rfl rfl
theorem Laws.RoundTrip.endSession : Laws.RoundTrip.Statement (.endSession) := trip_of_event rfl rfl
theorem Laws.RoundTrip.joinHello : Laws.RoundTrip.Statement (.joinHello) := trip_of_event rfl rfl
theorem Laws.RoundTrip.joinReply : Laws.RoundTrip.Statement (.joinReply) := trip_of_event rfl rfl
theorem Laws.RoundTrip.joinFinish : Laws.RoundTrip.Statement (.joinFinish) := trip_of_event rfl rfl
theorem Laws.RoundTrip.joinDone : Laws.RoundTrip.Statement (.joinDone) := trip_of_event rfl rfl
theorem Laws.RoundTrip.joinTimeout : Laws.RoundTrip.Statement (.joinTimeout) := trip_of_event rfl rfl
theorem Laws.RoundTrip.ualinkTransaction : Laws.RoundTrip.Statement (.ualinkTransaction) := trip_of_event rfl rfl
theorem Laws.RoundTrip.powerUp : Laws.RoundTrip.Statement (.powerUp) := trip_of_event rfl rfl
theorem Laws.RoundTrip.moduleReset : Laws.RoundTrip.Statement (.moduleReset) := trip_of_event rfl rfl
theorem Laws.RoundTrip.thermalCapStep : Laws.RoundTrip.Statement (.thermalCapStep) := trip_of_event rfl rfl
theorem Laws.RoundTrip.thermalTrip : Laws.RoundTrip.Statement (.thermalTrip) := trip_of_event rfl rfl
theorem Laws.RoundTrip.timeUnlockTimeout : Laws.RoundTrip.Statement (.timeUnlockTimeout) := trip_of_event rfl rfl
theorem Laws.RoundTrip.reservePoolRefill : Laws.RoundTrip.Statement (.reservePoolRefill) := trip_of_event rfl rfl
theorem Laws.RoundTrip.queueDescWrite : Laws.RoundTrip.Statement (.queueDescWrite) := trip_of_event rfl rfl
theorem Laws.RoundTrip.contextDescWrite : Laws.RoundTrip.Statement (.contextDescWrite) := trip_of_event rfl rfl
theorem Laws.RoundTrip.apertureTableWrite : Laws.RoundTrip.Statement (.apertureTableWrite) := trip_of_event rfl rfl
theorem Laws.RoundTrip.dieReset : Laws.RoundTrip.Statement (.dieReset) := trip_of_event rfl rfl
theorem Laws.RoundTrip.dieReturn : Laws.RoundTrip.Statement (.dieReturn) := trip_of_event rfl rfl
theorem Laws.RoundTrip.ualinkLaneFault : Laws.RoundTrip.Statement (.ualinkLaneFault) := trip_of_event rfl rfl

end

end Sys2Proof
end

