-- ==== Sys2Proof/Laws/Retire.lean ====
section
/-! SUPPORT. What the end of an instruction can change: the landing of due results, the issue cycle, the loops, the pc, and the
stop of a stepped member. Each law gives the whole state after, so that every frame follows from it. -/

namespace Sys2Proof.Machine

/-! ### Landings and issue cycles -/

/-- The parts of a team that landing results may change. -/
def Team.Landed (t u : Team) : Prop :=
  ∃ vf st sp acc h by_ fl fn debt, u = { t with vfile := vf, stale := st, spilled := sp, acc := acc, h := h, bypass := by_, flags := fl,
                                                flagsNow := fn, debt := debt }

theorem Team.Landed.refl (t : Team) : t.Landed t := ⟨_, _, _, _, _, _, _, _, _, rfl⟩

theorem Team.Landed.trans {t u v : Team} (h : t.Landed u) (k : u.Landed v) : t.Landed v := by
  obtain ⟨_, _, _, _, _, _, _, _, _, rfl⟩ := h
  obtain ⟨_, _, _, _, _, _, _, _, _, rfl⟩ := k
  exact ⟨_, _, _, _, _, _, _, _, _, rfl⟩

theorem Team.landWrite_landed (t : Team) (w : LWrite) : t.Landed (t.landWrite w) := by
  cases w with
  | v a val mask =>
    simp only [Team.landWrite, Team.vfileSet, Team.fileSet]
    split <;> exact ⟨_, _, _, _, _, _, _, _, _, rfl⟩
  | acc i val => exact ⟨_, _, _, _, _, _, _, _, _, rfl⟩
  | h i val mask => exact ⟨_, _, _, _, _, _, _, _, _, rfl⟩

theorem Team.landWrites_landed (ws : List LWrite) (t : Team) : t.Landed (ws.foldl Team.landWrite t) := by
  induction ws generalizing t with
  | nil => exact .refl t
  | cons w ws ih => exact (t.landWrite_landed w).trans (ih _)

theorem Team.landOne_landed (t : Team) (e : Landing) : t.Landed (t.landOne e) := by
  have end_ (u : Team) (h : t.Landed u) (fl fn : BitVec 6) (d : Nat) : t.Landed { u with flags := fl, flagsNow := fn, debt := d } :=
    h.trans ⟨_, _, _, _, _, _, _, _, _, rfl⟩
  refine end_ _ ?_ _ _ _
  split
  · exact Team.landWrites_landed e.writes t
  · dsimp only
    split
    · exact Team.landWrites_landed _ t
    · exact (Team.landWrites_landed _ t).trans ⟨_, _, _, _, _, _, _, _, _, rfl⟩

theorem Team.landAll_landed (es : List Landing) (t : Team) : t.Landed (es.foldl Team.landOne t) := by
  induction es generalizing t with
  | nil => exact .refl t
  | cons e es ih => exact (t.landOne_landed e).trans (ih _)

/-- The pending results after an issue cycle: those not yet due, one cycle nearer (04 R59, R61). -/
theorem Team.tick_landings (t : Team) :
    t.tick.landings = (t.landings.map Landing.age).filter fun e => e.delay != 0 := by
  obtain ⟨_, _, _, _, _, _, _, _, _, h⟩ := Team.landAll_landed t.age.due
    { t.age with landings := t.age.landings.filter fun e => e.delay != 0 }
  exact congrArg Team.landings h

/-- Everything an issue cycle may change in a team. -/
theorem Team.tick_eq (t : Team) :
    ∃ vf st sp acc h by_ fl fn debt ls c m, t.tick =
      { t with vfile := vf, stale := st, spilled := sp, acc := acc, h := h, bypass := by_, flags := fl, flagsNow := fn, debt := debt,
               landings := ls, clock := c, matBusy := m } := by
  obtain ⟨_, _, _, _, _, _, _, _, _, h⟩ := Team.landAll_landed t.age.due
    { t.age with landings := t.age.landings.filter fun e => e.delay != 0 }
  exact ⟨_, _, _, _, _, _, _, _, _, _, _, _, h⟩

/-- Everything the loops of 11 R216 may change in a team. -/
theorem Team.backEdge_eq (k : Nat) (t : Team) (pc : Nat) : ∃ lc ls, (t.backEdge k pc).1 = { t with lc := lc, loops := ls } := by
  induction k generalizing t pc with
  | zero => exact ⟨_, _, rfl⟩
  | succ k ih =>
    unfold Team.backEdge
    cases h : t.loops with
    | nil => exact ⟨t.lc, [], by simp [← h]⟩
    | cons n rest =>
      simp only
      split
      · split
        · refine ⟨(t.setLoop n { t.loopOf n with count := (t.loopOf n).count + 1 }).lc, n :: rest, ?_⟩
          rw [← h]
          rfl
        · obtain ⟨a, b, e⟩ := ih { t.setLoop n { t.loopOf n with active := false } with loops := rest } pc
          exact ⟨a, b, e⟩
      · exact ⟨t.lc, n :: rest, by simp only [← h]⟩

/-- Without an active loop an instruction's next pc is where it goes (11 R216). -/
theorem Team.backEdge_nil (k : Nat) (t : Team) (pc : Nat) (h : t.loops = []) : t.backEdge k pc = (t, pc) := by
  cases k <;> simp [Team.backEdge, h]

theorem State.completePm_eq (s : State) (cid vdie cls n : Nat) : ∃ p, s.completePm cid vdie cls n = { s with postmarks := p } :=
  ⟨_, rfl⟩

theorem State.completePms_eq (ns : List Nat) (cid vdie cls : Nat) (s : State) :
    ∃ p, ns.foldl (fun u n => u.completePm cid vdie cls n) s = { s with postmarks := p } := by
  induction ns generalizing s with
  | nil => exact ⟨_, rfl⟩
  | cons n ns ih =>
    obtain ⟨p, h⟩ := ih (s.completePm cid vdie cls n)
    exact ⟨p, by simp only [List.foldl_cons, h]; rfl⟩

/-- An issue cycle of the focused team (04 R61, 05 R84). -/
theorem State.tickTeam_eq (s : State) (t : Team) : ∃ p, s.tickTeam t = { s.setTeam t.tick with postmarks := p } := by
  unfold State.tickTeam
  cases s.cur.spec
  · exact State.completePms_eq _ _ _ _ _
  · exact ⟨_, rfl⟩

theorem State.drainCycle_eq (s : State) : ∃ p, s.drainCycle = { s.setTeam s.cur.team.tick with postmarks := p } :=
  s.tickTeam_eq _

/-! ### Retirement -/

/-- A hart's instruction ends: its pc moves, and it counts. -/
theorem State.retire_hart {s : State} {h : Fin 16} (hf : s.focus = .hart h) (pc : Word) :
    s.retire pc = s.setHart h { (s.hart h).retired with pc := pc, wait := none } := by
  unfold State.retire
  rw [hf]

theorem State.retire_member {s : State} {w : Who} (hf : s.focus = .member w) (pc : Word) :
    s.retire pc = { s.retireMember w pc.toNat with
      cur := { (s.retireMember w pc.toNat).cur with issuedAt := (s.retireMember w pc.toNat).hub.time, hung := 0 } } := by
  unfold State.retire
  rw [hf]

/-- A courier's instruction ends: its pc moves. -/
theorem State.retire_courier {s : State} {w : Who} (hf : s.focus = .member w) (hw : w ≠ .seq) (pc : Word) :
    s.retire pc = { s with cur := { s.cur with
      team := s.cur.team.setMember w { s.member w with pc := pc.toNat, wait := none }, issuedAt := s.hub.time, hung := 0 } } := by
  rw [State.retire_member hf]
  cases w
  · exact absurd rfl hw
  · rfl
  · rfl

/-- The sequencer's instruction ends: its loops turn, its pc moves and an issue cycle passes. -/
theorem State.retire_seq {s : State} (hf : s.focus = .member .seq) (pc : Word) :
    ∃ p, s.retire pc =
      let b := s.cur.team.backEdge 4 pc.toNat
      { s with postmarks := p,
               cur := { s.cur with team := ({ b.1 with seq := { b.1.seq with pc := b.2, wait := none } } : Team).tick,
                                   issuedAt := s.hub.time, hung := 0 } } := by
  let b := s.cur.team.backEdge 4 pc.toNat
  obtain ⟨p, h⟩ := s.tickTeam_eq { b.1 with seq := { b.1.seq with pc := b.2, wait := none } }
  refine ⟨p, ?_⟩
  rw [State.retire_member hf, show s.retireMember .seq pc.toNat = _ from h]
  rfl

/-- Nothing is posted at the end of an instruction whose member no debugger steps (18 R320). -/
theorem State.endStep_free {s : State} (h : s.cur.stepping = none) (a b : Word) : s.endStep a b = s := by
  unfold State.endStep
  cases s.focus <;> simp [h]

end Sys2Proof.Machine
end

