-- ==== Sys2Proof/Tests/Slice0.lean ====
section
/-! SUPPORT. Tests: words of the spec and of its encoding tables, ill-formed instructions, and, for every claim with premises, a
state and operands that meet them. -/

namespace Sys2Proof.Tests
open Sys2Proof Sys2Proof.Machine

set_option Elab.async false

/-- A long form, its fields from MOD down (08 R133). -/
def lf (sub m t grp fmt b a d : Nat) : LF :=
  { sub := BitVec.ofNat 6 sub, m := BitVec.ofNat 1 m, t := BitVec.ofNat 1 t, grp := BitVec.ofNat 2 grp,
    fmt := BitVec.ofNat 4 fmt, b := BitVec.ofNat 11 b, a := BitVec.ofNat 11 a, d := BitVec.ofNat 11 d }

/-- A long form that holds nothing but D, A and B. -/
def dab (d a b : Nat) : LF := lf 0 0 0 0 0 b a d

/-! ### Decoding -/

/-- 09 R155, the RV64I, M and Zicsr layouts, one word of each; the two CSR words are those of 09 R164. -/
theorem test_decode_base :
    decodeTableWord 32 0x000012B7 = some (.lui 5 1) ∧ decodeTableWord 32 0xFFFFF297 = some (.auipc 5 0xFFFFF) ∧
    decodeTableWord 32 0x008000EF = some (.jal 1 4) ∧ decodeTableWord 32 0x00008067 = some (.jalr 0 1 0) ∧
    decodeTableWord 32 0x00628463 = some (.beq 5 6 4) ∧ decodeTableWord 32 0xFE62CEE3 = some (.blt 5 6 0xFFE) ∧
    decodeTableWord 32 0xFFF2A303 = some (.lw 6 5 0xFFF) ∧ decodeTableWord 32 0x0062B423 = some (.sd 5 6 8) ∧
    decodeTableWord 32 0xFFF30293 = some (.addi 5 6 0xFFF) ∧ decodeTableWord 32 0x43F2D313 = some (.srai 6 5 63) ∧
    decodeTableWord 32 0x407302B3 = some (.sub 5 6 7) ∧ decodeTableWord 32 0x4073D2BB = some (.sraw 5 7 7) ∧
    decodeTableWord 32 0x027332B3 = some (.mulhu 5 6 7) ∧ decodeTableWord 32 0x800023F3 = some (.csrrs 7 0 0x800) ∧
    decodeTableWord 32 0x810022F3 = some (.csrrs 5 0 0x810) ∧ decodeTableWord 32 0x00000073 = some .ecall ∧
    decodeTableWord 32 0x00100073 = some .ebreak := by decide +kernel

/-- Words of classes 0 to 6 that chapters 08, 10, 15, 16 and 26 write out. -/
theorem test_decode_vector :
    decodeTableWord 64 0x024007006008183F = some (.vfma (lf 0 1 0 1 0 14 6 4)) ∧
    decodeTableWord 64 0x00C01C010000183F = some (.vfma (lf 0 0 0 3 0 56 16 0)) ∧
    decodeTableWord 64 0x064804004020003F = some (.vadd (lf 1 1 0 1 2 8 4 16)) ∧
    decodeTableWord 64 0x008C00000028013F = some (.vcvt (lf 0 0 0 2 3 0 0 20)) ∧
    decodeTableWord 64 0x04C000800010123F = some (.vslide (lf 1 0 0 3 0 1 0 8)) ∧
    decodeTableWord 64 0x00000380700E223F = some (.vmvx (dab 7 7 7)) ∧
    decodeTableWord 64 0x04402000501002BF = some (.vld (lf 1 0 0 1 0 64 5 8)) := by decide +kernel

/-- Words of classes 7 and 8 and their short forms, as chapters 11 and 14 write them out. -/
theorem test_decode_matrix :
    decodeTableWord 64 0x00080180200203BF = some (.mma (lf 0 0 0 0 2 3 2 1)) ∧
    decodeTableWord 64 0x0020028000020BBF = some (.mmac (lf 0 0 0 0 8 5 0 1)) ∧
    decodeTableWord 64 0x5C3C008000000BBF = some (.mmac (lf 23 0 0 0 15 1 0 0)) ∧
    decodeTableWord 64 0x000002805002843F = some (.loop (dab 1 5 5)) ∧
    decodeTableWord 64 0x000004800000C43F = some (.fmtset (dab 0 0 9)) ∧
    decodeTableWord 32 0x0010332B = some (.lcrdShort 6 0 1) ∧ decodeTableWord 32 0x0A11402B = some (.hadvShort 0 2 1) ∧
    decodeTableWord 32 0x0400B02B = some (.fmtselShort 0 1 0) := by decide +kernel

/-- Words of classes 9 to 13 and their short forms, as chapters 08, 12, 13, 14, 16, 26 and 27 write them out. -/
theorem test_decode_movement :
    decodeTableWord 64 0x34080380600A04BF = some (.cpld (lf 13 0 0 0 2 7 6 5)) ∧
    decodeTableWord 64 0x00000000E00A14BF = some (.cpgat (dab 5 14 0)) ∧
    decodeTableWord 64 0x8C000380600A153F = some (.bamo (lf 35 0 0 0 0 7 6 5)) ∧
    decodeTableWord 64 0x8C2004817000153F = some (.bamo (lf 35 0 0 0 8 9 23 0)) ∧
    decodeTableWord 64 0xFC00010000002DBF = some (.wait (lf 63 0 0 0 0 2 0 0)) ∧
    decodeTableWord 64 0x84000600700015BF = some (.frange (lf 33 0 0 0 0 12 7 0)) ∧
    decodeTableWord 64 0x00000000600A063F = some (.nbq (dab 5 6 0)) ∧
    decodeTableWord 64 0x24000000601026BF = some (.twait (lf 9 0 0 0 0 0 6 8)) ∧
    decodeTableWord 32 0x0103228B = some (.bldWShort 5 6 16) ∧ decodeTableWord 32 0x043013AB = some (.phtakeShort 7 0 3) ∧
    decodeTableWord 32 0x0600102B = some (.phgiveShort 0 0 0) ∧ decodeTableWord 32 0x0814802B = some (.pmwaitShort 0 9 1) ∧
    decodeTableWord 32 0x0C06402B = some (.tenqShort 0 12 0) ∧ decodeTableWord 32 0x0605402B = some (.tabortShort 0 10 0) ∧
    decodeTableWord 32 0x0200202B = some .tyieldShort ∧ decodeTableWord 32 0x0000202B = some .tendShort ∧
    decodeTableWord 32 0x060022AB = some (.specqShort 5 0 0) ∧ decodeTableWord 32 0x047322AB = some (.vdistShort 5 6 7) ∧
    decodeTableWord 32 0x080322AB = some (.kstatShort 5 6 0) ∧ decodeTableWord 32 0x0873402B = some (.scrubShort 0 6 7) := by
  decide +kernel

/-- Words of classes 14 and 15 that chapters 23 and 27 write out. -/
theorem test_decode_system :
    decodeTableWord 64 0x00000680600A073F = some (.krot (dab 5 6 13)) ∧
    decodeTableWord 64 0x000000015032173F = some (.sealImage (dab 25 21 0)) ∧
    decodeTableWord 64 0x00000001500A1F3F = some (.unsealImage (dab 5 21 0)) ∧
    decodeTableWord 64 0x0000068060002F3F = some (.mdead (dab 0 6 13)) ∧
    decodeTableWord 64 0x00000600B0147FBF = some (.tresmResume (dab 10 11 12)) ∧
    decodeTableWord 64 0x00000380600A27BF = some (.tlbir (dab 5 6 7)) := by decide +kernel

/-! ### What the checks refuse -/

/-- One ill-formed instruction for each field rule of check 4 of 08 R139: an unused field, a scalar register above 31, a
counter above 3, a pigeonhole above 15, a postmark class above 4, a format not accepted, a group on an instruction without one,
T and M where they are illegal, a reserved MOD value, and a short form's field. -/
theorem test_ill_formed :
    (Instr.vexp2 (lf 0 0 0 0 0 1 0 0)).wellFormed = false ∧ (Instr.vmvx (dab 32 0 0)).wellFormed = false ∧
    (Instr.loop (dab 4 0 5)).wellFormed = false ∧ (Instr.phtake (dab 5 0 16)).wellFormed = false ∧
    (Instr.pmrd (dab 5 0 5)).wellFormed = false ∧ (Instr.vadd (lf 0 0 0 0 6 0 0 0)).wellFormed = false ∧
    (Instr.mma (lf 0 0 0 1 2 3 2 1)).wellFormed = false ∧ (Instr.vst (lf 0 0 1 0 0 0 0 0)).wellFormed = false ∧
    (Instr.mma (lf 0 1 0 0 2 3 2 1)).wellFormed = false ∧ (Instr.vadd (lf 5 0 0 0 0 0 0 0)).wellFormed = false ∧
    (Instr.tqputShort 0 5 8).wellFormed = false ∧ (Instr.vadd (lf 1 1 0 1 2 8 4 16)).wellFormed = true := by decide +kernel

/-- The decoder refuses those words, and any word of a reserved row, by name. -/
theorem test_decode_refuses :
    decodeTableWord 64 0x000000000000003F = some (.vadd (dab 0 0 0)) ∧ decodeTableWord 64 0x001800000000003F = none ∧
    decodeTableWord 32 0x0A85602B = none ∧ decodeTableWord 32 0x00000000 = none ∧ decodeTableWord 32 0xFFFFFFFF = none := by
  decide +kernel

/-! ### Small states -/

/-- Bytes from an address, as memory cells; zero bytes are not listed. -/
def cellsAt (a : Nat) (bs : List Nat) : List Host.Cell :=
  (bs.zipIdx.filter fun bi => bi.1 != 0).map fun bi => (a + bi.2, BitVec.ofNat 8 bi.1)

/-- The context 0, its buffer table at 0x10000 and its page tables at 0x20000, on die 0. -/
def context : Context :=
  { cid := 0, valid := true, debug := false, gang := false, bdt := 0x10000, ptroot := 0x20000, faultq := 0, errq := 0, debugq := 0,
    savearea := 0x80000, nslots := 4, logsz := 0, logarea := 0, vdtab := 0, queues := 1, vdies := [0], launchCount := 0, slots := [],
    used := [] }

/-- Buffer 0: 1 MiB at virtual 0x200000 with every right and DE; buffer 1: 1 MiB at 0x400000, near-bank; both of context 0. -/
def table : List Host.Cell :=
  cellsAt 0x10000 [0, 0, 0x20, 0, 0, 0, 0, 0, 0, 0, 0x10, 0, 0, 0, 0, 0, 0, 0, 15, 4] ++
    cellsAt 0x10040 [0, 0, 0x40, 0, 0, 0, 0, 0, 0, 0, 0x10, 0, 0, 0, 0, 0, 0, 0, 15, 1] ++
    cellsAt 0x20000 [1, 0x10, 2] ++ cellsAt 0x21000 [1, 0x20, 2] ++ cellsAt 0x22008 [0x3F, 0, 0x60] ++
    cellsAt 0x22010 [0x3F, 0, 0x80, 0, 0, 0, 0, 0x60]

/-- A translation in the TLB of cluster 0. -/
def page (va pa : Nat) (nb : Bool) : Tlb := ⟨0, some 0, 0, va, 0x200000, pa, nb, true, true, true⟩

/-- A task of context 0 that runs on core 0. -/
def running : Task := { blankTask with id := 1, state := .running, core := some 0, lastCluster := some 0 }

/-- The machine with every die there, one slice, context 0 with its buffers, key slot 0 loaded, and `running` in focus. -/
def base : State :=
  { State.reset with
    cur := running, nextId := 2, contexts := [context], mem := table, tlbs := [page 0x200000 0x600000 false, page 0x400000 0x800000 true],
    dies := Vector.replicate 8 { blankDie with present := true }, mdies := Vector.replicate 16 { blankStack with present := true },
    keySlots := (Vector.replicate 64 ⟨8, none, none, false⟩).set 0 ⟨0, some ⟨none, 0, 1⟩, none, false⟩,
    parts := (Vector.replicate 8 blankPart).set 0 { blankPart with slices := [0] } }

/-- `base` with a member in focus and some of its registers set. -/
def demo (w : Who) (xs : List (Nat × Nat)) : State :=
  xs.foldl (fun s p => s.setX (BitVec.ofNat 5 p.1) (BitVec.ofNat 64 p.2)) { base with focus := .member w }

/-- `base` with a hart in focus and some of its registers set. -/
def onHart (h : Fin 16) (xs : List (Nat × Nat)) : State :=
  xs.foldl (fun s p => s.setX (BitVec.ofNat 5 p.1) (BitVec.ofNat 64 p.2)) { base with focus := .hart h }

/-- A state with its task changed. -/
def tasked (s : State) (f : Task → Task) : State := { s with cur := f s.cur }

/-- A state with its team changed. -/
def teamed (s : State) (f : Team → Team) : State := s.setTeam (f s.cur.team)

/-- Whether a result is a success of which something holds. -/
def okAnd (e : Except ε α) (p : α → Bool) : Bool :=
  match e with
  | .ok a => p a
  | .error _ => false

/-- Whether a result is an error. -/
def isBad (e : Except ε α) : Bool :=
  match e with
  | .ok _ => false
  | .error _ => true

theorem okAnd_iff {e : Except ε α} {p : α → Bool} (h : okAnd e p = true) : ∃ a, e = .ok a ∧ p a = true := by
  cases e with
  | ok a => exact ⟨a, rfl, h⟩
  | error _ => cases h

theorem isBad_iff {e : Except ε α} (h : isBad e = true) : ∃ a, e = .error a := by
  cases e with
  | ok _ => cases h
  | error a => exact ⟨a, rfl⟩

/-! ### States and operands that meet the premises: encodings, steps, the scalar base, traps -/

theorem witness_DecodeOfEncode :
    (Instr.vadd (lf 1 1 0 1 2 8 4 16)).wellFormed = true ∧
    encode64 (.vadd (lf 1 1 0 1 2 8 4 16)) = some 0x064804004020003F ∧ encode32 (.addi 5 6 0xFFF) = some 0xFFF30293 ∧
    Instr.landing.wellFormed = true ∧ encode32 .landing = none ∧ encode64 .landing = none := by decide +kernel

theorem witness_EncodeOfDecode :
    (∃ x, decode 0xFFF30293 none = .ok x) ∧ ∃ x, decode 0x4020003F (some 0x06480400) = .ok x :=
  ⟨(okAnd_iff (p := fun _ => true) (by decide +kernel)).imp fun _ h => h.1,
   (okAnd_iff (p := fun _ => true) (by decide +kernel)).imp fun _ h => h.1⟩

/-- `base` with code in the sequencer. -/
def coded (ws : List (BitVec 32)) : State := base.setMember .seq { blankMember with code := ws }

/-- `base` with hart 0 in focus at 0x1000, where a word stands. -/
def hartAt (w : Nat) : State :=
  { base.setHart 0 { blankHart with pc := 0x1000 } with
    focus := .hart 0, mem := cellsAt 0x1000 [w % 256, w / 256 % 256, w / 65536 % 256, w / 16777216] ++ table }

theorem witness_StepRuns_member :
    (coded [0xFFF30293]).agenda = [] ∧ (coded [0xFFF30293]).focus = .member .seq ∧ (coded [0xFFF30293]).memberRuns .seq = true ∧
    ((coded [0xFFF30293]).member .seq).code[((coded [0xFFF30293]).member .seq).pc / 4]? = some 0xFFF30293 ∧
    ∃ x, decode 0xFFF30293 ((coded [0xFFF30293]).member .seq).code[((coded [0xFFF30293]).member .seq).pc / 4 + 1]? = .ok x :=
  ⟨by decide +kernel, by decide +kernel, by decide +kernel, by decide +kernel,
   (okAnd_iff (p := fun _ => true) (by decide +kernel)).imp fun _ h => h.1⟩

theorem witness_StepRuns_hart :
    (hartAt 0xFFF30293).agenda = [] ∧ (hartAt 0xFFF30293).focus = .hart 0 ∧ ((hartAt 0xFFF30293).hart 0).waits = false ∧
    (hartAt 0xFFF30293).elapse.hartHalted 0 = false ∧ ((hartAt 0xFFF30293).hart 0).irq = none ∧
    (hartAt 0xFFF30293).hartMay ((hartAt 0xFFF30293).hart 0).pc.toNat = true ∧
    ∃ x, decode ((hartAt 0xFFF30293).wordAt ((hartAt 0xFFF30293).hart 0).pc.toNat)
      (some ((hartAt 0xFFF30293).wordAt (((hartAt 0xFFF30293).hart 0).pc.toNat + 4))) = .ok x :=
  ⟨by decide +kernel, by decide +kernel, by decide +kernel, by decide +kernel, by decide +kernel, by decide +kernel,
   (okAnd_iff (p := fun _ => true) (by decide +kernel)).imp fun _ h => h.1⟩

theorem witness_StepRuns_agenda :
    ({ base with agenda := [.event .quantumTick [0]] } : State).agenda = .event .quantumTick [0] :: [] ∧
    ({ base with agenda := [.run (.hart 3)] } : State).agenda = .run (.hart 3) :: [] ∧
    ({ base with agenda := [.glance .ld 0x01000000] } : State).agenda = .glance .ld 0x01000000 :: [] ∧
    ({ base with agenda := [.focusTask 1] } : State).agenda = .focusTask 1 :: [] := by decide +kernel

theorem witness_OtherSteps_member :
    ((tasked base fun t => { t with state := .ready }).memberRuns .seq = false) ∧
    (coded [0x3F]).memberRuns .seq = true ∧ (coded []).memberRuns .seq = true ∧
    ((coded []).member .seq).code[((coded []).member .seq).pc / 4]? = none ∧
    ((coded [0x000027BF, 0x02000000]).member .seq).code[((coded [0x000027BF, 0x02000000]).member .seq).pc / 4]? = some 0x000027BF ∧
    (∃ e, decode 0x000027BF (some 0x02000000) = .error e) ∧ ∃ e, decode 0x0000003F none = .error e :=
  ⟨by decide +kernel, by decide +kernel, by decide +kernel, by decide +kernel, by decide +kernel, isBad_iff (by decide +kernel),
   isBad_iff (by decide +kernel)⟩

theorem witness_OtherSteps_hart :
    (hartAt 0x30200073).agenda = [] ∧ (hartAt 0x30200073).focus = .hart 0 ∧ ((hartAt 0x30200073).hart 0).waits = false ∧
    (hartAt 0x30200073).elapse.hartHalted 0 = false ∧ ((hartAt 0x30200073).hart 0).irq = none ∧
    (hartAt 0x30200073).hartMay ((hartAt 0x30200073).hart 0).pc.toNat = true ∧
    (hartAt 0x30200073).wordAt ((hartAt 0x30200073).hart 0).pc.toNat = 0x30200073 ∧
    (∃ e, decode 0x30200073 (some 0) = .error e) ∧ decodeHart 0x30200073 = some .mret ∧
    (hartAt 0).wordAt ((hartAt 0).hart 0).pc.toNat = 0 ∧ (∃ e, decode 0 (some 0) = .error e) ∧ decodeHart 0 = none :=
  ⟨by decide +kernel, by decide +kernel, by decide +kernel, by decide +kernel, by decide +kernel, by decide +kernel,
   by decide +kernel, isBad_iff (by decide +kernel), by decide +kernel, by decide +kernel, isBad_iff (by decide +kernel),
   by decide +kernel⟩

/-- A hart with a pending supervisor software interrupt, one inside a class 15 instruction, the controller of an orphan die, and a pc
outside memory. -/
theorem witness_OtherSteps_stops :
    (let s := onHart 0 []
     let u := s.setHart 0 { s.hart 0 with mip := 2, mie := 2, mstatus := 8 }
     (u.hart 0).wait = none ∧ (u.hart 0).irq = some 1 ∧ (u.hart 0).waits = false ∧ u.elapse.hartHalted 0 = false ∧ u.focus = .hart 0) ∧
    (((onHart 0 []).setHart 0 { blankHart with wait := some (.tlbir 0) }).hart 0).waits = true ∧
    ((onHart 8 []).setDie 0 { (onHart 8 []).die 0 with orphan := true }).elapse.hartHalted 8 = true ∧
    (let u := (onHart 0 []).setHart 0 { blankHart with pc := 0x8000000000000000 }
     u.hartMay (u.hart 0).pc.toNat = false ∧ (u.hart 0).irq = none) := by and_intros <;> decide +kernel

theorem witness_MemoryKept : State.reset.memoriesOk = true ∧ base.memoriesOk = true ∧ goesOn (step State.reset) = true := by
  decide +kernel

/-- The scalar forms issue in both kinds of agent. -/
theorem witness_scalar_ready :
    (demo .seq [(6, 5)]).ready ∧ (demo .ld [(6, 5)]).ready ∧ (onHart 0 [(6, 5)]).ready ∧
    (demo .seq [(6, 5)]).x 6 = 5 ∧ (onHart 0 [(6, 5)]).x 6 = 5 := by decide +kernel

/-- Operands at the corners of division: 0, −2^63 ÷ −1, and a plain pair. -/
theorem witness_MultiplyDivide :
    (demo .seq []).ready ∧ (demo .seq []).x 7 = 0 ∧
    (demo .seq [(6, 2 ^ 63), (7, 2 ^ 64 - 1)]).x 6 = BitVec.intMin 64 ∧
    (demo .seq [(6, 2 ^ 63), (7, 2 ^ 64 - 1)]).x 7 = BitVec.allOnes 64 ∧
    ((demo .seq [(6, 2 ^ 31), (7, 2 ^ 32 - 1)]).x 6).setWidth 32 = BitVec.intMin 32 ∧
    ((demo .seq [(6, 2 ^ 31), (7, 2 ^ 32 - 1)]).x 7).setWidth 32 = BitVec.allOnes 32 ∧
    (demo .seq [(6, 7), (7, 2)]).x 7 ≠ 0 := by decide +kernel

theorem witness_ControlFlow :
    (demo .seq [(6, 8)]).ready ∧ ((demo .seq [(6, 8)]).x 6 + (0 : BitVec 12).signExtend 64 &&& ~~~1#64).toNat % 4 = 0 ∧
    ((demo .seq [(6, 8)]).x 6 + (2 : BitVec 12).signExtend 64 &&& ~~~1#64).toNat % 4 ≠ 0 ∧
    ((demo .seq []).pc + ((4 : BitVec 12) ++ 0#1).signExtend 64).toNat % 4 = 0 ∧
    ((demo .seq []).pc + ((1 : BitVec 12) ++ 0#1).signExtend 64).toNat % 4 ≠ 0 ∧
    (demo .seq [(6, 8)]).x 6 ≠ (demo .seq [(6, 8)]).x 7 ∧ (onHart 1 []).focus = .hart 1 ∧ (onHart 1 []).ready := by decide +kernel

/-- The first and the last doubleword of the core scratchpad, the first of the cluster's, and the pigeonhole control words. -/
theorem witness_MemberAccesses :
    (demo .ld [(6, 0x8000)]).focus = .member .ld ∧ (demo .ld [(6, 0x8000)]).ready ∧
    ((demo .ld [(6, 0x8008)]).x 6).toNat + (0xFF8 : BitVec 12).toInt = (0x8000 : Nat) ∧ (demo .ld []).inScratch 0 8 = true ∧
    (demo .ld []).inScratch 0x7FFF8 8 = true ∧ (demo .ld []).inScratch 0x01000000 8 = true ∧
    (demo .ld []).clusBadAt 0x01000000 = false ∧ (demo .ld []).localHazard .ld 0x7FFF8 8 true = false ∧
    (demo .ld []).inScratch 0x7FFFC 8 = false ∧ (demo .ld []).inScratch 0x020000F8 8 = false ∧
    ((demo .ld []).x 6).toNat + (0xFFF : BitVec 12).toInt < 0 := by decide +kernel

theorem witness_HartAccesses :
    (onHart 2 [(6, 0x100000)]).focus = .hart 2 ∧
    ((onHart 2 [(6, 0x100000)]).settle 0x100000).homeOf ((onHart 2 [(6, 0x100000)]).x 6 + (0 : BitVec 12).signExtend 64).toNat = .here ∧
    ((onHart 2 [(6, 0x100000)]).settle 0x100000).readError 0 fwSlot 0x100000 = none ∧
    ((onHart 2 [(6, 0x600000)]).setBlock 0x600000 { freshBlock with dead := false, key := some ⟨none, 0, 1⟩ }).readError 0 fwSlot 0x600000 ≠ none ∧
    ((onHart 2 [(6, 0x100000)]).x 6 + (1 : BitVec 12).signExtend 64).toNat % 2 ≠ 0 ∧
    (onHart 2 [(6, 2 ^ 63)]).homeOf ((onHart 2 [(6, 2 ^ 63)]).x 6 + (0 : BitVec 12).signExtend 64).toNat ≠ .here ∧
    (onHart 2 [(6, 0x100000)]).hartOwns 2 0x100000 8 = true ∧
    ((onHart 2 []).setHart 2 { (onHart 2 []).hart 2 with mode := 1 }).hartOwns 2 0x10000 8 = false := by decide +kernel

theorem witness_UserCsrs :
    (demo .seq []).userCsr .seq 0x800 = some 0 ∧ (demo .ld []).userCsr .ld 0xCC1 = some 0 ∧ (demo .seq []).cur.team.landings = [] ∧
    (demo .seq []).userCsr .seq 0x820 = none ∧ (demo .ld []).userCsr .ld 0x800 = none ∧ 0xC00 ≤ (0xCC1 : BitVec 12).toNat ∧
    (teamed (demo .seq []) fun t => { t with landings := [⟨[], 1, 3, false, false, none⟩] }).cur.team.landings ≠ [] := by
  decide +kernel

theorem witness_HartCsrs :
    (onHart 0 []).focus = .hart 0 ∧ (onHart 0 []).hartCsr 0 0x300 = some (3, 0x0000000A00000000) ∧ 3 ≤ ((onHart 0 []).hart 0).mode.toNat ∧
    (onHart 0 []).hartCsr 0 0xDC0 = some (1, 8) ∧ 0xC00 ≤ (0xDC0 : BitVec 12).toNat ∧ (onHart 0 []).hartCsr 0 0x800 = none ∧
    (((onHart 0 []).setHart 0 { blankHart with mode := 1 }).hart 0).mode.toNat < 3 ∧
    ((onHart 0 []).hart 0).barred 0x300 = false ∧
    (let s := (onHart 0 []).setHart 0 { blankHart with mode := 1, mstatus := 0x100000 }
     s.hartCsr 0 0x180 = some (1, 0) ∧ (s.hart 0).barred 0x180 = true) := by decide +kernel

theorem witness_ServiceCall :
    (demo .ld []).ready ∧ (demo .ld []).cur.spec = false ∧ ((demo .ld []).member .ld).svc = none ∧ (demo .ld []).ringFull ((demo .ld []).part 0).svcCtl = true ∧
    (let u : State := { demo .ld [] with mem := [(8, 16)] }; u.ready ∧ (u.member .ld).svc = none ∧ u.ringFull (u.part u.cur.part).svcCtl = false) ∧
    (tasked (demo .ld []) fun t => { t with spec := true }).cur.spec = true ∧
    ((demo .ld []).setMember .ld { blankMember with svc := some 3 }).member .ld = { blankMember with svc := some 3 } ∧
    (onHart 0 []).ready := by decide +kernel

theorem witness_Breakpoint :
    (demo .seq []).ready ∧ (demo .seq []).cur.stop = none ∧ (demo .seq []).inFlight (demo .seq []).cur.id = false ∧
    (demo .seq []).cur.spec = false ∧ (tasked (demo .seq []) fun t => { t with spec := true }).inFlight 1 = false := by decide +kernel

theorem witness_frames :
    (demo .seq []).cur.stepping = none ∧ (demo .ld []).cur.stepping = none ∧ (onHart 3 []).cur.stepping = none ∧
    (demo .seq []).cur.team.loops = [] ∧ goesOn (exec (.addi 5 6 1) (demo .seq [])) = true ∧
    goesOn (exec (.mulhsu 5 6 7) (onHart 3 [])) = true ∧ goesOn (exec (.fence 0 0 0) (demo .ld [])) = true := by decide +kernel

theorem witness_Landings_GroupElements :
    blankTeam.vectorsOk ∧ ({ blankTeam with vfile := [(0, 7), (3, 5)], spilled := [(0, 1)], lo := 2 } : Team).vectorsOk ∧ blankTeam.lo ≤ 7 ∧ physReg 8 ≠ physReg 7 ∧ ((List.range 8).map some).length = 1 * (256 / 32) := by decide +kernel

/-- The top loop at its last trip, before it, and away from its END. -/
theorem witness_LoopBackEdge :
    let c : LoopCtr := ⟨1, 3, 8, 32, true⟩
    let t : Team := { blankTeam with lc := Vector.replicate 4 c, loops := [0] }
    blankTeam.loops = [] ∧ t.loops = 0 :: [] ∧ t.loopOf 0 = c ∧ 32 = (t.loopOf 0).stop ∧
    (t.loopOf 0).count.toNat + 1 < (t.loopOf 0).bound.toNat ∧
    ((t.setLoop 0 { c with count := 2 }).loopOf 0).bound.toNat ≤ ((t.setLoop 0 { c with count := 2 }).loopOf 0).count.toNat + 1 := by
  decide +kernel

theorem witness_WhoMayExecute :
    (∃ o sh, (Instr.tlbir (dab 5 6 7)).shape = some (o, sh) ∧ sh.cls = 15) ∧
    (∃ o sh, (Instr.vadd (dab 0 0 0)).shape = some (o, sh) ∧ sh.cls ≠ 15 ∧ permitted sh.cls sh.op .ld = false) ∧
    (∃ o sh, (Instr.vadd (lf 5 0 0 0 0 0 0 0)).shape = some (o, sh) ∧ sh.cls ≠ 15 ∧ sh.fieldsOk o = false) ∧
    (demo .seq []).focus = .member .seq ∧ (onHart 0 []).focus = .hart 0 ∧
    (((onHart 0 []).setHart 0 { blankHart with mode := 0 }).hart 0).mode = 0 :=
  ⟨⟨_, _, rfl, rfl⟩, ⟨_, _, rfl, by decide, by decide⟩, ⟨_, _, rfl, by decide, by decide⟩, rfl, by decide +kernel, by decide +kernel⟩

theorem witness_ShortForms : (demo .ld [(6, 0x1000)]).focus = .member .ld ∧ (demo .seq []).focus = .member .seq := by decide +kernel

theorem witness_TaskTraps :
    Cause.align ≠ .hang ∧ (demo .seq []).cur.stop = none ∧ (demo .seq []).inFlight 1 = false ∧
    (tasked (demo .seq []) fun t => { t with stop := some (.trap ⟨1, .ld, 8, 0, 0⟩) }).cur.stop = some (.trap ⟨1, .ld, 8, 0, 0⟩) ∧
    ({ demo .seq [] with copies := [⟨5, 1, 0, 0, .ld, 0, 1, [], none, 0, false, [], [], false, false, [], []⟩] } : State).inFlight 1 = true ∧
    (tasked (demo .seq []) fun t => { t with state := .faulted, fault := ⟨0x000C, .seq, 0, 0, 0⟩ }).cur.fault.cause = 0x000C := by
  decide +kernel

theorem witness_HartTraps :
    ({ blankHart with mode := 1, medeleg := 4 } : Hart).medeleg.getLsbD 2 = true ∧
    ({ blankHart with mode := 1, medeleg := 4 } : Hart).mode ≠ 3 ∧ blankHart.mode = 3 ∧ (onHart 0 []).focus = .hart 0 ∧
    ({ blankHart with mode := 1 } : Hart).mstatus.getLsbD 22 = false ∧ ({ blankHart with mode := 0 } : Hart).mode = 0 := by
  decide +kernel

theorem witness_StoreFrame :
    Memory.wf (demo .ld []).cur.team.scratch = true ∧ Memory.wf (demo .ld []).clus = true ∧ (demo .ld []).cur.stepping = none ∧
    ((demo .ld [(6, 0x100)]).x 6).toNat + (8 : BitVec 12).toInt = (0x108 : Nat) ∧ (demo .ld []).inScratch 0x108 8 = true ∧
    (demo .ld []).localHazard .ld 0x108 8 true = false ∧ goesOn (exec (.sd 6 7 8) (demo .ld [(6, 0x100)])) = true ∧
    goesOn (exec (.sd 6 7 8) (onHart 2 [(6, 0x100000)])) = true ∧
    Sparse.get 0 (((onHart 2 []).settle 0x100008).block 0x100008).minors (0x100008 / 64 % 64) ≠ 127 ∧
    (0x100008 : Nat) % 8 = 0 := by decide +kernel

/-! ### Vector, matrix and handle instructions -/

/-- The sequencer with x6 = 0x100, x7 = 3 and a top mask of two bits above the full one. -/
def seqr : State := teamed (demo .seq [(6, 0x100), (7, 3)]) fun t => { t with masks := [5, BitVec.allOnes 64] }

/-- An eight-bit, single-register form with D, A and B apart. -/
def v (sub m grp fmt : Nat) : LF := lf sub m 0 grp fmt 16 8 0

theorem witness_VectorFloat :
    seqr.issues .seq (v 0 0 0 0) (shapeVadd (v 0 0 0 0)) (ewPlan (v 0 0 0 0) 32 5 true true) ∧
    seqr.issues .seq (v 1 1 1 2) (shapeVsub (v 1 1 1 2)) (ewPlan (v 1 1 1 2) 16 5 true true) ∧
    seqr.issues .seq (v 4 0 3 1) (shapeVmul (v 4 0 3 1)) (ewPlan (v 4 0 3 1) 16 5 true true) ∧
    seqr.issues .seq (v 0 0 0 0) (shapeVfma (v 0 0 0 0)) (ewPlan (v 0 0 0 0) 32 5 true true) ∧
    goesOn (exec (.vadd (v 0 0 0 0)) seqr) = true := by and_intros <;> decide +kernel

theorem witness_SelectAndCompare :
    seqr.issues .seq (v 0 0 0 0) (shapeVmin (v 0 0 0 0)) (ewPlan (v 0 0 0 0) 32 5 true true) ∧
    seqr.issues .seq (v 0 0 0 1) (shapeVmax (v 0 0 0 1)) (ewPlan (v 0 0 0 1) 16 5 true true) ∧
    seqr.issues .seq (v 0 0 0 0) (shapeVsgn (v 0 0 0 0)) (ewPlan (v 0 0 0 0) 32 3 true true) ∧
    seqr.issues .seq (lf 48 0 0 0 0 0 8 0) (shapeVsgn (lf 48 0 0 0 0 0 8 0)) (ewPlan (lf 48 0 0 0 0 0 8 0) 32 3 true false) ∧
    seqr.issues .seq (dab 0 8 0) (shapeVclass (dab 0 8 0)) (ewPlan (dab 0 8 0) 32 3 true false) ∧
    seqr.issues .seq (dab 5 8 16) (shapeVcmp (dab 5 8 16)) { ga := 1, gb := 1 } ∧
    decodeElem 0 0x7FC00000 = .nan ∧ decodeElem 0 0x3F800000 ≠ .nan ∧ decodeElem 0 0x80000000 = .num true 0 (-149) := by
  and_intros <;> decide +kernel

theorem witness_IntegerAndLogic :
    seqr.issues .seq (v 1 0 0 12) (shapeViadd (v 1 0 0 12)) (ewPlan (v 1 0 0 12) 32 3 true true) ∧
    seqr.issues .seq (v 3 0 0 6) (shapeVisub (v 3 0 0 6)) (ewPlan (v 3 0 0 6) 8 3 true true) ∧
    seqr.issues .seq (v 2 0 0 0) (shapeVimul (v 2 0 0 0)) (ewPlan (v 2 0 0 0) 32 3 true true) ∧
    seqr.issues .seq (v 0 0 0 7) (shapeVimulh (v 0 0 0 7)) (ewPlan (v 0 0 0 7) 4 3 true true) ∧
    seqr.issues .seq (v 0 0 0 1) (shapeVimad (v 0 0 0 1)) (ewPlan (v 0 0 0 1) 16 3 true true) ∧
    seqr.issues .seq (v 0 0 0 0) (shapeVand (v 0 0 0 0)) (ewPlan (v 0 0 0 0) 32 3 true true) ∧
    seqr.issues .seq (v 0 0 0 0) (shapeVor (v 0 0 0 0)) (ewPlan (v 0 0 0 0) 32 3 true true) ∧
    seqr.issues .seq (v 0 0 0 0) (shapeVxor (v 0 0 0 0)) (ewPlan (v 0 0 0 0) 32 3 true true) ∧
    seqr.issues .seq (v 4 0 0 0) (shapeViminmax (v 4 0 0 0)) (ewPlan (v 4 0 0 0) 32 3 true true) ∧
    seqr.issues .seq (v 0 0 0 0) (shapeVsel (v 0 0 0 0)) { ewPlan (v 0 0 0 0) 32 3 true true with ok4 := elems 1 32 ≤ 64 } := by
  and_intros <;> decide +kernel

theorem witness_Shifts :
    seqr.issues .seq (v 1 0 0 0) (shapeVshl (v 1 0 0 0)) { ewPlan (v 1 0 0 0) 32 3 true true with ok5 := true } ∧
    seqr.issues .seq (lf 4 0 0 0 0 31 8 0) (shapeVshr (lf 4 0 0 0 0 31 8 0))
      { ewPlan (lf 4 0 0 0 0 31 8 0) 32 3 true false with ok5 := (31 < 32 : Bool) } ∧
    8 ∈ ([4, 8, 16, 32] : List Nat) ∧ 0x81 < 2 ^ 8 ∧
    (intLo 8 false ≤ asInt 8 false 0x81 * 2 ^ 0 ∧ asInt 8 false 0x81 * 2 ^ 0 ≤ intHi 8 false) ∧
    asInt 8 false 0x81 * 2 ^ 1 < intLo 8 false ∧ intHi 8 false < asInt 8 false 0x7F * 2 ^ 1 := by and_intros <;> decide +kernel

theorem witness_Conversions :
    isNb (seqr.cur.team.res (lf 0 0 0 0 3 0 8 0)).fmt = false ∧
    seqr.issues .seq (lf 0 0 0 2 3 0 8 0) (shapeVcvt (lf 0 0 0 2 3 0 8 0)) (vcvtPlan (lf 0 0 0 2 3 0 8 0) (seqr.cur.team.res (lf 0 0 0 2 3 0 8 0))) ∧
    seqr.issues .seq (v 0 0 0 8) (shapeVlnmul (v 0 0 0 8)) (ewPlan (v 0 0 0 8) 8 4 true true) ∧
    seqr.issues .seq (lf 0 0 0 2 0 2046 8 0) (shapeVlnlin (lf 0 0 0 2 0 2046 8 0)) (cvtPlan (lf 0 0 0 2 0 2046 8 0) 8 32 true true) ∧
    isNb (seqr.cur.team.res (lf 0 0 0 2 9 0 8 0)).fmt = true ∧
    seqr.issues .seq (lf 0 0 0 2 9 0 8 0) (shapeVcvt (lf 0 0 0 2 9 0 8 0)) (vcvtPlan (lf 0 0 0 2 9 0 8 0) (seqr.cur.team.res (lf 0 0 0 2 9 0 8 0))) ∧
    seqr.issues .seq (lf 0 0 0 0 9 9 8 0) (shapeVcvt (lf 0 0 0 0 9 9 8 0)) (vcvtPlan (lf 0 0 0 0 9 9 8 0) (seqr.cur.team.res (lf 0 0 0 0 9 9 8 0))) ∧
    seqr.issues .seq (lf 0 0 0 0 8 0 8 0) (shapeVpack (lf 0 0 0 0 8 0 8 0)) { gd := 1, ga := 1, dest := true, lat := 4, entry := true } ∧
    seqr.issues .seq (lf 0 0 0 0 9 0 8 0) (shapeVunpack (lf 0 0 0 0 9 0 8 0)) { gd := 1, ga := 1, dest := true, lat := 4, entry := true } ∧
    (22 % 32 ≠ 0 ∧ 17 ≤ 22 % 32 + 26 % 32 ∧ 22 % 32 + 26 % 32 ≤ 48) ∧ 48 ≤ 31 % 32 + 17 % 32 ∧ 8 % 32 + 8 % 32 ≤ 16 := by and_intros <;> decide +kernel

theorem witness_SpecialAndReductions :
    seqr.issues .seq (dab 0 8 0) (shapeVexp2 (dab 0 8 0)) (ewPlan (dab 0 8 0) 32 10 true false) ∧
    seqr.issues .seq (dab 0 8 0) (shapeVlog2 (dab 0 8 0)) (ewPlan (dab 0 8 0) 32 10 true false) ∧
    seqr.issues .seq (lf 0 0 0 1 2 0 8 0) (shapeVrcp (lf 0 0 0 1 2 0 8 0)) (ewPlan (lf 0 0 0 1 2 0 8 0) 16 10 true false) ∧
    seqr.issues .seq (dab 0 8 0) (shapeVrsqrt (dab 0 8 0)) (ewPlan (dab 0 8 0) 32 10 true false) ∧
    seqr.issues .seq (lf 0 1 0 0 0 0 8 0) (shapeVsum (lf 0 1 0 0 0 0 8 0)) (sumPlan (lf 0 1 0 0 0 0 8 0) (seqr.cur.team.res (lf 0 1 0 0 0 0 8 0))) ∧
    seqr.issues .seq (lf 0 1 0 0 0 0 8 0) (shapeVrmax (lf 0 1 0 0 0 0 8 0)) (sumPlan (lf 0 1 0 0 0 0 8 0) (seqr.cur.team.res (lf 0 1 0 0 0 0 8 0))) ∧
    activeVals seqr.cur.team (lf 0 1 0 0 0 0 8 0) (seqr.cur.team.res (lf 0 1 0 0 0 0 8 0)) ≠ [] ∧
    activeVals (teamed seqr fun t => { t with masks := [0] }).cur.team (lf 0 1 0 0 0 0 8 0) (seqr.cur.team.res (lf 0 1 0 0 0 0 8 0)) = [] := by
  and_intros <;> decide +kernel

theorem witness_Moves :
    seqr.issues .seq (v 0 0 0 0) (shapeVperm (v 0 0 0 0)) (ewPlan (v 0 0 0 0) 32 3 true true) ∧
    seqr.issues .seq (lf 1 0 0 0 0 8 8 0) (shapeVslide (lf 1 0 0 0 0 8 8 0))
      { ewPlan (lf 1 0 0 0 0 8 8 0) 32 3 true false with ok5 := (8 ≤ elems 1 32 : Bool) } ∧
    seqr.issues .seq (lf 1 0 0 0 0 2047 0 0) (shapeVmov (lf 1 0 0 0 0 2047 0 0)) (ewPlan (lf 1 0 0 0 0 2047 0 0) 32 3 false false) ∧
    seqr.issues .seq (dab 0 8 0) (shapeVmov (dab 0 8 0)) (ewPlan (dab 0 8 0) 32 3 true false) ∧
    seqr.issues .seq (dab 0 8 7) (shapeVbcast (dab 0 8 7)) { ewPlan (dab 0 8 7) 32 3 false false with ga := 1, ok5 := (7 < elems 1 32 : Bool) } ∧
    seqr.issues .seq (lf 1 0 0 0 0 0 6 0) (shapeVbcast (lf 1 0 0 0 0 0 6 0)) { ewPlan (lf 1 0 0 0 0 0 6 0) 32 3 false false with ga := 0 } ∧
    seqr.issues .seq (dab 7 8 7) (shapeVmvx (dab 7 8 7)) { ga := 1, ok5 := (7 < elems 1 32 : Bool) } ∧
    seqr.issues .seq (dab 0 6 7) (shapeVins (dab 0 6 7)) { ewPlan (dab 0 6 7) 32 3 false false with ok5 := (7 < elems 1 32 : Bool) } := by
  and_intros <;> decide +kernel

/-- The sequencer with x6 at the second block of the cluster scratchpad, two of whose lines are in error. -/
def lost : State := { seqr.setX 6 0x01000100 with clusBad := [(0, 4), (0, 6)] }

theorem witness_VectorMemory :
    (seqr.issues .seq (lf 0 0 0 0 0 0 6 0) (shapeVld (lf 0 0 0 0 0 0 6 0)) { gd := 1, dest := true, lat := 6, entry := true } ∧
      seqr.issues .seq (lf 0 0 0 0 0 16 6 0) (shapeVgath (lf 0 0 0 0 0 16 6 0)) { gd := 1, ga := 1, dest := true, lat := 6, entry := true } ∧
      seqr.issues .seq (lf 0 0 0 0 0 0 6 0) (shapeVst (lf 0 0 0 0 0 0 6 0)) { gd := 1 } ∧
      seqr.issues .seq (lf 0 0 0 0 0 16 6 0) (shapeVscat (lf 0 0 0 0 0 16 6 0)) { gd := 1, ga := 1 }) ∧
    (∃ as, seqr.unitAddrs (lf 0 0 0 0 0 0 6 0) 32 8 false = .ok as ∧ (seqr.unreadable as).isNone = true) ∧
    (∃ as, seqr.offsetAddrs (lf 0 0 0 0 0 16 6 0) 32 8 false = .ok as ∧ (seqr.unreadable as).isNone = true) ∧
    (∃ tr, seqr.unitAddrs (lf 0 0 0 0 0 1 6 0) 32 8 false = .error tr) ∧
    (∃ as, lost.unitAddrs (lf 1 0 0 0 0 0 6 0) 32 8 true = .ok as ∧ (lost.unreadable as == some 0x01000100) = true) ∧
    (∃ as, lost.offsetAddrs (lf 1 0 0 0 0 6 16 0) 32 8 true = .ok as ∧ (lost.unreadable as == some 0x01000100) = true) ∧
    (lost.issues .seq (lf 1 0 0 0 0 0 6 0) (shapeVld (lf 1 0 0 0 0 0 6 0)) { gd := 1, dest := true, lat := 18, entry := true } ∧
      lost.issues .seq (lf 1 0 0 0 0 6 16 0) (shapeVgath (lf 1 0 0 0 0 6 16 0)) { gd := 1, ga := 1, dest := true, lat := 18, entry := true }) ∧
    ((seqr.x (fieldReg 6)).toNat + (0x7F0 : BitVec 11).toInt = (0xF0 : Nat) ∧ 0xF0 % max 1 (32 / 8) = 0 ∧
      seqr.inSpace false 0xF0 4 = true) :=
  ⟨by decide +kernel, okAnd_iff (by decide +kernel), okAnd_iff (by decide +kernel), isBad_iff (by decide +kernel), okAnd_iff (by decide +kernel),
   okAnd_iff (by decide +kernel), by decide +kernel, by decide +kernel⟩

/-- The depths at which the mask stack and the window change their answer. -/
def deep : State := teamed seqr fun t => { t with masks := List.replicate 16 3 }
/-- One mask, empty. -/
def flat : State := teamed seqr fun t => { t with masks := [0] }
/-- One frame link. -/
def called : State := teamed seqr fun t => { t with links := [32], wb := 0, fs := 64 }
/-- A window whose next frame passes the vector file, with room to spill. -/
def wide : State := tasked (teamed seqr fun t => { t with wb := 4064 }) fun t => { t with spill := 16 }
/-- A caller's frame that has been spilled. -/
def out : State := teamed seqr fun t => { t with links := [64], wb := 64, lo := 64, fs := 32 }

theorem witness_MasksAndWindow :
    seqr.cur.team.masks = 5 :: [BitVec.allOnes 64] ∧ deep.cur.team.masks = 3 :: List.replicate 15 3 ∧ flat.cur.team.masks = 0 :: [] ∧
    (seqr.issues .seq (dab 0 6 0) (shapeMpush (dab 0 6 0)) {} ∧ seqr.issues .seq (dab 0 0 0) (shapeMinv (dab 0 0 0)) {} ∧
      seqr.issues .seq (dab 0 0 0) (shapeMpop (dab 0 0 0)) {} ∧ seqr.issues .seq (dab 5 0 0) (shapeMget (dab 5 0 0)) {} ∧
      seqr.issues .seq (dab 0 0 4) (shapeBmz (dab 0 0 4)) {} ∧ flat.issues .seq (dab 0 0 4) (shapeBmz (dab 0 0 4)) {} ∧
      deep.issues .seq (dab 0 6 0) (shapeMpush (dab 0 6 0)) {} ∧ flat.issues .seq (dab 0 0 0) (shapeMpop (dab 0 0 0)) {}) ∧
    seqr.issues .seq (dab 0 0 64) (shapeWenter (dab 0 0 64)) { ok5 := (64 ≤ 64 : Bool) } ∧
    seqr.issues .seq (shortWenterLF 0 2 0) (shapeWenter (shortWenterLF 0 2 0)) { ok5 := true } ∧
    (seqr.cur.team.links.length < 64 ∧ seqr.cur.team.lo ≤ seqr.cur.spill * 32) ∧ 64 ≤ (List.replicate 64 32).length ∧
    (wide.cur.team.lo + 4096 < 4064 + 32 - 32 + 64 ∧ wide.cur.team.spanLo (4064 + 64) ≤ wide.cur.spill * 32) ∧
    (called.issues .seq (dab 0 0 0) (shapeWleave (dab 0 0 0)) {} ∧ called.cur.team.links = 32 :: []) ∧ seqr.cur.team.links = [] ∧
    (out.cur.team.links = 64 :: [] ∧ out.cur.team.wb + 32 - 64 < out.cur.team.lo) := by and_intros <;> decide +kernel

/-- The spelling of a long form and of a short one (08 R143). -/
theorem witness_spells :
    spells .mget .mgetShort shortLong (dab 5 0 0) (.mget (dab 5 0 0)) 8 ∧
    spells .mget .mgetShort shortLong (shortLF 5 0 0 0) (.mgetShort 5 0 0) 4 := ⟨.inl ⟨rfl, rfl⟩, .inr ⟨5, 0, 0, rfl, rfl, rfl⟩⟩

/-- A handle of a tile: base, rows, columns and format (11 R202). -/
def tile (base rows cols fmt : Nat) : V256 := BitVec.ofNat 256 (base + rows * 2 ^ 32 + cols * 2 ^ 48 + fmt * 2 ^ 96)

/-- The sequencer with tiles in its handles: h1 an 8 × 16 BF16 tile, h2 one of LUT1 weights, h3 one of INT8, h4 one of nested
blocks, h5 in the cluster's scratchpad. -/
def tiled : State := teamed (demo .seq [(6, 0x100), (5, 4)]) fun t => { t with
  h := (((((t.h.set 1 (tile 0x1000 8 16 2)).set 2 (tile 0x2000 4 8 15)).set 3 (tile 0x3000 4 8 15)).set 4 (tile 0x4000 4 16 9)).set 5
    (tile 0x01000000 4 8 2)) }

/-- Whether a check of tiles passes. -/
def tilesPass (s : State) (hs : List Tile) (reads : Bool) : Bool := okAnd (s.tilesOk hs reads) fun _ => true

theorem tilesPass_iff {s : State} {hs : List Tile} {reads : Bool} (h : tilesPass s hs reads = true) : s.tilesOk hs reads = .ok () := by
  obtain ⟨_, h, -⟩ := okAnd_iff h
  exact h

/-- The plan of the products. -/
def matrixPlan : Plan := { entry := true, matrix := true, tile := true }

theorem witness_MatrixMultiply :
    tiled.issues .seq (lf 0 0 0 0 2 1 1 0) (shapeMma (lf 0 0 0 0 2 1 1 0)) matrixPlan ∧
    (tileOf (tiled.cur.team.h.get 1)).shapeOk true 32 4096 = true ∧ (tileOf (tiled.cur.team.h.get 1)).shapeOk true 64 4096 = true ∧
    pairOk 2 2 16 = true ∧ tiled.tilesOk [tileOf (tiled.cur.team.h.get 1), tileOf (tiled.cur.team.h.get 1)] true = .ok () ∧
    tiled.issues .seq (lf 16 0 0 0 2 1 1 0) (shapeMmac (lf 16 0 0 0 2 1 1 0)) matrixPlan ∧
    (tileOf (tiled.cur.team.h.get 1)).shapeOk true 64 64 = true ∧ pairOk (mmacType 1 2) 2 16 = true ∧
    tiled.tilesOk [tileOf (tiled.cur.team.h.get 1)] true = .ok () ∧
    goesOn (exec (.mma (lf 0 0 0 0 2 5 5 0)) tiled) = true := by
  refine ⟨?_, ?_, ?_, ?_, tilesPass_iff ?_, ?_, ?_, ?_, tilesPass_iff ?_, ?_⟩ <;> decide +kernel

theorem witness_TablesAndAccumulators :
    (tiled.issues .seq (lf 0 0 0 0 13 0 3 0) (shapeMlutb (lf 0 0 0 0 13 0 3 0)) { matrixPlan with gb := 0, ok4 := true } ∧
      ((tileOf (tiled.cur.team.h.get 5)).inForce 13).shapeOk (([1, 2, 3, 4, 6, 12] : List Nat).contains 2) 32 16 = true ∧
      (4 ≤ 8 ∧ 8 % 4 = 0) ∧ tiled.tilesOk [tileOf (tiled.cur.team.h.get 5)] true = .ok ()) ∧
    (tiled.issues .seq (lf 0 0 0 0 14 7 5 0) (shapeMlutb (lf 0 0 0 0 14 7 5 0)) { matrixPlan with gb := 1, ok4 := true } ∧
      ((tileOf (tiled.cur.team.h.get 5)).inForce 14).shapeOk true 32 8 = true) ∧
    (tiled.issues .seq (lf 0 0 0 0 13 2 1 0) (shapeMlut (lf 0 0 0 0 13 2 1 0)) matrixPlan ∧
      ((tileOf (tiled.cur.team.h.get 2)).inForce 13).shapeOk true 64 16 = true ∧
      tiled.tilesOk [(tileOf (tiled.cur.team.h.get 2)).inForce 13] true = .ok ()) ∧
    (tiled.issues .seq (dab 3 0 0) (shapeAzero (dab 3 0 0)) { entry := true } ∧
      tiled.issues .seq (lf 0 0 0 0 2 0 5 0) (shapeAld (lf 0 0 0 0 2 0 5 0)) { entry := true } ∧
      (tileOf (tiled.cur.team.h.get 5)).shapeOk true 32 64 = true ∧
      tiled.issues .seq (lf 0 0 0 0 2 0 0 5) (shapeAst (lf 0 0 0 0 2 0 0 5)) {} ∧
      tiled.tilesOk [tileOf (tiled.cur.team.h.get 5)] false = .ok ()) ∧
    (tiled.issues .seq (lf 0 0 0 0 2 31 1 4) (shapeArdv (lf 0 0 0 0 2 31 1 4)) { ewPlan (lf 0 0 0 0 2 31 1 4) 16 8 false false with ok5 := true } ∧
      isNb 2 = false ∧ isNb 9 = true ∧
      tiled.issues .seq (lf 0 0 0 0 9 0 1 4) (shapeArdv (lf 0 0 0 0 9 0 1 4)) { ewPlan (lf 0 0 0 0 9 0 1 4) 8 8 false false with ok5 := true } ∧
      tiled.issues .seq (lf 0 0 0 0 2 31 4 1) (shapeAwrv (lf 0 0 0 0 2 31 4 1)) { ga := 1, ok5 := true, entry := true }) := by
  refine ⟨⟨?_, ?_, ?_, tilesPass_iff ?_⟩, ⟨?_, ?_⟩, ⟨?_, ?_, tilesPass_iff ?_⟩, ⟨?_, ?_, ?_, ?_, tilesPass_iff ?_⟩, ?_⟩ <;>
    decide +kernel

/-- Words 0 and 7 of a handle, and the last aligned 32 bytes of the core scratchpad. -/
theorem witness_Handles :
    (tiled.issues .seq (dab 1 6 7) (shapeHset (dab 1 6 7)) { ok5 := (7 ≤ 7 : Bool), entry := true } ∧
      tiled.issues .seq (dab 5 1 0) (shapeHget (dab 5 1 0)) { ok5 := (0 ≤ 7 : Bool) } ∧
      tiled.issues .seq (dab 1 6 32) (shapeHld (dab 1 6 32)) { entry := true } ∧
      tiled.issues .seq (dab 1 6 32) (shapeHst (dab 1 6 32)) {} ∧
      tiled.issues .seq (dab 0 2 1) (shapeHadv (dab 0 2 1)) { entry := true } ∧
      tiled.issues .seq (lf 16 0 0 0 0 32 6 1) (shapeHld (lf 16 0 0 0 0 32 6 1)) { entry := true }) ∧
    ((tiled.x (fieldReg 6)).toNat + (32 : BitVec 11).toInt = (0x120 : Nat) ∧ tiled.inSpace false 0x120 32 = true ∧ 0x120 % 32 = 0 ∧
      tiled.clusBadAt 0x120 = false ∧ tiled.inSpace false 0x7FFE0 32 = true) := by and_intros <;> decide +kernel

/-- The sequencer inside a loop, at 8. -/
def looping : State := teamed (demo .seq [(6, 3), (7, 2 ^ 32), (5, 2 ^ 32 - 1)]) fun t => { t with
  seq := { t.seq with pc := 8 }, lc := t.lc.set 0 ⟨1, 3, 8, 64, true⟩, loops := [0] }

theorem witness_LoopsAndFormats :
    (looping.issues .seq (dab 1 6 14) (shapeLoop (dab 1 6 14)) { ok5 := true } ∧
      looping.issues .seq (dab 1 6 3) (shapeLoop (dab 1 6 3)) { ok5 := true } ∧
      (looping.cur.team.loopOf (loopNum 1)).active = false ∧ (looping.x (fieldReg 5)).toNat < 2 ^ 32 ∧
      2 ^ 32 ≤ (looping.x (fieldReg 7)).toNat ∧ (looping.cur.team.loopOf (loopNum 0)).active = true ∧ looping.x 8 = 0 ∧
      looping.cur.team.loops = 0 :: [] ∧ (looping.cur.team.loopOf 0).start ≤ looping.cur.team.seq.pc ∧
      looping.cur.team.seq.pc + 4 * (14 : BitVec 11).toNat ≤ (looping.cur.team.loopOf 0).stop ∧
      ¬ looping.cur.team.seq.pc + 4 * (15 : BitVec 11).toNat ≤ (looping.cur.team.loopOf 0).stop) ∧
    (looping.issues .seq (dab 6 0 1) (shapeLcrd (dab 6 0 1)) {} ∧ looping.issues .seq (dab 0 0 0) (shapeLbrk (dab 0 0 0)) {} ∧
      looping.issues .seq (dab 0 0 1) (shapeLbrk (dab 0 0 1)) {} ∧ looping.cur.team.loops = [] ++ 0 :: []) ∧
    (looping.issues .seq (dab 15 0 255) (shapeFmtset (dab 15 0 255)) { ok5 := (15 ≤ 15 : Bool) && (255 ≤ 255 : Bool) } ∧
      looping.issues .seq (lf 16 0 0 0 0 0 6 0) (shapeFmtset (lf 16 0 0 0 0 0 6 0)) { ok5 := true } ∧
      looping.issues .seq (dab 0 4 15) (shapeFmtsel (dab 0 4 15)) { ok5 := true } ∧
      looping.issues .seq (dab 5 0 15) (shapeFmtget (dab 5 0 15)) { ok5 := true } ∧ (lf 0 0 0 0 15 0 0 0).fmt = 15) := by
  and_intros <;> decide +kernel

/-! ### Movement, memory and synchronisation -/

/-- The load courier, its operands in registers and its descriptors in the core scratchpad: x6 and x14 brefs, x7 a local word of
64 bytes at 0x800, x8 a collective's descriptor, x9 a query's, x10 = 64, x11 a row descriptor, x12 a local address, x13 a
pigeonhole's geometry. -/
def mover : State := teamed { (demo .ld [(6, 0x1000), (7, 0x4000000800), (8, 0x400), (9, 0x600), (10, 64), (11, 0x900), (12, 0x8000),
    (13, 0x0004000200010000), (14, 0x3000), (16, 0x4000000000)]) with
    mem := table ++ cellsAt 0x602000 [0, 0x30, 0, 0, 0, 0, 0, 0, 0, 0x40] ++ cellsAt 0x605000 [1, 0, 0, 0, 0, 0, 0, 0, 0, 0x10, 0, 0, 0, 0, 0, 0, 64] }
  fun t => { t with
    ph := t.ph.set 0 ⟨true, 0x20000, 2, 4, 0, 1, 1, 0, []⟩
    scratch := cellsAt 0x400 [0, 0x10, 0, 0, 0, 0, 0, 0, 0, 0x20, 0, 0, 0, 0, 0, 0, 64, 0, 0, 0, 2, 0, 0, 0, 5] ++
      cellsAt 0x600 [0, 0, 0, 0, 0, 0, 0x10, 0, 0, 0, 2, 0, 0, 0, 0x10, 0, 1, 0, 0, 0, 16, 0, 2, 5, 0, 0, 0x80, 0x3F] ++
      cellsAt 0x900 [0, 0x10, 0, 0, 0, 0, 0, 0, 0, 0x80, 0, 0, 0, 0xA, 0, 0, 2, 0, 0, 0, 64] ++ cellsAt 0xA04 [64] }

/-- The same courier in a speculative task. -/
def guess : State := tasked mover fun t => { t with spec := true }

/-- The same member with three filled entries nowhere left: its other members ended, its hole and its queue empty. -/
def alone : State := teamed mover fun t => { t with
  seq := { t.seq with ended := true }, st := { t.st with ended := true }, ph := t.ph.set 0 ⟨true, 0x20000, 2, 4, 0, 0, 0, 0, []⟩ }

/-- The room a copy of plan `p` needs. -/
def room (s : State) (w : Who) (o : LF) (p : CopyPlan) : Bool :=
  let h := s.cur.team.hole o.fmt.toNat
  let moves := p.moves (if o.isPh then h.slotAddr h.tail else 0)
  !s.copyHeld w && (!o.isPh || h.free != 0) && !moves.any Move.overlaps && !moves.any (s.moveHazard w)

/-- The courier while another walker backs the page of its buffer. -/
def touching : State := { mover with tlbs := [], mem := Sparse.set 0 mover.mem 0x22008 0xC2 }

/-- Whether a plan has to wait. -/
def waitsFor (e : Except Miss α) : Bool :=
  match e with
  | .ok _ => false
  | .error m => m.trap.isNone

theorem witness_Copies :
    (mover.issues .ld (dab 5 7 6) (shapeCpld (dab 5 7 6)) {} ∧ mover.issues .ld (dab 5 7 6) (shapeCpst (dab 5 7 6)) {} ∧
      mover.issues .ld (dab 5 11 0) (shapeCpgat (dab 5 11 0)) {} ∧ mover.issues .ld (dab 5 11 0) (shapeCpsca (dab 5 11 0)) {} ∧
      mover.issues .ld (dab 5 7 12) (shapeCploc (dab 5 7 12)) {} ∧ mover.issues .ld (dab 10 6 14) (shapeCprem (dab 10 6 14)) {} ∧
      mover.issues .ld (lf 9 0 0 0 0 6 16 5) (shapeCpld (lf 9 0 0 0 0 6 16 5)) {} ∧ guess.issues .ld (dab 10 6 14) (shapeCprem (dab 10 6 14)) {} ∧
      mover.rowsHazard .ld (mover.x (fieldReg 11)).toNat = false) ∧
    (∃ x, planLoad (dab 5 7 6) mover = .ok x ∧ room mover .ld (dab 5 7 6) x.2 = true) ∧
    (∃ x, planLoad (lf 9 0 0 0 0 6 16 5) mover = .ok x ∧ room mover .ld (lf 9 0 0 0 0 6 16 5) x.2 = true) ∧
    (∃ x, planStore (dab 5 7 6) mover = .ok x ∧ room mover .ld (dab 5 7 6) x.2 = true) ∧
    (∃ x, planRows (dab 5 11 0) false mover = .ok x ∧ room mover .ld (dab 5 11 0) x.2 = true) ∧
    (∃ x, planRows (dab 5 11 0) true mover = .ok x ∧ room mover .ld (dab 5 11 0) x.2 = true) ∧
    (∃ x, planLocal (dab 5 7 12) mover = .ok x ∧ room mover .ld (dab 5 7 12) x.2 = true) ∧
    (∃ x, planRemote (dab 10 6 14) mover = .ok x ∧ room mover .ld (dab 10 6 14) x.2 = true) ∧
    (∃ tr, planLoad (dab 5 15 6) mover = .error tr) ∧ (∃ tr, planRemote (dab 15 6 14) mover = .error tr) ∧
    waitsFor (planLoad (dab 5 7 6) touching) = true ∧ waitsFor (planLoad (dab 5 15 6) mover) = false :=
  ⟨by and_intros <;> decide +kernel, okAnd_iff (by decide +kernel), okAnd_iff (by decide +kernel), okAnd_iff (by decide +kernel),
   okAnd_iff (by decide +kernel), okAnd_iff (by decide +kernel), okAnd_iff (by decide +kernel), okAnd_iff (by decide +kernel),
   isBad_iff (by decide +kernel), isBad_iff (by decide +kernel), by decide +kernel, by decide +kernel⟩

/-- Lengths of 0 and of 64 bytes, the last 64 bytes of the core scratchpad and one byte past it. -/
theorem witness_Copies_checks :
    (localWord (mover.x (fieldReg 15))).len = 0 ∧ (localWord (mover.x (fieldReg 7))).len = 64 ∧
    (localWord (mover.x (fieldReg 7))).laddr = 0x800 ∧ mover.inScratch 0x800 64 = true ∧ mover.inScratch 0x7FFC0 64 = true ∧
    mover.inScratch 0x7FFC1 64 = false ∧ (∃ x, mover.translateAll [(mover.x (fieldReg 6), 64)] false = .ok x) ∧
    (∃ x, mover.translateAll [(mover.x (fieldReg 6), 64)] true = .ok x) ∧ mover.passes 0 (mover.x (fieldReg 6)) 64 rightR = true ∧
    mover.passes 0 (mover.x (fieldReg 6)) 64 rightW = true ∧ mover.badLineIn 0x800 64 = none ∧ mover.inScratch 0x8000 64 = true ∧
    meets 0x800 64 0x8000 64 = false := by
  refine ⟨?_, ?_, ?_, ?_, ?_, ?_, (okAnd_iff (p := fun _ => true) ?_).imp fun _ h => h.1,
    (okAnd_iff (p := fun _ => true) ?_).imp fun _ h => h.1, ?_, ?_, ?_, ?_, ?_⟩ <;> decide +kernel

/-- What `coll` of a descriptor at `a` asks, in its order. -/
def collPasses (s : State) (w : Who) (k a : Nat) : Bool :=
  let d := s.collDesc a
  let r := s.rebuild a 64
  let len := if k = 2 then d.nmemb * d.bytes else if k = 1 ∧ d.rank ≠ d.root then 0 else d.bytes
  let yes {α : Type} : α → Bool := fun _ => true
  r.bufHazard w (r.vaOf s.cur.cid d.group) (8 * d.nmemb) false == false &&
    okAnd (r.checkOver [(d.src, len, rightR), (d.group, 8 * d.nmemb, rightR)]) yes &&
    okAnd (r.translateAll [(d.group, 8 * d.nmemb)] false) fun x =>
      let g := x.1.groupBufs d x.2
      let sends := d.sends k g.2
      let dst := sends.map fun t => (t.2.2, d.bytes)
      okAnd (g.1.checkOver (dst.map fun x => (x.1, x.2, rightW))) yes &&
        okAnd (g.1.translateAll [(d.src, len)] false) fun y =>
          okAnd (y.1.translateAll dst true) yes && !(sends.any fun t => r.moveHazard w ⟨.buf t.2.1, .buf t.2.2, d.bytes⟩) &&
            sends.length == 2

theorem witness_CollectivesAndQueries_collectives :
    mover.issues .ld (dab 5 8 0) (shapeColl (dab 5 8 0)) {} ∧ mover.cur.spec = false ∧ mover.onLentDie = false ∧
    mover.inScratch 0x400 64 = true ∧ (mover.collDesc 0x400).ok 0 = true ∧ mover.badLineIn 0x400 64 = none ∧
    mover.localHazard .ld 0x400 64 false = false ∧ collPasses mover .ld 0 0x400 = true ∧
    (mover.rebuild 0x400 64).collAllowed (mover.collDesc 0x400) 0 = true ∧ (mover.rebuild 0x400 64).tilesHeld .ld = false ∧
    (({ mover with colls := [⟨0, 5, 3, 0, 0, [], [], [], []⟩] } : State).rebuild 0x400 64).collAllowed (mover.collDesc 0x400) 0 = false ∧
    guess.issues .ld (dab 5 8 0) (shapeColl (dab 5 8 0)) {} ∧ guess.cur.spec = true := by and_intros <;> decide +kernel

theorem witness_CollectivesAndQueries_queries :
    (mover.issues .ld (dab 5 9 0) (shapeNbq (dab 5 9 0)) {} ∧ guess.issues .ld (dab 5 9 0) (shapeNbq (dab 5 9 0)) {} ∧
      mover.inScratch 0x600 544 = true ∧ mover.badLineIn 0x600 544 = none ∧ (mover.queryDesc 0x600).ok = true ∧
      (mover.queryDesc 0x600).holeFits ((mover.rebuild 0x600 544).cur.team.hole 0) 1 = true ∧ keyEngines 0 32 1 = [0] ∧
      mover.localHazard .ld 0x600 544 false = false ∧ (mover.rebuild 0x600 544).bufHazard .ld 0x400000 32 false = false ∧
      2 ≤ ((mover.rebuild 0x600 544).cur.team.hole 0).free ∧
      ((teamed mover fun t => { t with ph := t.ph.set 0 ⟨true, 0x20000, 2, 4, 0, 0, 4, 0, []⟩ }).cur.team.hole 0).free < 2 ∧
      mover.issues .ld (dab 0 10 0) (shapeNbcan (dab 0 10 0)) {}) ∧
    (∃ x, (mover.rebuild 0x600 544).checkOver
      [((mover.queryDesc 0x600).kref, 32, rightN), ((mover.queryDesc 0x600).vref, 32, rightN)] = .ok x) ∧
    ∃ x, (mover.rebuild 0x600 544).nbPort (mover.queryDesc 0x600) = .ok x :=
  ⟨by and_intros <;> decide +kernel, (okAnd_iff (p := fun _ => true) (by decide +kernel)).imp fun _ h => h.1,
   (okAnd_iff (p := fun _ => true) (by decide +kernel)).imp fun _ h => h.1⟩


theorem witness_BufferMemory :
    (mover.issues .ld (lf 8 0 0 0 0 8 6 5) (shapeBld (lf 8 0 0 0 0 8 6 5)) {} ∧ mover.issues .ld (lf 3 0 0 0 0 10 6 0) (shapeBst (lf 3 0 0 0 0 10 6 0)) {} ∧
      (mover.focus = .member .ld ∧ Who.ld ≠ .seq) ∧ brefOff (mover.x 6) % 8 = 0 ∧ mover.loadHeld .ld = false ∧ brefOff (mover.x 6 + 1) % 8 ≠ 0 ∧
      mover.passes 0 (mover.x 6) 8 rightR = true ∧ mover.passes 0 (mover.x 6) 8 rightW = true ∧
      mover.bufHazard .ld (mover.vaOf 0 (mover.x 6)) 8 true = false ∧ mover.cur.spec = false ∧ guess.cur.spec = true) ∧
    (∃ x, mover.translatePages mover.memberAcc (mover.x 6) 8 false = .ok x) ∧
    (∃ x, mover.translatePages mover.memberAcc (mover.x 6) 8 true = .ok x) ∧
    ((guess.proofWrites (guess.x 6) [page 0x200000 0x600000 false] [1, 2]).isSome = true) ∧
    (mover.issues .ld (lf 3 0 0 0 8 10 6 5) (shapeBamo (lf 3 0 0 0 8 10 6 5)) {} ∧
      mover.issues .ld (lf 35 0 0 0 0 10 6 5) (shapeBamo (lf 35 0 0 0 0 10 6 5)) {} ∧
      mover.issues .ld (lf 19 0 0 0 0 10 6 5) (shapeBcas (lf 19 0 0 0 0 10 6 5)) {} ∧
      guess.issues .ld (lf 3 0 0 0 8 10 6 5) (shapeBamo (lf 3 0 0 0 8 10 6 5)) {} ∧
      mover.passes 0 (mover.x 6) 8 rightA = true ∧ (mover.ownCopies .ld).isEmpty = true) := by
  refine ⟨?_, (okAnd_iff (p := fun _ => true) ?_).imp fun _ h => h.1, (okAnd_iff (p := fun _ => true) ?_).imp fun _ h => h.1, ?_, ?_⟩
  · and_intros <;> decide +kernel
  · decide +kernel
  · decide +kernel
  · decide +kernel
  · and_intros <;> decide +kernel

/-- A sync object at virtual 0x205000, held as `e` and `sh` say. -/
def object (e : Option Nat) (sh : List Nat) : Sync := ⟨0, 0x205000, [], e, sh, [], 0⟩

/-- The courier with that object's bref in x6. -/
def syncer (e : Option Nat) (sh : List Nat) : State := { mover.setX 6 0x5000 with syncs := [object e sh] }

theorem witness_Synchronisation_objects :
    (mover.setX 6 0x5000).cur.spec = false ∧ brefOff 0x5000 % 64 = 0 ∧ (mover.setX 6 0x5000).passes 0 0x5000 64 rightA = true ∧
    (syncer none []).issues .ld (dab 0 6 0) (shapeAcq (dab 0 6 0)) {} ∧
    (syncer none []).issues .ld (lf 1 0 0 0 0 0 6 0) (shapeAcq (lf 1 0 0 0 0 0 6 0)) {} ∧
    (syncer none []).sync? 0 ((syncer none []).vaOf 0 ((syncer none []).x (fieldReg 6))) = some (object none []) ∧
    (object none []).holds 1 = false ∧ (object (some 9) []).holds 1 = false ∧ (object (some 1) []).holds 1 = true ∧
    (object none [1]).holds 1 = true ∧ (syncer (some 1) []).issues .ld (dab 0 6 0) (shapeRel (dab 0 6 0)) {} ∧
    (syncer (some 1) []).ownCopies .ld = [] ∧ ((syncer (some 1) []).member .ld).wait = none ∧
    (mover.setX 6 0x5000).sync? 0 0x205000 = none ∧ (∃ x, (mover.setX 6 0x5000).register (parseDesc (mover.descBytes 0 0x5000)) 0x5000 = .ok x ∧ x.2.queue.isEmpty = true) ∧
    (let s := (syncer none []).setMember .ld { (syncer none []).member .ld with wait := some (.acq 0x205000 (some 0) (mover.descBytes 0 0x5000)) }
     s.issues .ld (dab 0 6 0) (shapeAcq (dab 0 6 0)) {} ∧ (s.member .ld).wait = some (.acq 0x205000 (some 0) (mover.descBytes 0 0x5000)) ∧
       (parseDesc (mover.descBytes 0 0x5000)).vbase + brefOff (s.x (fieldReg 6)) = 0x205000) :=
  by and_intros <;> first | decide +kernel | exact okAnd_iff (by decide +kernel)

/-- A directory with a free entry, and one that holds as many objects as it has entries. -/
theorem witness_Synchronisation_directory :
    (mover.setX 6 0x5000).directoryFull = false ∧ (mover.setX 6 0x5000).bufHazard .ld 0x205000 64 false = false ∧
    ({ mover.setX 6 0x5000 with syncs := List.replicate (Config.syncExtra + 1) ⟨1, 0, [], none, [], [], 0⟩ } : State).directoryFull = true := by
  have free (s : State) (h : s.syncs = []) : s.directoryFull = false := by simp [State.directoryFull, h]
  exact ⟨free _ (by decide +kernel), by decide +kernel, by simp [State.directoryFull]⟩

theorem witness_Synchronisation_waits :
    (mover.issues .ld (lf 17 0 0 0 0 10 6 0) (shapeFrange (lf 17 0 0 0 0 10 6 0)) {} ∧
      mover.issues .ld (lf 3 0 0 0 0 15 6 0) (shapeFrange (lf 3 0 0 0 0 15 6 0)) {} ∧
      mover.passes 0 (mover.x 6) 64 rightR = true ∧ (lf 3 0 0 0 0 15 6 0).scope = 0 ∧ (lf 17 0 0 0 0 10 6 0).scope ≠ 0) ∧
    (mover.issues .ld (dab 5 0 2) (shapePmrd (dab 5 0 2)) {} ∧ mover.issues .ld (dab 0 10 1) (shapePmwait (dab 0 10 1)) {} ∧
      mover.issues .ld (dab 0 15 1) (shapePmwait (dab 0 15 1)) {} ∧ (mover.x 15).toNat = 0 ∧
      (mover.pm 0 0 1).completed < (mover.x 10).toNat ∧
      (({ mover with postmarks := [(1, ⟨70, []⟩)] } : State).pm 0 0 1).completed = 70) ∧
    (mover.issues .ld (dab 0 0 63) (shapeWait (dab 0 0 63)) { ok5 := true } ∧
      (demo .seq []).issues .seq (lf 63 0 0 0 0 0 0 0) (shapeWait (lf 63 0 0 0 0 0 0 0)) { ok5 := true } ∧
      ((mover.ownCopies .ld).filter Copy.unread).length ≤ 0 ∧ (mover.ownCopies .ld).length ≤ 0 ∧ mover.courierTiles .ld ≤ 0 ∧ (demo .seq []).cur.team.tileOps ≤ 0) := by
  and_intros <;> decide +kernel

/-- The courier with the hole in another state: reserved, and taken. -/
def holding (filled taken : Nat) (resv : List HoleSlot) : State := teamed mover fun t => { t with
  ph := t.ph.set 0 ⟨true, 0x20000, 2, 4, 0, 0, filled, taken, resv⟩ }

theorem witness_HolesAndQueues_holes :
    (mover.issues .ld (dab 0 13 1) (shapePhcfg (dab 0 13 1)) {} ∧ mover.issues .ld (dab 0 15 1) (shapePhcfg (dab 0 15 1)) {} ∧
      (mover.cur.team.hole 1).en = false ∧ (mover.x 13).extractLsb' 32 16 ≠ 0#16 ∧ (mover.x 15).extractLsb' 32 16 = 0#16 ∧
      mover.holeOk (holeOf (mover.x 13)) 1 = true) ∧
    (mover.issues .ld (dab 5 0 0) (shapePhtake (dab 5 0 0)) {} ∧ mover.issues .ld (dab 5 0 1) (shapePhtake (dab 5 0 1)) {} ∧
      (mover.cur.team.hole 0).filled ≠ 0 ∧ (alone.cur.team.hole 0).filled = 0 ∧
      (Who.ld.others.all fun w => (alone.member w).ended) = true ∧ alone.holeBusy 0 = false ∧
      ((holding 0 0 []).cur.team.hole 0).filled = 0 ∧ (Who.ld.others.all fun w => ((holding 0 0 []).member w).ended) = false) ∧
    (mover.issues .ld (dab 5 0 0) (shapePhres (dab 5 0 0)) {} ∧ (mover.cur.team.hole 0).free ≠ 0 ∧
      (let s := holding 4 0 []
       s.issues .ld (dab 5 0 0) (shapePhres (dab 5 0 0)) {} ∧ (s.cur.team.hole 0).free = 0 ∧
         (Who.ld.others.all fun w => (s.member w).ended) = false) ∧
      (let s := teamed alone fun t => { t with ph := t.ph.set 0 ⟨true, 0x20000, 2, 4, 0, 0, 4, 0, []⟩ }
       s.issues .ld (dab 5 0 0) (shapePhres (dab 5 0 0)) {} ∧ (s.cur.team.hole 0).free = 0 ∧ s.holeBusy 0 = false ∧
         (Who.ld.others.all fun w => (s.member w).ended) = true) ∧
      (let s := { holding 0 1 [] with copies := [⟨1, 1, 0, 0, .ld, 0, 1, [⟨.loc 0x20180, .loc 0x8000, 64⟩], none, 0, false, [(⟨.loc 0x20180, .loc 0x8000, 64⟩, [])], [], false, false, [], []⟩] }
       s.issues .ld (dab 0 0 0) (shapePhgive (dab 0 0 0)) {} ∧
         ((s.ownCopies .ld).any fun c => c.todo.any fun m => unreadLocal m ((s.cur.team.hole 0).slotAddr (s.cur.team.hole 0).oldest) 128) = true) ∧
      mover.issues .ld (dab 0 0 0) (shapePhpost (dab 0 0 0)) {} ∧
      (postFirst ((holding 0 0 [⟨0, false, false, none, false⟩]).cur.team.hole 0).resv).isSome = true ∧
      postFirst (mover.cur.team.hole 0).resv = none) ∧
    ((holding 0 1 []).issues .ld (dab 0 0 0) (shapePhgive (dab 0 0 0)) {} ∧ ((holding 0 1 []).cur.team.hole 0).taken ≠ 0 ∧
      (mover.cur.team.hole 0).taken = 0 ∧ mover.issues .ld (dab 5 0 0) (shapePhstat (dab 5 0 0)) {}) := by and_intros <;> decide +kernel

/-- The courier with `n` words in each queue; those towards the store courier's ended end where `gone`. -/
def queued (n : Nat) (gone : Bool) : State := teamed (demo .ld [(6, 7)]) fun t => { t with
  seq := { t.seq with ended := gone }, st := { t.st with ended := gone }, tq := Vector.replicate 8 (List.replicate n 3) }

theorem witness_HolesAndQueues_queues :
    ((queued 15 false).issues .ld (dab 0 6 2) (shapeTqput (dab 0 6 2)) { route := some (2, true) } ∧
      ((queued 15 false).cur.team.tq.get (queueNum 2)).length < 16 ∧ 16 ≤ ((queued 16 false).cur.team.tq.get (queueNum 2)).length ∧
      (queued 16 false).issues .ld (dab 0 6 2) (shapeTqput (dab 0 6 2)) { route := some (2, true) } ∧
      ((queued 16 true).member (queueEnds (queueNum 2)).2).ended = true ∧ ((queued 16 false).member (queueEnds (queueNum 2)).2).ended = false) ∧
    ((queued 1 false).issues .ld (dab 5 0 0) (shapeTqget (dab 5 0 0)) { route := some (0, false) } ∧
      (queued 1 false).issues .ld (lf 1 0 0 0 0 0 0 5) (shapeTqget (lf 1 0 0 0 0 0 0 5)) { route := some (0, false) } ∧
      (queued 1 false).cur.team.tq.get (queueNum 0) = 3 :: [] ∧ (queued 0 false).cur.team.tq.get (queueNum 0) = [] ∧
      ((queued 0 true).member (queueEnds (queueNum 0)).1).ended = true ∧ ((queued 0 false).member (queueEnds (queueNum 0)).1).ended = false) := by
  and_intros <;> decide +kernel

/-! ### Tasks and tenant security -/

/-- A launch queue of context 0 with `n` records. -/
def queue (n : Nat) : Queue :=
  { headSeg := 0x8000, tailSeg := 0x8000, head := 0, tail := n, cid := 0, weight := 1, prio := 0, urgent := false, tokens := 4,
    tokcap := 8, refill := 10, refillAt := 0, credit := 100, accepted := 0, refused := 0, stall := false,
    posted := List.replicate n ⟨0, none, false⟩ }

/-- The courier with a TCB at virtual 0x206000 whose first byte is `st`, a kernel descriptor behind it, a launch record at local
0xC00, a seal descriptor at 0xD00, an unseal descriptor at 0xE00, and queue 0. -/
def tasker (st policy : Nat) : State := teamed { (mover.setX 6 0x6000).setX 8 0xC00 with
    mem := mover.mem ++
      cellsAt 0x606000 ([st, 0, 0, 0, 0, 0, 0, 0, 0, 0, 0, 0, 0, 0, 0, 0, 0x80, 0x60] ++ List.replicate 23 0 ++ [policy] ++ List.replicate 38 0 ++ [32]) ++
      cellsAt 0x606080 ([1, 0, 0, 0, 0, 0, 32, 0, 0, 0x61, 0, 0, 0, 0, 0, 0, 0, 0x61, 0, 0, 0, 0, 0, 0, 0, 0x61] ++ List.replicate 6 0 ++
        [4, 0, 0, 0, 4, 0, 4])
    parts := mover.parts.set 0 { blankPart with slices := [0], queues := [(0, queue 3)] } }
  fun t => { t with
    scratch := t.scratch ++ cellsAt 0xD00 [0, 0x90, 0, 0, 0, 0, 0, 0, 0, 2, 0, 0, 1] ++
      cellsAt 0xD40 [0, 0x10, 0, 0, 0, 0, 0, 0, 64] ++ cellsAt 0xE00 [0, 0x90, 0, 0, 0, 0, 0, 0, 0x10, 1] }

/-- What `tenq` asks of the TCB after its translation. -/
def tcbPasses (x : State × List Tlb) (b : Word) (start : Bool) : Bool :=
  let t := parseTcb (x.1.devRead x.1.sorterAcc b 128)
  x.1.tcbOk 0 t && ([0, 4, 7] : List Nat).contains (t.state % 16) == start

theorem witness_TaskEnqueue :
    ((tasker 0 1).issues .ld (dab 0 6 0) (shapeTenq (dab 0 6 0)) {} ∧ (tasker 0 1).cur.spec = false ∧ (tasker 0 1).ownCopies .ld = [] ∧
      brefOff ((tasker 0 1).x (fieldReg 6)) % 128 = 0 ∧ brefOff (0x6040 : Word) % 128 ≠ 0 ∧
      (tasker 0 1).passes 0 0x6000 128 (rightR ||| rightW) = true ∧ (tasked (tasker 0 1) fun t => { t with spec := true }).cur.spec = true) ∧
    (∃ x, ((tasker 0 1).wbAll 0 0).translatePages ((tasker 0 1).wbAll 0 0).memberAcc 0x6000 128 true = .ok x ∧ tcbPasses x 0x6000 true = true) ∧
    (∃ x, ((tasker 3 1).wbAll 0 0).translatePages ((tasker 3 1).wbAll 0 0).memberAcc 0x6000 128 true = .ok x ∧ tcbPasses x 0x6000 false = true) ∧
    (∃ x, ((tasker 0 0).wbAll 0 0).translatePages ((tasker 0 0).wbAll 0 0).memberAcc 0x6000 128 true = .ok x ∧
      (!x.1.tcbOk 0 (parseTcb (x.1.devRead x.1.sorterAcc 0x6000 128))) = true) :=
  ⟨by and_intros <;> decide +kernel, okAnd_iff (by decide +kernel), okAnd_iff (by decide +kernel), okAnd_iff (by decide +kernel)⟩

/-- A team of which only the load courier still runs. -/
def lastOne : State := teamed (demo .ld [(10, 5)]) fun t => { t with
  seq := { t.seq with ended := true }, st := { t.st with ended := true } }

/-- A task of the same priority that waits for a core. -/
def waiter : Task := { blankTask with id := 7, state := .ready, cid := 0, stamps := 1360 }

theorem witness_TaskControl_ends :
    ((demo .ld []).issues .ld (dab 0 0 0) (shapeTend (dab 0 0 0)) {} ∧ ((demo .ld []).ownCopies .ld = [] ∧ (demo .ld []).courierTiles .ld = 0) ∧
      (Who.ld.others.all fun w => ((demo .ld []).member w).ended) = false ∧ (Who.ld.others.all fun w => (lastOne.member w).ended) = true ∧
      lastOne.holding = false ∧ ({ lastOne with syncs := [object (some 1) []] } : State).holding = true ∧
      lastOne.issues .ld (dab 0 0 0) (shapeTend (dab 0 0 0)) {} ∧ (tasked lastOne fun t => { t with spec := true }).holding = false ∧
      (demo .seq []).issues .seq (dab 0 0 0) (shapeTend (dab 0 0 0)) {} ∧
      ¬ ((teamed (demo .seq []) fun t => { t with matBusy := 2 }).cur.team.matBusy = 0) ∧
      ({ demo .ld [] with copies := [⟨5, 1, 0, 0, .ld, 0, 1, [], none, 0, false, [], [], false, false, [], []⟩] } : State).ownCopies .ld ≠ []) ∧
    ((demo .seq []).issues .seq (dab 0 0 0) (shapeTyield (dab 0 0 0)) {} ∧ (demo .seq []).othersWait = false ∧
      ({ demo .seq [] with tasks := [waiter] } : State).othersWait = true ∧
      (demo .seq [(10, 5)]).issues .seq (dab 0 10 0) (shapeTabort (dab 0 10 0)) {}) := by and_intros <;> decide +kernel

theorem witness_TaskControl_waits :
    ((tasker 0 1).issues .ld (dab 0 8 15) (shapeLnch (dab 0 8 15)) {} ∧ ((tasker 0 1).member .ld).wait = none ∧
      (tasker 0 1).cur.spec = false ∧ (tasker 0 1).cur.stepping = none ∧ (tasker 0 1).inScratch 0xC00 64 = true ∧
      (tasker 0 1).localHazard .ld 0xC00 64 false = false ∧ (tasker 0 1).badLineIn 0xC00 64 = none ∧ (tasker 0 1).rebuild 0xC00 64 = tasker 0 1 ∧ (tasker 0 1).queueOf 0 0 = some (queue 3) ∧ (tasker 0 1).cur.part = partOf 0 ∧
      ((visRanges ((tasker 0 1).localBytes 0xC00 64)).any fun r => r.2 == 0 && r.1 != 0) = false ∧ (tasker 0 1).copies = [] ∧
      (queue 3).stall = false ∧ (queue 3).tail < 62 ∧
      (tasked (tasker 0 1) fun t => { t with stepping := some .ld }).cur.stepping = some .ld ∧
      (({ tasker 0 1 with parts := base.parts.set 0 { blankPart with slices := [0], queues := [(0, { queue 62 with stall := true })] } } : State).queueOf
        0 0) = some { queue 62 with stall := true }) ∧
    ((∃ x, (tasker 0 1).checkAll [] rightR = .ok x) ∧
      (visRanges ((tasker 0 1).localBytes 0xC00 64)).filter (fun r => r.2 != 0) = []) ∧
    (mover.issues .ld (lf 9 0 0 0 0 15 6 5) (shapeTwait (lf 9 0 0 0 0 15 6 5)) {} ∧ (mover.member .ld).wait = none ∧
      brefOff (mover.x (fieldReg 6)) % 8 = 0 ∧ mover.passes 0 (mover.x (fieldReg 6)) 8 rightA = true ∧
      ((mover.setMember .ld { mover.member .ld with wait := some (.twait 0x205000 8 0 false (mover.descBytes 0 0x5000)) }).member .ld).wait =
        some (.twait 0x205000 8 0 false (mover.descBytes 0 0x5000)) ∧ mover.ownCopies .ld = []) ∧
    (∃ x, (mover.setX 6 0x5000).translateUnder (parseDesc (mover.descBytes 0 0x5000)) mover.memberAcc 0x5000 8 false = .ok x ∧
      ((x.1.wbAll 0 0).waitRead (parseDesc (mover.descBytes 0 0x5000)) 0x5000 x.2 0x205000 8 true).2.1 &&& 255 != 0) ∧
    (∃ x, mover.translateUnder (parseDesc (mover.descBytes 0 0x1000)) mover.memberAcc 0x1000 8 false = .ok x ∧
      ((x.1.wbAll 0 0).waitRead (parseDesc (mover.descBytes 0 0x1000)) 0x1000 x.2 0x201000 8 false).2.1 == 0) :=
  ⟨by and_intros <;> decide +kernel, ⟨⟨(), rfl⟩, by decide +kernel⟩, by and_intros <;> decide +kernel, okAnd_iff (by decide +kernel),
   okAnd_iff (by decide +kernel)⟩

theorem witness_TaskQueries :
    (mover.issues .ld (dab 5 0 0) (shapeSpecq (dab 5 0 0)) {} ∧ mover.cur.tcb = 0 ∧ (tasked mover fun t => { t with tcb := 0x6000 }).cur.tcb ≠ 0) ∧
    (mover.issues .ld (dab 5 15 17) (shapeVdist (dab 5 15 17)) {} ∧ (mover.x (fieldReg 15)).toNat < (mover.vdies 0).length ∧
      (mover.vdies 0).length ≤ (mover.x (fieldReg 10)).toNat) ∧
    (mover.issues .ld (dab 5 6 0) (shapeKstat (dab 5 6 0)) {} ∧ mover.passes 0 0x1000 1 rightR = true) ∧
    (∃ x, mover.translatePages mover.memberAcc 0x1000 1 false = .ok x ∧ (pageOf x.2 0x201000).isSome = true) ∧
    (mover.issues .ld (dab 0 12 10) (shapeScrub (dab 0 12 10)) {} ∧ mover.inScratch 0x8000 64 = true ∧ mover.inScratch 0x7FFC1 64 = false ∧
      0x8000 % 64 = 0 ∧ 0x8001 % 64 ≠ 0 ∧ mover.localHazard .ld 0x8000 64 true = false ∧ mover.inScratch 0x8001 64 = true) :=
  ⟨by and_intros <;> decide +kernel, by and_intros <;> decide +kernel, by and_intros <;> decide +kernel, okAnd_iff (by decide +kernel),
   by and_intros <;> decide +kernel⟩

/-- The courier with one block, a block and a half, a length past 1 MiB in its registers. -/
def rotator : State := ((((mover.setX 6 0x1000).setX 7 4096).setX 8 6144).setX 9 1052672).setX 10 0x1800

theorem witness_BlockInstructions :
    (rotator.issues .ld (dab 5 6 7) (shapeKrot (dab 5 6 7)) {} ∧ rotator.issues .ld (dab 5 6 8) (shapeKrot (dab 5 6 8)) {} ∧
      rotator.issues .ld (dab 0 6 7) (shapeMdead (dab 0 6 7)) {} ∧ rotator.cur.spec = false ∧
      (tasked rotator fun t => { t with spec := true }).issues .ld (dab 5 6 7) (shapeKrot (dab 5 6 7)) {}) ∧
    ((rotator.x 8).toNat % 4096 ≠ 0 ∧ 1048576 < (rotator.x 9).toNat ∧ (rotator.x 15).toNat = 0 ∧
      rotator.vaOf 0 (rotator.x 6) % 4096 = 0 ∧ rotator.vaOf 0 (rotator.x 10) % 4096 ≠ 0) ∧
    (rotator.passes 0 0x1000 4096 (rightR ||| rightW) = true ∧ (rotator.desc 0 0x1000).de = true ∧ (rotator.desc 0 (1 <<< 52)).de = false ∧
      rotator.passes 0 (1 <<< 52) 4096 rightW = true ∧ rotator.onNbPage 0x201000 = false ∧ blockStarts 0x201000 4096 = [0x201000] ∧
      rotator.bufHazard .ld 0x201000 4096 true = false) ∧
    (∃ x, rotator.translatePages rotator.memberAcc 0x1000 4096 true = .ok x ∧ (pageOf x.2 0x201000).isSome = true) :=
  ⟨by and_intros <;> decide +kernel, by and_intros <;> decide +kernel, by and_intros <;> decide +kernel, okAnd_iff (by decide +kernel)⟩

theorem witness_SealedImages :
    (((tasker 0 1).setX 11 0xD00).issues .ld (dab 25 11 0) (shapeSealImage (dab 25 11 0)) {} ∧ (tasker 0 1).cur.spec = false ∧
      (tasker 0 1).inScratch 0xD00 80 = true ∧ (tasker 0 1).localHazard .ld 0xD00 64 false = false ∧ (tasker 0 1).localHazard .ld 0xD00 80 false = false ∧ (tasker 0 1).badLineIn 0xD00 80 = none ∧ (tasker 0 1).sealDesc 0xD00 = (0x9000, 512, 1, false) ∧
      parseRanges ((tasker 0 1).localBytes 0xD40 16) 1 = [(0x1000, 64, 0)] ∧ rangeOk (0x1000, 64, 0) = true ∧
      imageSize [(0x1000, 64, 0)] = 272 ∧ meets ((tasker 0 1).vaOf 0 0x9000) 272 ((tasker 0 1).vaOf 0 0x1000) 64 = false ∧
      (tasker 0 1).passes 0 0x9000 272 rightW = true ∧ (tasker 0 1).copies = [] ∧
      (tasker 0 1).bufHazard .ld ((tasker 0 1).vaOf 0 0x9000) 272 true = false ∧
      (tasker 0 1).rebuild 0xD00 80 = tasker 0 1 ∧ (tasker 0 1).rebuild 0xE00 64 = tasker 0 1) ∧
    (∃ x, (tasker 0 1).checkAll [(0x1000, 64)] rightR = .ok x) ∧
    (∃ x, (tasker 0 1).translateAll [(0x1000, 64)] false = .ok x ∧ okAnd (x.1.translateAll [(0x9000, 272)] true) (fun _ => true) = true) ∧
    ((tasked ((tasker 0 1).setX 11 0xD00) fun t => { t with spec := true }).issues .ld (dab 25 11 0) (shapeSealImage (dab 25 11 0)) {}) ∧
    (((tasker 0 1).setX 12 0xE00).issues .ld (dab 5 12 0) (shapeUnsealImage (dab 5 12 0)) {} ∧
      (tasker 0 1).sealDesc 0xE00 = (0x9000, 272, 0, false) ∧ (tasker 0 1).localHazard .ld 0xE00 64 false = false ∧ (tasker 0 1).passes 0 0x9000 272 rightR = true) ∧
    (∃ x, (tasker 0 1).translatePages (tasker 0 1).memberAcc 0x9000 272 false = .ok x ∧
      isBad ((x.1.sealRead 0x9000 x.2 272).1.unsealVerdict (x.1.sealRead 0x9000 x.2 272).2 272) = true) :=
  ⟨by and_intros <;> decide +kernel, ⟨_, okAnd_iff (p := fun _ => true) (by decide +kernel) |>.choose_spec.1⟩, okAnd_iff (by decide +kernel),
   by decide +kernel, by and_intros <;> decide +kernel, okAnd_iff (by decide +kernel)⟩

/-! ### Class 15 -/

/-- A hart that answers tasks: x11 points at a selector of zeros, which names `running`, x12 at an answer for the load courier. -/
def answerer (h : Fin 16) (f : Task → Task) : State :=
  tasked { onHart h [(11, 0x300000), (12, 0x300040), (13, 1)] with mem := table ++ cellsAt 0x300040 [1, 0, 0, 0, 3] } f

/-- The step form that names x11, with x13 in B. -/
def answer : LF := lf 0 0 0 0 2 13 11 10

theorem witness_TaskAnswers_issue :
    ((answerer 8 id).issuesSys 8 (dab 10 11 0) (shapeCtxsv (dab 10 11 0)) ∧ (answerer 8 id).issuesSys 8 (lf 0 0 0 0 1 0 11 10) (shapeCtxsvHalt (lf 0 0 0 0 1 0 11 10)) ∧
      (answerer 8 id).issuesSys 8 (dab 10 11 0) (shapeCtxrs (dab 10 11 0)) ∧ (answerer 8 id).issuesSys 8 (dab 10 11 0) (shapeCkpt (dab 10 11 0)) ∧
      (answerer 8 id).issuesSys 8 (dab 10 11 0) (shapeCkrb (dab 10 11 0)) ∧ (answerer 0 id).issuesSys 0 (dab 10 11 0) (shapeTresmResume (dab 10 11 0)) ∧
      (answerer 0 id).issuesSys 0 (lf 0 0 0 0 1 0 11 10) (shapeTresmRestart (lf 0 0 0 0 1 0 11 10)) ∧ (answerer 0 id).issuesSys 0 answer (shapeTresmStep answer) ∧
      (answerer 0 id).issuesSys 0 (lf 0 0 0 0 3 0 11 10) (shapeTresmAbandon (lf 0 0 0 0 3 0 11 10)) ∧ (answerer 0 id).issuesSys 0 (lf 0 0 0 0 4 0 11 10) (shapeTresmRel (lf 0 0 0 0 4 0 11 10)) ∧
      (answerer 0 id).issuesSys 0 (lf 0 0 0 0 5 12 11 10) (shapeTresmSvc (lf 0 0 0 0 5 12 11 10)) ∧ (answerer 0 id).issuesSys 0 (dab 10 11 0) (shapeTcanc (dab 10 11 0)) ∧
      (answerer 0 id).issuesSys 0 (dab 10 11 13) (shapeTresmResume (dab 10 11 13)) ∧ (answerer 8 id).x (fieldReg 13) ≠ 0) ∧
    ((0 : Fin 16).val < 8 ∧ 8 ≤ (8 : Fin 16).val ∧ (answerer 8 id).issuesSys 8 (dab 10 11 0) (shapeTcanc (dab 10 11 0))) ∧
    (∃ t, (answerer 0 id).selected 0 0x300000 = .ok t ∧ (t.id == 1) = true) ∧
    (let s := (answerer 0 id).setHart 0 { (answerer 0 id).hart 0 with wait := some (.status 3) }
     s.focus = .hart 0 ∧ (s.hart 0).mode ≠ 0 ∧ (shapeCtxsv (dab 10 11 0)).fieldsOk (dab 10 11 0) = true ∧
       (shapeTlbir (dab 5 15 16)).fieldsOk (dab 5 15 16) = true ∧ (s.hart 0).wait = some (.status 3)) ∧
    (∃ t, (answerer 8 id).selected 8 0x300000 = .ok t ∧ (t.id == 1) = true) ∧ (∃ e, (answerer 8 id).selected 8 0x300001 = .error e) :=
  ⟨by and_intros <;> decide +kernel, by and_intros <;> decide +kernel, okAnd_iff (by decide +kernel), by and_intros <;> decide +kernel, okAnd_iff (by decide +kernel), isBad_iff (by decide +kernel)⟩

/-- A halted task with an image. -/
def halted (t : Task) : Task := { t with state := .saved, core := none, halted := true, image := true }

/-- The same with a record in queue 0 that a debugger holds for the task. -/
def holder : State :=
  { answerer 8 id with
    parts := base.parts.set 0 { blankPart with slices := [0], queues := [(0, { queue 1 with posted := [⟨0, some 1, false⟩] })] } }

theorem witness_TaskAnswers_tasks :
    (running.state = .running ∧ running.core ≠ none ∧ running.stop = none ∧ (halted running).state ≠ .running ∧
      ({ running with core := none } : Task).core = none) ∧
    ((halted running).state = .saved ∧ (halted running).stepping = none ∧ ({ halted running with image := false } : Task).image = false ∧
      (answerer 8 halted).verifies 1 = true ∧
      (answerer 8 fun t => { halted t with slot := some 0, sealed := [1] }).verifies 1 = false) ∧
    ((answerer 8 id).rollbackable { running with ckpt := some blankTeam } = true ∧ ({ running with ckpt := some blankTeam } : Task).ckptInSpec = true ∧
      ({ running with spec := true } : Task).ckptInSpec = false ∧ ({ running with policy := 8 } : Task).policy.getLsbD 3 = true ∧
      (answerer 8 id).rollbackable { running with spec := true, core := none, ckpt := some blankTeam } = true ∧
      running.policy.getLsbD 3 = false) ∧
    (running.answerable = false ∧ (halted running).answerable = true ∧ ({ running with state := .faulted } : Task).answerable = true ∧
      ((answerer 8 id).x (fieldReg 13)).toNat ≤ 2 ∧ (running.team.member (whoOf 1)).ended = false) ∧
    (({ running with stepping := some .ld } : Task).stepping = some .ld ∧
      (({ running with team := { blankTeam with ld := { blankMember with wait := some .counters } } } : Task).team.member .ld).wait ≠ none) ∧
    (((answerer 8 id).focusTask 1).heldChildren = 0 ∧ (holder.focusTask 1).heldChildren ≠ 0) ∧
    ((answerer 8 id).blockAt 0x300040 = true ∧ ((answerer 8 id).answerAt 0x300040).ok = true ∧ ((answerer 8 id).answerAt 0x300040).tag = 3 ∧
      whoOf ((answerer 8 id).answerAt 0x300040).member = .ld ∧ running.state ≠ .done ∧
      (({ running with team := { blankTeam with ld := { blankMember with svc := some 3 } } } : Task).team.member .ld).svc = some 3 ∧
      (running.team.member .ld).answer = none) := by and_intros <;> decide +kernel

/-- A record held is released, and nothing is held then. -/
theorem witness_TaskAnswers_held :
    ((holder.withTask 1 State.releaseHeld).focusTask 1).heldChildren = 0 ∧ (holder.withTask 1 State.releaseHeld).cur.id = 1 := by decide +kernel

/-- The hub's hart 0: x11 partition 0 and slot 0, x12 a block of parameters, x13 = 1, x14 = 0x207000's bref, x15 = 0x200000,
x16 = 4096 of context 0, x17 a table of one virtual die, x18 = 4096, x19 = 1360; partition 1 has slice 1 and a tenant. -/
def hub (h : Fin 16) : State :=
  tasked { onHart h [(11, 0), (12, 0x300100), (13, 1), (14, 0x7000), (15, 0x200000), (16, 4096), (17, 0x300200), (19, 1360), (20, 0x100)] with
    mem := table ++ cellsAt 0x300100 [0, 1, 0, 0, 140] ++ cellsAt 0x300200 [1]
    parts := (base.parts.set 0 { blankPart with slices := [0], tenant := some ⟨0, 1, [], []⟩, queues := [(0, { queue 3 with tail := 62 })] }).set 1
      { blankPart with slices := [1] } }
    fun _ => blankTask

theorem witness_HubInstructions_issue :
    ((hub 0).issuesSys 0 (dab 5 15 16) (shapeTlbir (dab 5 15 16)) ∧ (hub 0).issuesSys 0 (dab 5 11 0) (shapeKsload (dab 5 11 0)) ∧
      (hub 0).issuesSys 0 (lf 0 0 0 0 1 0 20 5) (shapeKsloadNew (lf 0 0 0 0 1 0 20 5)) ∧ (hub 0).issuesSys 0 (dab 5 11 13) (shapeKsclr (dab 5 11 13)) ∧
      (hub 0).issuesSys 0 (lf 0 0 0 0 1 0 11 5) (shapeKsclrAll (lf 0 0 0 0 1 0 11 5)) ∧ (hub 0).issuesSys 0 (dab 5 0 17) (shapeSlmap (dab 5 0 17)) ∧
      (hub 0).issuesSys 0 (dab 5 12 0) (shapeSlend (dab 5 12 0)) ∧ (hub 0).issuesSys 0 (dab 5 0 0) (shapeSlrcl (dab 5 0 0)) ∧
      (hub 0).issuesSys 0 (dab 5 11 14) (shapeQlink (dab 5 11 14)) ∧ (hub 0).issuesSys 0 (dab 5 0 17) (shapeErrpost (dab 5 0 17)) ∧
      (hub 0).issuesSys 0 (dab 5 11 0) (shapeTset (dab 5 11 0)) ∧ (hub 0).issuesSys 0 (dab 5 11 0) (shapeTadj (dab 5 11 0)) ∧
      (hub 0).issuesSys 0 (dab 5 0 19) (shapeStmp (dab 5 0 19))) ∧
    (8 ≤ (9 : Fin 16).val ∧ (hub 9).issuesSys 9 (dab 5 11 0) (shapeTset (dab 5 11 0)) ∧ (0 : Fin 16).val < 8) := by
  and_intros <;> decide +kernel

theorem witness_HubInstructions_operands :
    (((hub 0).hart 0).mayActOn 0 = true ∧ (hub 0).x (fieldReg 11) &&& ~~~0x3F07#64 = 0 ∧ ((hub 0).part 0).tenant ≠ none ∧
      8 ≤ ((hub 0).keySlot 1).part ∧ ((hub 0).x (fieldReg 20)).extractLsb' 8 6 = 1#6 ∧ ((hub 0).keySlot 0).part = 0 ∧
      ((hub 0).keySlot 0).h0 ≠ none ∧ ((hub 0).keySlot 0).h1 = none ∧
      (((hub 0).setKeySlot 0 ⟨0, some ⟨none, 0, 1⟩, some ⟨none, 0, 2⟩, true⟩).keySlot 0).h1 ≠ none ∧ (hub 0).x (fieldReg 13) = 1 ∧ (hub 0).x (fieldReg 0) = 0) ∧
    (((hub 0).x (fieldReg 15)).toNat % 4096 = 0 ∧ ((hub 0).x (fieldReg 16)).toNat % 2 ^ 52 = 4096 ∧
      partOf (((hub 0).x (fieldReg 16)).toNat / 2 ^ 52) = 0) ∧
    ((hub 0).blockAt ((hub 0).x (fieldReg 17)).toNat = true ∧ (hub 0).ctx? 0 = some context ∧
      (hub 0).vdieTable 0 ((hub 0).fwRead 0x300200 16) = some [0] ∧ (hub 0).ctxBusy 0 = false ∧
      (tasked (hub 0) fun _ => running).ctxBusy 0 = true) ∧
    ((hub 0).blockAt 0x300100 = true ∧ (hub 0).sliceOwner 0 = some 0 ∧ (hub 0).physNat 0x300101 1 = 1 ∧ 0 < ((hub 0).part 1).slices.length ∧
      (hub 0).physNat 0x300104 4 = 140 ∧ (hub 0).physNat 0x300108 8 = 0 ∧ ((hub 0).die 0).loan = none ∧ ((hub 0).die 0).stands = true ∧ (hub 0).dieIdle 0 0 = true ∧
      (((hub 0).setDie 0 { blankDie with loan := some ⟨0, 1, 0, 140, false, none, []⟩ }).die 0).loan ≠ none) ∧
    (let u := (hub 0).devTouch ((hub 0).deviceAcc 0) (0x7000 + 4032) 64
     ((hub 0).part 0).queue 0 = some { queue 3 with tail := 62 } ∧ u.vaOf 0 0x7000 % 4096 = 0 ∧
      u.passes 0 0x7000 4096 (rightR ||| rightW) = true ∧
      (u.devRead (u.deviceAcc 0) (0x7000 + 4032) 64).any (· != 0) = false ∧ u.vaOf 0 0x7001 % 4096 ≠ 0 ∧ (queue 3).tail ≠ 62 ∧
      ((u.devWrite (u.deviceAcc 0) (0x7000 + 4032) [1]).devRead (u.deviceAcc 0) (0x7000 + 4032) 64).any (· != 0) = true) ∧
    ((hub 0).physNat 0x300104 2 = 140 ∧ (hub 0).physNat 0x300204 2 = 0 ∧ (hub 0).blockAt 0x300200 = true) ∧
    ((hub 0).hub.timeLocked = false ∧ (hub 0).hub.domain = false ∧
      ({ hub 0 with hub := { blankHub with timeLocked := true } } : State).hub.timeLocked = true ∧
      (-4194304 ≤ ((hub 0).x (fieldReg 11)).toInt ∧ ((hub 0).x (fieldReg 11)).toInt ≤ 4194304) ∧
      ({ hub 0 with hub := { blankHub with domain := true } } : State).hub.tmaster = false ∧ 4194304 < (BitVec.ofNat 64 4194305).toInt ∧ ((hub 0).x (fieldReg 19)).toNat ≤ 1360) := by and_intros <;> decide +kernel


/-! ### Events -/

/-- `base` long after reset, with the arguments of an event and its task changed. -/
def happens (args : List Nat) (f : Task → Task) : State :=
  tasked { base with args := args, hub := { blankHub with time := 2 ^ 40 } } f

/-- A task all of whose members have ended. -/
def ended (t : Task) : Task :=
  { t with team := { t.team with seq := { blankMember with ended := true }, ld := { blankMember with ended := true },
                                 st := { blankMember with ended := true } } }

/-- A task whose load courier waits in `w`. -/
def waits (w : Wait) (t : Task) : Task := { t with team := { t.team with ld := { blankMember with wait := some w } } }

/-- The members of a task that have not ended. -/
def alive (t : Task) : List Member := [t.team.seq, t.team.ld, t.team.st].filter fun m => !m.ended

theorem witness_TaskEvents_ends :
    ((happens [1] id).task? ((happens [1] id).arg 0) ≠ none ∧ (happens [5] id).task? ((happens [5] id).arg 0) = none ∧ (happens [1] id).focusTask 1 = happens [1] id) ∧
    ((happens [1] fun t => { t with stop := some (.trap ⟨6, .seq, 4, 0, 0⟩) }).cur.stop = some (.trap ⟨6, .seq, 4, 0, 0⟩) ∧
      (happens [1] id).inFlight 1 = false) ∧
    ((happens [1] ended).cur.live = true ∧ (happens [1] ended).cur.allEnded = true ∧ (happens [1] ended).cur.spec = false ∧
      (happens [1] ended).cur.stepping = none ∧ (happens [1] ended).cur.state = .running ∧ (happens [1] ended).inFlight 1 = false) ∧
    ((happens [1, 0] fun t => { t with assay0 := .sent true }).cur.assay 0 = .sent true ∧
      (happens [1, 1] fun t => { t with assay1 := .formed true }).cur.assay 1 = .formed true ∧
      (happens [1, 1] fun t => { t with assay1 := .formed false }).cur.assay 1 = .formed false) ∧
    ((happens [1] fun t => { t with spec := true, proofFull := true }).cur.spec = true ∧
      (happens [1] fun t => { t with spec := true, proofFull := true }).cur.proofFull = true ∧
      0 + 16000 * ((happens [1] id).part 0).teamWait ≤ (happens [1] id).hub.time) := by
  refine ⟨⟨?_, ?_, rfl⟩, ?_⟩
  · decide +kernel
  · decide +kernel
  · and_intros <;> decide +kernel

theorem witness_TaskEvents_waits :
    ((happens [1] (waits .counters)).cur.state = .running ∧ (happens [1] (waits .counters)).cur.core ≠ none ∧
      (happens [1] (waits .counters)).cur.stop = none ∧ (alive (happens [1] (waits .counters)).cur).any Member.swappable = true ∧
      (happens [1] (waits .counters)).cur.proofFull = false) ∧
    ((happens [1] fun t => { waits .counters t with state := .saved, reason := 2, core := none }).cur.halted = false ∧
      (alive (happens [1] (waits .counters)).cur).any Member.timedWait = true ∧
      (happens [1] fun t => { waits (.twait 0x205000 8 1 false []) t with state := .saved, reason := 2, core := none }).awaited .ld = true) ∧
    ((happens [1] id).hangMember = some .seq ∧
      16000 * ((happens [1] fun t => { t with hung := 160000000 }).part 0).hang ≤ (happens [1] fun t => { t with hung := 160000000 }).cur.hung ∧
      (happens [1] fun t => { t with stop := some (.save 2) }).cur.stop = some (.save 2) ∧ (happens [1] id).cur.allEnded = false) ∧
    ((happens [1] fun t => { t with draining := true, policy := 2 }).choose { running with policy := 2 } false none = some .save ∧
      (happens [1] fun t => { t with draining := true }).choose running false none = none ∧
      ((happens [1] id).newcomerOf running).any (happens [1] id).urgentTask = false) ∧
    (0 + 16000 * ((happens [1] id).part 0).ckptInt ≤ (happens [1] id).hub.time ∧
      (happens [1] fun t => { t with ckptDue := true }).cur.ckptDue = true ∧
      (happens [1] fun t => { t with draining := true }).underRecall running = false ∧
      0 + 16000 * ((happens [1] id).part 0).drainMax ≤ (happens [1] id).hub.time) := by and_intros <;> decide +kernel

/-- A launch of context 0 by queue 0 with one tile task of two dispatched. -/
def launch : Launch :=
  { cid := 0, id := 0, part := 0, queue := 0, kernel := 0x6080, args := 0, depth := 0, parent := none, levels := [(2, 1, 0)], total := 2,
    ndies := 1, next := [(0, 1)], left := 2, cancelled := 0, children := 0 }

/-- A task that waits for a core at priority 5, with demand `n`. -/
def newcomer (n : Nat) : Task := { blankTask with id := 7, state := .ready, effPrio := 5, stamps := n }

/-- The scheduler's state: `running` can be saved, a newcomer of demand `n` waits, the launch and its queue stand. -/
def scheduler (args : List Nat) (n : Nat) : State :=
  { happens args fun t => { t with policy := 2, stamps := 10 } with
    tasks := [newcomer n], launches := [launch], contexts := [{ context with gang := true }]
    parts := base.parts.set 0 { blankPart with slices := [0], queues := [(0, queue 3)], ideUp := true, tdi := .run } }

/-- A consumer that waits on one proof, and the producer that runs. -/
def proving : State :=
  { happens [5, 1] fun t => { t with tcb := 0x6000, predOut := 1, hist := 0xB000 } with
    mem := table ++ cellsAt 0x60A000 [0, 0xB0] ++ cellsAt 0x60B000 [1, 0, 0, 0, 0, 0, 0, 0, 1, 0, 0, 0, 0, 0, 0, 0, 0, 0xC0]
    tasks := [{ blankTask with id := 5, state := .waiting, tcb := 0x7000, specIn := 1, tol := 0xA000, deps := 1 }] }

theorem witness_SchedulerEvents_starts :
    ((scheduler [7, 1] 100).task? 7 = some (newcomer 100) ∧ (scheduler [7, 1] 100).startsOn (newcomer 100) 1 = true) ∧
    (scheduler [7, 1] 100).stepsOn { newcomer 100 with state := .saved, stepping := some .ld } 1 = true ∧
    (let u := proving.withTask 5 fun v => (v.touchSlot false 0).touchSlot false 1
     (u.task? 5).map (fun t => u.grants t 1) = some true) ∧
    ((newcomer 1360).queued = true ∧ ((scheduler [7] 1360).queueHead 0).map Task.id = some 7 ∧ (scheduler [7] 1360).covered (newcomer 1360) 0 = false ∧
      (scheduler [7] 1360).startable (newcomer 1360) = false ∧ (scheduler [7] 1360).launch? 0 0 = some launch ∧
      (scheduler [7] 1360).preemptDie (newcomer 1360) = some 0 ∧ ((scheduler [7] 1360).part 0).queue 0 = some (queue 3) ∧
      (coverDemand ((scheduler [7] 1360).victims (newcomer 1360) 0 false none)
        ((scheduler [7] 1360).stampsLeft (newcomer 1360) 0 + (scheduler [7] 1360).stampsDue (newcomer 1360)) 1360).map
        List.length = some 1 ∧ 1 ≤ (queue 3).tokens) :=
  ⟨by and_intros <;> decide +kernel, by decide +kernel, by decide +kernel, by and_intros <;> decide +kernel⟩

theorem witness_SchedulerEvents_gang :
    ((scheduler [0, 1] 1).gang = none ∧ (scheduler [0, 1] 1).ctx? 0 = some { context with gang := true }) ∧
    (0 ∈ (scheduler [0] 1).gangDies 0 ∧ (tasked (scheduler [0] 1) fun t => { t with core := none }).gangOn 0 0 = [] ∧
      0 ∉ (⟨0, 1, 0, [], [], []⟩ : Gang).votes ∧ 0 + 16000 * 120 ≤ (scheduler [0] 1).hub.time ∧ 0 + 16000 * 170 ≤ (scheduler [0] 1).hub.time) ∧
    ((((scheduler [0] 1).setDie 0 { blankDie with loan := some ⟨1, 0, 0, 200, false, some 0, []⟩ }).die 0).loan = some ⟨1, 0, 0, 200, false, some 0, []⟩ ∧
      0 + 16000 * (200 - 20) ≤ (scheduler [0] 1).hub.time ∧
      (scheduler [0] 1).borrowers 0 0 ≠ [] ∧ (tasked (scheduler [0] 1) fun t => { t with core := none }).borrowers 0 0 = []) := by and_intros <;> decide +kernel

theorem witness_SchedulerEvents_queues :
    (((scheduler [0, 0] 1).part 0).queue 0 = some (queue 3) ∧ (queue 3).pending = true ∧ (scheduler [0, 0] 1).serves (queue 3) = true ∧
      ((queue 3).posted.headD ⟨0, none, false⟩).holder = none ∧ ((queue 3).posted.headD ⟨0, none, false⟩).dropped = false ∧
      ({ queue 3 with posted := [⟨0, none, true⟩] } : Queue).posted.headD ⟨0, none, false⟩ = ⟨0, none, true⟩) ∧
    ((scheduler [0, 0] 1).servedQueue 0 = some 0 ∧ (scheduler [0, 0] 1).nextTask 0 0 = some (launch, 0)) ∧
    ((scheduler [0, 0] 1).barServes 0 = true ∧ (scheduler [0, 0] 1).arg 2 < 64 ∧ (scheduler [0, 0] 1).arg 12 ≠ 1 ∧
      (scheduler (List.replicate 12 0 ++ [1]) 1).arg 12 = 1) ∧
    (((scheduler [0, 7] 1).part 0).queue 7 = none ∧ (scheduler [0, 7] 1).barServes 0 = true ∧ (scheduler [0, 7] 1).arg 2 = 0 ∧
      (scheduler [0, 7] 1).arg 12 ≠ 1) ∧
    ((((scheduler [0] 1).part 0).tick < (scheduler [0] 1).hub.time / 1600000) ∧ (scheduler [0] 1).ctx? (queue 3).cid ≠ none) ∧
    ((queue 3).refill ≠ 0 ∧ (queue 3).refillAt ≤ (scheduler [0, 0] 1).hub.time) := by and_intros <;> decide +kernel

/-- A cached line, dirty where `d`. -/
def line (d : BitVec 64) : CacheLine := ⟨0, 0, 0x8040, 0x601000, 0, false, 0x8040, 0, 0, d⟩

/-- A query of which nothing is accepted, or whose records stand as they are told. -/
def query (accepted : Bool) (rs : List NbRecord) : Query :=
  ⟨4, 1, 0, 0, .ld, 1, 0, [], [0], 0, 0, 1, 16, 2, 5, 0, [], 0x800000, 0, 0x20000, accepted, false, rs, []⟩

/-- A collective with one send left. -/
def coll : Coll := ⟨0, 5, 2, 0, 0, [], [], [⟨0, 1, 0x1000, 0x3000, 64, false, [], []⟩], []⟩

/-- A transaction of CD0 to the home of the line 0x601000. -/
def txn (k : TxnKind) : Txn := ⟨9, 0, 1, 16, 0x601000, 0x8040, 0, false, 0x8040, 64, k, true⟩

/-- `base` with that transaction first, an event's arguments and every link up. -/
def sent (k : TxnKind) : State :=
  { happens [9] id with txns := [txn k], links := Vector.replicate 48 ⟨true, 0, [], 0, 0⟩ }

theorem witness_MemoryEvents_engines :
    ((({ happens [0, 0, 0x8040] id with cache := [line 0] } : State).cached 0 0 0x8040) = some (line 0) ∧ (line 0).dirty = 0 ∧ (line 1).dirty ≠ 0 ∧
      ({ happens [0, 0, 0x8040] id with links := Vector.replicate 48 ⟨true, 0, [], 0, 0⟩ } : State).maySend 1 16 = true ∧
      (happens [0, 0, 0x8040] id).maySend 1 16 = false) ∧
    ((({ happens [5] id with copies := [⟨5, 1, 0, 0, .ld, 0, 1, [], none, 0, false, [], [], false, false, [], []⟩] } : State).copies.find? fun c =>
      c.id == 5).isSome = true ∧ (syncer none []).sync? 0 0x205000 = some (object none [])) ∧
    ((query false []).accepted = false ∧ (happens [4] id).nbLoad (stackOf 0x800000) < 64 ∧ (query true []).accepted = true ∧
      (∀ r ∈ (query true [⟨0, 0, 0, 1, [], 0, 0, true⟩]).records, r.posted = true)) ∧
    (255 < 256 ∧ 3 < 4 ∧ (255, 3) ∉ (base.mdie 0).refreshed) ∧
    ((({ happens [0, 5, 0, 1] id with colls := [coll] } : State).coll? 0 5) = some coll ∧
      (coll.sends.find? fun x => x.sender == 0 && x.receiver == 1 && !x.done).isSome = true) := by and_intros <;> decide +kernel

theorem witness_MemoryEvents_transactions :
    ((sent (.read 64)).txn? 9 = some (txn (.read 64)) ∧ (sent (.read 64)).txnFirst (txn (.read 64)) = true ∧
      (sent (.read 64)).routed 1 16 = true ∧ ((sent (.read 64)).block 0x601000).locked = false ∧
      (({ sent (.read 64) with blocks := [(0x601, { freshBlock with dead := false, locked := true })] } : State).block 0x601000).locked = true) ∧
    (({ sent (.read 64) with txns := [{ txn (.read 64) with accepted := false }] } : State).txn? 9 = some { txn (.read 64) with accepted := false } ∧
      (txn (.read 64)).accepted = true ∧ ((sent (.atomic 0 8 1)).homeRead 0 0 0x601000).2 = none ∧
      (({ sent (.atomic 0 8 1) with blocks := [(0x601, { freshBlock with dead := false })], damage := [(0x601000 / 64, .mac)] } : State).homeRead 0 0 0x601000).2 = some 2 ∧
      amoNew 0 8 0 0 = 0 ∧ amoNew 0 8 0 1 ≠ 0) ∧
    ((sent (.write 0 1)).txnFirst (txn (.write 0 1)) = true ∧ (sent (.atomic 0 8 1)).txnFirst (txn (.atomic 0 8 1)) = true ∧
      (sent (.completion 1)).txnFirst (txn (.completion 1)) = true ∧ (sent .ack).txnFirst (txn .ack) = true ∧ (sent .mgmt).txnFirst (txn .mgmt) = true) ∧
    (base.homeOf (64 * 0x18040) = .here ∧ base.damageAt (64 * 0x18040) = none ∧
      (({ base with blocks := [(0x601, { freshBlock with dead := false })] } : State).block (64 * 0x18040)).dead = false ∧
      12 ≤ 12 ∧ 255 < 256 ∧ 131071 < 131072 ∧ (255, 131071) ∉ base.clusBad) ∧
    (({ base with invals := [⟨3, 0, 0x200000, 4096, 0, [], []⟩] } : State).invalReady ⟨3, 0, 0x200000, 4096, 0, [], []⟩ = true) ∧
    ((base.desc 0 (base.brefOfVa 0 0x201000)).length ≠ 0) ∧
    (∃ x, base.translate (base.clusterAcc 0 0) (base.desc 0 (base.brefOfVa 0 0x201000)) 0x201000 true = .ok x) := by
  refine ⟨?_, ?_, ?_, ?_, ?_, ?_, (okAnd_iff (p := fun _ => true) ?_).imp fun _ h => h.1⟩
  · and_intros <;> decide +kernel
  · and_intros <;> decide +kernel
  · and_intros <;> decide +kernel
  all_goals decide +kernel

/-- `base` with an event's arguments, a partition changed, and time late. -/
def hosted (args : List Nat) (f : Part → Part) : State :=
  { happens args id with parts := base.parts.set 0 (f (base.part 0)), hub := { blankHub with time := 2 ^ 40, domain := true, peers := [7] } }

/-- A tenant whose record names package 7 as a peer. -/
def tenant : Tenant := ⟨1, 2, [7], []⟩

theorem witness_AttestationEvents_interface :
    ((hosted [0] id).arg 0 < 8 ∧ ((hosted [0] id).part 0).tdi = .unlocked ∧ ((hosted [0] fun p => { p with tdi := .locked }).part 0).tdi = .locked ∧
      ((hosted [0] fun p => { p with tdi := .run }).part 0).tdi = .run ∧ ((hosted [0] fun p => { p with tdi := .error }).part 0).tdi = .error) ∧
    (({ base with hub := { blankHub with spdm := Vector.replicate 9 ⟨4, true⟩ } } : State).spdm 0).session = true ∧
    ((hosted [8] id).spdm 8).session = false ∧ (hosted [8] id).arg 0 = 8 ∧ (hosted [9] id).arg 0 ≠ 8 ∧
    ((hosted [0, 1, 2, 7] id).args.drop 3).length ≤ 16 ∧
    ((hosted [8] id).arg 0 < 9 ∧ ((hosted [8] id).spdm 8).phase ≤ 4 ∧
      (({ base with hub := { blankHub with spdm := Vector.replicate 9 ⟨1, false⟩ } } : State).spdm 0).phase = 1 ∧
      (({ base with hub := { blankHub with spdm := Vector.replicate 9 ⟨2, false⟩ } } : State).spdm 0).phase = 2 ∧
      3 ≤ (({ base with hub := { blankHub with spdm := Vector.replicate 9 ⟨3, false⟩ } } : State).spdm 0).phase ∧
      (({ base with hub := { blankHub with spdm := Vector.replicate 9 ⟨4, true⟩ } } : State).spdm 0).phase = 4 ∧ (hosted [8, 1] id).arg 1 ≠ 0) := by
  and_intros <;> decide +kernel

theorem witness_AttestationEvents_join :
    let j (i : Bool) (k : Nat) : Join := ⟨7, i, k, 2 ^ 40 - 160000000, 3, [], [], []⟩
    ((hosted [0, 7, 2] id).isPeer 7 = true ∧ ((hosted [0, 7, 2] id).part 0).join = none ∧
      ((hosted [0, 7, 2] fun p => { p with tenant := some tenant }).part 0).tenant ≠ none) ∧
    (hosted [0, 7, 1] id).arg 2 ≠ 2 ∧
    ((hosted [0, 7, 1] fun p => { p with tenant := some tenant, join := some (j true 1) }).part 0).join = some (j true 1) ∧
    ((hosted [0, 7, 1] fun p => { p with tenant := some tenant, join := some (j true 1) }).part 0).tenant = some tenant ∧
    ((hosted [0, 7, 1] fun p => { p with join := some (j false 1) }).part 0).tenant = none ∧
    (j true 2).since + 160000000 ≤ (hosted [0, 7, 1] id).hub.time := by
  intro j
  simp only [j]
  and_intros <;> decide +kernel

/-- `base` with every link and port up and the package a follower of a domain that holds package 7. -/
def linked (args : List Nat) (l : Link) : State :=
  { hosted args (fun p => { p with tenant := some { tenant with admitted := [7] } }) with
    links := Vector.replicate 48 l
    hub := { blankHub with time := 2 ^ 40, domain := true, peers := [7], ports := Vector.replicate 24 ⟨true, 4, 0, [], [⟨0, 7, [], 0⟩]⟩ } }

/-- The same with dies that have been cut off since time 0 and stand at 16,000,000. -/
def cut (args : List Nat) : State :=
  { linked args ⟨false, 0, [], 0, 0⟩ with
    dies := Vector.replicate 8 { blankDie with present := true, time := 16000000, cutAt := some 0 }
    mdies := Vector.replicate 16 { blankStack with present := true, time := 16000000, cutAt := some 0 } }

theorem witness_LinkEvents :
    (let s := linked [0, 0, 1, 1, 0] ⟨true, 3, [], 0, 0⟩
     s.routeOf 1 0 = some [0] ∧ 0 ∈ [0] ∧ s.nextBurst 0 1 0 ≤ 0 ∧ 0 < (s.burstTaken 0 1 0).nextBurst 0 1 0 ∧ s.routeOf 1 2 ≠ some [0] ∧
       (linked [0] ⟨false, 0, [], 0, 0⟩).routeOf 1 0 = none ∧ (linked [0, 5, 0, 9] ⟨true, 3, [], 0, 0⟩).arg 2 = 0 ∧
       9 ∈ (linked [0, 5, 1, 9] ⟨true, 3, [], 0, 0⟩).args.drop 3 ∧ (linked [0, 5, 1, 8] ⟨true, 3, [], 0, 0⟩).args.drop 3 = [8] ∧
       (linked [0] ⟨false, 0, [], 0, 2 ^ 40⟩).hub.time < ((linked [0] ⟨false, 0, [], 0, 2 ^ 40⟩).link 0).downAt + 16000000 ∧
       ((linked [0] ⟨false, 0, [], 0, 0⟩).link 0).downAt + 16000000 ≤ (linked [0] ⟨false, 0, [], 0, 0⟩).hub.time) ∧
    (((linked [0, 0, 1] ⟨true, 3, [], 0, 0⟩).link 0).up = true ∧ ((linked [0] ⟨false, 0, [], 0, 0⟩).link 0).up = false) ∧
    (((cut [1]).die 0).present = true ∧ ((cut [1]).die 0).orphan = false ∧ ((cut [1]).die 0).cutAt = some 0 ∧ 0 + 16000000 ≤ ((cut [1]).die 0).time ∧
      ((linked [1] ⟨false, 0, [], 0, 0⟩).die 0).cutAt = none ∧ ((cut [31]).mdie 15).present = true ∧ ((cut [31]).mdie 15).orphan = false ∧
      ((cut [31]).mdie 15).cutAt = some 0 ∧ 0 + 16000000 ≤ ((cut [31]).mdie 15).time ∧ ((linked [16] ⟨false, 0, [], 0, 0⟩).mdie 0).cutAt = none ∧
      (cut [1]).longDown 0 = true ∧ (cut [31]).longDown 47 = true) ∧
    ((linked [1, 2, 3, 4, 5] ⟨true, 0, [], 0, 0⟩).timeLinkUp 1 = true ∧ (linked [31] ⟨true, 0, [], 0, 0⟩).timeLinkUp 31 = true ∧
      (linked [0] ⟨true, 0, [], 0, 0⟩).hub.domain = true ∧ (linked [0] ⟨true, 0, [], 0, 0⟩).hub.tmaster = false) ∧
    (let s := linked [0] ⟨true, 0, [], 0, 0⟩
     let asked := (s.clockOf 1).ask 1
     s.timeLinkUp 0 = true ∧ (s.clockOf 0).tick < s.hub.time / 1600000 ∧ (s.clockOf 31).tick < s.hub.time / 16000 ∧
       s.timeLinkUp 9 = false ∧ (s.clockOf 1).asked = false ∧ ((s.setClock 0 asked).hub.clock).asked = true ∧
       ((s.setClock 1 asked).die 0).clock.asked = true ∧ ((s.setClock 31 asked).mdie 15).clock.asked = true ∧
       blankHub.ahead = 0 ∧ blankHub.clock.slew = 0 ∧ blankHub.clock.frac < 16000000 ∧ -4294967296 ≤ blankHub.rate) ∧
    (((linked [0] ⟨true, 0, [], 0, 0⟩).port 0).keyFrom (partOf 0) 7 = some ⟨0, 7, [], 0⟩ ∧ ((linked [0] ⟨true, 0, [], 0, 0⟩).port 0).keyFrom 1 7 = none ∧
      ((linked [0] ⟨true, 0, [], 0, 0⟩).port 0).up = true ∧ (linked [0] ⟨true, 0, [], 0, 0⟩).isPeer 7 = true ∧
      (linked [0] ⟨true, 0, [], 0, 0⟩).homeOf 0x601000 = .here ∧ 0x601000 % 64 + 64 ≤ 64 ∧
      2 ≤ ((linked [0] ⟨true, 0, [], 0, 0⟩).port 0).lanes ∧ (base.port 24).lanes ≤ 1) := by and_intros <;> decide +kernel

/-- `base` under management owner `o`, with an event's arguments, and partition 0's interface running. -/
def managed (args : List Nat) (o : BitVec 2) (fifo : List (Nat × Nat)) : State :=
  { hosted args (fun p => { p with fifo := fifo, tdi := .run, ideUp := true }) with
    hub := { blankHub with time := 2 ^ 40, owner := o, pref := 1, target := 2 } }

/-- The owner's request to create partition 1 of slice 1. -/
def bare : State := { hosted [1, 1, 0, 0, 1] id with hub := { blankHub with time := 2 ^ 40, owner := 1, bootStep := 15 } }

theorem witness_ManagementEvents :
    ((managed [1, 0] 0 []).hub.owner = 0 ∧ (managed [1, 1] 0 []).arg 1 ≠ 0 ∧ (managed [1, 1] 0 []).hub.pref ≠ 0) ∧
    (let u (o : BitVec 2) : State := { managed [2, 0] o [] with hub := { (managed [2, 0] o []).hub with targetAt := 2 ^ 40 } }
     (u 1).hub.target = BitVec.ofNat 2 2 ∧ (u 1).hub.time ≤ (u 1).hub.targetAt + 16000000000 ∧ (u 1).hub.owner ≠ BitVec.ofNat 2 2 ∧
       (u 2).hub.owner = BitVec.ofNat 2 2) ∧
    ((managed [1] 1 []).hub.owner ≠ 0 ∧ (managed [1] 1 []).hub.target ≠ BitVec.ofNat 2 1 ∧ (managed [1] 1 []).hub.owner.toNat = 1 ∧
      (managed [3] 1 []).arg 0 ≠ 1 ∧ (managed [3] 1 []).arg 0 ≠ 2) ∧
    ((managed [1, 2] 1 []).arg 1 ≤ 2 ∧ (managed [1, pkgcfgReg, 5] 1 []).arg 1 = pkgcfgReg ∧ (managed [1, 2] 1 []).hub.pkgLock = false ∧
      (managed [1, 256, 1] 1 []).arg 1 ≠ pkgcfgReg) ∧
    ((managed [8 + 1, 0] 0 []).arg 0 = 8 + 1 ∧ (managed [8 + 1, 0] 0 []).arg 1 = 0 ∧ (managed [8 + 1, ownerReg] 0 []).arg 1 = ownerReg ∧
      (managed [10, pkgcfgReg] 0 []).arg 1 = pkgcfgReg ∧ (managed [10, 0x100] 0 []).arg 1 = 0x100 ∧
      (managed [10, 0x140] 0 []).arg 1 = 0x108 + 8 * 7 ∧ (managed [10, 0x1F8] 0 []).arg 1 = 0x180 + 8 * 15) ∧
    ((managed [23, remapReg + 3, 5] 1 []).arg 0 = 16 + 7 ∧ (managed [23, remapReg + 3, 5] 1 []).arg 1 = remapReg + 3 ∧
      ((managed [23] 1 []).die 7).remapLock = false ∧ ((managed [23] 1 []).die 7).remap.length = 32 ∧
      (((managed [23] 1 []).setDie 7 { blankDie with remapLock := true }).die 7).remapLock = true) ∧
    ((bare.heard 1).partRequest (bare.arg 1) (bare.arg 2) (bare.arg 3) (bare.args.drop 4)).isSome = true ∧
    (((managed [1, 1] 1 []).heard 1).partRequest 1 0 0 []).isNone = true ∧
    ¬ (((managed [2] 1 []).arg 0 = 1 ∨ (managed [2] 1 []).arg 0 = 2) ∧ (managed [2] 1 []).hub.owner.toNat = (managed [2] 1 []).arg 0) ∧
    ((managed [1] 1 []).hub.target ≠ 0 ∧ (managed [1] 1 []).hub.targetAt + 16000000000 ≤ (managed [1] 1 []).hub.time ∧
      (managed [1] 2 []).hub.owner = 2 ∧ (managed [1] 2 []).hub.bmcAt + 80000000000 ≤ (managed [1] 2 []).hub.time) ∧
    ((managed [0] 1 [(2, 5)]).barServes 0 = true ∧ ((managed [0] 1 [(2, 5)]).part 0).fifo = (2, 5) :: [] ∧ ((managed [0] 1 []).part 0).fifo = [] ∧
      (hosted [0] id).barServes 0 = false) ∧
    (1 ≤ (managed [0, 4096, 8] 1 []).arg 2 ∧ (managed [0, 4096, 8] 1 []).arg 1 < 2 ^ 36 ∧
      (managed [0, 4096, 8] 1 []).aperture 0 4096 false = none ∧ (managed [0, 4096, 8] 1 []).aperture 0 4096 true = none) := by
  and_intros <;> decide +kernel

/-- The words of a context descriptor of one save slot, context 0 of partition 0. -/
def contextWords : List Nat := List.replicate 7 0 ++ [1 + 256 * 2 ^ 32] ++ List.replicate 8 0

theorem witness_FirmwareEvents_records :
    ((hosted [0, 50] id).arg 0 < 8 ∧ ((hosted [0] id).part 0).tdi = .unlocked ∧ ((hosted [0] fun p => { p with tdi := .run }).part 0).tdi = .run) ∧
    ((hosted [0] id).queueOk 0 0 0 1 31 15 10 = true ∧ (hosted [0] id).queueOk 8 0 0 1 31 15 10 = false ∧ ((hosted [0] id).part 0).queue 0 = none ∧
      ((hosted [0] fun p => { p with queues := [(0, queue 3)] }).part 0).queue 0 = some (queue 3) ∧ (queue 3).cid = 0) ∧
    (leNat ((wordBytes contextWords).take 2) = 0 ∧ ((hosted [0] id).part 0).slices ≠ [] ∧ base.ctx? 0 = some context ∧
      (parseContext (wordBytes contextWords) [0] 0 [] []).isSome = true ∧ (parseContext (wordBytes (List.replicate 16 0)) [0] 0 [] []).isNone = true ∧
      ({ base with contexts := [] } : State).ctx? 0 = none) ∧
    (partOf 0 = 0 ∧ (wordBytes (List.replicate 8 5)).length = 64 ∧ leNat (((wordBytes (List.replicate 8 5)).drop 21).take 1) = 0 ∧
      (base.keySlot 0).part = 0 ∧ (base.keySlot 0).h0 ≠ none) ∧
    (0 ∈ ((hosted [0] id).part 0).slices ∧ 4096 * 14680063 % 4096 = 0 ∧ 14680063 + 4096 / 4096 ≤ 14680064 ∧
      ((base.mdie 0).pools.find? fun q => q.1 == 0 && q.2.1 == 4096).isNone = true) ∧
    (63 < 64 ∧ 4095 / 512 = 7) := by and_intros <;> decide +kernel

theorem witness_FirmwareEvents_resets :
    ((base.setDie 7 { blankDie with inReset := true }).die 7).inReset = true ∧ (base.die 7).inReset = false ∧ (base.die 7).orphan = false ∧
    ((base.setMdie 15 { blankStack with orphan := true }).mdie 15).orphan = true ∧ (base.mdie 15).inReset = false ∧ (base.mdie 15).orphan = false ∧
    (base.hub.bootStep = 0 ∧ base.hub.bootFail ≠ 2 ∧ ({ base with hub := { blankHub with bootStep := 1 } } : State).hub.bootStep = 1 ∧
      failsAt [64] 1 0 = true ∧ ({ base with hub := { blankHub with bootStep := 2, bootFail := 2 } } : State).hub.bootFail = 2 ∧ ({ base with hub := { blankHub with bootStep := 15 } } : State).hub.bootStep = 15 ∧ failsAt [] 1 0 = false ∧
      failsAt [] 2 0 = false ∧ failsAt [128] 1 0 = false ∧ failsAt [128] 2 0 = true) ∧
    (base.hart 15).wdog = false ∧ ((base.setHart 15 { blankHart with wdog := true }).hart 15).wdog = true ∧
    ((happens [0, 101] id).die 0).capAt + 16000000 ≤ (happens [0, 101] id).hub.time ∧ base.hub.time < (base.die 7).capAt + 16000000 ∧
    ((happens [1, 116] id).die 0).present = true ∧ (State.reset.die 0).present = false := by and_intros <;> decide +kernel

/-- 25 R410's example: caps of 1,292, 1,224, 1,156 and 1,088 stamps read as CAP 161, 153, 144 and 136. -/
theorem test_diestat_cap :
    [1292, 1224, 1156, 1088].map (fun c => diestat 102 c 0 0 / 2 ^ 8 % 2 ^ 8) = [161, 153, 144, 136] ∧ diestat 102 1292 0 0 % 2 ^ 8 = 102 := by
  decide

/-! ### Worked examples of the spec -/

/-- 03, after R44: 3.0 becomes the LN6 code 0x16 with NX under both nearest and truncation. -/
theorem test_ln6_rounding :
    roundElem 8 0 false 0 (.num false 3 0) = (0x16, fNX) ∧ roundElem 8 1 false 0 (.num false 3 0) = (0x16, fNX) := by decide +kernel

/-- 03, after R49: 0.3 becomes E4M3 0x2A with NX, and 500 becomes 0x7E with OF. -/
theorem test_e4m3_rounding :
    roundElem 3 0 false 0 (fp32.decode 0x3E99999A) = (0x2A, fNX) ∧ (roundElem 3 0 false 0 (.num false 500 0)).1 = 0x7E ∧
    (roundElem 3 0 false 0 (.num false 500 0)).2 &&& fOF = fOF := by decide +kernel

/-- 03, after R43: the codes 0x16 and 0x1A saturate under `vlnmul`. -/
theorem test_ln6_product : ln6Mul 0x16 0x1A = (0x1F, fOF ||| fNX) ∧ (ln6Product (ln6Decode 0x16) (ln6Decode 0x1A)).1.cmp (.num false 16 0) = 0 := by
  decide +kernel

/-- 03, after R45: the first four elements of the NB4 block B2 74 … 7E 02. -/
theorem test_nb4_block :
    let b := nbOfBytes 9 ([0xB2, 0x74, 0, 0, 0, 0, 0, 0, 0x7E, 0x02].map (BitVec.ofNat 8))
    (b.value 9 0).cmp (.num false 1 (-1)) = 0 ∧ (b.value 9 1).cmp (.num true 3 (-2)) = 0 ∧ (b.value 9 2).cmp (.num false 1 (-1)) = 0 ∧
    (b.value 9 3).cmp (.num false 3 (-1)) = 0 ∧ (b.value 9 4).isZero = true := by decide +kernel

/-- 03 R52: 1.0 and two products of 2^−24 in one group give 1.0 and one unit in the last place. -/
theorem test_group_sum :
    accumulate 4 0x3F800000 [(.num false 1 (-24), false), (.num false 1 (-24), false), (vZero, false), (vZero, false)] =
      (0x3F800001, 0) := by decide +kernel

/-- 11, after R209: activations 1, 2, 3 and 4 give 4.0 in entry 11 and −10.0 in entry 0. -/
theorem test_lut1_table :
    let es := tableRow 4 lut1Terms [.num false 1 0, .num false 2 0, .num false 3 0, .num false 4 0]
    (es.getD 11 (0, 0)).1 = 0x40800000 ∧ (es.getD 0 (0, 0)).1 = 0xC1200000 ∧ es.length = 64 := by decide +kernel

/-- 10, after R191: `vpack` of the codes 0x16, 0x1A, 0x1F and 0x20 gives the bytes 96 F6 81. -/
theorem test_pack6 : pack6 [0x16, 0x1A, 0x1F, 0x20] = [0x96, 0xF6, 0x81] ∧ unpack6 [0x96, 0xF6, 0x81] = [0x16, 0x1A, 0x1F, 0x20] := by
  decide +kernel

/-- The result of an instruction that goes on, through one reading of the state. -/
def after (o : Host.Outcome State Fault Refusal) (f : State → Nat) : Nat :=
  match o with
  | .next s => f s
  | .fault _ => 0
  | .refused _ => 0

/-- 04, after R66: with VFRAME 1,024 and SPILL 4, one `wenter 2048` gives WB = 992, and the second overflows and leaves it. -/
theorem test_window :
    let s := tasked (teamed seqr fun t => { t with fs := 1024 }) fun t => { t with spill := 4 }
    let u := teamed s fun t => { t with links := [1024], wb := 992, fs := 2048 }
    after (exec (.wenter (dab 0 0 64)) s) (fun s => s.cur.team.wb) = 992 ∧
    after (exec (.wenter (dab 0 0 64)) s) (fun s => s.cur.team.fs) = 2048 ∧
    after (exec (.wenter (dab 0 0 64)) u) (fun s => s.cur.team.wb) = 992 ∧
    (match windowEnter u 2048 with | .trap t _ => t.cause == Cause.winSpillOverflow | _ => false) = true := by
  and_intros <;> decide +kernel

/-- 11 R215: BASE 0x1000 and STRIDE1 0x100 give 0x1100. -/
theorem test_handle_advance :
    let s := teamed seqr fun t => { t with h := t.h.set 2 (BitVec.ofNat 256 (0x1000 + 0x100 * 2 ^ 160)) }
    (match handleAdvance s 2 1 with
      | .done u => (u.cur.team.landings.map fun l => l.writes) == [[hWord 2 0 0x1100]]
      | _ => false) = true := by decide +kernel

/-- 10, after R199: with elements 0–2 of v2 below those of v3, `vcmp.lt.f32` forms 7. -/
theorem test_compare :
    let s := teamed seqr fun t => { t with masks := [BitVec.allOnes 64], vfile := Sparse.set 0 t.vfile 3 0x3F8000003F8000003F800000 }
    after (exec (.vcmp (lf 16 0 0 0 0 3 2 5)) s) (fun s => (s.x 5).toNat) = 7 := by decide +kernel

/-- 09 R155: `addi` of −1 wraps below zero, and `div` by 0 gives all ones. -/
theorem test_scalar_corners :
    after (exec (.addi 5 6 0xFFF) (demo .seq [(6, 0)])) (fun s => (s.x 5).toNat) = 2 ^ 64 - 1 ∧
    after (exec (.div 5 6 7) (demo .seq [(6, 9)])) (fun s => (s.x 5).toNat) = 2 ^ 64 - 1 ∧
    after (exec (.sraw 5 6 7) (demo .seq [(6, 0x80000000), (7, 31)])) (fun s => (s.x 5).toNat) = 2 ^ 64 - 1 ∧
    after (exec (.addi 0 6 7) (demo .seq [(6, 1)])) (fun s => (s.x 0).toNat) = 0 := by and_intros <;> decide +kernel

/-- A word given to the machine out of reset runs as the very next step. -/
theorem test_first_step :
    after (step (State.reset.withFetchWord 32 0x00700293)) (fun s => (s.x 5).toNat) = 7 ∧
    decodeTableWord 32 0x00700293 = some (.addi 5 0 7) := by and_intros <;> decide +kernel

/-! ### An image that verifies -/

/-- The courier's state with an image of 272 bytes at virtual 0x209000. -/
def imageBase : State := (tasker 0 1).setX 12 0xE00
def withMem (s : State) (m : List Host.Cell) : State := { s with mem := m }
def imaged (img : List Byte) : State := withMem imageBase (putBytes imageBase.mem 0x609000 img)

theorem withMem_ctx (s : State) (m : List Host.Cell) (c : Nat) : (withMem s m).ctx? c = s.ctx? c := rfl
theorem withMem_away (s : State) (m : List Host.Cell) (c : Nat) (b : Word) : (withMem s m).descAway c b = s.descAway c b := rfl
theorem withMem_mem (s : State) (m : List Host.Cell) : (withMem s m).mem = m := rfl
theorem withMem_cur (s : State) (m : List Host.Cell) : (withMem s m).cur = s.cur := rfl
theorem withMem_blocks (s : State) (m : List Host.Cell) : (withMem s m).blocks = s.blocks := rfl
theorem withMem_txns (s : State) (m : List Host.Cell) : (withMem s m).txns = s.txns := rfl
theorem withMem_readError (s : State) (m : List Host.Cell) (c k pa : Nat) : (withMem s m).readError c k pa = s.readError c k pa := rfl
theorem withMem_ownDigest (s : State) (m : List Host.Cell) (p : Nat) : (withMem s m).ownDigest p = s.ownDigest p := rfl
theorem withMem_sealKey (s : State) (m : List Host.Cell) (p : Nat) (d : List Byte) : (withMem s m).sealKey p d = s.sealKey p d := rfl

theorem imaged_desc (img : List Byte) (b : Word) (hb : brefIndex b < 0x1000) :
    (imaged img).desc 0 b = imageBase.desc 0 b := by
  have e : imageBase.ctx? 0 = some context := by decide +kernel
  have hp : pieces (0x10000 + 64 * brefIndex b) 64 = [(0x10000 + 64 * brefIndex b, 64)] := by
    simp [pieces, linePieces, show (0x10000 + 64 * brefIndex b) % 64 = 0 by omega]
  simp only [imaged, State.desc, State.fwRead, withMem_ctx, withMem_mem, withMem_readError, e, show context.bdt = 0x10000 from rfl, hp,
    List.flatMap_cons, List.flatMap_nil, bytesAt_putBytes_other imageBase.mem 0x609000 img (0x10000 + 64 * brefIndex b) 64 (.inl (by omega))]

/-- What a read of CD0 from the first stack does to the burst numbers of its two paths. -/
def crossed (s : State) : State := (s.burstTaken 0 1 16).burstTaken 0 16 1

theorem cross_none {s : State} (h : s.txns = []) (hb : s.blocks = []) (pa : Nat) (hd : s.homeDie pa = 16) : s.cross 0 1 pa = crossed s := by
  have e (p : Txn → Bool) : s.arriveOut p = (s, []) := by
    have : ({ s with txns := [] } : State) = s := by rw [← h]
    simp only [State.arriveOut, h, List.filter_nil, List.foldl_nil, this]
  have u (a : Nat) : s.unlockOut a = (s, []) := by simp [State.unlockOut, State.block, hb, freshBlock]
  have st (a : Nat) : s.settle a = s := by
    simp only [State.settle, State.settleOut, u, e, h]; rfl
  simp only [State.cross, hd, e, State.reportErrors, List.isEmpty_nil, if_true, st]
  rfl

theorem withMem_crossed (s : State) (m : List Host.Cell) : crossed (withMem s m) = withMem (crossed s) m := rfl

/-- The courier's state after the five reads of its image. -/
def readBase : State := crossed (crossed (crossed (crossed (crossed imageBase))))
def imageRead (img : List Byte) : State := withMem readBase (putBytes imageBase.mem 0x609000 img)

theorem crossed_parts (s : State) : ∃ ps, crossed s = { s with parts := ps } := ⟨_, rfl⟩
theorem readBase_parts : ∃ ps, readBase = { imageBase with parts := ps } := by
  obtain ⟨p1, e1⟩ := crossed_parts imageBase
  obtain ⟨p2, e2⟩ := crossed_parts (crossed imageBase)
  obtain ⟨p3, e3⟩ := crossed_parts (crossed (crossed imageBase))
  obtain ⟨p4, e4⟩ := crossed_parts (crossed (crossed (crossed imageBase)))
  obtain ⟨p5, e5⟩ := crossed_parts (crossed (crossed (crossed (crossed imageBase))))
  exact ⟨p5, by rw [readBase, e5, e4, e3, e2, e1]⟩

theorem parts_desc (s : State) (ps : Vector Part 8) (m : List Host.Cell) (c : Nat) (b : Word) :
    (withMem { s with parts := ps } m).desc c b = (withMem s m).desc c b := rfl
theorem parts_passes (s : State) (ps : Vector Part 8) (m : List Host.Cell) (c : Nat) (b : Word) (n r : Nat) :
    (withMem { s with parts := ps } m).passes c b n r = (withMem s m).passes c b n r := rfl
theorem parts_page (s : State) (ps : Vector Part 8) (c : Nat) (p : Page) (w : Bool) (va : Nat) :
    ({ s with parts := ps } : State).pageOk c p w va = s.pageOk c p w va := rfl
theorem parts_tlbs (s : State) (ps : Vector Part 8) : ({ s with parts := ps } : State).tlbs = s.tlbs := rfl
theorem parts_hazard (s : State) (ps : Vector Part 8) (m : List Host.Cell) (w : Who) (va n : Nat) (x : Bool) :
    (withMem { s with parts := ps } m).bufHazard w va n x = (withMem s m).bufHazard w va n x := rfl

theorem imaged_raw (img : List Byte) (h : img.length = 272) (k n : Nat) (hk : 64 * k + n ≤ 272) :
    bytesAt (imaged img).mem (0x609000 + 64 * k) n = (img.drop (64 * k)).take n := by
  have hw : Memory.wf imageBase.mem = true := by decide +kernel
  apply List.ext_getElem
  · simp [bytesAt, h]; omega
  · intro i h1 h2
    have hi : i < n := by simpa [bytesAt] using h1
    have := putBytes_same hw 0x609000 img (64 * k + i) (by omega)
    simp only [bytesAt, List.getElem_map, List.getElem_range, List.getElem_take, List.getElem_drop]
    rw [Nat.add_assoc, imaged, withMem_mem, this]

/-- The translation those reads use. -/
def imagedPs : List Tlb := [⟨0, some 0, 0, 0x200000, 0x200000, 0x600000, false, true, true, true⟩]

/-- A line of the image read by a state that holds it. -/
theorem read_line (s : State) (hs : ∀ c k pa, s.readError c k pa = imageBase.readError c k pa) (img : List Byte) (h : img.length = 272) (k n : Nat)
    (hk : 64 * k + 64 ≤ 272 + 48) (hn : 64 * k + n ≤ 272) (h64 : n ≤ 64) (hm : s.mem = (imaged img).mem) :
    (s.homeRead 0 0 (0x609000 + 64 * k)).1.take n = (img.drop (64 * k)).take n ∧ (s.homeRead 0 0 (0x609000 + 64 * k)).2 = none := by
  have e : s.readError 0 0 (0x609000 + 64 * k) = none := by
    have : ∀ k < 5, imageBase.readError 0 0 (0x609000 + 64 * k) = none := by decide +kernel
    rw [hs]; exact this k (by omega)
  have t : ∀ (m : List Host.Cell) (a n : Nat), n ≤ 64 → (bytesAt m a 64).take n = bytesAt m a n := by
    intro m a n hn
    simp only [bytesAt, ← List.map_take, List.take_range, Nat.min_eq_left hn]
  simp only [State.homeRead, e, State.rawLine, and_true, hm]
  rw [show (0x609000 + 64 * k) / 64 * 64 = 0x609000 + 64 * k by omega, t _ _ _ h64, imaged_raw img h k n hn]

theorem imaged_read (img : List Byte) (h : img.length = 272) : (imaged img).sealRead 0x9000 imagedPs 272 = (imageRead img, img) := by
  have d : (imaged img).desc 0 0x9000 = imageBase.desc 0 0x9000 := imaged_desc img _ (by decide)
  have ks : (imageBase.desc 0 0x9000).keyslot = 0 := by decide +kernel
  have va : (imaged img).vaOf 0 0x9000 = 0x209000 := by
    rw [State.vaOf, d]; decide +kernel
  have own : (imaged img).ownDie = 1 := by
    have : imageBase.ownDie = 1 := by decide +kernel
    exact this
  have cid : (imaged img).cur.cid = 0 := by rw [imaged, withMem_cur]; decide +kernel
  have ps : ∀ k < 5, pageOf imagedPs (0x209000 + 64 * k) = some (imagedPs.getD 0 (page 0 0 false)).page ∧
      ((imagedPs.getD 0 (page 0 0 false)).page).at (0x209000 + 64 * k) = 0x609000 + 64 * k := by decide +kernel
  have pc : pieces 0x209000 272 = [(0x209000 + 64 * 0, 64), (0x209000 + 64 * 1, 64), (0x209000 + 64 * 2, 64), (0x209000 + 64 * 3, 64), (0x209000 + 64 * 4, 16)] := by
    decide +kernel
  have hd : ∀ k < 5, imageBase.homeDie (0x609000 + 64 * k) = 16 := by decide +kernel
  generalize hm : putBytes imageBase.mem 0x609000 img = m at *
  have tx : imageBase.txns = [] := by decide +kernel
  have bl : imageBase.blocks = [] := by decide +kernel
  -- the reads go through states that differ from `imageBase` in memory and burst numbers alone
  have X (s : State) (h1 : s.txns = imageBase.txns) (h2 : s.blocks = imageBase.blocks) (k : Nat) (hk : k < 5)
      (h3 : s.homeDie (0x609000 + 64 * k) = imageBase.homeDie (0x609000 + 64 * k)) :
      (withMem s m).cross 0 1 (0x609000 + 64 * k) = withMem (crossed s) m :=
    cross_none (s := withMem s m) (h1.trans tx) (h2.trans bl) _ (h3.trans (hd k hk))
  have R (s : State) (hs : ∀ c k pa, s.readError c k pa = imageBase.readError c k pa) (k n : Nat) (h1 h2 h3) :=
    read_line (withMem s m) hs img h k n h1 h2 h3 (by rw [imaged, hm]; rfl)
  have x0 := X imageBase rfl rfl 0 (by decide) rfl
  have x1 := X (crossed imageBase) rfl rfl 1 (by decide) rfl
  have x2 := X (crossed (crossed imageBase)) rfl rfl 2 (by decide) rfl
  have x3 := X (crossed (crossed (crossed imageBase))) rfl rfl 3 (by decide) rfl
  have x4 := X (crossed (crossed (crossed (crossed imageBase)))) rfl rfl 4 (by decide) rfl
  have r0 := R (crossed imageBase) (fun _ _ _ => rfl) 0 64 (by decide) (by decide) (by decide)
  have r1 := R (crossed (crossed imageBase)) (fun _ _ _ => rfl) 1 64 (by decide) (by decide) (by decide)
  have r2 := R (crossed (crossed (crossed imageBase))) (fun _ _ _ => rfl) 2 64 (by decide) (by decide) (by decide)
  have r3 := R (crossed (crossed (crossed (crossed imageBase)))) (fun _ _ _ => rfl) 3 64 (by decide) (by decide) (by decide)
  have r4 := R readBase (fun _ _ _ => rfl) 4 16 (by decide) (by decide) (by decide)
  have z : (0x209000 + 64 * 0) % 64 = 0 := by decide
  have im : imaged img = withMem imageBase m := by rw [imaged, hm]
  rw [im] at d va own cid ⊢
  have e5 : crossed (crossed (crossed (crossed (crossed imageBase)))) = readBase := rfl
  simp only [State.sealRead, cid, va, d, ks, own, State.homeReads, pc, List.foldl_cons, List.foldl_nil, ps 0 (by decide), ps 1 (by decide),
    ps 2 (by decide), ps 3 (by decide), ps 4 (by decide), x0, x1, x2, x3, x4, e5, z,
    List.drop_zero, r0.1, r0.2, r1.1, r1.2, r2.1, r2.2, r3.1, r3.2, r4.1, r4.2]
  refine Prod.ext (by rw [imageRead, hm]) ?_
  simp only [List.nil_append, List.append_assoc]
  have step : ∀ (l : List Byte) (m : Nat), l.take 64 ++ (l.drop 64).take m = l.take (64 + m) := fun l m => (List.take_add (l := l) (i := 64) (j := m)).symm
  have dd : ∀ a b, (img.drop a).drop b = img.drop (a + b) := fun a b => List.drop_drop
  rw [show List.drop (64 * 4) img = (img.drop (64 * 3)).drop 64 by rw [dd], step, show List.drop (64 * 3) img = (img.drop (64 * 2)).drop 64 by rw [dd], step,
    show List.drop (64 * 2) img = (img.drop (64 * 1)).drop 64 by rw [dd], step, show List.drop (64 * 1) img = (img.drop (64 * 0)).drop 64 by rw [dd], step]
  simp [h]

/-- The fixed bytes of its header around the digest. -/
def headA : List Byte := leBytes 4 0x49374753 ++ leBytes 2 1 ++ leBytes 2 1 ++ leBytes 8 272 ++ leBytes 16 0
def headB : List Byte := List.replicate 32 0
/-- One range, buffer 0 from byte 0x1000 for 64 bytes, and its contents. -/
def imagePlain : List Byte := leBytes 8 0x1000 ++ leBytes 4 64 ++ List.replicate 52 0 ++ List.replicate 64 7

theorem imagePlain_length : imagePlain.length = 16 * 8 := by simp [imagePlain]

theorem take_drop_left (a r : List Byte) (o k : Nat) (h : o + k ≤ a.length) : ((a ++ r).drop o).take k = (a.drop o).take k := by
  rw [List.drop_append_of_le_length (by omega), List.take_append_of_le_length (by rw [List.length_drop]; omega)]

theorem header_good (d : List Byte) (h : d.length = 64) :
    headerBad (headA ++ (d ++ headB)) 272 = false ∧ leNat (((headA ++ (d ++ headB)).drop 6).take 2) = 1 ∧
    leNat (((headA ++ (d ++ headB)).drop 8).take 8) = 272 ∧ ((headA ++ (d ++ headB)).drop 32).take 64 = d ∧
    ((headA ++ (d ++ headB)).drop 96).take 12 = List.replicate 12 0 ∧ (headA ++ (d ++ headB)).length = 128 := by
  have la : headA.length = 32 := by decide
  have lo (o k : Nat) (hk : o + k ≤ 32) := take_drop_left headA (d ++ headB) o k (by rw [la]; exact hk)
  have hi (j k : Nat) : ((headA ++ (d ++ headB)).drop (96 + j)).take k = (headB.drop j).take k := by
    rw [show 96 + j = 32 + (64 + j) by omega, ← List.drop_drop, ← List.drop_drop, List.drop_left' la, List.drop_left' h]
  refine ⟨?_, by rw [lo 6 2 (by decide)]; decide, by rw [lo 8 8 (by decide)]; decide, ?_, ?_, ?_⟩
  · simp only [headerBad, lo 0 4 (by decide), lo 4 2 (by decide), lo 18 2 (by decide), lo 6 2 (by decide), lo 8 8 (by decide),
      show ((headA ++ (d ++ headB)).drop 108).take 20 = (headB.drop 12).take 20 from hi 12 20]
    decide
  · rw [show 32 = headA.length from la.symm, List.drop_left, ← h, List.take_left]
  · exact (hi 0 12).trans (by decide)
  · simp [la, h, headB]

/-- The image: the header, the ranges sealed under the partition's key, and the tag. -/
def imageBytes (d key : List Byte) : List Byte :=
  let ct := gcmStream key (List.replicate 12 0) 2 imagePlain
  (headA ++ (d ++ headB)) ++ (ct ++ gcmTag key (List.replicate 12 0) (headA ++ (d ++ headB)) ct)

/-- The image of this package's own tenant. -/
def ownImage : List Byte :=
  let d := digestBytes (imageBase.ownDigest 0)
  imageBytes d (imageBase.sealKey 0 d)

theorem imageBytes_parts (d key : List Byte) (h : d.length = 64) (hk : key.length = 32) :
    (imageBytes d key).length = 272 ∧ (imageBytes d key).take 128 = headA ++ (d ++ headB) ∧
    ((imageBytes d key).drop 128).take 128 = gcmStream key (List.replicate 12 0) 2 imagePlain ∧
    ((imageBytes d key).drop 256).take 16 =
      gcmTag key (List.replicate 12 0) (headA ++ (d ++ headB)) (gcmStream key (List.replicate 12 0) 2 imagePlain) := by
  have lh := (header_good d h).2.2.2.2.2
  have lc : (gcmStream key (List.replicate 12 0) 2 imagePlain).length = 128 := by
    rw [gcmStream_length hk _ 2 8 imagePlain_length, imagePlain_length]
  have lt (aad ct : List Byte) : (gcmTag key (List.replicate 12 0) aad ct).length = 16 := by
    simp only [gcmTag, addBytes_length, aes256_length hk]; simp [beBytes]
  generalize hcc : gcmStream key (List.replicate 12 0) 2 imagePlain = c at lc
  have lt := lt (headA ++ (d ++ headB)) c
  simp only [imageBytes, hcc]
  generalize gcmTag key _ _ c = t at lt ⊢
  generalize headA ++ (d ++ headB) = hd at lh ⊢
  refine ⟨by simp only [List.length_append]; omega, List.take_left' lh, ?_, ?_⟩
  · rw [List.drop_left' lh, List.take_left' lc]
  · rw [show 256 = 128 + 128 from rfl, ← List.drop_drop, List.drop_left' lh, List.drop_left' lc, List.take_of_length_le (by omega)]

/-- The burst numbers bear on nothing that the verdict rests on. -/
theorem readBase_part : (readBase.part 0).tenant = (imageBase.part 0).tenant ∧ readBase.block6 0 = imageBase.block6 0 := by decide +kernel

theorem readBase_ownDigest : readBase.ownDigest 0 = imageBase.ownDigest 0 := by
  simp only [State.ownDigest, State.measurements, State.measurementBlock, State.measured, readBase_part.2]; rfl

theorem readBase_sealKey (d : List Byte) : readBase.sealKey 0 d = imageBase.sealKey 0 d := by
  simp only [State.sealKey, State.rootKey, readBase_part.1]

theorem imaged_verdict : (imageRead ownImage).unsealVerdict ownImage 272 = .ok [((0x1000, 64, 0), List.replicate 64 7)] := by
  have ld : (digestBytes (imageBase.ownDigest 0)).length = 64 := by simp [digestBytes]
  have own : (imageRead ownImage).ownDigest 0 = imageBase.ownDigest 0 := (withMem_ownDigest _ _ _).trans readBase_ownDigest
  have sk (d : List Byte) : (imageRead ownImage).sealKey 0 d = imageBase.sealKey 0 d := (withMem_sealKey _ _ _ _).trans (readBase_sealKey d)
  have part : (imageRead ownImage).cur.part = 0 := by rw [imageRead, withMem_cur]; decide +kernel
  have cid : (imageRead ownImage).cur.cid = 0 := by rw [imageRead, withMem_cur]; decide +kernel
  have lk (d : List Byte) : (imageBase.sealKey 0 d).length = 32 := shake256_length _ 32
  have pass : (imageRead ownImage).passes 0 0x1000 64 rightW = true := by
    obtain ⟨qs, e⟩ := readBase_parts
    rw [imageRead, e, parts_passes]
    show (imaged ownImage).passes 0 0x1000 64 rightW = true
    have : imageBase.passes 0 0x1000 64 rightW = true := by decide +kernel
    simpa only [State.passes, State.check, imaged_desc _ _ (show brefIndex 0x1000 < 0x1000 by decide),
      show (imaged ownImage).descAway 0 0x1000 = imageBase.descAway 0 0x1000 from withMem_away _ _ _ _] using this
  generalize hd : digestBytes (imageBase.ownDigest 0) = d at ld
  have known : (imageRead ownImage).digestKnown 0 d = true := by simp only [State.digestKnown, own, hd, BEq.rfl, Bool.true_or]
  obtain ⟨h1, h2, h3, h4, h5, _⟩ := header_good d ld
  have parts := imageBytes_parts d (imageBase.sealKey 0 d) ld (lk d)
  have img : ownImage = imageBytes d (imageBase.sealKey 0 d) := by simp only [ownImage, hd]
  rw [← img] at parts
  obtain ⟨_, p2, p3, p4⟩ := parts
  have open_ := gcmOpen_gcmStream (lk d) (List.replicate 12 0) 8 imagePlain_length
  have rs : parseRanges imagePlain 1 = [(0x1000, 64, 0)] := by decide +kernel
  simp only [State.unsealVerdict, p2, h1, h2, h3, h4, h5, part, known, sk, p3, p4, open_, rs, cid, Nat.reduceSub, bne_self_eq_false, Bool.not_true,
    Bool.false_eq_true, if_false, List.all_cons, List.all_nil, List.any_cons, List.any_nil, pass]
  decide +kernel

theorem withMem_issues (s : State) (m : List Host.Cell) (w : Who) (o : LF) (sh : Shape) (p : Plan) :
    (withMem s m).issues w o sh p ↔ s.issues w o sh p := Iff.rfl
theorem withMem_x (s : State) (m : List Host.Cell) (r : Reg) : (withMem s m).x r = s.x r := rfl
theorem withMem_local (s : State) (m : List Host.Cell) (a n : Nat) : (withMem s m).inScratch a n = s.inScratch a n ∧
    (withMem s m).badLineIn a n = s.badLineIn a n ∧ (withMem s m).sealDesc a = s.sealDesc a ∧ (withMem s m).memberAcc = s.memberAcc :=
  ⟨rfl, rfl, rfl, rfl⟩
theorem withMem_hazard (s : State) (m : List Host.Cell) (w : Who) (va n : Nat) (b : Bool) :
    (withMem s m).bufHazard w va n b = s.bufHazard w va n b := rfl
theorem withMem_translate (s : State) (m : List Host.Cell) (a : Acc) (d : Desc) (va : Nat) (w : Bool) (p : Page) (c : Nat) (t : Tlb)
    (ha : a.cluster = some c) (hc : (s.tlbs.find? fun t => t.serves (c / 32) (some c) a.cid va w) = some t)
    (hp : s.pageOk a.cid t.page w va = .ok p) : (withMem s m).translate a d va w = .ok (withMem s m, p) := by
  have : (withMem s m).pageOk a.cid t.page w va = .ok p := hp
  have hc' : ((withMem s m).tlbs.find? fun t => t.serves (c / 32) (some c) a.cid va w) = some t := hc
  simp only [State.translate, ha, hc', this]

theorem imaged_pages (b : State) (hbase : b = imageBase ∨ b = readBase) (img : List Byte) (off n va : Nat) (w : Bool) (hb : brefIndex (BitVec.ofNat 64 off) = 0)
    (hv : imageBase.vaOf 0 (BitVec.ofNat 64 off) = va) (hs : blockStarts va n = [va])
    (hc : (imageBase.tlbs.find? fun t => t.serves (0 / 32) (some 0) 0 va w) = some (page 0x200000 0x600000 false))
    (hp : imageBase.pageOk 0 (page 0x200000 0x600000 false).page w va = .ok (imagedPs.getD 0 (page 0 0 false)).page) :
    let s := withMem b (putBytes imageBase.mem 0x609000 img)
    s.translatePages ⟨0, some 0, 0⟩ (BitVec.ofNat 64 off) n w = .ok (s, imagedPs) := by
  intro s
  have d : s.desc 0 (BitVec.ofNat 64 off) = imageBase.desc 0 (BitVec.ofNat 64 off) := by
    rcases hbase with rfl | rfl
    · exact imaged_desc img (BitVec.ofNat 64 off) (by omega)
    · obtain ⟨qs, e⟩ := readBase_parts
      simp only [s, e, parts_desc]
      exact imaged_desc img (BitVec.ofNat 64 off) (by omega)
  have t : s.translate ⟨0, some 0, 0⟩ (imageBase.desc 0 (BitVec.ofNat 64 off)) va w = .ok (s, (imagedPs.getD 0 (page 0 0 false)).page) := by
    rcases hbase with rfl | rfl
    · exact withMem_translate _ (putBytes imageBase.mem 0x609000 img) ⟨0, some 0, 0⟩ _ va w _ 0 _ rfl hc hp
    · obtain ⟨qs, e⟩ := readBase_parts
      simp only [s, e]
      exact withMem_translate { imageBase with parts := qs } (putBytes imageBase.mem 0x609000 img) ⟨0, some 0, 0⟩ _ va w _ 0 _ rfl
        (by rw [parts_tlbs]; exact hc) (by rw [parts_page]; exact hp)
  rw [State.vaOf] at hv
  simp only [State.translatePages, State.translateUnder, d, hv, hs, List.foldl_cons, List.foldl_nil, t]
  rfl

theorem imaged_va (img : List Byte) (b : Word) (hb : brefIndex b < 0x1000) : (imaged img).vaOf 0 b = imageBase.vaOf 0 b := by
  simp only [State.vaOf, imaged_desc _ b hb]

theorem imaged_hazard (img : List Byte) (b : Word) (n : Nat) (w : Bool) (hb : brefIndex b < 0x1000)
    (h : imageBase.bufHazard .ld (imageBase.vaOf 0 b) n w = false) : (imaged img).bufHazard .ld ((imaged img).vaOf 0 b) n w = false := by
  rw [imaged_va img b hb, imaged, withMem_hazard]; exact h

theorem withMem_localHazard (s : State) (m : List Host.Cell) (w : Who) (a n : Nat) (x : Bool) :
    (withMem s m).localHazard w a n x = s.localHazard w a n x := rfl

theorem imaged_local (img : List Byte) : (imaged img).localHazard .ld 0xE00 64 false = false := by
  rw [imaged, withMem_localHazard]; decide +kernel

theorem imaged_acc (img : List Byte) : (imaged img).memberAcc = ⟨0, some 0, 0⟩ := by
  rw [imaged, (withMem_local _ _ 0 0).2.2.2]; decide +kernel

theorem imaged_passes (img : List Byte) : (imaged img).passes 0 0x9000 272 rightR = true := by
  have : imageBase.passes 0 0x9000 272 rightR = true := by decide +kernel
  simpa only [State.passes, State.check, imaged_desc _ _ (show brefIndex 0x9000 < 0x1000 by decide),
    show (imaged img).descAway 0 0x9000 = imageBase.descAway 0 0x9000 from withMem_away _ _ _ _] using this

theorem imaged_ready (img : List Byte) : (imaged img).issues .ld (dab 5 12 0) (shapeUnsealImage (dab 5 12 0)) {} ∧ (imaged img).cur.spec = false ∧
    (imaged img).x (fieldReg (dab 5 12 0).a) = 0xE00 := by
  rw [imaged, withMem_issues, withMem_cur, withMem_x]; and_intros <;> decide +kernel

theorem imaged_descriptor (img : List Byte) : (imaged img).inScratch 0xE00 64 = true ∧ (imaged img).badLineIn 0xE00 64 = none ∧
    (imaged img).sealDesc 0xE00 = (0x9000, 272, 0, false) := by
  have l := withMem_local imageBase (putBytes imageBase.mem 0x609000 img) 0xE00 64
  rw [imaged, l.1, l.2.1, l.2.2.1]; and_intros <;> decide +kernel


theorem translate_one (s t : State) (b : Word) (n : Nat) (w : Bool) (ps : List Tlb) (a : Acc) (ha : s.memberAcc = a)
    (h : s.translatePages a b n w = .ok (t, ps)) : s.translateAll [(b, n)] w = .ok (t, ps) := by
  simp only [State.translateAll, List.foldl_cons, List.foldl_nil, ha, h, List.nil_append]

theorem imaged_targets (img : List Byte) : (imageRead img).translateAll [(BitVec.ofNat 64 0x1000, 64)] true = .ok (imageRead img, imagedPs) :=
  translate_one _ _ _ _ _ _ _ (imaged_acc img)
    (imaged_pages readBase (.inr rfl) img 0x1000 64 0x201000 true (by decide) (by decide +kernel) (by decide) (by decide +kernel) (by decide +kernel))

theorem imageRead_hazard (img : List Byte) : (imageRead img).bufHazard .ld ((imageRead img).vaOf 0 0x1000) 64 true = false := by
  obtain ⟨qs, e⟩ := readBase_parts
  rw [imageRead, e, parts_hazard, State.vaOf, parts_desc]
  exact imaged_hazard img 0x1000 64 true (by decide) (by decide +kernel)

theorem imaged_clean (img : List Byte) : (imaged img).wbRange 0 0 0x209000 272 = imaged img := by
  have tx : imageBase.txns = [] := by decide +kernel
  have bl : imageBase.blocks = [] := by decide +kernel
  have ca : imageBase.cache = [] := by decide +kernel
  have e : ({ imaged img with txns := [] } : State) = imaged img := by rw [← tx]; rfl
  have h1 : (imaged img).txns = [] := tx
  have h2 : (imaged img).blocks = [] := bl
  have h3 : (imaged img).cache = [] := ca
  simp only [State.wbRange, State.settleCid, State.settleWhere, State.linesIn, State.arriveOut, h1, h2, h3, List.filter_nil, List.map_nil, List.foldl_nil,
    State.reportErrors, List.isEmpty_nil, if_true]
  exact e

theorem ownImage_length : ownImage.length = 272 := by
  have ld : (digestBytes (imageBase.ownDigest 0)).length = 64 := by simp [digestBytes]
  simp only [ownImage]
  exact (imageBytes_parts _ _ ld (by rw [State.sealKey]; exact shake256_length _ 32)).1

/-- The premises of the fourth clause of the sealed images, with the image verified. -/
theorem witness_SealedImages_verified :
    ((imaged ownImage).issues .ld (dab 5 12 0) (shapeUnsealImage (dab 5 12 0)) {} ∧ (imaged ownImage).cur.spec = false ∧
      (imaged ownImage).x (fieldReg (dab 5 12 0).a) = 0xE00) ∧
    ((imaged ownImage).inScratch 0xE00 64 = true ∧ (imaged ownImage).badLineIn 0xE00 64 = none ∧
      (imaged ownImage).sealDesc 0xE00 = (0x9000, 272, 0, false)) ∧
    ((imaged ownImage).passes 0 0x9000 272 rightR = true ∧
      (imaged ownImage).bufHazard .ld ((imaged ownImage).vaOf 0 0x9000) 272 false = false ∧
      (imaged ownImage).localHazard .ld 0xE00 64 false = false) ∧
    (imaged ownImage).memberAcc = ⟨0, some 0, 0⟩ ∧
    (imaged ownImage).translatePages ⟨0, some 0, 0⟩ (BitVec.ofNat 64 0x9000) 272 false = .ok (imaged ownImage, imagedPs) ∧
    (imaged ownImage).wbRange 0 0 0x209000 272 = imaged ownImage ∧
    (imaged ownImage).sealRead 0x9000 imagedPs 272 = (imageRead ownImage, ownImage) ∧
    (imageRead ownImage).unsealVerdict ownImage 272 = .ok [((0x1000, 64, 0), List.replicate 64 7)] ∧
    (imageRead ownImage).translateAll [(BitVec.ofNat 64 0x1000, 64)] true = .ok (imageRead ownImage, imagedPs) ∧
    (imageRead ownImage).bufHazard .ld ((imageRead ownImage).vaOf 0 0x1000) 64 true = false :=
  ⟨imaged_ready _, imaged_descriptor _, ⟨imaged_passes _, imaged_hazard _ _ _ _ (by decide) (by decide +kernel),
      imaged_local _⟩, imaged_acc _,
    imaged_pages imageBase (.inl rfl) ownImage 0x9000 272 0x209000 false (by decide) (by decide +kernel) (by decide) (by decide +kernel) (by decide +kernel),
    imaged_clean _, imaged_read ownImage ownImage_length, imaged_verdict, imaged_targets _, imageRead_hazard _⟩

end Sys2Proof.Tests
end

section
/-! Support for the proofs of the events: what an event does to the task it names, and to no task; what stays as it is where nothing
became READY; the thresholds of package time. -/

namespace Sys2Proof.Machine

/-! ### Focus -/

theorem State.withTask_none {s : State} {id : Nat} (h : s.task? id = none) (f : State → State) : s.withTask id f = s := by
  rw [State.withTask, h]

theorem State.withTask_of_task {s : State} {id : Nat} (h : s.task? id ≠ none) (f : State → State) :
    s.withTask id f = (f (s.focusTask id)).focusTask s.cur.id := by
  obtain ⟨t, ht⟩ := Option.ne_none_iff_exists'.mp h
  rw [State.withTask, ht]

theorem State.onArg_none {s : State} (h : s.task? (s.arg 0) = none) (f : State → State) : s.onArg f = s := State.withTask_none h f

/-- An event's first argument names a task, which `u` has in focus. -/
def State.Names (s u : State) : Prop := s.task? (s.arg 0) ≠ none ∧ s.focusTask (s.arg 0) = u

theorem State.Names.onArg {s u : State} (h : s.Names u) (f : State → State) : s.onArg f = (f u).focusTask s.cur.id := by
  obtain ⟨ht, rfl⟩ := h
  exact State.withTask_of_task ht f

/-! ### Automatic recalls (21 R362) -/

theorem State.readied_one_of_not_ready {s : State} {id : Nat} (h : ∀ t, s.task? id = some t → t.state ≠ .ready) : s.readied [id] = s := by
  simp only [State.readied, List.foldl_cons, List.foldl_nil]
  split
  · rfl
  · next t ht =>
    split
    · exact if_neg (by simp [h t ht])
    · rfl

theorem State.readied_of_none_ready {s : State} {ids : List Nat} (h : ∀ id ∈ ids, ∀ t, s.task? id = some t → t.state ≠ .ready) :
    s.readied ids = s := by
  induction ids with
  | nil => rfl
  | cons id ids ih =>
    calc s.readied (id :: ids) = (s.readied [id]).readied ids := rfl
      _ = s.readied ids := by rw [State.readied_one_of_not_ready (h id List.mem_cons_self)]
      _ = s := ih fun i hi => h i (List.mem_cons_of_mem _ hi)

theorem State.not_ready_of_mem_newlyReady {s before : State} {id : Nat} (h : id ∈ s.newlyReady before) {t : Task}
    (ht : before.task? id = some t) : t.state ≠ .ready := by
  obtain ⟨v, hv, rfl⟩ := List.mem_map.mp h
  have hnew := (Bool.and_eq_true_iff.mp (List.mem_filter.mp hv).2).2
  rw [ht] at hnew
  simpa using hnew

/-- Nothing became READY where nothing happened. -/
@[simp] theorem State.noted_self (s : State) : s.noted s = s :=
  State.readied_of_none_ready fun _ hid _ ht => State.not_ready_of_mem_newlyReady hid ht

/-! ### Conditions of the events -/

theorem State.past_iff (s : State) (since us : Nat) : s.past since us = true ↔ since + 16000 * us ≤ s.hub.time :=
  decide_eq_true_iff

theorem State.running_iff (s : State) : s.running = true ↔ s.cur.state = .running ∧ s.cur.core ≠ none ∧ s.cur.stop = none := by
  simp [State.running, Option.isSome_iff_ne_none, and_assoc]

theorem State.quiet_iff (s : State) (id : Nat) : s.quiet id = true ↔ s.inFlight id = false := by simp [State.quiet]

theorem State.atEnd_iff (s : State) : s.atEnd = true ↔ s.cur.live = true ∧ s.cur.allEnded = true ∧ s.cur.spec = false ∧
    s.cur.stepping = none ∧ s.inFlight s.cur.id = false ∧ (s.cur.state = .running ∨ s.cur.parked = false) := by
  simp [State.atEnd, and_assoc]

theorem any_who_of {p : Who → Bool} {w : Who} (h : p w = true) : ([.seq, .ld, .st] : List Who).any p = true := by
  cases w <;> simp [h]

end Sys2Proof.Machine
end

section
/-! The events of one task: each under its condition, on the task its first argument names (02, 04, 06, 18, 20). -/

namespace Sys2Proof.Machine

/-- An event that names no task changes nothing. -/
theorem exec_taskEvent_of_no_task {s : State} (h : s.task? (s.arg 0) = none) :
    ∀ i ∈ ([.landing, .trap, .taskComplete, .assayNotice, .assayVerdict, .proofStoreTimeout, .teamSwap, .swapRequeue, .hangTimeout,
      .saveComplete, .checkpointDue, .checkpointTaken, .drainTimeout] : List Instr), exec i s = .next s := by
  have plain (f : State → State) : Host.Outcome.next (φ := Fault) (ρ := Refusal) (s.onArg f) = .next s := by rw [State.onArg_none h]
  have noted (f : State → State) : Host.Outcome.next (φ := Fault) (ρ := Refusal) ((s.onArg f).noted s) = .next s := by
    rw [State.onArg_none h, State.noted_self]
  simp only [List.forall_mem_cons, List.not_mem_nil, false_imp_iff, implies_true, and_true]
  exact ⟨plain _, plain _, plain _, plain _, noted _, noted _, plain _, plain _, noted _, plain _, plain _, plain _, noted _⟩

section
variable {s u : State} (h : s.Names u)
include h

theorem evLanding_named : evLanding s = (if u.cur.spec then u.setTeam u.cur.team.landDue
    else ((u.cur.team.landings.filter fun e => e.delay == 0).filterMap fun e => e.mx).foldl
      (fun (x : State) n => x.completePm u.cur.cid u.cur.vdie 2 n) (u.setTeam u.cur.team.landDue)).focusTask s.cur.id := by
  rw [evLanding, h.onArg]

theorem evTrap_stopped {r : FaultRec} (hs : u.cur.stop = some (.trap r)) (hq : u.inFlight u.cur.id = false) :
    evTrap s = (u.finishTrap r).focusTask s.cur.id := by
  rw [evTrap, h.onArg]
  simp only [hs, hq, Bool.false_eq_true, if_false]

theorem evTaskComplete_atEnd (he : u.atEnd = true) : evTaskComplete s = u.complete.focusTask s.cur.id := by
  rw [evTaskComplete, h.onArg, if_pos he]

theorem evAssayNotice_sent {v : State} {good : Bool} (hv : u.touchSlot true (s.arg 1) = v) (ha : u.cur.assay (s.arg 1) = .sent good) :
    evAssayNotice s = ({ v with cur := v.cur.setAssay (s.arg 1) (.formed (good && v.assaySlot (s.arg 1))) } : State).focusTask s.cur.id := by
  rw [evAssayNotice, h.onArg]
  simp only [ha, hv]

theorem evAssayVerdict_passed (ha : u.cur.assay (s.arg 1) = .formed true) : evAssayVerdict s =
    (({ u with cur := (u.cur.setAssay (s.arg 1) .idle).passSlot (s.arg 1) } : State).tryCommit.focusTask s.cur.id).noted s := by
  rw [evAssayVerdict, h.onArg]
  simp only [ha]

theorem evAssayVerdict_failed (ha : u.cur.assay (s.arg 1) = .formed false) : evAssayVerdict s =
    (({ u with cur := u.cur.setAssay (s.arg 1) .idle } : State).squash.focusTask s.cur.id).noted s := by
  rw [evAssayVerdict, h.onArg]
  simp only [ha]

theorem evProofStoreTimeout_frozen (hspec : u.cur.spec = true) (hfull : u.cur.proofFull = true)
    (hp : u.past u.cur.fullAt (u.part u.cur.part).teamWait = true) : evProofStoreTimeout s = (u.squash.focusTask s.cur.id).noted s := by
  rw [evProofStoreTimeout, h.onArg, hspec, hfull, hp]
  rfl

theorem evTeamSwap_waits (hr : u.running = true) (hw : u.aliveMembers.any Member.swappable = true) (hf : u.cur.proofFull = false)
    (hp : u.past u.cur.issuedAt (u.part u.cur.part).teamWait = true) :
    evTeamSwap s = (u.beginStop (.save 2)).focusTask s.cur.id := by
  rw [evTeamSwap, h.onArg]
  simp only [hr, hw, hf, hp, Bool.not_false, Bool.and_self, if_true]

theorem evSwapRequeue_due (hs : u.cur.state = .saved) (hr : u.cur.reason = 2) (hh : u.cur.halted = false)
    (hd : (u.aliveMembers.any Member.timedWait = true ∧ u.past u.cur.swappedAt (u.part u.cur.part).teamWait = true) ∨
      ∃ w, u.awaited w = true) :
    evSwapRequeue s = (u.makeReady.readied [u.cur.id]).focusTask s.cur.id := by
  have due : ((u.aliveMembers.any Member.timedWait && u.past u.cur.swappedAt (u.part u.cur.part).teamWait) ||
      ([.seq, .ld, .st] : List Who).any u.awaited) = true := by
    rcases hd with ⟨hm, hp⟩ | ⟨w, hw⟩
    · rw [hm, hp]; rfl
    · rw [any_who_of hw, Bool.or_true]
  rw [evSwapRequeue, h.onArg]
  simp only [due, hs, hr, hh, beq_self_eq_true, Bool.not_false, Bool.and_self, if_true]

theorem evHangTimeout_hang : evHangTimeout s = (u.hang.focusTask s.cur.id).noted s := by rw [evHangTimeout, h.onArg]

theorem evSaveComplete_stopped {r : Nat} (hs : u.cur.stop = some (.save r)) (hq : u.inFlight u.cur.id = false)
    (he : u.cur.allEnded = false ∨ u.cur.spec = true) : evSaveComplete s = (u.finishSave r).focusTask s.cur.id := by
  have going : (u.cur.allEnded && !u.cur.spec) = false := by rcases he with he | he <;> simp [he]
  rw [evSaveComplete, h.onArg]
  simp only [hs, hq, going, Bool.or_self, Bool.false_eq_true, if_false]

theorem evCheckpointDue_due (hr : u.running = true)
    (hd : u.past u.cur.ckptAt (u.part u.cur.part).ckptInt = true ∨ u.logHolds u.cur 7 = true) :
    evCheckpointDue s = ({ u with cur := { u.cur with ckptDue := true } } : State).focusTask s.cur.id := by
  rw [evCheckpointDue, h.onArg, if_pos (by simp [hr, hd])]

/-- A due checkpoint is taken at a quiet instant, with an answer to the harts that wait for it (20 R349). -/
theorem evCheckpointTaken_quiet (hr : u.running = true) (hd : u.cur.ckptDue = true) (hq : u.inFlight u.cur.id = false) :
    ∃ f, evCheckpointTaken s = (u.checkpointHere.answerHarts f).focusTask s.cur.id := by
  rw [evCheckpointTaken, h.onArg, if_pos (by simp [hr, hd, (u.quiet_iff _).mpr hq])]
  exact ⟨_, rfl⟩

theorem evDrainTimeout_late (hr : u.running = true) (hd : u.cur.draining = true) (he : u.cur.allEnded = false)
    (hc : u.underRecall u.cur = false) (hp : u.past u.cur.preemptAt (u.part u.cur.part).drainMax = true) :
    evDrainTimeout s = (u.drainOver.focusTask s.cur.id).noted s := by
  rw [evDrainTimeout, h.onArg, if_pos (by simp [hr, hd, he, hc, hp])]

end

/-! ### The hang watchdog (18 R322, 20 R355) -/

section
variable {u : State} (hc : u.cur.core ≠ none) (ht : 16000 * (u.part u.cur.part).hang ≤ u.cur.hung)
include hc ht

theorem State.hang_reached : (u.cur.core.isSome && decide (microseconds (u.part u.cur.part).hang ≤ u.cur.hung)) = true := by
  simp [microseconds, ht, Option.isSome_iff_ne_none, hc]

theorem State.hang_running {w : Who} (hs : u.cur.stop = none) (hw : u.hangMember = some w) :
    u.hang = u.takeTrap w { cause := .hang, d1 := u.hangDetail u.cur } := by
  rw [State.hang, State.hang_reached hc ht]
  simp only [hs, hw, Bool.not_true, Option.isSome_none, Bool.false_eq_true, if_false]

theorem State.hang_stopping (hs : u.cur.stop ≠ none) : u.hang = u.abandonStop := by
  rw [State.hang, State.hang_reached hc ht, if_neg (by simp), if_pos (Option.isSome_iff_ne_none.mpr hs)]

end

/-! ### The end of a DRAIN (20 R346) -/

/-- The focused victim with its DRAIN ended. -/
def State.drained (u : State) : State := { u with cur := { u.cur with draining := false } }

/-- The policy that takes the place of the focused victim's DRAIN. -/
def State.afterDrain (u : State) : Option Policy :=
  u.drained.choose u.drained.cur ((u.drained.newcomerOf u.drained.cur).any u.drained.urgentTask) none

theorem State.drainOver_policy {u : State} {q : Policy} (hq : u.afterDrain = some q) : u.drainOver = u.drained.applyPolicy q 1 := by
  unfold State.afterDrain State.drained at hq
  simp only [State.drainOver, hq]
  rfl

theorem State.drainOver_none {u : State} (hq : u.afterDrain = none) : u.drainOver = u.drained.replaceVictim u.drained.cur := by
  unfold State.afterDrain State.drained at hq
  simp only [State.drainOver, hq]
  rfl

/-- Settles O54: the argument names a task, which the event's condition and effect are about; each clause is the lemma of its event. -/
theorem taskEvents : Obligations.TaskEvents := by
  refine ⟨fun s h => exec_taskEvent_of_no_task h, ?_⟩
  intro s ht u c p next noted passed onCore alive slot
  have h : s.Names u := ⟨ht, rfl⟩
  have run (hc : onCore) : u.running = true := u.running_iff.mpr hc
  have late {since us : Nat} (hp : passed since us) : u.past since us = true := (u.past_iff _ _).mpr hp
  refine ⟨congrArg Host.Outcome.next (evLanding_named h), ?trap, ?complete, ?notice, ?pass, ?fail, ?frozen, ?swap, ?requeue, ?hang, ?save, ?due,
    ?taken, ?drain⟩
  case trap => exact fun r hs hq => congrArg Host.Outcome.next (evTrap_stopped h hs hq)
  case complete =>
    exact fun hl he hs hst hq hr => congrArg Host.Outcome.next (evTaskComplete_atEnd h (u.atEnd_iff.mpr ⟨hl, he, hs, hst, hq, hr⟩))
  case notice => exact fun good ha => congrArg Host.Outcome.next (evAssayNotice_sent h rfl ha)
  case pass => exact fun ha => congrArg Host.Outcome.next (evAssayVerdict_passed h ha)
  case fail => exact fun ha => congrArg Host.Outcome.next (evAssayVerdict_failed h ha)
  case frozen => exact fun hs hf hp => congrArg Host.Outcome.next (evProofStoreTimeout_frozen h hs hf (late hp))
  case swap => exact fun hc hw hf hp => congrArg Host.Outcome.next (evTeamSwap_waits h (run hc) hw hf (late hp))
  case requeue =>
    exact fun hs hr hh hd => congrArg Host.Outcome.next (evSwapRequeue_due h hs hr hh (hd.imp_left fun ⟨hm, hp⟩ => ⟨hm, late hp⟩))
  case hang =>
    intro hc hp
    have effect {v : State} (hv : u.hang = v) : exec .hangTimeout s = noted v :=
      congrArg Host.Outcome.next ((evHangTimeout_hang h).trans (by rw [hv]))
    exact ⟨fun w hs hw => effect (State.hang_running hc hp hs hw), fun hs => effect (State.hang_stopping hc hp hs)⟩
  case save => exact fun r hs hq he => congrArg Host.Outcome.next (evSaveComplete_stopped h hs hq he)
  case due => exact fun hc hd => congrArg Host.Outcome.next (evCheckpointDue_due h (run hc) (hd.imp_left late))
  case taken =>
    intro hc hd hq
    obtain ⟨f, hf⟩ := evCheckpointTaken_quiet h (run hc) hd hq
    exact ⟨u.checkpointHere.answerHarts f, congrArg Host.Outcome.next hf, rfl, rfl, rfl, rfl, rfl⟩
  case drain =>
    intro hc hd he hr hp
    have effect {w : State} (hw : u.drainOver = w) : exec .drainTimeout s = noted w :=
      congrArg Host.Outcome.next ((evDrainTimeout_late h (run hc) hd he hr (late hp)).trans (by rw [hw]))
    exact ⟨fun q hq => effect (State.drainOver_policy hq), fun hq => effect (State.drainOver_none hq)⟩

end Sys2Proof.Machine
end

section
/-! The events of the sorters and the Postmaster: each under its condition (02, 06, 20, 21, 24). -/

namespace Sys2Proof.Machine

variable {s : State}

/-! ### Starts (02 R26, R33, 06 R104, 18 R320) -/

theorem evTaskStart_starts {t : Task} (ht : s.task? (s.arg 0) = some t) (h : s.startsOn t (s.arg 1) = true) :
    evTaskStart s = (s.startTask t (s.arg 1)).noted s := by
  simp only [evTaskStart, ht, h, if_true]

theorem evTaskStart_steps {t : Task} (ht : s.task? (s.arg 0) = some t) (h : s.startsOn t (s.arg 1) = false)
    (hs : s.stepsOn t (s.arg 1) = true) : evTaskStart s = s.withTask t.id fun u => u.stepOn (s.arg 1) := by
  simp only [evTaskStart, ht, h, hs, Bool.false_eq_true, if_false, if_true]

theorem evSpeculativeStart_grants {u : State} {t : Task}
    (hu : s.withTask (s.arg 0) (fun v => (v.touchSlot false 0).touchSlot false 1) = u)
    (ht : u.task? (s.arg 0) = some t) (h : u.grants t (s.arg 1) = true) : evSpeculativeStart s = u.startSpec t (s.arg 1) := by
  simp only [evSpeculativeStart, State.onArg, hu, ht, h, if_true]

/-! ### Pre-emption (20 R344, R345) -/

/-- The head of its sorter's queues that cannot start takes the fewest victims that cover its demand, where its queue's tokens pay for
them. -/
theorem State.preempt_of_victims {t : Task} {l : Launch} {d : Nat} {q : Queue} {vs : List Task} (hq : t.queued = true)
    (hh : (s.queueHead t.die).map Task.id = some t.id) (hs : s.startable t = false) (hl : s.launch? t.cid t.launch = some l)
    (hd : s.preemptDie t = some d) (hc : s.covered t d = false) (hv : (s.part l.part).queue l.queue = some q)
    (hvs : coverDemand (s.victims t d q.urgent none) (s.stampsLeft t d + s.stampsDue t) t.demand = some vs)
    (ht : vs.length ≤ q.tokens) : s.preempt t none 0 = s.preemptFor t l q vs 0 := by
  rw [State.preempt, if_neg (by simp [hq, hh, hs, hd, hc])]
  simp only [hl, hd, hv, hvs, Nat.sub_zero, ht, if_true]

theorem evPreempt_of_task {t : Task} (ht : s.task? (s.arg 0) = some t) : evPreempt s = (s.preempt t none 0).noted s := by
  simp only [evPreempt, ht]

/-! ### Gang switches (20 R353, R354) -/

theorem evGangSwitch_prepare {c : Context} (hg : s.gang = none) (hc : s.ctx? (s.arg 0) = some c) (h : c.gang = true) :
    evGangSwitch s =
      ((s.allTasks.filter fun t => t.cid == s.arg 0 && t.state == .running && t.core.isSome && t.stop.isNone).foldl
        (fun (u : State) t => u.withTask t.id fun v => v.preemptOne true none 7)
        { s with gang := some ⟨s.arg 0, s.arg 1, s.hub.time, [], [], s.gangMembers (s.arg 0)⟩ }).noted s := by
  simp only [evGangSwitch, hg, hc, h, Bool.not_true, Bool.false_eq_true, if_false]

section
variable {g : Gang} (hg : s.gang = some g) (hc : g.cid = s.arg 0)
include hg hc

theorem evGangVote_free (hd : s.arg 1 ∈ s.gangDies (s.arg 0)) (ho : s.gangOn (s.arg 0) (s.arg 1) = []) (hv : s.arg 1 ∉ g.votes) :
    evGangVote s = s.commitGang { g with votes := g.votes ++ [s.arg 1] } (s.args.drop 2) := by
  simp only [evGangVote, hg, hc]
  exact if_neg (by simp [hd, ho, hv])

theorem evGangVoteDeadline_passed (hp : s.past g.tick 120 = true) : evGangVoteDeadline s =
    ((s.allTasks.filter fun t => t.cid == s.arg 0 && t.state == .running && t.core.isSome).foldl
      (fun (u : State) t => u.withTask t.id fun v => v.forceRollback 7) s).noted s := by
  simp only [evGangVoteDeadline, hg, hc]
  exact if_neg (by simp [hp])

theorem evGangResetDeadline_passed (hp : s.past g.tick 170 = true) {late : List Nat}
    (hl : ((s.gangDies (s.arg 0)).filter fun d => !g.votes.contains d && !g.resets.contains d) = late) : evGangResetDeadline s =
      (((late.foldl (fun (u : State) d => (u.resetDieWith (u.detailIn g.members) d).tellOwner d) { s with reply := [] }).commitGang
        { g with resets := g.resets ++ late } (s.args.drop 1)).noted s) := by
  simp only [evGangResetDeadline, hg, hc, hl]
  exact if_neg (by simp [hp])

end

/-! ### Recalls (21 R362, R363) -/

section
variable {l : Loan} {r : Nat} (hl : (s.die (s.arg 0)).loan = some l) (hr : l.recalledAt = some r)
include hl hr

theorem evRecallDeadline_passed (hp : s.past r (l.deadline - 20) = true) (hb : s.borrowers (s.arg 0) l.borrower ≠ []) :
    evRecallDeadline s = (s.resetDieWith (s.detailIn l.members) (s.arg 0)).noted s := by
  simp only [evRecallDeadline, hl, hr]
  exact if_neg (by simp [hp, hb])

theorem evRecallReturn_left (hb : s.borrowers (s.arg 0) l.borrower = []) : evRecallReturn s = s.returnDie (s.arg 0) l := by
  simp only [evRecallReturn, hl, hr, hb]
  exact if_pos (by simp)

end

/-! ### Launch queues (20 R338-R341, 24 R396) -/

/-- A submission to a queue's window, a queue without a descriptor standing as a disabled one of no context (24 R396). -/
theorem evHostLaunchSubmit_host {v : Queue} (hv : ((s.part (s.arg 0)).queue (s.arg 1)).getD (.fresh 4096 0 0 0) = v)
    (hn : s.arg 12 ≠ 1) (hb : s.barServes (s.arg 0) = true) (hq : s.arg 1 < 64) (h2 : s.arg 2 < 64) :
    evHostLaunchSubmit s = s.hostSubmit (s.arg 0) (s.arg 1) (if s.arg 2 = 0 then s.arg 3 else 0) v
      (((s.args.drop 4).take 8).flatMap fun w => leBytes 8 w) := by
  simp only [evHostLaunchSubmit, if_neg hn, hv]
  exact if_pos (by simp [hb, hq, h2])

section
variable {v : Queue} (hv : (s.part (s.arg 0)).queue (s.arg 1) = some v)
include hv

theorem evHostLaunchSubmit_supervisor (h : s.arg 12 = 1) : evHostLaunchSubmit s =
    s.supervisorSubmit (s.arg 0) (s.arg 1) v (((s.args.drop 4).take 8).flatMap fun w => leBytes 8 w) := by
  simp only [evHostLaunchSubmit, h, if_true, hv]

/-- A record that no debugger holds is taken, or passed over where it was discarded while held (18 R321). -/
theorem evLaunchAccept_pending {c : Context} (hc : s.ctx? v.cid = some c) (hp : v.pending = true) (hs : s.serves v = true)
    (hh : (v.posted.headD ⟨0, none, false⟩).holder = none) {at_ : Word} (ha : v.headSeg + BitVec.ofNat 64 (64 * v.head) = at_)
    {u : State} (hu : s.devTouch (s.deviceAcc v.cid) at_ 64 = u) :
    evLaunchAccept s = if (v.posted.headD ⟨0, none, false⟩).dropped then s.advanceHead (s.arg 0) (s.arg 1) v
      else u.acceptRecord (s.arg 0) (s.arg 1) v c (u.devRead (u.deviceAcc v.cid) at_ 64) := by
  simp only [evLaunchAccept, hv, hc, ha, hu, hp, hs, hh, Option.isSome_none, Bool.not_true, Bool.or_self, Bool.false_eq_true, if_false]

theorem evTokenRefill_due (hr : v.refill ≠ 0) (ht : v.refillAt ≤ s.hub.time) :
    evTokenRefill s = s.setPart (s.arg 0) ((s.part (s.arg 0)).setQueue (s.arg 1)
      { v with tokens := if v.tokens < v.tokcap then v.tokens + 1 else v.tokens, refillAt := v.refillAt + 16000 * v.refill }) := by
  simp only [evTokenRefill, hv]
  exact if_neg (by omega)

end

theorem evDispatch_served {x : Launch × Nat} (hq : s.servedQueue (s.arg 0) = some (s.arg 1))
    (hx : s.nextTask (s.arg 0) (s.arg 1) = some x) : evDispatch s = s.dispatchOne x.1 x.2 := by
  simp only [evDispatch, hq, hx, if_true]

theorem evQuantumTick_passed (h : (s.part (s.arg 0)).tick < s.hub.time / 1600000) : evQuantumTick s =
    ((s.setPart (s.arg 0) { s.part (s.arg 0) with tick := (s.part (s.arg 0)).tick + 1 }).applySched (s.arg 0)).credited (s.arg 0) :=
  if_pos h

/-- Settles O55: each clause is the lemma of its event. -/
theorem schedulerEvents : Obligations.SchedulerEvents := by
  intro s a b passed bs8 size
  have late {since us : Nat} (hp : passed since us) : s.past since us = true := (s.past_iff _ _).mpr hp
  refine ⟨?start, fun t ht h => congrArg Host.Outcome.next (evSpeculativeStart_grants rfl ht h),
    fun c hg hc h => congrArg Host.Outcome.next (evGangSwitch_prepare hg hc h), ?gang, ?lent, ?noQueue, ?queue,
    fun x hq hx => congrArg Host.Outcome.next (evDispatch_served hq hx), fun h => congrArg Host.Outcome.next (evQuantumTick_passed h), rfl⟩
  case start =>
    intro t ht
    refine ⟨fun h => congrArg Host.Outcome.next (evTaskStart_starts ht h), fun h hs => congrArg Host.Outcome.next (evTaskStart_steps ht h hs), ?_⟩
    intro l d q vs hq hh hs hl hd hc hv hvs hn
    refine congrArg Host.Outcome.next ((evPreempt_of_task ht).trans ?_)
    rw [State.preempt_of_victims hq hh hs hl hd hc hv hvs hn]
  case gang =>
    exact fun g hg hc => ⟨fun hd ho hv => congrArg Host.Outcome.next (evGangVote_free hg hc hd ho hv),
      fun hp => congrArg Host.Outcome.next (evGangVoteDeadline_passed hg hc (late hp)),
      fun hp => congrArg Host.Outcome.next (evGangResetDeadline_passed hg hc (late hp) rfl)⟩
  case lent =>
    exact fun l r hl hr => ⟨fun hp hb => congrArg Host.Outcome.next (evRecallDeadline_passed hl hr (late hp) hb),
      fun hb => congrArg Host.Outcome.next (evRecallReturn_left hl hr hb)⟩
  case noQueue =>
    exact fun hv hn hb hq h2 => congrArg Host.Outcome.next (evHostLaunchSubmit_host (by rw [hv]; rfl) hn hb hq h2)
  case queue =>
    intro v c hv
    refine ⟨fun hc hp hs hh => ?_, fun h => congrArg Host.Outcome.next (evHostLaunchSubmit_supervisor hv h),
      fun hn hb hq h2 => congrArg Host.Outcome.next (evHostLaunchSubmit_host (by rw [hv]; rfl) hn hb hq h2),
      fun hr ht => congrArg Host.Outcome.next (evTokenRefill_due hv hr ht)⟩
    have accept := evLaunchAccept_pending hv hc hp hs hh rfl rfl
    exact ⟨fun hd => congrArg Host.Outcome.next (accept.trans (if_neg (Bool.eq_false_iff.mp hd))),
      fun hd => congrArg Host.Outcome.next (accept.trans (if_pos hd))⟩

end Sys2Proof.Machine
end

section
/-! The registers of a group written one after another, and the elements in them (03 R38, 08 R145, 10 R167). -/

namespace Sys2Proof.Machine

/-! ### Other registers than the one written -/

/-- A physical register written leaves every other one alone, a lost one among them (04 R77). -/
theorem fileGet_fileSet_other {p q : Nat} (h : q ≠ p) (t : Team) (v : V256) : (t.fileSet p v).fileGet q = t.fileGet q := by
  have hf : (t.stale.filter fun e => e.1 != p).find? (fun e => e.1 == q) = t.stale.find? fun e => e.1 == q := by
    rw [List.find?_filter]
    congr 1
    funext e
    by_cases he : e.1 = q <;> simp [he, h]
  simp only [Team.fileGet, Team.fileSet, hf, Sparse.get_set_other h]

/-- A resident register written leaves every other resident one alone (04 R65, R66). -/
theorem vfileGet_vfileSet_other {t : Team} {a b : Nat} (ha : t.lo ≤ a) (hb : t.lo ≤ b) (h : physReg b ≠ physReg a) (v : V256) :
    (t.vfileSet a v).vfileGet b = t.vfileGet b := by
  have hset : t.vfileSet a v = t.fileSet (physReg a) v := if_neg (Nat.not_lt.mpr ha)
  have hget (u : Team) (hu : u.lo ≤ b) : u.vfileGet b = u.fileGet (physReg b) := if_neg (Nat.not_lt.mpr hu)
  rw [hset, hget t hb, hget (t.fileSet _ v) hb, fileGet_fileSet_other h]

theorem landWrites_lo (ws : List LWrite) (t : Team) : (ws.foldl Team.landWrite t).lo = t.lo := by
  obtain ⟨_, _, _, _, _, _, _, _, _, hu⟩ := Team.landWrites_landed ws t
  rw [hu]

/-! ### A run of registers -/

/-- The writes of `g` successive registers from an absolute base, each a value and its mask. -/
def registerWrites (abs g : Nat) (f : Nat → V256 × V256) : List LWrite :=
  (List.range g).map fun k => .v (abs + k) (f k).1 (f k).2

theorem groupWrites_eq (abs g w : Nat) (cs : List (Option Nat)) :
    groupWrites abs g w cs = registerWrites abs g fun k => regOfCodes w ((cs.drop (k * (256 / w))).take (256 / w)) := rfl

theorem registerWrites_succ (abs g : Nat) (f : Nat → V256 × V256) :
    registerWrites abs (g + 1) f = registerWrites abs g f ++ [.v (abs + g) (f g).1 (f g).2] := by
  simp only [registerWrites, List.range_succ, List.map_append, List.map_cons, List.map_nil]

/-- Registers less than a whole file apart are different physical ones (04 R65). -/
theorem physReg_add_ne {abs j k : Nat} (hj : j < 4096) (hk : k < 4096) (h : j ≠ k) : physReg (abs + j) ≠ physReg (abs + k) := by
  unfold physReg
  omega

/-- A run of resident registers written merges each one's own value into it, and leaves those past the run alone. -/
theorem vfileGet_registerWrites {t : Team} {abs g k : Nat} (ht : t.vectorsOk) (habs : t.lo ≤ abs) (hg : g ≤ 4096) (hk : k < 4096)
    (f : Nat → V256 × V256) :
    ((registerWrites abs g f).foldl Team.landWrite t).vfileGet (abs + k) =
      if k < g then mergeBits (t.vfileGet (abs + k)) (f k).1 (f k).2 else t.vfileGet (abs + k) := by
  induction g with
  | zero => rfl
  | succ g ih =>
    have ih := ih (by omega)
    rw [registerWrites_succ, List.foldl_append, List.foldl_cons, List.foldl_nil]
    have hu : ((registerWrites abs g f).foldl Team.landWrite t).vectorsOk := vectorsOk_landWrites _ ht
    have hlo : ((registerWrites abs g f).foldl Team.landWrite t).lo = t.lo := landWrites_lo _ t
    generalize (registerWrites abs g f).foldl Team.landWrite t = u at ih hu hlo ⊢
    rw [Team.landWrite]
    by_cases hkg : k = g
    · subst hkg
      rw [vfileGet_vfileSet hu, ih, if_neg (Nat.lt_irrefl k), if_pos (Nat.lt_succ_self k)]
    · rw [vfileGet_vfileSet_other (by omega) (by omega) (physReg_add_ne hk (by omega) hkg), ih]
      simp only [show k < g + 1 ↔ k < g by omega]

/-! ### The elements of one register -/

/-- The field of an element in its register's value, as `regOfCodes` forms it: an inactive one holds 0. -/
def codeField (w : Nat) : Option Nat → Nat
  | some x => x % 2 ^ w
  | none => 0

/-- The field of an element in its register's write mask: all ones, or none for an inactive one. -/
def maskField (w : Nat) : Option Nat → Nat
  | some _ => 2 ^ w - 1
  | none => 0

theorem codeField_lt (w : Nat) (c : Option Nat) : codeField w c < 2 ^ w := by
  cases c with
  | some x => exact Nat.mod_lt _ (Nat.two_pow_pos w)
  | none => exact Nat.two_pow_pos w

theorem maskField_lt (w : Nat) (c : Option Nat) : maskField w c < 2 ^ w := by
  have := Nat.two_pow_pos w
  cases c with
  | some _ => exact Nat.sub_lt this Nat.one_pos
  | none => exact this

/-- A fold that takes in one element's two fields at a time forms both numbers from their digits, lowest first. -/
theorem foldr_fields {w : Nat} {f : Option Nat → Nat × Nat → Nat × Nat}
    (hf : ∀ c vm, f c vm = (vm.1 * 2 ^ w + codeField w c, vm.2 * 2 ^ w + maskField w c)) (cs : List (Option Nat)) :
    cs.foldr f (0, 0) = (Nat.ofDigits (2 ^ w) (cs.map (codeField w)), Nat.ofDigits (2 ^ w) (cs.map (maskField w))) := by
  induction cs with
  | nil => rfl
  | cons c cs ih => simp only [List.foldr_cons, ih, hf, List.map_cons, Nat.ofDigits_cons, Nat.add_comm, Nat.mul_comm]

/-- A register and its mask are the elements' fields as digits in base 2 ^ w. -/
theorem regOfCodes_eq (w : Nat) (cs : List (Option Nat)) :
    regOfCodes w cs = (BitVec.ofNat 256 (Nat.ofDigits (2 ^ w) (cs.map (codeField w))),
      BitVec.ofNat 256 (Nat.ofDigits (2 ^ w) (cs.map (maskField w)))) := by
  rw [regOfCodes, foldr_fields]
  intro c vm
  cases c <;> rfl

/-- A digit of a number in base `b`, taken out of it. -/
theorem ofDigits_div_pow_mod {b : Nat} {ds : List Nat} (hds : ∀ d ∈ ds, d < b) {e : Nat} (he : e < ds.length) :
    Nat.ofDigits b ds / b ^ e % b = ds[e] := by
  have hlt : ds[e] < b := hds _ (List.getElem_mem he)
  rw [Nat.ofDigits_div_pow_eq_ofDigits_drop e (by omega) ds hds, List.drop_eq_getElem_cons he, Nat.ofDigits_cons,
    Nat.add_mul_mod_self_left, Nat.mod_eq_of_lt hlt]

/-- The bits of digit `e` of a word in base 2 ^ w hold that digit. -/
theorem extractLsb'_ofDigits {n w e : Nat} {ds : List Nat} (hds : ∀ d ∈ ds, d < 2 ^ w) (he : e < ds.length) (hn : e * w + w ≤ n) :
    (BitVec.ofNat n (Nat.ofDigits (2 ^ w) ds)).extractLsb' (e * w) w = BitVec.ofNat w ds[e] := by
  have hpow : 2 ^ n = 2 ^ (e * w) * 2 ^ (n - e * w) := by rw [← Nat.pow_add]; congr 1; omega
  have hdvd : 2 ^ w ∣ 2 ^ (n - e * w) := Nat.pow_dvd_pow 2 (by omega)
  have hbase : 2 ^ (e * w) = (2 ^ w) ^ e := by rw [← Nat.pow_mul, Nat.mul_comm]
  apply BitVec.eq_of_toNat_eq
  rw [BitVec.extractLsb'_toNat, BitVec.toNat_ofNat, BitVec.toNat_ofNat, Nat.shiftRight_eq_div_pow, hpow, Nat.mod_mul_right_div_self,
    Nat.mod_mod_of_dvd _ hdvd, hbase, ofDigits_div_pow_mod hds he, Nat.mod_eq_of_lt (hds _ (List.getElem_mem he))]

/-- A field of a merge is the merge of that field. -/
theorem extractLsb'_mergeBits {n s w : Nat} (h : s + w ≤ n) (old val mask : BitVec n) :
    (mergeBits old val mask).extractLsb' s w = mergeBits (old.extractLsb' s w) (val.extractLsb' s w) (mask.extractLsb' s w) := by
  ext j hj
  have : s + j < n := by omega
  simp [mergeBits, this]

/-- An active element replaces the old one; an inactive one leaves it. -/
theorem mergeBits_fields {w : Nat} (old : BitVec w) (c : Option Nat) :
    mergeBits old (BitVec.ofNat w (codeField w c)) (BitVec.ofNat w (maskField w c)) = c.elim old (BitVec.ofNat w) := by
  cases c with
  | none => simp [mergeBits, codeField, maskField]
  | some x =>
    have hones : BitVec.ofNat w (2 ^ w - 1) = BitVec.allOnes w := by
      apply BitVec.eq_of_toNat_eq
      simp
    have hcode : BitVec.ofNat w (x % 2 ^ w) = BitVec.ofNat w x := by
      apply BitVec.eq_of_toNat_eq
      simp
    simp [mergeBits, codeField, maskField, hones, hcode]

/-- An element of a register merged with the codes of its elements. -/
theorem extractLsb'_mergeBits_regOfCodes {w e : Nat} {cs : List (Option Nat)} (he : e < cs.length) (hw : e * w + w ≤ 256) (old : V256) :
    (mergeBits old (regOfCodes w cs).1 (regOfCodes w cs).2).extractLsb' (e * w) w =
      cs[e].elim (old.extractLsb' (e * w) w) (BitVec.ofNat w) := by
  have hfield (f : Option Nat → Nat) (hf : ∀ c, f c < 2 ^ w) :
      (BitVec.ofNat 256 (Nat.ofDigits (2 ^ w) (cs.map f))).extractLsb' (e * w) w = BitVec.ofNat w (f cs[e]) := by
    rw [extractLsb'_ofDigits (by simpa using fun c _ => hf c) (by simpa using he) hw, List.getElem_map]
  rw [extractLsb'_mergeBits hw, regOfCodes_eq, hfield _ (codeField_lt w), hfield _ (maskField_lt w), mergeBits_fields]

/-! ### The elements of a group -/

/-- Settles O22: element `i` is element `i % (256 / w)` of register `i / (256 / w)` of the run, which alone is written there. -/
theorem groupElements : Obligations.GroupElements := by
  intro t abs g w i cs ht hw habs hg hlen hi u at_
  have hwidth : ∀ w ∈ ([4, 8, 16, 32] : List Nat), 256 / w * w = 256 ∧ 0 < w ∧ 0 < 256 / w := by decide
  obtain ⟨hnw, hwpos, hnpos⟩ := hwidth w hw
  have hreg : i * w / 256 = i / (256 / w) := by
    rw [← Nat.mul_div_mul_right i (256 / w) hwpos, hnw]
  have hbit : i * w % 256 = i % (256 / w) * w := by
    rw [← Nat.mul_mod_mul_right, hnw]
  simp only [at_, u, hreg, hbit, groupWrites_eq]
  generalize 256 / w = n at *
  have hk : i / n < g := Nat.div_lt_of_lt_mul (by rwa [Nat.mul_comm, ← hlen])
  have he : i % n < n := Nat.mod_lt _ hnpos
  have hfit : i % n * w + w ≤ 256 := by
    rw [← Nat.succ_mul, ← hnw]
    exact Nat.mul_le_mul_right w he
  have hat : i / n * n + i % n = i := Nat.div_add_mod' i n
  have hslice : i % n < ((cs.drop (i / n * n)).take n).length := by
    rw [List.length_take, List.length_drop]
    omega
  rw [vfileGet_registerWrites ht habs (by omega) (by omega), if_pos hk, extractLsb'_mergeBits_regOfCodes hslice hfit,
    List.getElem_take, List.getElem_drop, List.getD_eq_getElem _ _ hi]
  simp only [hat]
  cases cs[i] with
  | none => rfl
  | some c => exact BitVec.toNat_ofNat c w

end Sys2Proof.Machine
end

section
/-! The instruction of a step, and the scalar registers of the agent in focus (04 R57, R59, 18 R304). -/

namespace Sys2Proof.Machine

/-! ### One step -/

theorem step_of_agenda_nil {s : State} (h : s.agenda = []) : step s = stepAgent s.elapse := by
  unfold step
  rw [h]

theorem step_of_agenda_cons {s : State} {t : Turn} {rest : List Turn} (h : s.agenda = t :: rest) :
    step s = stepTurn t { s.elapse with agenda := rest } := by
  unfold step
  rw [h]

theorem stepAgent_member {s : State} {w : Who} (hf : s.focus = .member w) : stepAgent s = lookAway (stepMember w (s.look w)) := by
  unfold stepAgent
  rw [hf]

theorem stepAgent_hart {s : State} {h : Fin 16} (hf : s.focus = .hart h) : stepAgent s = stepHart h s := by
  unfold stepAgent
  rw [hf]

/-- A member that runs executes the instruction its words decode to (08 R132). -/
theorem stepMember_decoded {s : State} {w : Who} {lo : BitVec 32} {i : Instr} {n : Nat} (hr : s.memberRuns w = true)
    (hlo : (s.member w).code[(s.member w).pc / 4]? = some lo)
    (hd : decode lo (s.member w).code[(s.member w).pc / 4 + 1]? = .ok (i, n)) : stepMember w s = exec i s := by
  have hfetch : (s.member w).fetch = .ok (i, n) := by simp only [Member.fetch, hlo, hd]
  rw [stepMember, if_pos hr, hfetch]

/-- A hart that may fetch, and takes no interrupt first, executes the instruction its words decode to (18 R304). -/
theorem stepHart_decoded {s : State} {h : Fin 16} {i : Instr} {n : Nat} (hw : (s.hart h).waits = false) (hh : s.hartHalted h = false)
    (hirq : (s.hart h).wait.isSome = true ∨ (s.hart h).irq = none) (hm : s.hartMay (s.hart h).pc.toNat = true)
    (hd : s.hartFetch h = .ok (i, n)) : stepHart h s = exec i s := by
  have hnone : (if (s.hart h).wait.isSome then none else (s.hart h).irq) = none := by
    cases hirq with
    | inl hwait => exact if_pos hwait
    | inr hirq => rw [hirq, ite_self]
  rw [stepHart, hw, hh, Bool.or_false, if_neg Bool.false_ne_true, hnone]
  simp only [hm, hd, Bool.not_true, if_neg Bool.false_ne_true]

/-! ### What a hart's next instruction depends on, while time passes -/

@[simp] theorem Hart.elapse_waits (v : Hart) (n : Word) : (v.elapse n).waits = v.waits := rfl
@[simp] theorem Hart.elapse_irq (v : Hart) (n : Word) : (v.elapse n).irq = v.irq := rfl

@[simp] theorem State.elapse_hartMay (s : State) (a : Nat) : s.elapse.hartMay a = s.hartMay a := by
  simp only [State.hartMay, State.elapse_homeOf, State.elapse_readError]

@[simp] theorem State.elapse_hartFetch (s : State) (h : Fin 16) : s.elapse.hartFetch h = s.hartFetch h := by
  simp only [State.hartFetch, State.elapse_hart, Hart.elapse_pc, State.elapse_wordAt]

/-- Settles O4: the agenda and the focus say which agent moves, and its fetched words which instruction. -/
theorem stepRuns : Obligations.StepRuns := by
  refine ⟨fun s w lo i n ha hf hr hlo hd => ?member, fun s h i n ha hf hw hh hirq hm hd => ?hart, fun s rest => ?turns⟩
  case member =>
    rw [step_of_agenda_nil ha, stepAgent_member (s := s.elapse) hf, stepMember_decoded (s := s.elapse.look w) hr hlo hd]
  case hart =>
    rw [step_of_agenda_nil ha, stepAgent_hart (s := s.elapse) hf]
    exact stepHart_decoded (by simpa using hw) hh (by simpa using hirq) (by simpa using hm) ((s.elapse_hartFetch h).trans hd)
  case turns =>
    exact ⟨fun i args ha => step_of_agenda_cons ha, fun a ha => step_of_agenda_cons ha, fun w a ha => step_of_agenda_cons ha,
      fun id ha => step_of_agenda_cons ha⟩

/-! ### Scalar registers -/

theorem Team.setMember_self (t : Team) (w : Who) : t.setMember w (t.member w) = t := by cases w <;> rfl

theorem State.setHart_self (s : State) (h : Fin 16) : s.setHart h (s.hart h) = s := by
  have hset : s.harts.set h.val (s.hart h) h.isLt = s.harts := Vector.set_getElem_self h.isLt
  rw [State.setHart, hset]

/-- A write of `x0` changes nothing (04 R57). -/
theorem State.setX_zero (s : State) (v : Word) : s.setX 0 v = s := by
  unfold State.setX
  cases s.focus with
  | member w => exact congrArg s.setTeam (s.cur.team.setMember_self w)
  | hart h => exact s.setHart_self h

theorem State.x_zero (s : State) : s.x 0 = 0 := by
  unfold State.x
  cases s.focus <;> rfl

/-- Settles O8: what one write leaves in every register. -/
theorem scalarRegisters : Obligations.ScalarRegisters := by
  intro s r q v
  refine ⟨s.x_zero, s.setX_zero v, fun hr => ?_, fun hq => ?_⟩
  · rw [State.x_setX, if_pos ⟨rfl, hr⟩]
  · rw [State.x_setX, if_neg fun h => hq h.1]

end Sys2Proof.Machine
end

section
/-! What the end of an instruction leaves alone, and what becomes of its agent's pc (04 R59, R61, 11 R216). -/

namespace Sys2Proof.Machine

/-! ### Retirement -/

/-- A retirement is a hart's, the sequencer's or a courier's. -/
theorem State.focus_cases (s : State) :
    (∃ h, s.focus = .hart h) ∨ s.focus = .member .seq ∨ ∃ w, w ≠ .seq ∧ s.focus = .member w := by
  cases s.focus with
  | hart h => exact .inl ⟨h, rfl⟩
  | member w =>
    by_cases hw : w = .seq
    · exact .inr (.inl (congrArg Agent.member hw))
    · exact .inr (.inr ⟨w, hw, rfl⟩)

/-- What a retirement may change of a state: the focused task, its postmarks and the harts. -/
theorem State.retire_eq (s : State) (pc : Word) : ∃ c p hs, s.retire pc = { s with cur := c, postmarks := p, harts := hs } := by
  obtain ⟨h, hf⟩ | hf | ⟨w, hw, hf⟩ := s.focus_cases
  · exact ⟨s.cur, s.postmarks, _, State.retire_hart hf pc⟩
  · obtain ⟨p, hr⟩ := State.retire_seq hf pc
    exact ⟨_, p, s.harts, hr⟩
  · exact ⟨_, s.postmarks, s.harts, State.retire_courier hf hw pc⟩

/-- What a retirement may change of the focused team: its members, its loops and what an issue cycle lands. -/
theorem State.retire_team_eq (s : State) (pc : Word) :
    ∃ sq ld st lc ls vf stale sp acc h by_ fl fn debt ps c m, (s.retire pc).cur.team =
      { s.cur.team with seq := sq, ld := ld, st := st, lc := lc, loops := ls, vfile := vf, stale := stale, spilled := sp, acc := acc,
                        h := h, bypass := by_, flags := fl, flagsNow := fn, debt := debt, landings := ps, clock := c, matBusy := m } := by
  obtain ⟨h, hf⟩ | hf | ⟨w, hw, hf⟩ := s.focus_cases
  · rw [State.retire_hart hf]
    exact ⟨_, _, _, _, _, _, _, _, _, _, _, _, _, _, _, _, _, rfl⟩
  · obtain ⟨p, hr⟩ := State.retire_seq hf pc
    obtain ⟨lc, ls, hb⟩ := s.cur.team.backEdge_eq 4 pc.toNat
    rw [hr]
    simp only [hb]
    obtain ⟨_, _, _, _, _, _, _, _, _, _, _, _, ht⟩ := Team.tick_eq { s.cur.team with
      lc := lc, loops := ls, seq := { s.cur.team.seq with pc := (s.cur.team.backEdge 4 pc.toNat).2, wait := none } }
    exact ⟨_, _, _, _, _, _, _, _, _, _, _, _, _, _, _, _, _, ht⟩
  · rw [State.retire_courier hf hw]
    cases w <;> exact ⟨_, _, _, _, _, _, _, _, _, _, _, _, _, _, _, _, _, rfl⟩

theorem State.retire_stepping (s : State) (pc : Word) : (s.retire pc).cur.stepping = s.cur.stepping := by
  obtain ⟨h, hf⟩ | hf | ⟨w, hw, hf⟩ := s.focus_cases
  · rw [State.retire_hart hf]
    rfl
  · obtain ⟨p, hr⟩ := State.retire_seq hf pc
    rw [hr]
  · rw [State.retire_courier hf hw]

/-- Where no debugger steps the member, an instruction completes by retiring. -/
theorem State.completed_free {s : State} (h : s.cur.stepping = none) (n : Nat) :
    s.completed n = s.retire (s.pc + BitVec.ofNat 64 n) :=
  State.endStep_free ((s.retire_stepping _).trans h) 0 0

/-! ### Members -/

@[simp] theorem Team.tick_member (t : Team) (v : Who) : t.tick.member v = t.member v := by
  obtain ⟨_, _, _, _, _, _, _, _, _, _, _, _, h⟩ := t.tick_eq
  rw [h]
  cases v <;> rfl

@[simp] theorem Team.backEdge_member (t : Team) (k pc : Nat) (v : Who) : (t.backEdge k pc).1.member v = t.member v := by
  obtain ⟨_, _, h⟩ := t.backEdge_eq k pc
  rw [h]
  cases v <;> rfl

/-- The sequencer's retirement, as one member replaced and one issue cycle. -/
theorem State.retire_seq_team {s : State} (hf : s.focus = .member .seq) (pc : Word) :
    (s.retire pc).cur.team =
      let b := s.cur.team.backEdge 4 pc.toNat
      (b.1.setMember .seq { s.member .seq with pc := b.2, wait := none }).tick := by
  obtain ⟨p, hr⟩ := State.retire_seq hf pc
  have hseq : (s.cur.team.backEdge 4 pc.toNat).1.seq = s.cur.team.seq := Team.backEdge_member _ 4 pc.toNat .seq
  rw [hr]
  simp only [hseq]
  rfl

theorem State.retire_courier_team {s : State} {w : Who} (hf : s.focus = .member w) (hw : w ≠ .seq) (pc : Word) :
    (s.retire pc).cur.team = s.cur.team.setMember w { s.member w with pc := pc.toNat, wait := none } := by
  rw [State.retire_courier hf hw]

/-- The retiring member waits for nothing and stands where the instruction goes; a loop may take the sequencer elsewhere (11 R216). -/
theorem State.retire_member_self {s : State} {w : Who} (hf : s.focus = .member w) (pc : Word) :
    ∃ k, (s.retire pc).member w = { s.member w with pc := k, wait := none } ∧ (s.cur.team.loops = [] → k = pc.toNat) := by
  by_cases hw : w = .seq
  · subst hw
    refine ⟨(s.cur.team.backEdge 4 pc.toNat).2, ?_, fun hl => by rw [Team.backEdge_nil 4 _ _ hl]⟩
    rw [State.member, State.retire_seq_team hf, Team.tick_member, Team.member_setMember]
  · refine ⟨pc.toNat, ?_, fun _ => rfl⟩
    rw [State.member, State.retire_courier_team hf hw, Team.member_setMember]

theorem State.retire_member_other {s : State} {v : Who} (hv : s.focus ≠ .member v) (pc : Word) : (s.retire pc).member v = s.member v := by
  have other {w : Who} (hf : s.focus = .member w) : v ≠ w := fun e => hv (hf.trans (by rw [e]))
  obtain ⟨h, hf⟩ | hf | ⟨w, hw, hf⟩ := s.focus_cases
  · rw [State.retire_hart hf]
    rfl
  · rw [State.member, State.retire_seq_team hf, Team.tick_member, Team.member_setMember_ne _ _ _ _ (other hf), Team.backEdge_member]
    rfl
  · rw [State.member, State.retire_courier_team hf hw, Team.member_setMember_ne _ _ _ _ (other hf)]
    rfl

/-- A retirement leaves every member's registers and code image alone. -/
theorem State.retire_member_x_code (s : State) (pc : Word) (w : Who) :
    ((s.retire pc).member w).x = (s.member w).x ∧ ((s.retire pc).member w).code = (s.member w).code := by
  by_cases hf : s.focus = .member w
  · obtain ⟨k, hm, -⟩ := State.retire_member_self hf pc
    rw [hm]
    exact ⟨rfl, rfl⟩
  · rw [State.retire_member_other hf]
    exact ⟨rfl, rfl⟩

/-! ### Harts and scalar registers -/

theorem State.retire_hart_self {s : State} {h : Fin 16} (hf : s.focus = .hart h) (pc : Word) :
    (s.retire pc).hart h = { (s.hart h).retired with pc := pc, wait := none } := by
  rw [State.retire_hart hf, State.hart_setHart]

theorem State.retire_hart_other {s : State} {h : Fin 16} (hh : s.focus ≠ .hart h) (pc : Word) : (s.retire pc).hart h = s.hart h := by
  obtain ⟨k, hf⟩ | hf | ⟨w, hw, hf⟩ := s.focus_cases
  · rw [State.retire_hart hf, State.hart_setHart_ne _ _ _ _ fun e => hh (hf.trans (by rw [e]))]
  · obtain ⟨p, hr⟩ := State.retire_seq hf pc
    rw [hr]
    rfl
  · rw [State.retire_courier hf hw]
    rfl

theorem State.retire_focus (s : State) (pc : Word) : (s.retire pc).focus = s.focus := by
  obtain ⟨c, p, hs, hr⟩ := s.retire_eq pc
  rw [hr]

theorem State.retire_x (s : State) (pc : Word) (r : Reg) : (s.retire pc).x r = s.x r := by
  unfold State.x
  rw [State.retire_focus]
  cases hf : s.focus with
  | member w => simp only [(s.retire_member_x_code pc w).1]
  | hart h => simp only [State.retire_hart_self hf, Hart.retired_x]

/-- Settles O19: the frame of a retirement, which is all that an instruction's end is where no debugger steps its member. -/
theorem completionFrame : Obligations.CompletionFrame := by
  intro s n hstep
  simp only [State.completed_free hstep]
  generalize s.pc + BitVec.ofNat 64 n = pc
  obtain ⟨_, _, _, hr⟩ := s.retire_eq pc
  obtain ⟨_, _, _, _, _, _, _, _, _, _, _, _, _, _, _, _, _, ht⟩ := s.retire_team_eq pc
  refine ⟨by rw [hr], by rw [hr], by rw [hr], by rw [hr], by rw [ht], by rw [hr], by rw [hr], by rw [hr], by rw [hr], by rw [hr],
    by rw [hr], by rw [hr], by rw [hr], by rw [hr], by rw [hr], by rw [hr], s.retire_x pc, s.retire_member_x_code pc,
    fun w hw => State.retire_member_other hw pc, fun h hh => State.retire_hart_other hh pc,
    fun h hf => State.retire_hart_self hf pc, fun w hf => ?member, ?team⟩
  case member =>
    obtain ⟨k, hm, hk⟩ := State.retire_member_self hf pc
    refine ⟨by rw [hm], fun hw => State.retire_courier_team hf hw pc, fun _ hl => ?_⟩
    rw [hm, hk hl]
  case team =>
    rw [ht]
    and_intros <;> rfl

end Sys2Proof.Machine
end

section
/-! Pending results: how long they wait, and what one that lands writes (04 R59, R61, R63). -/

namespace Sys2Proof.Machine

/-! ### Pending results -/

/-- The results that are still pending after `n` issue cycles, each `n` cycles nearer (04 R59). -/
def stillPending (n : Nat) (es : List Landing) : List Landing :=
  (es.filter fun e => n < e.delay).map fun e => { e with delay := e.delay - n }

theorem stillPending_one (es : List Landing) : stillPending 1 es = (es.map Landing.age).filter fun e => e.delay != 0 := by
  rw [stillPending, List.filter_map]
  congr 1
  refine List.filter_congr fun e _ => ?_
  simp only [Function.comp_apply, Landing.age]
  rw [Bool.eq_iff_iff]
  simp only [decide_eq_true_eq, bne_iff_ne]
  omega

theorem stillPending_add (m n : Nat) (es : List Landing) : stillPending n (stillPending m es) = stillPending (m + n) es := by
  simp only [stillPending, List.filter_map, List.map_map, List.filter_filter, Function.comp_def, Nat.sub_sub]
  congr 1
  refine List.filter_congr fun e _ => ?_
  rw [Bool.eq_iff_iff]
  simp only [Bool.and_eq_true, decide_eq_true_eq]
  omega

theorem Team.iterate_tick_landings (n : Nat) (t : Team) :
    (Nat.iterate Team.tick (n + 1) t).landings = stillPending (n + 1) t.landings := by
  induction n generalizing t with
  | zero => rw [Function.iterate_one, Team.tick_landings, stillPending_one]
  | succ n ih => rw [Function.iterate_succ_apply, ih, Team.tick_landings, ← stillPending_one, stillPending_add, Nat.add_comm 1]

/-! ### One landing -/

theorem getLsbD_mergeBits {w : Nat} (old val mask : BitVec w) (i : Nat) :
    (mergeBits old val mask).getLsbD i = if mask.getLsbD i then val.getLsbD i else old.getLsbD i := by
  by_cases hi : i < w
  · simp only [mergeBits, BitVec.getLsbD_or, BitVec.getLsbD_and, BitVec.getLsbD_not, decide_eq_true hi]
    cases mask.getLsbD i <;> simp
  · simp only [BitVec.getLsbD_of_ge _ i (Nat.le_of_not_lt hi), ite_self]

/-- A write of a resident register leaves the spilled ones alone (04 R66). -/
theorem vfileGet_vfileSet_spilled {t : Team} {a b : Nat} (ha : t.lo ≤ a) (hb : b < t.lo) (v : V256) :
    (t.vfileSet a v).vfileGet b = t.vfileGet b := by
  have hset : t.vfileSet a v = t.fileSet (physReg a) v := if_neg (Nat.not_lt.mpr ha)
  rw [hset, Team.vfileGet, Team.vfileGet, if_pos hb]
  exact if_pos hb

section
variable (t : Team) (a b : Nat) (val mask : V256) (flags : BitVec 6) (delay : Nat) (matrix : Bool) (mx : Option Nat)

theorem Team.landOne_flags (e : Landing) : (t.landOne e).flags = t.flags ||| e.flags := rfl

/-- A result with T = 0 that writes one register writes it in the vector file (04 R61). -/
theorem Team.vfileGet_landOne_written :
    (t.landOne ⟨[.v a val mask], flags, delay, false, matrix, mx⟩).vfileGet b =
      (t.vfileSet a (mergeBits (t.vfileGet a) val mask)).vfileGet b := rfl

/-- A result with T = 1 goes to the bypass, where its register is resident (04 R63). -/
theorem Team.vfileGet_landOne_transient {t : Team} {a : Nat} (ha : t.lo ≤ a) :
    (t.landOne ⟨[.v a val mask], flags, delay, true, matrix, mx⟩).vfileGet b = t.vfileGet b := by
  have hlow : ([.v a val mask] : List LWrite).filter (fun w => w.spilled t.lo) = [] := by simp [LWrite.spilled, ha]
  simp only [Team.landOne, hlow]
  rfl

end

/-- Settles O21: the delays of the results that stay pending, and the registers after one landing. -/
theorem landings : Obligations.Landings := by
  refine ⟨fun t n => t.iterate_tick_landings n, fun t w h => vectorsOk_landWrite h w, fun t a val mask flags delay matrix mx _ h ha => ?_⟩
  intro e
  refine ⟨t.landOne_flags e, fun i => ?written, fun b hb => ?others, fun b => ?transient⟩
  case written => rw [Team.vfileGet_landOne_written, vfileGet_vfileSet h, getLsbD_mergeBits]
  case others =>
    rw [Team.vfileGet_landOne_written]
    by_cases hlo : b < t.lo
    · exact vfileGet_vfileSet_spilled ha hlo _
    · exact vfileGet_vfileSet_other ha (Nat.le_of_not_lt hlo) (hb.resolve_right hlo) _
  case transient => exact Team.vfileGet_landOne_transient b val mask flags delay matrix mx ha

end Sys2Proof.Machine
end

section
/-! Instructions in either length: each spelling runs what the long form does (08 R141, R143). -/

namespace Sys2Proof.Machine

theorem spells_long (f : LF → Instr) (short : Reg → Reg → Reg → Instr) (lf : Reg → Reg → Reg → LF) (o : LF) :
    spells f short lf o (f o) 8 := .inl ⟨rfl, rfl⟩

/-- Either spelling of an instruction runs what its long form does, with its own length (08 R141). -/
theorem exec_of_spells {f : LF → Instr} {short : Reg → Reg → Reg → Instr} {lf : Reg → Reg → Reg → LF}
    {run : Instr → Nat → LF → State → Host.Outcome State Fault Refusal} (hlong : ∀ o s, exec (f o) s = run (f o) 8 o s)
    (hshort : ∀ rd rs1 rs2 s, exec (short rd rs1 rs2) s = run (short rd rs1 rs2) 4 (lf rd rs1 rs2) s)
    {o : LF} {i : Instr} {n : Nat} (h : spells f short lf o i n) (s : State) : exec i s = run i n o s := by
  obtain ⟨rfl, rfl⟩ | ⟨rd, rs1, rs2, rfl, rfl, rfl⟩ := h
  · exact hlong o s
  · exact hshort rd rs1 rs2 s

end Sys2Proof.Machine
end

section
/-! The mask stack and the register window (04 R65-R67, 10 R198). -/

namespace Sys2Proof.Machine

/-! ### Instructions that issue -/

section
variable {o : LF} {s : State} {i : Instr} {n : Nat} {w : Who}

theorem exec_mpush_issued (h : spells .mpush .mpushShort shortLong o i n) (hi : s.issues w o (shapeMpush o) {}) :
    exec i s = (maskPush s (s.x (fieldReg o.a))).finish n :=
  (exec_of_spells (run := runMpush) (fun _ _ => rfl) (fun _ _ _ _ => rfl) h s).trans (issue_ok hi)

theorem exec_minv_issued (h : spells .minv (fun _ _ _ => .minvShort) (fun _ _ _ => shortLF 0 0 0 0) o i n)
    (hi : s.issues w o (shapeMinv o) {}) : exec i s = (maskInvert s).finish n :=
  (exec_of_spells (run := runMinv) (fun _ _ => rfl) (fun _ _ _ _ => rfl) h s).trans (issue_ok hi)

theorem exec_mpop_issued (h : spells .mpop (fun _ _ _ => .mpopShort) (fun _ _ _ => shortLF 0 0 0 0) o i n)
    (hi : s.issues w o (shapeMpop o) {}) : exec i s = (maskPop s).finish n :=
  (exec_of_spells (run := runMpop) (fun _ _ => rfl) (fun _ _ _ _ => rfl) h s).trans (issue_ok hi)

theorem exec_mget_issued (h : spells .mget .mgetShort shortLong o i n) (hi : s.issues w o (shapeMget o) {}) :
    exec i s = .next ((s.setX (fieldReg o.d) (s.cur.team.masks.headD 0)).completed n) :=
  (exec_of_spells (run := runMget) (fun _ _ => rfl) (fun _ _ _ _ => rfl) h s).trans (issue_ok hi)

theorem exec_bmz_issued (hi : s.issues w o (shapeBmz o) {}) : exec (.bmz o) s = (branchMaskZero s o.b).finish 8 := by
  rw [exec, execBmz]
  exact issue_ok hi

theorem exec_wenter_issued (h : spells .wenter .wenterShort shortWenterLF o i n)
    (hi : s.issues w o (shapeWenter o) { ok5 := 1 ≤ o.b.toNat && o.b.toNat ≤ 64 }) :
    exec i s = (windowEnter s (32 * o.b.toNat)).finish n :=
  (exec_of_spells (run := runWenter) (fun _ _ => rfl) (fun _ _ _ _ => rfl) h s).trans (issue_ok hi)

theorem exec_wleave_issued (h : spells .wleave (fun _ _ _ => .wleaveShort) (fun _ _ _ => shortLF 0 0 0 0) o i n)
    (hi : s.issues w o (shapeWleave o) {}) : exec i s = (windowLeave s).finish n :=
  (exec_of_spells (run := runWleave) (fun _ _ => rfl) (fun _ _ _ _ => rfl) h s).trans (issue_ok hi)

end

/-! ### The mask stack (04 R67) -/

section
variable {s : State} {top : Word} {rest : List Word} (h : s.cur.team.masks = top :: rest)
include h

theorem maskPush_room (hr : rest.length < 15) (v : Word) :
    maskPush s v = .done (s.setTeam { s.cur.team with masks := (v &&& top) :: s.cur.team.masks }) := by
  have hlen : ¬ 16 ≤ (top :: rest).length := by rw [List.length_cons]; omega
  simp only [maskPush, h, if_neg hlen, List.headD_cons, Team.setMasks]

theorem maskPush_full (hr : 15 ≤ rest.length) (v : Word) : maskPush s v = .trap (trapOf .maskOverflow) s := by
  have hlen : 16 ≤ (top :: rest).length := by rw [List.length_cons]; omega
  simp only [maskPush, h, if_pos hlen]

theorem maskInvert_inner {parent : Word} {below : List Word} (hr : rest = parent :: below) :
    maskInvert s = .done (s.setTeam { s.cur.team with masks := (parent &&& ~~~top) :: parent :: below }) := by
  simp only [maskInvert, h, hr, Team.setMasks]

theorem maskInvert_outer (hr : rest = []) : maskInvert s = .trap (trapOf .maskUnderflow) s := by
  simp only [maskInvert, h, hr]

theorem maskPop_inner {parent : Word} {below : List Word} (hr : rest = parent :: below) :
    maskPop s = .done (s.setTeam { s.cur.team with masks := parent :: below }) := by
  simp only [maskPop, h, hr, Team.setMasks]

theorem maskPop_outer (hr : rest = []) : maskPop s = .trap (trapOf .maskUnderflow) s := by
  simp only [maskPop, h, hr]

theorem branchMaskZero_taken (ht : top = 0) (imm : BitVec 11) :
    branchMaskZero s imm = .jump s (s.pc + 4 * imm.signExtend 64) := by
  have hmul : imm.signExtend 64 <<< 2 = 4 * imm.signExtend 64 := by bv_omega
  simp only [branchMaskZero, h, List.headD_cons, if_pos ht, hmul]

theorem branchMaskZero_not_taken (ht : top ≠ 0) (imm : BitVec 11) : branchMaskZero s imm = .done s := by
  simp only [branchMaskZero, h, List.headD_cons, if_neg ht]

end

/-! ### The register window (04 R65, R66) -/

/-- A span of at most 4,096 registers leaves the lowest resident register where it is. -/
theorem Team.spanLo_fits {t : Team} {top : Nat} (h : top ≤ t.lo + 4096) : t.spanLo top = t.lo :=
  if_neg (by omega)

/-- A longer one moves it up. -/
theorem Team.lo_lt_spanLo {t : Team} {top : Nat} (h : t.lo + 4096 < top) : t.lo < t.spanLo top := by
  rw [Team.spanLo, if_pos (by omega)]
  omega

section
variable {s : State} {t : Team} (ht : s.cur.team = t)
include ht

theorem windowEnter_overflow {n : Nat} (h : 64 ≤ t.links.length ∨ s.cur.spill * 32 < t.spanLo (t.wb + t.fs - 32 + n)) :
    windowEnter s n = .trap (trapOf .winSpillOverflow) s := by
  by_cases hl : 64 ≤ t.links.length
  · simp only [windowEnter, ht, if_pos hl]
  · simp only [windowEnter, ht, if_neg hl, if_pos (h.resolve_left hl)]

theorem windowEnter_fits {n : Nat} (hl : t.links.length < 64) (hn : t.wb + t.fs - 32 + n ≤ t.lo + 4096) (hs : t.lo ≤ s.cur.spill * 32) :
    windowEnter s n = .done (s.setTeam { t with links := t.fs :: t.links, wb := t.wb + t.fs - 32, fs := n }) := by
  simp only [windowEnter, ht, Team.spanLo_fits hn, if_neg (Nat.not_le.mpr hl), if_neg (Nat.not_lt.mpr hs), if_true]

theorem windowEnter_spills {n : Nat} (hl : t.links.length < 64) (hn : t.lo + 4096 < t.wb + t.fs - 32 + n)
    (hs : t.spanLo (t.wb + t.fs - 32 + n) ≤ s.cur.spill * 32) :
    windowEnter s n = .done (s.setTeam { t.spillTo (t.spanLo (t.wb + t.fs - 32 + n)) with
      links := t.fs :: t.links, wb := t.wb + t.fs - 32, fs := n }) := by
  simp only [windowEnter, ht, if_neg (Nat.not_le.mpr hl), if_neg (Nat.not_lt.mpr hs), if_neg (Team.lo_lt_spanLo hn).ne']

theorem windowLeave_underflow (h : t.links = []) : windowLeave s = .trap (trapOf .winUnderflow) s := by
  simp only [windowLeave, ht, h]

theorem windowLeave_resident {f : Nat} {rest : List Nat} (h : t.links = f :: rest) (hlo : t.lo ≤ t.wb + 32 - f) :
    windowLeave s = .done (s.setTeam { t with links := rest, wb := t.wb + 32 - f, fs := f }) := by
  simp only [windowLeave, ht, h, if_neg (Nat.not_lt.mpr hlo)]

theorem windowLeave_fills {f : Nat} {rest : List Nat} (h : t.links = f :: rest) (hlo : t.wb + 32 - f < t.lo) :
    windowLeave s = .done (s.setTeam { t.fillTo (t.wb + 32 - f) with links := rest, wb := t.wb + 32 - f, fs := f }) := by
  simp only [windowLeave, ht, h, if_pos hlo]

end

/-- Settles O37: each instruction ends as its operation on the mask stack or the window does. -/
theorem masksAndWindow : Obligations.MasksAndWindow := by
  constructor
  · intro o s top rest t ht
    refine ⟨fun i k h hi => ?mpush, fun i k h hi => ?minv, fun i k h hi => ?mpop, fun i k h hi => ?mget, fun hi => ?bmz⟩
    case mpush =>
      rw [exec_mpush_issued h hi]
      exact ⟨fun hr => by rw [maskPush_room ht hr, Eff.finish_done], fun hr => by rw [maskPush_full ht hr, Eff.finish_trap]⟩
    case minv =>
      rw [exec_minv_issued h hi]
      exact ⟨fun parent below hr => by rw [maskInvert_inner ht hr, Eff.finish_done],
        fun hr => by rw [maskInvert_outer ht hr, Eff.finish_trap]⟩
    case mpop =>
      rw [exec_mpop_issued h hi]
      exact ⟨fun parent below hr => by rw [maskPop_inner ht hr, Eff.finish_done],
        fun hr => by rw [maskPop_outer ht hr, Eff.finish_trap]⟩
    case mget => rw [exec_mget_issued h hi, ht, List.headD_cons]
    case bmz =>
      rw [exec_bmz_issued hi]
      exact ⟨fun hz => by rw [branchMaskZero_taken ht hz, Eff.finish_jump],
        fun hz => by rw [branchMaskZero_not_taken ht hz, Eff.finish_done]⟩
  · intro o s t n wb
    refine ⟨fun i k h hi => ?wenter, fun i k h hi => ?wleave⟩
    case wenter =>
      rw [exec_wenter_issued h hi]
      exact ⟨fun hl hn hs => by rw [windowEnter_fits rfl hl hn hs, Eff.finish_done],
        fun ho => by rw [windowEnter_overflow rfl ho, Eff.finish_trap],
        fun hl hn hs => by rw [windowEnter_spills rfl hl hn hs, Eff.finish_done]⟩
    case wleave =>
      rw [exec_wleave_issued h hi]
      exact ⟨fun hl => by rw [windowLeave_underflow rfl hl, Eff.finish_trap],
        fun f rest hl hlo => by rw [windowLeave_resident rfl hl hlo, Eff.finish_done],
        fun f rest hl hlo => by rw [windowLeave_fills rfl hl hlo, Eff.finish_done]⟩

end Sys2Proof.Machine
end

section
/-! Pigeonholes and token queues (04 R73-R76, 12 R223-R226). -/

namespace Sys2Proof.Machine

section
variable {o : LF} {s : State} {i : Instr} {n : Nat} {w : Who}

/-! ### Instructions that issue -/

theorem exec_phcfg_issued (hi : s.issues w o (shapePhcfg o) {}) : exec (.phcfg o) s = (holeConfig o s).finish 8 := by
  rw [exec, execPhcfg]
  exact issue_ok hi

theorem exec_phtake_issued (h : spells .phtake .phtakeShort shortLong o i n) (hi : s.issues w o (shapePhtake o) {}) :
    exec i s = (holeTake o w s).finish n :=
  (exec_of_spells (run := runPhtake) (fun _ _ => rfl) (fun _ _ _ _ => rfl) h s).trans (issue_ok hi)

theorem exec_phres_issued (h : spells .phres .phresShort shortLong o i n) (hi : s.issues w o (shapePhres o) {}) :
    exec i s = (holeReserve o w s).finish n :=
  (exec_of_spells (run := runPhres) (fun _ _ => rfl) (fun _ _ _ _ => rfl) h s).trans (issue_ok hi)

theorem exec_phpost_issued (h : spells .phpost .phpostShort shortLong o i n) (hi : s.issues w o (shapePhpost o) {}) :
    exec i s = (holePost o s).finish n :=
  (exec_of_spells (run := runPhpost) (fun _ _ => rfl) (fun _ _ _ _ => rfl) h s).trans (issue_ok hi)

theorem exec_phgive_issued (h : spells .phgive .phgiveShort shortLong o i n) (hi : s.issues w o (shapePhgive o) {}) :
    exec i s = (holeGive o w s).finish n :=
  (exec_of_spells (run := runPhgive) (fun _ _ => rfl) (fun _ _ _ _ => rfl) h s).trans (issue_ok hi)

theorem exec_phstat_issued (h : spells .phstat .phstatShort shortLong o i n) (hi : s.issues w o (shapePhstat o) {}) :
    exec i s = (holeStat o s).finish n :=
  (exec_of_spells (run := runPhstat) (fun _ _ => rfl) (fun _ _ _ _ => rfl) h s).trans (issue_ok hi)

theorem exec_tqput_issued (h : spells .tqput .tqputShort shortLong o i n)
    (hi : s.issues w o (shapeTqput o) { route := some (o.b.toNat, true) }) : exec i s = (queuePut o s).finish n :=
  (exec_of_spells (run := runTqput) (fun _ _ => rfl) (fun _ _ _ _ => rfl) h s).trans (issue_ok hi)

theorem exec_tqget_issued
    (h : spells .tqget .tqgetShort shortLong o i n ∨ spells .tqget .tqgetPkShort (fun rd rs1 rs2 => shortLF rd rs1 rs2 1) o i n)
    (hi : s.issues w o (shapeTqget o) { route := some (o.b.toNat, false) }) : exec i s = (queueGet o s).finish n := by
  have hrun : exec i s = runTqget i n o s := by
    cases h with
    | inl h => exact exec_of_spells (fun _ _ => rfl) (fun _ _ _ _ => rfl) h s
    | inr h => exact exec_of_spells (fun _ _ => rfl) (fun _ _ _ _ => rfl) h s
  exact hrun.trans (issue_ok hi)

end

/-! ### Configuration (04 R74) -/

/-- A pigeonhole that `phcfg` may configure or empty: not configured, or with every slot free and no operation that names it (12 R225). -/
def State.holeQuiet (s : State) (k : Nat) : Prop :=
  (s.cur.team.hole k).en = false ∨ ((s.cur.team.hole k).free = (s.cur.team.hole k).count ∧ s.holeBusy k = false)

theorem State.holeQuiet_iff (s : State) (k : Nat) :
    (!(s.cur.team.hole k).en || ((s.cur.team.hole k).free == (s.cur.team.hole k).count && !s.holeBusy k)) = true ↔ s.holeQuiet k := by
  simp only [State.holeQuiet, Bool.or_eq_true, Bool.and_eq_true, Bool.not_eq_true', beq_iff_eq]

section
variable {o : LF} {s : State}

theorem holeConfig_empties (hq : s.holeQuiet o.b.toNat) (he : (s.x (fieldReg o.a)).extractLsb' 32 16 = 0) :
    holeConfig o s = .done (s.setHole o.b.toNat blankHole) :=
  (if_pos he).trans (if_pos ((s.holeQuiet_iff _).mpr hq))

theorem holeConfig_configures (hq : s.holeQuiet o.b.toNat) (he : (s.x (fieldReg o.a)).extractLsb' 32 16 ≠ 0)
    (hok : s.holeOk (holeOf (s.x (fieldReg o.a))) o.b.toNat = true) :
    holeConfig o s = .done (s.setHole o.b.toNat (holeOf (s.x (fieldReg o.a)))) :=
  (if_neg he).trans (if_pos (Bool.and_eq_true_iff.mpr ⟨(s.holeQuiet_iff _).mpr hq, hok⟩))

theorem holeConfig_refused (h : ¬ s.holeQuiet o.b.toNat ∨
      ((s.x (fieldReg o.a)).extractLsb' 32 16 ≠ 0 ∧ s.holeOk (holeOf (s.x (fieldReg o.a))) o.b.toNat = false)) :
    holeConfig o s = .trap (trapOf .phState) s := by
  by_cases he : (s.x (fieldReg o.a)).extractLsb' 32 16 = 0
  · have hq : ¬ s.holeQuiet o.b.toNat := h.resolve_right fun hr => hr.1 he
    exact (if_pos he).trans (if_neg (mt (s.holeQuiet_iff _).mp hq))
  · refine (if_neg he).trans (if_neg fun hb => ?_)
    obtain ⟨hq, hok⟩ := Bool.and_eq_true_iff.mp hb
    cases h with
    | inl h => exact h ((s.holeQuiet_iff _).mp hq)
    | inr h => exact Bool.noConfusion (hok.symm.trans h.2)

/-! ### Operations on a configured ring (04 R75) -/

variable {p : Hole} (hp : s.cur.team.hole o.b.toNat = p)

section
include hp

theorem withHole_unconfigured (he : p.en = false) (f : Hole → Eff) : withHole o s f = .trap (trapOf .phState) s := by
  subst hp
  exact if_neg (Bool.eq_false_iff.mp he)

theorem withHole_configured (he : p.en = true) (f : Hole → Eff) : withHole o s f = f p := by
  subst hp
  exact if_pos he

end

variable {w : Who}

/-- A wait that some member, copy or query can still end. -/
theorem State.holeWait_waits {k : Nat} (h : (w.others.all fun v => (s.member v).ended) = false ∨ s.holeBusy k = true) (x : Wait) :
    s.holeWait w k x = .stay x s := by
  refine if_neg fun hb => ?_
  obtain ⟨ha, hk⟩ := Bool.and_eq_true_iff.mp hb
  cases h with
  | inl h => exact Bool.noConfusion (ha.symm.trans h)
  | inr h => rw [h] at hk; exact Bool.noConfusion hk

/-- A wait that nothing can end any more (13 R253). -/
theorem State.holeWait_ended {k : Nat} (ha : (w.others.all fun v => (s.member v).ended) = true) (hb : s.holeBusy k = false) (x : Wait) :
    s.holeWait w k x = .trap (trapOf .teamEnded) s :=
  if_pos (by rw [ha, hb]; rfl)

section
variable (he : p.en = true)
include hp he

theorem holeTake_filled (h : p.filled ≠ 0) :
    holeTake o w s = .done ((s.setHole o.b.toNat p.take).setX (fieldReg o.d) (BitVec.ofNat 64 (p.slotAddr p.head))) := by
  simp only [holeTake, withHole_configured hp he, if_neg h]

theorem holeTake_empty (h : p.filled = 0) : holeTake o w s = s.holeWait w o.b.toNat (.phtake o.b.toNat) := by
  simp only [holeTake, withHole_configured hp he, if_pos h]

theorem holeReserve_free (h : p.free ≠ 0) :
    holeReserve o w s =
      .done ((s.setHole o.b.toNat (p.reserve false none)).setX (fieldReg o.d) (BitVec.ofNat 64 (p.slotAddr p.tail))) := by
  simp only [holeReserve, withHole_configured hp he, if_neg h]

theorem holeReserve_full (h : p.free = 0) : holeReserve o w s = s.holeWait w o.b.toNat (.phres o.b.toNat) := by
  simp only [holeReserve, withHole_configured hp he, if_pos h]

theorem holePost_reserved {rs : List HoleSlot} (h : postFirst p.resv = some rs) :
    holePost o s = .done (s.setHole o.b.toNat ({ p with resv := rs } : Hole).settled) := by
  simp only [holePost, withHole_configured hp he, h]

theorem holePost_none (h : postFirst p.resv = none) : holePost o s = .trap (trapOf .phState) s := by
  simp only [holePost, withHole_configured hp he, h]

theorem holeGive_none (h : p.taken = 0) : holeGive o w s = .trap (trapOf .phState) s := by
  simp only [holeGive, withHole_configured hp he, if_pos h]

/-- The oldest taken slot is freed, unless a copy of the member still reads it (12 R224). -/
theorem holeGive_taken (h : p.taken ≠ 0) : holeGive o w s =
    if ((s.ownCopies w).any fun c => c.todo.any fun m => unreadLocal m (p.slotAddr p.oldest) (64 * p.slotsz)) = true
    then .stay .hazard s else .done (s.setHole o.b.toNat p.give) := by
  simp only [holeGive, withHole_configured hp he, if_neg h]

end

/-! ### Token queues (04 R76) -/

theorem queuePut_room (h : (s.cur.team.tq.get (queueNum o.b)).length < 16) :
    queuePut o s = .done (s.setQueue (queueNum o.b) (s.cur.team.tq.get (queueNum o.b) ++ [s.x (fieldReg o.a)])) :=
  if_pos h

theorem queuePut_ended (h : 16 ≤ (s.cur.team.tq.get (queueNum o.b)).length)
    (he : (s.member (queueEnds (queueNum o.b)).2).ended = true) : queuePut o s = .trap (trapOf .teamEnded) s :=
  (if_neg (Nat.not_lt.mpr h)).trans (if_pos he)

theorem queuePut_waits (h : 16 ≤ (s.cur.team.tq.get (queueNum o.b)).length)
    (he : (s.member (queueEnds (queueNum o.b)).2).ended = false) : queuePut o s = .stay (.tqput (queueNum o.b).val) s :=
  (if_neg (Nat.not_lt.mpr h)).trans (if_neg (Bool.eq_false_iff.mp he))

theorem queueGet_word {v : Word} {rest : List Word} (h : s.cur.team.tq.get (queueNum o.b) = v :: rest) :
    queueGet o s = .done ((if o.sub = 1 then s else s.setQueue (queueNum o.b) rest).setX (fieldReg o.d) v) := by
  simp only [queueGet, h]

theorem queueGet_ended (h : s.cur.team.tq.get (queueNum o.b) = [])
    (he : (s.member (queueEnds (queueNum o.b)).1).ended = true) : queueGet o s = .trap (trapOf .teamEnded) s := by
  simp only [queueGet, h, if_pos he]

theorem queueGet_waits (h : s.cur.team.tq.get (queueNum o.b) = [])
    (he : (s.member (queueEnds (queueNum o.b)).1).ended = false) : queueGet o s = .stay (.tqget (queueNum o.b).val) s := by
  simp only [queueGet, h, if_neg (Bool.eq_false_iff.mp he)]

end

/-- On a pigeonhole that is not configured, the operations with no wait of their own raise PH_STATE (12 R223). -/
theorem exec_hole_unconfigured {o : LF} {s : State} {w : Who} (h : (s.cur.team.hole o.b.toNat).en = false) :
    ∀ q ∈ ([(.phres o, shapePhres), (.phpost o, shapePhpost), (.phgive o, shapePhgive), (.phstat o, shapePhstat)] :
      List (Instr × (LF → Shape))), s.issues w o (q.2 o) {} → exec q.1 s = .next (s.trapped (trapOf .phState)) := by
  simp only [List.forall_mem_cons]
  exact ⟨fun hi => by rw [exec_phres_issued (spells_long ..) hi, holeReserve, withHole_unconfigured rfl h, Eff.finish_trap],
    fun hi => by rw [exec_phpost_issued (spells_long ..) hi, holePost, withHole_unconfigured rfl h, Eff.finish_trap],
    fun hi => by rw [exec_phgive_issued (spells_long ..) hi, holeGive, withHole_unconfigured rfl h, Eff.finish_trap],
    fun hi => by rw [exec_phstat_issued (spells_long ..) hi, holeStat, withHole_unconfigured rfl h, Eff.finish_trap],
    fun _ hq => nomatch hq⟩

/-- Settles O46: each instruction ends as its operation on the ring or the queue does. -/
theorem holesAndQueues : Obligations.HolesAndQueues := by
  constructor
  · intro o w s i n h p e addr quiet
    refine ⟨fun hi hq => ?config, fun hi hq => ?refused, fun he => exec_hole_unconfigured he, fun hs hi => ?take,
      fun hs hi he => ?reserve, fun hs hi he => ?post, fun hs hi he => ?give, fun hs hi he => ?stat⟩
    case config =>
      rw [exec_phcfg_issued hi]
      exact ⟨fun hz => by rw [holeConfig_empties hq hz, Eff.finish_done],
        fun hz hok => by rw [holeConfig_configures hq hz hok, Eff.finish_done]⟩
    case refused => rw [exec_phcfg_issued hi, holeConfig_refused hq, Eff.finish_trap]
    case take =>
      rw [exec_phtake_issued hs hi]
      exact ⟨fun he => by rw [holeTake, withHole_unconfigured rfl he, Eff.finish_trap],
        fun he hf => by rw [holeTake_filled rfl he hf, Eff.finish_done, Hole.slotAddr],
        fun he hf hw => by rw [holeTake_empty rfl he hf, State.holeWait_waits hw, Eff.finish_stay],
        fun he hf ha hb => by rw [holeTake_empty rfl he hf, State.holeWait_ended ha hb, Eff.finish_trap]⟩
    case reserve =>
      rw [exec_phres_issued hs hi]
      exact ⟨fun hf => by rw [holeReserve_free rfl he hf, Eff.finish_done, Hole.slotAddr],
        fun hf hw => by rw [holeReserve_full rfl he hf, State.holeWait_waits hw, Eff.finish_stay],
        fun hf ha hb => by rw [holeReserve_full rfl he hf, State.holeWait_ended ha hb, Eff.finish_trap]⟩
    case post =>
      rw [exec_phpost_issued hs hi]
      exact ⟨fun rs hr => by rw [holePost_reserved rfl he hr, Eff.finish_done],
        fun hr => by rw [holePost_none rfl he hr, Eff.finish_trap]⟩
    case give =>
      rw [exec_phgive_issued hs hi]
      exact ⟨fun ht => by rw [holeGive_none rfl he ht, Eff.finish_trap],
        fun ht hr => by rw [holeGive_taken rfl he ht, if_neg (Bool.eq_false_iff.mp hr), Eff.finish_done],
        fun ht hr => by rw [holeGive_taken rfl he ht, if_pos hr, Eff.finish_stay]⟩
    case stat => rw [exec_phstat_issued hs hi, holeStat, withHole_configured rfl he, Eff.finish_done]
  · intro o w s i n q ws
    refine ⟨fun hs hi => ?put, fun hs hi => ?get⟩
    case put =>
      rw [exec_tqput_issued hs hi]
      exact ⟨fun hl => by rw [queuePut_room hl, Eff.finish_done],
        fun hl he => by rw [queuePut_ended hl he, Eff.finish_trap],
        fun hl he => by rw [queuePut_waits hl he, Eff.finish_stay]⟩
    case get =>
      rw [exec_tqget_issued hs hi]
      exact ⟨fun v rest hl => ⟨fun hsub => by rw [queueGet_word hl, if_pos hsub, Eff.finish_done],
          fun hsub => by rw [queueGet_word hl, if_neg hsub, Eff.finish_done]⟩,
        fun hl he => by rw [queueGet_ended hl he, Eff.finish_trap],
        fun hl he => by rw [queueGet_waits hl he, Eff.finish_stay]⟩

end Sys2Proof.Machine
end

section
/-! The canonical form of the memories, as the operations of the state keep it. -/

namespace Sys2Proof.Machine

-- The default arguments of `State.Canonical.same` and its kin are evaluated where they are used, which waits for every proof begun
-- before: with the proofs taken in turn no thread has to wait.
set_option Elab.async false

/-- Package memory and the cluster scratchpads are in canonical form and, where `q` holds, so is what every task holds. The two cases of `q`
are the two invariants of O7, which every operation keeps for the same reason. -/
def State.Canonical (q : Prop) (s : State) : Prop :=
  Memory.wf s.mem = true ∧ Memory.wf s.clus = true ∧ (q → ∀ t ∈ s.allTasks, t.filesOk = true)

/-- The state in which an instruction's effect ends. -/
def Eff.state (e : Eff) : State :=
  match e with
  | .done s => s
  | .doneWith s _ _ => s
  | .jump s _ => s
  | .stay _ s => s
  | .drain s => s
  | .trap _ s => s
  | .ends s => s

/-- The state that a translation leaves, whether it succeeds or misses. -/
def stateAfter {α : Type} (r : Except Miss (State × α)) : State :=
  match r with
  | .ok x => x.1
  | .error m => m.state

/-- An outcome that is a next state is one in canonical form. -/
def endsCanonical (q : Prop) (x : Host.Outcome State Fault Refusal) : Prop := ∀ t, x = .next t → t.Canonical q

variable {q : Prop} {s u : State}

theorem canonical_false : s.Canonical False ↔ s.MemoryOk := by
  simp [State.Canonical, State.MemoryOk]

theorem canonical_true : s.Canonical True ↔ s.memoriesOk = true := by
  simp [State.Canonical, memoriesOk_iff]

/-! ### One part replaced -/

/-- A team with the scratchpad, the vector file and the spill area of another. -/
theorem Team.filesOk_congr {t u : Team} (h : t.filesOk = true) (hs : u.scratch = t.scratch := by rfl) (hf : u.vfile = t.vfile := by rfl)
    (hp : u.spilled = t.spilled := by rfl) : u.filesOk = true := by
  rwa [Team.filesOk, hs, hf, hp]

/-- A task with the team and the checkpoint of another. -/
theorem Task.filesOk_congr {t u : Task} (h : t.filesOk = true) (ht : u.team = t.team := by rfl) (hk : u.ckpt = t.ckpt := by rfl) :
    u.filesOk = true := by
  rwa [Task.filesOk, ht, hk]

/-- A task with another team whose files are in form. -/
theorem Task.filesOk_withTeam {t u : Task} (h : t.filesOk = true)
    (ht : t.team.filesOk = true → u.team.filesOk = true := by exact fun ht => Team.filesOk_congr ht) (hk : u.ckpt = t.ckpt := by rfl) :
    u.filesOk = true := by
  rw [Task.filesOk, Bool.and_eq_true] at h ⊢
  exact ⟨ht h.1, hk ▸ h.2⟩

/-- A task whose team is blank and that has no checkpoint holds nothing. -/
theorem Task.filesOk_blank {t : Task} (ht : t.team = blankTeam := by rfl) (hk : t.ckpt = none := by rfl) : t.filesOk = true := by
  rw [Task.filesOk, ht, hk]
  rfl

namespace State.Canonical

/-- What the focused task holds. -/
theorem cur_files (h : s.Canonical q) (hq : q) : s.cur.filesOk = true := h.2.2 hq _ (List.mem_cons_self ..)

/-- What the focused team holds. -/
theorem team_files (h : s.Canonical q) (hq : q) : s.cur.team.filesOk = true := by
  have := h.cur_files hq
  rw [Task.filesOk, Bool.and_eq_true] at this
  exact this.1

/-- What the focused task's checkpoint holds. -/
theorem ckpt_files (h : s.Canonical q) {t : Team} (e : s.cur.ckpt = some t) (hq : q) : t.filesOk = true := by
  have := h.cur_files hq
  rw [Task.filesOk, Bool.and_eq_true, e] at this
  exact this.2

/-- Another state with the same memories and tasks. -/
theorem same (h : s.Canonical q) (hm : u.mem = s.mem := by rfl) (hc : u.clus = s.clus := by rfl) (ht : u.allTasks = s.allTasks := by rfl) :
    u.Canonical q := by
  rwa [State.Canonical, hm, hc, ht]

/-- Another package memory. -/
theorem withMem (h : s.Canonical q) (hm : Memory.wf u.mem = true) (hc : u.clus = s.clus := by rfl)
    (ht : u.allTasks = s.allTasks := by rfl) : u.Canonical q := by
  rw [State.Canonical, hc, ht]
  exact ⟨hm, h.2⟩

/-- Other cluster scratchpads. -/
theorem withClus (h : s.Canonical q) (hc : Memory.wf u.clus = true) (hm : u.mem = s.mem := by rfl)
    (ht : u.allTasks = s.allTasks := by rfl) : u.Canonical q := by
  rw [State.Canonical, hm, ht]
  exact ⟨h.1, hc, h.2.2⟩

/-- Another focused task. -/
theorem newCur (h : s.Canonical q) (hv : q → u.cur.filesOk = true) (hm : u.mem = s.mem := by rfl) (hc : u.clus = s.clus := by rfl)
    (ht : u.tasks = s.tasks := by rfl) : u.Canonical q := by
  rw [State.Canonical, State.allTasks, hm, hc, ht]
  exact ⟨h.1, h.2.1, fun hq => List.forall_mem_cons.mpr ⟨hv hq, (List.forall_mem_cons.mp (h.2.2 hq)).2⟩⟩

/-- The focused task changed, with its own memories still in form. -/
theorem withCur (h : s.Canonical q) (hv : s.cur.filesOk = true → u.cur.filesOk = true := by exact fun hc => Task.filesOk_congr hc)
    (hm : u.mem = s.mem := by rfl) (hc : u.clus = s.clus := by rfl) (ht : u.tasks = s.tasks := by rfl) : u.Canonical q :=
  h.newCur (fun hq => hv (h.cur_files hq)) hm hc ht

/-- Only the focused task changed. -/
theorem setCur (h : s.Canonical q) {v : Task} (hv : s.cur.filesOk = true → v.filesOk = true := by exact fun hc => Task.filesOk_congr hc) :
    ({ s with cur := v } : State).Canonical q := h.withCur hv

/-- The focused team replaced. -/
theorem setTeam (h : s.Canonical q) {t : Team}
    (ht : s.cur.team.filesOk = true → t.filesOk = true := by exact fun ht => Team.filesOk_congr ht) : (s.setTeam t).Canonical q :=
  h.withCur fun hc => Task.filesOk_withTeam hc ht

/-- The focused team replaced by one whose files are known to be in form. -/
theorem newTeam (h : s.Canonical q) {t : Team} (ht : q → t.filesOk = true) : (s.setTeam t).Canonical q :=
  h.newCur fun hq => by
    have hc := h.cur_files hq
    rw [Task.filesOk, Bool.and_eq_true] at hc ⊢
    exact ⟨ht hq, hc.2⟩

/-- An instruction that completes. -/
theorem done (h : s.Canonical q) : (Eff.done s).state.Canonical q := h

/-- Another reply to a host. -/
theorem withReply (h : s.Canonical q) {r : List Word} : ({ s with reply := r } : State).Canonical q := h

/-! ### Control -/

theorem ite {c : Prop} {_ : Decidable c} (h : s.Canonical q) (h' : u.Canonical q) : (if c then s else u).Canonical q := by
  split <;> assumption

theorem dite {c : Prop} {_ : Decidable c} {f : c → State} {g : ¬c → State} (hf : ∀ e, (f e).Canonical q) (hg : ∀ e, (g e).Canonical q) :
    (if e : c then f e else g e).Canonical q := by
  split
  · exact hf _
  · exact hg _

theorem ite_fst {α : Type} {c : Prop} {_ : Decidable c} {x y : State × α} (h : x.1.Canonical q) (h' : y.1.Canonical q) :
    (if c then x else y).1.Canonical q := by
  split <;> assumption

theorem ite_state {c : Prop} {_ : Decidable c} {x y : Eff} (h : x.state.Canonical q) (h' : y.state.Canonical q) :
    (if c then x else y).state.Canonical q := by
  split <;> assumption

theorem foldl {α : Type} {f : State → α → State} {as : List α} (h : s.Canonical q) (hf : ∀ u a, u.Canonical q → (f u a).Canonical q) :
    (as.foldl f s).Canonical q := List.foldlRecOn as f h fun u hu a _ => hf u a hu

theorem foldl_fst {α β : Type} {f : State × β → α → State × β} {x : State × β} {as : List α} (h : x.1.Canonical q)
    (hf : ∀ u a, u.1.Canonical q → (f u a).1.Canonical q) : (as.foldl f x).1.Canonical q :=
  List.foldlRecOn (motive := fun x : State × β => x.1.Canonical q) as f h fun u hu a _ => hf u a hu

theorem fst {α : Type} {x : State × α} {a : α} (h : x.1.Canonical q) (e : x = (u, a)) : u.Canonical q := by rwa [e] at h

theorem ok {α : Type} {r : Except Miss (State × α)} {a : α} (h : (stateAfter r).Canonical q) (e : r = .ok (u, a)) : u.Canonical q := by
  rwa [e] at h

theorem error {α : Type} {r : Except Miss (State × α)} {m : Miss} (h : (stateAfter r).Canonical q) (e : r = .error m) :
    m.state.Canonical q := by rwa [e] at h

end State.Canonical

end Sys2Proof.Machine
end

section
/-! The same of teams, and of the operations of the state that most others are made of. -/

namespace Sys2Proof.Machine

set_option Elab.async false

variable {q : Prop} {s u : State}

/-! ### Teams (04 R61, R66, R77) -/

theorem Team.Landed.scratch_eq {t u : Team} (h : t.Landed u) : u.scratch = t.scratch := by
  obtain ⟨_, _, _, _, _, _, _, _, _, rfl⟩ := h
  rfl

theorem vectorsOk_landOne {t : Team} (h : t.vectorsOk) (e : Landing) : (t.landOne e).vectorsOk := by
  unfold Team.landOne
  dsimp only
  split
  · exact vectorsOk_landWrites _ h
  · split <;> exact vectorsOk_landWrites _ h

theorem filesOk_landOne {t : Team} (h : t.filesOk = true) (e : Landing) : (t.landOne e).filesOk = true := by
  obtain ⟨hs, hv⟩ := (filesOk_iff t).mp h
  exact (filesOk_iff _).mpr ⟨(t.landOne_landed e).scratch_eq ▸ hs, vectorsOk_landOne hv e⟩

theorem filesOk_landDue {t : Team} (h : t.filesOk = true) : t.landDue.filesOk = true :=
  List.foldlRecOn (motive := fun u : Team => u.filesOk = true) _ _ h fun _ hu e _ => filesOk_landOne hu e

theorem filesOk_tick {t : Team} (h : t.filesOk = true) : t.tick.filesOk = true := filesOk_landDue (t := t.age) h

theorem filesOk_backEdge {t : Team} (h : t.filesOk = true) {k pc : Nat} : (t.backEdge k pc).1.filesOk = true := by
  obtain ⟨_, _, e⟩ := t.backEdge_eq k pc
  rw [e]
  exact h

theorem filesOk_restored {t : Team} (h : t.filesOk = true) {n : Nat} : (t.restored n).filesOk = true := by
  obtain ⟨hs, hv⟩ := (filesOk_iff t).mp h
  exact (filesOk_iff _).mpr ⟨hs, vectorsOk_restored hv n⟩

theorem filesOk_setMember {t : Team} (h : t.filesOk = true) {w : Who} {m : Member} : (t.setMember w m).filesOk = true := by
  cases w <;> exact h

theorem filesOk_setHole {t : Team} (h : t.filesOk = true) {n : Nat} {p : Hole} : (t.setHole n p).filesOk = true := by
  unfold Team.setHole
  split <;> exact h

theorem filesOk_spillTo {t : Team} (h : t.filesOk = true) {lo : Nat} : (t.spillTo lo).filesOk = true := by
  obtain ⟨hs, hf, hp⟩ := (filesOk_iff t).mp h
  exact (filesOk_iff _).mpr ⟨hs, hf, Sparse.wf_setAll hp _⟩

/-- Registers moved back into the file; the spill area itself is untouched. -/
theorem filesOk_fileSets {t : Team} (h : t.filesOk = true) (f : Nat → V256) (regs : List Nat) :
    (regs.foldl (fun (u : Team) a => u.fileSet (physReg a) (f a)) t).filesOk = true :=
  List.foldlRecOn (motive := fun u : Team => u.filesOk = true) _ _ h fun u hu _ _ => by
    obtain ⟨hs, hv⟩ := (filesOk_iff u).mp hu
    exact (filesOk_iff _).mpr ⟨hs, vectorsOk_fileSet hv _ _⟩

theorem filesOk_fillTo {t : Team} (h : t.filesOk = true) {lo : Nat} : (t.fillTo lo).filesOk = true := by
  obtain ⟨hs, hf, _⟩ := (filesOk_iff _).mp (filesOk_fileSets h (Sparse.get 0 t.spilled) ((List.range (t.lo - lo)).map fun k => lo + k))
  obtain ⟨_, _, hp⟩ := (filesOk_iff t).mp h
  exact (filesOk_iff _).mpr ⟨hs, hf, Sparse.wf_clear hp _ _⟩

theorem filesOk_popTo {t : Team} (h : t.filesOk = true) {n : Fin 4} {ls : List (Fin 4)} : (t.popTo n ls).filesOk = true := by
  induction ls generalizing t with
  | nil => exact h
  | cons k rest ih =>
    unfold Team.popTo
    dsimp only
    split
    · exact h
    · exact ih h

theorem filesOk_drawn {t : Team} (h : t.filesOk = true) {mode n : Nat} : (t.drawn mode n).2.filesOk = true := by
  unfold Team.drawn
  split <;> exact h

theorem filesOk_writeCsr {t : Team} (h : t.filesOk = true) {k : CsrOp} {n : Nat} {src : Word} : (t.writeCsr k n src).filesOk = true := by
  unfold Team.writeCsr
  split
  · exact h
  · split
    · exact h
    · split <;> exact h

namespace State.Canonical

theorem setMember (h : s.Canonical q) {w : Who} {m : Member} : (s.setMember w m).Canonical q := h.setTeam fun ht => filesOk_setMember ht

theorem setHart (h : s.Canonical q) {i : Fin 16} {v : Hart} : (s.setHart i v).Canonical q := h

theorem setX (h : s.Canonical q) {r : Reg} {a : Word} : (s.setX r a).Canonical q := by
  unfold State.setX
  split
  · exact h.setMember
  · exact h

/-- A task of a known identity. -/
theorem task_files (h : s.Canonical q) {id : Nat} {t : Task} (e : s.task? id = some t) (hq : q) : t.filesOk = true := by
  unfold State.task? at e
  split at e
  · injection e with e
    exact e ▸ h.cur_files hq
  · exact h.2.2 hq t (List.mem_cons_of_mem _ (List.mem_of_find?_eq_some e))

/-- A task replaced by its identity. -/
theorem setTask (h : s.Canonical q) {t : Task} (ht : q → t.filesOk = true) : (s.setTask t).Canonical q := by
  unfold State.setTask
  split
  · exact h.newCur ht
  · refine ⟨h.1, h.2.1, fun hq => List.forall_mem_cons.mpr ⟨h.cur_files hq, fun v hv => ?_⟩⟩
    obtain ⟨v', hv', rfl⟩ := List.mem_map.mp hv
    split
    · exact ht hq
    · exact h.2.2 hq v' (List.mem_cons_of_mem _ hv')

/-- Every other task replaced by one whose memories keep their form. -/
theorem mapTasks (h : s.Canonical q) {f : Task → Task} (hf : ∀ t, t.filesOk = true → (f t).filesOk = true) :
    ({ s with tasks := s.tasks.map f } : State).Canonical q := by
  refine ⟨h.1, h.2.1, fun hq => List.forall_mem_cons.mpr ⟨h.cur_files hq, fun v hv => ?_⟩⟩
  obtain ⟨v', hv', rfl⟩ := List.mem_map.mp hv
  exact hf v' (h.2.2 hq v' (List.mem_cons_of_mem _ hv'))

theorem focusTask (h : s.Canonical q) {id : Nat} : (s.focusTask id).Canonical q := by
  unfold State.focusTask
  split
  · exact h
  · split
    · next t e =>
      refine ⟨h.1, h.2.1, fun hq => List.forall_mem_cons.mpr ⟨h.2.2 hq t (List.mem_cons_of_mem _ (List.mem_of_find?_eq_some e)), ?_⟩⟩
      refine List.forall_mem_cons.mpr ⟨h.cur_files hq, fun v hv => ?_⟩
      exact h.2.2 hq v (List.mem_cons_of_mem _ (List.mem_filter.mp hv).1)
    · exact h

theorem withTask (h : s.Canonical q) {id : Nat} {f : State → State} (hf : ∀ u, u.Canonical q → (f u).Canonical q) :
    (s.withTask id f).Canonical q := by
  unfold State.withTask
  split
  · exact h
  · exact (hf _ h.focusTask).focusTask

theorem addTask (h : s.Canonical q) {t : Task} (ht : q → t.filesOk = true) : (s.addTask t).Canonical q := by
  refine ⟨h.1, h.2.1, fun hq => List.forall_mem_cons.mpr ⟨h.cur_files hq, fun v hv => ?_⟩⟩
  rcases List.mem_append.mp hv with hv | hv
  · exact h.2.2 hq v (List.mem_cons_of_mem _ hv)
  · rw [List.mem_singleton.mp hv]
    exact ht hq

theorem setPm (h : s.Canonical q) {c d k : Nat} {p : Postmark} : (s.setPm c d k p).Canonical q := h

theorem tickTeam (h : s.Canonical q) {t : Team} (ht : s.cur.team.filesOk = true → t.filesOk = true := by exact fun ht => Team.filesOk_congr ht) :
    (s.tickTeam t).Canonical q := by
  obtain ⟨_, e⟩ := s.tickTeam_eq t
  rw [e]
  exact h.setTeam fun hs => filesOk_tick (ht hs)

theorem retireMember (h : s.Canonical q) {w : Who} {pc : Nat} : (s.retireMember w pc).Canonical q := by
  cases w with
  | seq => exact h.tickTeam fun ht => filesOk_backEdge ht
  | ld => exact h.setMember
  | st => exact h.setMember

theorem retire (h : s.Canonical q) {pc : Word} : (s.retire pc).Canonical q := by
  unfold State.retire
  split
  · exact h.retireMember.withCur
  · exact h

theorem drainCycle (h : s.Canonical q) : s.drainCycle.Canonical q := h.tickTeam

/-! ### Local space (04 R68) -/

theorem logItem (h : s.Canonical q) {e : LogEntry} : (s.logItem e).Canonical q := h.withCur

theorem setLocalByte (h : s.Canonical q) {a : Nat} {b : Byte} : (s.setLocalByte a b).Canonical q := by
  unfold State.setLocalByte
  split
  · refine h.setTeam fun ht => ?_
    obtain ⟨hs, hv⟩ := (filesOk_iff _).mp ht
    exact (filesOk_iff _).mpr ⟨Sparse.wf_set hs _ _, hv⟩
  · exact h.logItem.withClus (Sparse.wf_set h.2.1 _ _)

theorem setLocalBytes (h : s.Canonical q) {a : Nat} {bs : List Byte} : (s.setLocalBytes a bs).Canonical q := by
  induction bs generalizing s a with
  | nil => exact h
  | cons b _ ih => exact ih h.setLocalByte

end State.Canonical
end Sys2Proof.Machine
end

section
/-! The operations of the state, in the order of the model: registers, memory, engines, keys and the ends of tasks. -/

namespace Sys2Proof.Machine.State.Canonical

set_option Elab.async false

variable {q : Prop} {s u : State}

/-! ### Registers, waits and landings (04) -/

theorem drawPm (h : s.Canonical q) {cid vdie cls : Nat} : (s.drawPm cid vdie cls).1.Canonical q := h.setPm

theorem completePm (h : s.Canonical q) {cid vdie cls n : Nat} : (s.completePm cid vdie cls n).Canonical q := h.setPm

theorem setPart (h : s.Canonical q) {p : Nat} {v : Part} : (s.setPart p v).Canonical q := by
  unfold State.setPart
  split <;> exact h

theorem adoptSize (h : s.Canonical q) {part c : Nat} : (s.adoptSize part c).Canonical q := h.same.ite h

theorem rebuild (h : s.Canonical q) {a n : Nat} : (s.rebuild a n).Canonical q := h.ite h

/-! ### Memory, caches and translation (05, 19, 22) -/

theorem setCtx (h : s.Canonical q) {c : Context} : (s.setCtx c).Canonical q := h

theorem setDie (h : s.Canonical q) {n : Nat} {d : Die} : (s.setDie n d).Canonical q := by
  unfold State.setDie
  split <;> exact h

theorem setMdie (h : s.Canonical q) {n : Nat} {d : Stack} : (s.setMdie n d).Canonical q := by
  unfold State.setMdie
  split <;> exact h

theorem setLink (h : s.Canonical q) {n : Nat} {l : Link} : (s.setLink n l).Canonical q := by
  unfold State.setLink
  split <;> exact h

theorem setPort (h : s.Canonical q) {n : Nat} {p : Port} : (s.setPort n p).Canonical q := by
  unfold State.setPort
  split <;> exact h

theorem burstTaken (h : s.Canonical q) {part src dst : Nat} : (s.burstTaken part src dst).Canonical q := h.setPart.ite h

theorem carried (h : s.Canonical q) {t : Txn} : (s.carried t).Canonical q := h.ite h.burstTaken

theorem crossPort (h : s.Canonical q) {part pkg : Nat} : (s.crossPort part pkg).Canonical q := h.setPort

theorem setBlock (h : s.Canonical q) {pa : Nat} {b : Block} : (s.setBlock pa b).Canonical q := h

theorem setKeySlot (h : s.Canonical q) {n : Nat} {k : KeySlot} : (s.setKeySlot n k).Canonical q := by
  unfold State.setKeySlot
  split <;> exact h

theorem bump (h : s.Canonical q) {pa : Nat} : (s.bump pa).Canonical q := h

theorem heal (h : s.Canonical q) {pa : Nat} : (s.heal pa).Canonical q := h

theorem healBlock (h : s.Canonical q) {pa : Nat} : (s.healBlock pa).Canonical q := h

theorem reencrypt (h : s.Canonical q) {cid slot pa : Nat} : (s.reencrypt cid slot pa).1.Canonical q := by
  have hb : ((s.badLines cid slot pa).foldl (fun (u : State) a => { u with mem := Sparse.clear u.mem a 64 }) s).Canonical q :=
    h.foldl fun _ _ hu => hu.withMem (Sparse.wf_clear hu.1 _ _)
  exact hb.healBlock.setBlock

theorem breakResv (h : s.Canonical q) {a n : Nat} : (s.breakResv a n).Canonical q := h

theorem putLine (h : s.Canonical q) {pa : Nat} {data : BitVec 512} {mask : BitVec 64} : (s.putLine pa data mask).Canonical q :=
  h.withMem (putMasked_wf h.1 _ data mask)

theorem homeWrite (h : s.Canonical q) {cid slot : Nat} {nb : Bool} {pa : Nat} {data : BitVec 512} {mask : BitVec 64} :
    (s.homeWrite cid slot nb pa data mask).1.Canonical q := by
  unfold State.homeWrite
  dsimp only
  split
  · exact h
  · split
    · exact h
    · split
      · split
        · exact h
        · exact h.healBlock.setBlock.putLine
      · split
        · exact h
        · exact h
        · exact (h.reencrypt.ite_fst (h.heal.ite h)).setBlock.putLine

theorem markDead (h : s.Canonical q) {pa : Nat} : (s.markDead pa).Canonical q := h.withMem (Sparse.wf_clear h.1 _ _)

theorem fwWrite (h : s.Canonical q) {a : Nat} {bs : List Byte} : (s.fwWrite a bs).Canonical q := h.foldl fun _ _ hu => hu.homeWrite

theorem lineOut (h : s.Canonical q) {cid slot : Nat} {nb : Bool} {b : Word} {pa : Nat} {data : BitVec 512} {mask : BitVec 64} :
    (s.lineOut cid slot nb b pa data mask).1.Canonical q := h.homeWrite

theorem answerTxn (h : s.Canonical q) {t : Txn} {k : TxnKind} {len : Nat} : (s.answerTxn t k len).Canonical q := h

theorem readAt (h : s.Canonical q) {t : Txn} {size : Nat} : (s.readAt t size).state.Canonical q := h

theorem writeAt (h : s.Canonical q) {t : Txn} {data : BitVec 512} {mask : BitVec 64} : (s.writeAt t data mask).state.Canonical q :=
  h.lineOut (b := t.bref)

theorem atomicAt (h : s.Canonical q) {t : Txn} {op size : Nat} {operand : Word} : (s.atomicAt t op size operand).state.Canonical q := by
  unfold State.atomicAt
  dsimp only
  split
  · exact h
  · exact h.ite_fst (h.lineOut (b := t.bref))

theorem serve (h : s.Canonical q) {t : Txn} : (s.serve t).state.Canonical q := by
  unfold State.serve
  split
  · exact h.readAt
  · exact h.writeAt
  · exact h.atomicAt
  all_goals exact h

/-- A served transaction's answer is on its way. -/
theorem sent {x : Served} (h : x.state.Canonical q) {t : Txn} : (x.sent t).Canonical q := by
  unfold Served.sent
  split <;> exact h

theorem unlockOut (h : s.Canonical q) {pa : Nat} : (s.unlockOut pa).1.Canonical q := by
  unfold State.unlockOut
  dsimp only
  split
  · exact h.setBlock.foldl_fst fun _ _ hu => hu.serve.sent
  · exact h

theorem arriveOut (h : s.Canonical q) {p : Txn → Bool} : (s.arriveOut p).1.Canonical q := by
  unfold State.arriveOut
  refine h.foldl_fst fun _ t hu => ?_
  split
  · exact hu.unlockOut.carried.lineOut (b := t.bref)
  · exact hu

theorem settleOut (h : s.Canonical q) {pa : Nat} : (s.settleOut pa).1.Canonical q := h.unlockOut.arriveOut.unlockOut

theorem setPte (h : s.Canonical q) {a v : Nat} : (s.setPte a v).Canonical q := h.fwWrite

theorem notify (h : s.Canonical q) {p k cid : Nat} : (s.notify p k cid).Canonical q := h.setPart.ite h.setPart

theorem takeFrame (h : s.Canonical q) {stack part size f : Nat} (e : s.takeFrame stack part size = some (f, u)) : u.Canonical q := by
  unfold State.takeFrame at e
  dsimp only at e
  split at e
  · cases e
    exact h.setMdie.notify.ite h.setMdie
  · cases e

theorem backPage (h : s.Canonical q) {a : Acc} {d : Desc} {va entry size : Nat} (e : s.backPage a d va entry size = some u) :
    u.Canonical q := by
  unfold State.backPage at e
  dsimp only at e
  split at e
  · cases e
  · split at e
    · cases e
    · split at e
      · cases e
      next ef =>
        cases e
        exact .ite (((h.takeFrame ef).setPte.foldl fun _ _ hu => hu.markDead).foldl fun _ _ hu => hu.setPte)
          ((h.takeFrame ef).setPte.foldl fun _ _ hu => hu.markDead).setPte

theorem install (h : s.Canonical q) {a : Acc} {p : Page} {d : Bool} : (s.install a p d).Canonical q := by
  unfold State.install
  split <;> exact h

theorem useLeaf (h : s.Canonical q) {a : Acc} {va e size frame : Nat} {write : Bool} :
    (stateAfter (s.useLeaf a va e size frame write)).Canonical q := by
  unfold State.useLeaf
  dsimp only
  split
  · exact h
  · exact (h.ite h.setPte).install

theorem walkPage (h : s.Canonical q) {a : Acc} {d : Desc} {va : Nat} {write : Bool} : (stateAfter (s.walkPage a d va write)).Canonical q := by
  unfold State.walkPage
  split
  · exact h
  · split
    · exact h
    · exact h
    · exact h
    · exact h.useLeaf
    · split
      · exact h
      next e =>
        split
        · exact (h.backPage e).useLeaf
        · exact h.backPage e

theorem translate (h : s.Canonical q) {a : Acc} {d : Desc} {va : Nat} {write : Bool} : (stateAfter (s.translate a d va write)).Canonical q := by
  unfold State.translate
  dsimp only
  split
  · split <;> exact h
  · exact h.walkPage

theorem translateUnder (h : s.Canonical q) {d : Desc} {a : Acc} {b : Word} {n : Nat} {write : Bool} :
    (stateAfter (s.translateUnder d a b n write)).Canonical q := by
  unfold State.translateUnder
  refine List.foldlRecOn (motive := fun r => (stateAfter r).Canonical q) _ _ h fun r hr _ _ => ?_
  split
  · exact hr
  next v _ =>
    have hv : v.Canonical q := hr
    split
    next e => exact (hv.translate.error e :)
    next e => exact (hv.translate.ok e :)

theorem translatePages (h : s.Canonical q) {a : Acc} {b : Word} {n : Nat} {write : Bool} :
    (stateAfter (s.translatePages a b n write)).Canonical q := h.translateUnder

theorem devPut (h : s.Canonical q) {a : Acc} {b : Word} {bs : List Byte} : (s.devPut a b bs).1.Canonical q := by
  unfold State.devPut
  split
  · exact h
  · refine h.foldl_fst fun _ _ hu => ?_
    split
    next e => exact hu.translate.error e
    next e => exact (hu.translate.ok e).settleOut.lineOut (b := b)

theorem touchOut (h : s.Canonical q) {a : Acc} {b : Word} {n : Nat} : (s.touchOut a b n).1.Canonical q := by
  unfold State.touchOut
  split
  · exact h
  · split
    next e1 => exact h.translatePages.error e1
    next e2 =>
      refine (h.translatePages.ok e2).foldl_fst fun _ _ hu => ?_
      split
      · exact hu.settleOut
      · exact hu

theorem postCore (h : s.Canonical q) {cid k : Nat} {bs : List Byte} : (s.postCore cid k bs).1.Canonical q := by
  unfold State.postCore
  split
  · exact h
  · exact h.touchOut.devPut.devPut.notify.ite_fst h.touchOut.devPut

theorem postReport (h : s.Canonical q) {r : Report} : (s.postReport r).1.Canonical q := (h.setMdie.ite h).postCore

theorem reportAll (h : s.Canonical q) {fuel : Nat} {rs : List Report} : (State.reportAll fuel s rs).Canonical q := by
  induction fuel generalizing s rs with
  | zero => exact h
  | succ fuel ih =>
    unfold State.reportAll
    split
    · exact h
    · exact ih h.postReport

theorem reportErrors (h : s.Canonical q) {rs : List Report} : (s.reportErrors rs).Canonical q := h.ite h.reportAll

theorem postError (h : s.Canonical q) {kind cid error pmclass : Nat} {b : Word} {pmnum row pa : Nat} :
    (s.postError kind cid error pmclass b pmnum row pa).Canonical q := h.reportErrors

theorem ringPut (h : s.Canonical q) {ctl : Nat} {bs : List Byte} : (s.ringPut ctl bs).Canonical q := h.fwWrite.fwWrite

theorem ringLost (h : s.Canonical q) {ctl : Nat} : (s.ringLost ctl).Canonical q := h.fwWrite

theorem lineWrite (h : s.Canonical q) {cid slot : Nat} {nb : Bool} {b : Word} {pa : Nat} {data : BitVec 512} {mask : BitVec 64} :
    (s.lineWrite cid slot nb b pa data mask).Canonical q := h.lineOut.reportErrors

theorem performTxn (h : s.Canonical q) {t : Txn} : (s.performTxn t).Canonical q := h.serve.sent.reportErrors

theorem unlock (h : s.Canonical q) {pa : Nat} : (s.unlock pa).Canonical q := h.unlockOut.reportErrors

theorem settle (h : s.Canonical q) {pa : Nat} : (s.settle pa).Canonical q := h.settleOut.reportErrors

theorem settleWhere (h : s.Canonical q) {p : Txn → Bool} :
    (s.settleWhere p).Canonical q := (h.foldl fun _ _ hu => hu.unlock).arriveOut.reportErrors.foldl fun _ _ hu => hu.unlock

theorem cross (h : s.Canonical q) {cid src pa : Nat} :
    (s.cross cid src pa).Canonical q :=
  h.arriveOut.reportErrors.settle.burstTaken.burstTaken.crossPort.ite h.arriveOut.reportErrors.settle.burstTaken.burstTaken

theorem failHeld (h : s.Canonical q) {m : Nat} : (s.failHeld m).Canonical q := h.foldl fun _ _ hu => hu.unlock

theorem killBlock (h : s.Canonical q) {pa : Nat} : (s.killBlock pa).Canonical q := h.unlockOut.markDead.reportErrors

theorem devTouch (h : s.Canonical q) {a : Acc} {b : Word} {n : Nat} : (s.devTouch a b n).Canonical q := h.touchOut.reportErrors

theorem devWrite (h : s.Canonical q) {a : Acc} {b : Word} {bs : List Byte} : (s.devWrite a b bs).Canonical q := h.devPut.reportErrors

theorem post (h : s.Canonical q) {cid k : Nat} {bs : List Byte} : (s.post cid k bs).1.Canonical q := h.postCore.reportErrors

theorem putCache (h : s.Canonical q) {l : CacheLine} : (s.putCache l).Canonical q := h

theorem dropCache (h : s.Canonical q) {c cid line : Nat} : (s.dropCache c cid line).Canonical q := h

theorem writeBack (h : s.Canonical q) {l : CacheLine} : (s.writeBack l).Canonical q := h.ite h.cross.lineWrite.unlock.putCache

theorem makeRoom (h : s.Canonical q) {c : Nat} : (s.makeRoom c).Canonical q := by
  unfold State.makeRoom
  dsimp only
  split
  · exact h
  · split
    · exact h
    · exact h.same.writeBack.dropCache

theorem takeLine (h : s.Canonical q) {c : Nat} {a : Acc} {d : Desc} {p : Page} {b : Word}
    {va : Nat} : (s.takeLine c a d p b va).1.Canonical q := by
  unfold State.takeLine
  dsimp only
  split
  · exact h.makeRoom
  · exact h.ite_fst h.writeBack.dropCache

theorem settleCid (h : s.Canonical q) {cid : Nat} : (s.settleCid cid).Canonical q := h.settleWhere

theorem wbRange (h : s.Canonical q) {c cid va n : Nat} : (s.wbRange c cid va n).Canonical q := h.settleCid.foldl fun _ _ hu => hu.writeBack

theorem invRange (h : s.Canonical q) {c cid va n : Nat} : (s.invRange c cid va n).Canonical q := h.wbRange

theorem wbAll (h : s.Canonical q) {c cid : Nat} : (s.wbAll c cid).Canonical q := h.settleCid.foldl fun _ _ hu => hu.writeBack

theorem invAll (h : s.Canonical q) {c cid : Nat} : (s.invAll c cid).Canonical q := h.wbAll

theorem dropClean (h : s.Canonical q) {c cid : Nat} : (s.dropClean c cid).Canonical q := h

theorem cacheRead (h : s.Canonical q) {c : Nat} {a : Acc} {d : Desc} {p : Page} {b : Word} {va n : Nat} :
    (s.cacheRead c a d p b va n).1.Canonical q := by
  unfold State.cacheRead
  dsimp only
  split
  · exact h
  · split
    · exact h.takeLine.cross
    · exact h.takeLine.cross.putCache

theorem copyRead (h : s.Canonical q) {c : Option Nat} {a : Acc} {d : Desc} {p : Page} {va n : Nat} :
    (s.copyRead c a d p va n).1.Canonical q := h.ite_fst h.cross

theorem cacheLine (h : s.Canonical q) {c : Nat} {a : Acc} {d : Desc} {p : Page} {b : Word} {va : Nat} {data : BitVec 512} {mask : BitVec 64} :
    (s.cacheLine c a d p b va data mask).Canonical q := h.takeLine.putCache

theorem cacheWrite (h : s.Canonical q) {c : Nat} {a : Acc} {d : Desc} {p : Page} {b : Word} {va : Nat} {bs : List Byte} :
    (s.cacheWrite c a d p b va bs).Canonical q := h.cacheLine

theorem copyLine (h : s.Canonical q) {c : Option Nat} {a : Acc} {d : Desc} {p : Page} {b : Word} {va : Nat} {data : BitVec 512}
    {mask : BitVec 64} :
    (s.copyLine c a d p b va data mask).Canonical q := by
  unfold State.copyLine
  refine (State.Canonical.cross ?_).lineWrite
  split
  · exact h
  · split
    · exact h
    · exact h.putCache.ite h.writeBack.dropCache

theorem copyWrite (h : s.Canonical q) {c : Option Nat} {a : Acc} {d : Desc} {p : Page} {b : Word} {va : Nat} {bs : List Byte} :
    (s.copyWrite c a d p b va bs).Canonical q := h.copyLine

theorem proofWrite (h : s.Canonical q) {b : Word} {desc : List Byte} {page : Tlb} {va : Nat} {bs : List Byte}
    (e : s.proofWrite b desc page va bs = some u) : u.Canonical q := by
  unfold State.proofWrite at e
  dsimp only at e
  split at e
  · cases e
  · cases e
    exact h.withCur

/-! ### Pigeonholes, copies and grants (04 R75, 05 R87-R89, 12) -/

theorem holesDone (h : s.Canonical q) {op : Nat} : (s.holesDone op).Canonical q := h.setTeam

theorem external (h : s.Canonical q) : s.external.Canonical q := h.withCur

theorem freezeFull (h : s.Canonical q) : s.freezeFull.Canonical q := h.ite h.withCur

theorem copyPiece (h : s.Canonical q) {c : Copy} {b : Word} {va n : Nat} : (s.copyPiece c b va n).1.Canonical q := by
  unfold State.copyPiece
  split
  · exact h
  · dsimp only
    split
    · exact h.copyRead
    · split
      · exact h.copyRead
      · exact h.copyRead.postError

theorem moveRead (h : s.Canonical q) {c : Copy} {m : Move} : (s.moveRead c m).1.Canonical q := by
  unfold State.moveRead
  split
  · exact h.rebuild
  · exact h.foldl_fst fun _ _ hu => hu.copyPiece

theorem copyPut (h : s.Canonical q) {c : Copy} {b : Word} {va : Nat} {bs : List Byte} (e : s.copyPut c b va bs = some u) :
    u.Canonical q := by
  unfold State.copyPut at e
  split at e
  · cases e
    exact h
  · dsimp only at e
    split at e
    · exact h.proofWrite e
    · cases e
      exact (h.invRange.ite h).logItem.copyWrite

theorem moveWrite (h : s.Canonical q) {c : Copy} {m : Move} {bs : List Byte} (e : s.moveWrite c m bs = some u) : u.Canonical q := by
  unfold State.moveWrite at e
  split at e
  · cases e
    exact h.setLocalBytes
  · refine List.foldlRecOn (motive := fun r => ∀ v, r = some v → v.Canonical q) _ _ ?_ ?_ u e
    · rintro v ⟨⟩
      exact h
    · rintro (_ | v) hr _ _ w e
      · cases e
      · exact (hr v rfl).copyPut e

theorem moveAll (h : s.Canonical q) {c c' : Copy} {ms : List (Move × List (Nat × Byte))} (e : s.moveAll c ms = some (u, c')) :
    u.Canonical q := by
  refine List.foldlRecOn (motive := fun r => ∀ v, r = some v → v.1.Canonical q) ms _ ?_ ?_ (u, c') e
  · rintro v ⟨⟩
    exact h
  · rintro (_ | v) hr m _ w e
    · cases e
    · obtain ⟨_, hw, rfl⟩ := Option.map_eq_some_iff.mp e
      exact (hr v rfl).moveRead.moveWrite hw

theorem finishCopy (h : s.Canonical q) {c : Copy} (e : s.finishCopy c = some u) : u.Canonical q := by
  unfold State.finishCopy at e
  split at e
  · cases e
  next em =>
    extract_lets u1 _ u2 at e
    cases e
    have h0 := h.moveAll em
    have h1 : u1.Canonical q := (h0.foldl fun _ _ hu => hu.invRange).external.ite h0
    have h2 : u2.Canonical q := h1.holesDone (op := c.id)
    exact h2.ite h2.completePm

theorem finishCopies (h : s.Canonical q) : s.finishCopies.Canonical q := by
  refine h.foldl fun u c hu => ?_
  cases e : u.finishCopy c with
  | none => exact hu
  | some v => exact hu.finishCopy e

theorem readLine {x : State × Copy} (h : x.1.Canonical q) {line : Nat} {m : Move × List (Nat × Byte)} :
    (State.readLine x line m).1.1.Canonical q := by
  unfold State.readLine
  split
  · exact h
  · dsimp only
    split
    · exact h
    · exact h.moveRead

theorem readAhead (h : s.Canonical q) {c : Copy} {line : Nat} : (s.readAhead c line).1.Canonical q :=
  List.foldlRecOn (motive := fun x : (State × Copy) × Todo => x.1.1.Canonical q) c.todo _ h fun _ hx _ _ => readLine hx

theorem copyAhead (h : s.Canonical q) {c : Copy} {i off : Nat} : (s.copyAhead c i off).Canonical q := by
  unfold State.copyAhead
  split
  · exact h
  · split
    · exact h
    · dsimp only
      split
      · exact h
      · split
        · exact h
        next e => exact ((h.foldl_fst fun _ _ hu => hu.readAhead).moveAll e).same

theorem copyEarly (h : s.Canonical q) {c : Copy} {i off : Nat} : (s.copyEarly c i off).Canonical q := by
  unfold State.copyEarly
  split
  · exact h
  · split
    · exact h
    · dsimp only
      split
      · exact h.moveRead.same
      · exact h.readAhead.same

theorem setSync (h : s.Canonical q) {y : Sync} : (s.setSync y).Canonical q := h

/-! ### Near-bank queries (07) -/

theorem setHole (h : s.Canonical q) {n : Nat} {p : Hole} : (s.setHole n p).Canonical q := h.setTeam fun hs => filesOk_setHole hs

theorem setQuery (h : s.Canonical q) {q' : Query} : (s.setQuery q').Canonical q := h

theorem fillSlot (h : s.Canonical q) {q' : Query} {i : Nat} {bs : List Byte} : (s.fillSlot q' i bs).Canonical q := h.setLocalBytes.setHole.ite h

theorem nbPost (h : s.Canonical q) {q' : Query} {i : Nat} {r : NbRecord} : (s.nbPost q' i r).Canonical q := by
  unfold State.nbPost
  exact (h.postError.ite h).setQuery.withTask fun _ hu => hu.fillSlot

theorem nbAccept (h : s.Canonical q) {q' : Query} : (s.nbAccept q').Canonical q := (h.cross.foldl fun _ _ hu => hu.settle).setMdie

theorem nbEngine (h : s.Canonical q) {q' : Query} {e : Nat} : (s.nbEngine q' e).Canonical q := by
  unfold State.nbEngine
  dsimp only
  split
  · exact h
  · exact h.setMdie.nbPost.ite h

theorem nbFinish (h : s.Canonical q) {q' : Query} : (s.nbFinish q').Canonical q := (h.withTask fun _ hu => hu.fillSlot).same.completePm

theorem leaveQueries (h : s.Canonical q) : s.leaveQueries.Canonical q := h.same.ite h

theorem failQueries (h : s.Canonical q) {m : Nat} : (s.failQueries m).Canonical q := h

/-! ### Traps, stops, saves and squashes (02, 06, 18, 20) -/

theorem postFault (h : s.Canonical q) {t : Task} {r : FaultRec} : (s.postFault t r).Canonical q := (h.ringLost.ite h.ringPut.notify).ite h.post

theorem tcbPut (h : s.Canonical q) {off : Nat} {bs : List Byte} : (s.tcbPut off bs).Canonical q := h.ite h.devWrite

theorem answerHarts (h : s.Canonical q) {f : HartWait → Option Nat} : (s.answerHarts f).Canonical q := h

theorem answerTask (h : s.Canonical q) {id code : Nat} : (s.answerTask id code).Canonical q := h.answerHarts

theorem tcbOwned (h : s.Canonical q) : s.tcbOwned.Canonical q := h.tcbPut.tcbPut.tcbPut

theorem putState (h : s.Canonical q) {x : TState} {spec : Bool} : (s.putState x spec).Canonical q := by
  unfold State.putState
  dsimp only
  split
  · exact h.withCur.tcbOwned
  all_goals exact h.withCur.tcbOwned.answerTask

theorem makeReady (h : s.Canonical q) : s.makeReady.Canonical q := h.withCur.putState

theorem releaseCore (h : s.Canonical q) : s.releaseCore.Canonical q := by
  unfold State.releaseCore
  dsimp only
  split
  · exact h.withCur
  · exact h.wbAll.newCur h.cur_files

theorem writeImage (h : s.Canonical q) {reason : Nat} {x : TState} : (s.writeImage reason x).Canonical q := by
  unfold State.writeImage
  extract_lets hd p s1 b
  have hs1 : s1.Canonical q := h.setPart
  clear_value s1
  split
  · extract_lets s2
    have hs2 : s2.Canonical q := hs1.fwWrite
    clear_value s2
    exact hs2.setCur
  · exact hs1.setCur

theorem dropHolds (h : s.Canonical q) : s.dropHolds.Canonical q := h.foldl fun _ _ hu => hu.foldl fun _ _ hu => hu.wbRange

theorem finishMx (h : s.Canonical q) : s.finishMx.Canonical q := h.foldl fun _ _ hu => hu.completePm

theorem discardTeam (h : s.Canonical q) : s.discardTeam.Canonical q := by
  unfold State.discardTeam
  extract_lets s1
  have hs1 : s1.Canonical q := h.finishMx.finishCopies.leaveQueries.dropHolds.releaseCore
  exact hs1.setCur fun _ => Task.filesOk_blank

theorem dropNumbers (h : s.Canonical q) : s.dropNumbers.Canonical q := (h.foldl fun _ _ hu => hu.completePm).withCur

theorem squashOne (h : s.Canonical q) : s.squashOne.Canonical q := by
  unfold State.squashOne
  exact h.dropNumbers.same.discardTeam.setCur.putState

theorem squashTree (h : s.Canonical q) {fuel id : Nat} : (State.squashTree fuel s id).Canonical q := by
  induction fuel generalizing s id with
  | zero => exact h
  | succ fuel ih => exact (h.withTask fun _ hu => hu.squashOne.ite hu).foldl fun _ _ hu => ih hu

theorem squashDependants (h : s.Canonical q) {id : Nat} : (s.squashDependants id).Canonical q := h.foldl fun _ _ hu => hu.squashTree

theorem unsquashOne (h : s.Canonical q) : s.unsquashOne.Canonical q := (h.withCur.makeReady.ite h.putState).ite h

theorem unsquash (h : s.Canonical q) : s.unsquash.Canonical q := h.foldl fun _ _ hu => hu.withTask fun _ hu => hu.unsquashOne

theorem squash (h : s.Canonical q) : s.squash.Canonical q := h.squashTree.unsquash

theorem kill (h : s.Canonical q) : s.kill.Canonical q := h.squash.ite h.discardTeam.makeReady.squashDependants

theorem finishTrap (h : s.Canonical q) {r : FaultRec} :
    (s.finishTrap r).Canonical q := h.writeImage.releaseCore.withCur.answerTask.ite h.writeImage.releaseCore.withCur.putState.postFault

theorem withdrawServices (h : s.Canonical q) : s.withdrawServices.Canonical q := h.setTeam

theorem takeTrap (h : s.Canonical q) {w : Who} {t : Trap} : (s.takeTrap w t).Canonical q := by
  unfold State.takeTrap
  split
  · exact h
  · exact (h.withdrawServices.ite h.setMember).withCur.withCur.ite (h.withdrawServices.ite h.setMember).withCur.finishTrap

theorem resumeTask (h : s.Canonical q) : s.resumeTask.Canonical q := by
  unfold State.resumeTask
  extract_lets
  exact (h.setCur fun hc => Task.filesOk_withTeam hc).makeReady

theorem restartTask (h : s.Canonical q) : s.restartTask.Canonical q := h.discardTeam.setCur.makeReady.squashDependants

theorem blockWith (h : s.Canonical q) {w : Wait} : (s.blockWith w).Canonical q := by
  unfold State.blockWith
  split
  · exact h.setMember
  · exact h

theorem missEff {m : Miss} (h : m.state.Canonical q) : m.eff.state.Canonical q := by
  unfold Miss.eff
  split <;> exact h

theorem trapFocus (h : s.Canonical q) {t : Trap} : (s.trapFocus t).Canonical q := by
  unfold State.trapFocus
  split
  · exact h.takeTrap
  · exact h.setHart

theorem endStep (h : s.Canonical q) {d1 d2 : Word} : (s.endStep d1 d2).Canonical q := by
  unfold State.endStep
  split
  · exact h.withCur.writeImage.releaseCore.post.ite h
  · exact h

end Sys2Proof.Machine.State.Canonical
end

section
/-! What the instructions do to the state. -/

namespace Sys2Proof.Machine.State.Canonical

set_option Elab.async false

variable {q : Prop} {s u : State}

/-! ### Operands (08) -/

theorem drainOwed (h : s.Canonical q) : s.drainOwed.Canonical q := h.setTeam

/-! ### CSRs (09 R162-R164, 18 R304) -/

theorem memberCsr (h : s.Canonical q) {w : Who} {k : CsrOp} {n : Nat} {rd : Reg} {src : Word} {reads writes : Bool} :
    (s.memberCsr w k n rd src reads writes).state.Canonical q := by
  unfold State.memberCsr
  split
  · exact h
  · split
    · exact h
    · split
      · exact h
      · exact ((h.setTeam fun hs => (filesOk_writeCsr hs)).ite h).setX.ite ((h.setTeam fun hs => (filesOk_writeCsr hs)).ite h)

theorem hartCsrOp (h : s.Canonical q) {i : Instr} {h' : Fin 16} {k : CsrOp} {n : Nat} {rd : Reg} {src : Word} {reads writes : Bool} :
    (s.hartCsrOp i h' k n rd src reads writes).state.Canonical q := by
  unfold State.hartCsrOp
  split
  · exact h
  · exact h.ite_state ((h.setHart.ite h).setX.ite (h.setHart.ite h))

theorem csrOp (h : s.Canonical q) {i : Instr} {k : CsrOp} {rd : Reg} {csr : BitVec 12} {src : Word} {writes : Bool} :
    (s.csrOp i k rd csr src writes).state.Canonical q := by
  unfold State.csrOp
  dsimp only
  split
  · exact h.memberCsr
  · exact h.hartCsrOp

/-! ### Base instructions (09) -/

theorem writeRd (h : s.Canonical q) {rd : Reg} {v : Word} : (writeRd s rd v).state.Canonical q := h.setX

theorem badTarget (h : s.Canonical q) {target : Word} : (s.badTarget target).state.Canonical q := by
  unfold State.badTarget
  split <;> exact h

theorem jumpTo (h : s.Canonical q) {rd : Reg} {target : Word} : (s.jumpTo rd target).state.Canonical q := h.badTarget.ite_state h.setX

theorem branch (h : s.Canonical q) {taken : Bool} {imm : BitVec 12} : (s.branch taken imm).state.Canonical q := by
  unfold State.branch
  split
  · split
    · exact h.badTarget
    · exact h
  · exact h

theorem postLocalUe (h : s.Canonical q) {a : Nat} : (s.postLocalUe a).Canonical q := h.setDie.post

theorem localLoad (h : s.Canonical q) {w : Who} {rd : Reg} {base : Word} {imm : BitVec 12} {n : Nat} {sx : Bool} :
    (s.localLoad w rd base imm n sx).state.Canonical q := by
  unfold State.localLoad
  split
  · exact h
  · exact h.postLocalUe.ite_state (h.ite_state (h.ite h.rebuild).writeRd)

theorem localStore (h : s.Canonical q) {w : Who} {base v : Word} {imm : BitVec 12}
    {n : Nat} : (s.localStore w base v imm n).state.Canonical q := by
  unfold State.localStore
  split
  · exact h
  · split
    · exact h
    · exact h.setLocalBytes

theorem hartLoad (h : s.Canonical q) {rd : Reg} {base : Word} {imm : BitVec 12} {n : Nat} {sx : Bool} :
    (s.hartLoad rd base imm n sx).state.Canonical q := by
  unfold State.hartLoad
  dsimp only
  split
  · exact h
  · exact h.settle.ite_state h.settle.writeRd

theorem hartStore (h : s.Canonical q) {h' : Fin 16} {base v : Word} {imm : BitVec 12} {n : Nat} :
    (s.hartStore h' base v imm n).state.Canonical q := by
  unfold State.hartStore
  dsimp only
  split
  · exact h
  · exact h.settle.ite_state h.settle.fwWrite

theorem load (h : s.Canonical q) {rd rs1 : Reg} {imm : BitVec 12} {n : Nat} {sx : Bool} : (s.load rd rs1 imm n sx).state.Canonical q := by
  unfold State.load
  split
  · exact h.localLoad
  · exact h.hartLoad

theorem store (h : s.Canonical q) {rs1 rs2 : Reg} {imm : BitVec 12} {n : Nat} : (s.store rs1 rs2 imm n).state.Canonical q := by
  unfold State.store
  split
  · exact h.localStore
  · exact h.hartStore

theorem postService (h : s.Canonical q) {w : Who} : (s.postService w).Canonical q := by
  unfold State.postService
  extract_lets tag s1 _ s2
  have hs1 : s1.Canonical q := h.ringPut.notify
  clear_value s1
  have hs2 : s2.Canonical q := hs1.setCur
  clear_value s2
  exact hs2.setMember

theorem ecall (h : s.Canonical q) : s.ecall.state.Canonical q := by
  unfold State.ecall
  split
  · exact h
  · split
    · exact h
    · split
      · exact h
      · exact h.ite h.postService

theorem ebreak (h : s.Canonical q) : s.ebreak.state.Canonical q := by
  unfold State.ebreak
  split <;> exact h

/-! ### Vector instructions (10) -/

theorem landElems (h : s.Canonical q) {t : Team} {o : LF} {w g lat : Nat} {rs : List Elt} (ht : q → t.filesOk = true) :
    (landElems s t o w g lat rs).state.Canonical q := h.newTeam fun hq => Team.filesOk_congr (ht hq)

theorem landRegs (h : s.Canonical q) {t : Team} {o : LF} {lat : Nat} {rs : List V256} {flags : BitVec 6} (ht : q → t.filesOk = true) :
    (landRegs s t o lat rs flags).state.Canonical q := h.newTeam fun hq => Team.filesOk_congr (ht hq)

theorem fpArith (h : s.Canonical q) {k : Nat} {o : LF} {r : Res} :
    (fpArith k o r s).state.Canonical q := h.landElems fun hq => filesOk_drawn (h.team_files hq)

theorem map2 (h : s.Canonical q) {o : LF} {w lat : Nat} {f : Nat → Nat → Nat} : (map2 o w lat s f).state.Canonical q := h.landElems h.team_files

theorem map1 (h : s.Canonical q) {o : LF} {w lat : Nat} {f : Nat → Nat} : (map1 o w lat s f).state.Canonical q := h.landElems h.team_files

theorem vecCompare (h : s.Canonical q) {o : LF} {r : Res} : (vecCompare o r s).state.Canonical q := h.setTeam.setX

theorem intArith (h : s.Canonical q) {k : Nat} {o : LF} {r : Res} : (intArith k o r s).state.Canonical q := h.landElems h.team_files

theorem shiftElems (h : s.Canonical q) {o : LF} {r : Res} {f : Nat → Nat → Nat → Elt} :
    (shiftElems o r s f).state.Canonical q := h.landElems h.team_files

theorem vecSelect (h : s.Canonical q) {o : LF} {r : Res} : (vecSelect o r s).state.Canonical q := h.landElems h.team_files

theorem convert (h : s.Canonical q) {o : LF} {r : Res} : (convert o r s).state.Canonical q := by
  unfold Machine.convert
  dsimp only
  split
  · split <;> exact h.landRegs fun hq => filesOk_drawn (h.team_files hq)
  · exact h.landElems fun hq => filesOk_drawn (h.team_files hq)

theorem lnLinear (h : s.Canonical q) {o : LF} {r : Res} :
    (lnLinear o r s).state.Canonical q := h.landElems fun hq => filesOk_drawn (h.team_files hq)

theorem sfu (h : s.Canonical q) {k : Nat} {o : LF} {r : Res} :
    (sfu k o r s).state.Canonical q := h.landElems fun hq => filesOk_drawn (h.team_files hq)

theorem landFirst (h : s.Canonical q) {t : Team} {o : LF} {e : Elt} (ht : q → t.filesOk = true) :
    (landFirst s t o e).state.Canonical q := h.landRegs ht

theorem vecSum (h : s.Canonical q) {o : LF} {r : Res} : (vecSum o r s).state.Canonical q := h.landFirst fun hq => filesOk_drawn (h.team_files hq)

theorem vecMax (h : s.Canonical q) {o : LF} {r : Res} : (vecMax o r s).state.Canonical q := h.landFirst h.team_files

theorem permute (h : s.Canonical q) {o : LF} {r : Res} : (permute o r s).state.Canonical q := h.landElems h.team_files

theorem splat (h : s.Canonical q) {o : LF} {w c : Nat} : (splat s o w c).state.Canonical q := h.landElems h.team_files

theorem eltStore (h : s.Canonical q) {a w i c : Nat} : (s.eltStore a w i c).Canonical q := h.setLocalByte.ite h.setLocalBytes

theorem readElts (h : s.Canonical q) {w : Nat} {as : List (Nat × Nat)} : (s.readElts w as).Canonical q := h.ite (h.foldl fun _ _ hu => hu.rebuild)

theorem vecLoad (h : s.Canonical q) {o : LF} {r : Res} {whole : Option (Nat × Nat)} {e : Except Trap (List (Nat × Nat))} :
    (vecLoad o r s whole e).state.Canonical q := by
  unfold Machine.vecLoad
  dsimp only
  split
  · exact h
  · split
    · exact h.postLocalUe
    · exact h.readElts.newTeam fun hq => Team.filesOk_congr (h.team_files hq)

theorem vecStore (h : s.Canonical q) {o : LF} {r : Res} {e : Except Trap (List (Nat × Nat))} : (vecStore o r s e).state.Canonical q := by
  unfold Machine.vecStore
  dsimp only
  split
  · exact h
  · exact h.foldl fun _ _ hu => hu.eltStore

theorem windowEnter (h : s.Canonical q) {n : Nat} : (windowEnter s n).state.Canonical q := by
  unfold Machine.windowEnter
  extract_lets t wb lo u
  split
  · exact h
  · split
    · exact h
    · refine h.setTeam fun hs => Team.filesOk_congr (t := u) ?_
      dsimp only [u]
      split
      · exact hs
      · exact filesOk_spillTo hs

theorem windowLeave (h : s.Canonical q) : (windowLeave s).state.Canonical q := by
  unfold Machine.windowLeave
  extract_lets t
  split
  · exact h
  next f _ _ =>
    extract_lets wb u
    refine h.setTeam fun hs => Team.filesOk_congr (t := u) ?_
    dsimp only [u]
    split
    · exact filesOk_fillTo hs
    · exact hs

theorem maskPush (h : s.Canonical q) {v : Word} : (maskPush s v).state.Canonical q := h.ite_state h.setTeam

theorem maskInvert (h : s.Canonical q) : (maskInvert s).state.Canonical q := by
  unfold Machine.maskInvert
  dsimp only
  split
  · exact h.setTeam
  · exact h

theorem maskPop (h : s.Canonical q) : (maskPop s).state.Canonical q := by
  unfold Machine.maskPop
  dsimp only
  split
  · exact h.setTeam
  · exact h

theorem branchMaskZero (h : s.Canonical q) {imm : BitVec 11} : (branchMaskZero s imm).state.Canonical q := by
  unfold Machine.branchMaskZero
  split <;> exact h

/-! ### Matrix and control instructions (11) -/

theorem readTiles (h : s.Canonical q) {hs : List Tile} :
    (s.readTiles hs).Canonical q := h.ite (h.foldl fun _ _ hu => hu.foldl fun _ _ hu => hu.rebuild)

theorem tileTrap (h : s.Canonical q) {e : Trap × Option Nat} : (s.tileTrap e).state.Canonical q := by
  unfold State.tileTrap
  split
  · exact h.postLocalUe
  · exact h

theorem landMatrix (h : s.Canonical q) {t : Team} {ws : List LWrite} {flags : BitVec 6} {occ lat : Nat} {draw : Bool}
    (ht : q → t.filesOk = true) : (landMatrix s t ws flags occ lat draw).state.Canonical q := by
  unfold Machine.landMatrix
  extract_lets s1 d e s2 u
  have hs1 : s1.Canonical q := h.newTeam ht
  have hs2 : s2.Canonical q := by
    dsimp only [s2, d]
    split
    · exact hs1.drawPm
    · exact hs1
  exact hs2.setCur fun hc => Task.filesOk_withTeam hc

theorem matMul (h : s.Canonical q) {o : LF} {r : Res} : (matMul o r s).state.Canonical q := by
  unfold Machine.matMul
  dsimp only
  split
  · split
    · exact h
    · split
      · exact h.tileTrap
      · exact h.readTiles.landMatrix h.team_files
  · split
    · exact h
    · split
      · exact h.tileTrap
      · exact h.readTiles.landMatrix h.team_files

theorem matMulAcc (h : s.Canonical q) {o : LF} {r : Res} : (matMulAcc o r s).state.Canonical q := by
  unfold Machine.matMulAcc
  dsimp only
  split
  · split
    · exact h
    · split
      · exact h.tileTrap
      · exact h.readTiles.landMatrix fun hq => filesOk_drawn (h.team_files hq)
  · split
    · exact h
    · split
      · exact h.tileTrap
      · exact h.readTiles.landMatrix fun hq => filesOk_drawn (h.team_files hq)

theorem lutBuild (h : s.Canonical q) {o : LF} {r : Res} : (lutBuild o r s).state.Canonical q := by
  unfold Machine.lutBuild
  dsimp only
  split
  · split
    · exact h
    · split
      · exact h.tileTrap
      · exact h.readTiles.landMatrix h.team_files
  · split
    · exact h
    · split
      · exact h.tileTrap
      · exact h.readTiles.landMatrix h.team_files

theorem lutAccum (h : s.Canonical q) {o : LF} {r : Res} : (lutAccum o r s).state.Canonical q := by
  unfold Machine.lutAccum
  dsimp only
  split
  · split
    · exact h
    · split
      · exact h.tileTrap
      · exact h.readTiles.landMatrix h.team_files
  · split
    · exact h
    · split
      · exact h.tileTrap
      · exact h.readTiles.landMatrix h.team_files

theorem landAt (h : s.Canonical q) {t : Team} {ws : List LWrite} {lat : Nat} (ht : q → t.filesOk = true) :
    (landAt s t ws lat).state.Canonical q := h.newTeam fun hq => Team.filesOk_congr (ht hq)

theorem accZero (h : s.Canonical q) {o : LF} : (accZero o s).state.Canonical q := h.landAt h.team_files

theorem accLoad (h : s.Canonical q) {o : LF} {r : Res} : (accLoad o r s).state.Canonical q := by
  unfold Machine.accLoad
  dsimp only
  split
  · exact h
  · split
    · exact h.tileTrap
    · exact h.readTiles.landAt h.team_files

theorem accStore (h : s.Canonical q) {o : LF} {r : Res} : (accStore o r s).state.Canonical q := by
  unfold Machine.accStore
  dsimp only
  split
  · exact h
  · split
    · exact h.tileTrap
    · exact (h.setTeam fun hs => Team.filesOk_congr (filesOk_drawn hs)).foldl fun _ _ hu => hu.setLocalBytes

theorem accToVec (h : s.Canonical q) {o : LF} {r : Res} : (accToVec o r s).state.Canonical q := by
  unfold Machine.accToVec
  dsimp only
  split
  · exact h.setTeam fun hs => Team.filesOk_congr (filesOk_drawn hs)
  · exact h.landElems fun hq => filesOk_drawn (h.team_files hq)

theorem vecToAcc (h : s.Canonical q) {o : LF} {r : Res} : (vecToAcc o r s).state.Canonical q := h.landAt h.team_files

theorem handleLoad (h : s.Canonical q) {o : LF} : (handleLoad o s).state.Canonical q := by
  unfold Machine.handleLoad
  dsimp only
  split
  · exact h
  · split
    · exact h.postLocalUe
    · exact h.rebuild.landAt h.team_files

theorem handleStore (h : s.Canonical q) {o : LF} : (handleStore o s).state.Canonical q := by
  unfold Machine.handleStore
  split
  · exact h
  · exact h.setLocalBytes

theorem handleAdvance (h : s.Canonical q) {h' : Fin 32} {n : Nat} : (handleAdvance s h' n).state.Canonical q := h.landAt h.team_files

theorem loopStart (h : s.Canonical q) {n : Fin 4} {bound : Word} {off : BitVec 11} : (loopStart s n bound off).state.Canonical q := by
  unfold Machine.loopStart
  dsimp only
  split
  · split
    · exact h
    · split <;> exact h.setTeam
  · split
    · exact h
    · split <;> exact h.setTeam

theorem loopBreak (h : s.Canonical q) {n : Fin 4} : (loopBreak s n).state.Canonical q := (h.setTeam fun hs => filesOk_popTo hs).ite h

theorem formatSelect (h : s.Canonical q) {a b : BitVec 11} : (formatSelect s a b).state.Canonical q := h.setTeam

/-! ### Movement, memory and synchronisation (12) -/

theorem drawFor (h : s.Canonical q) {cls : Nat} : (s.drawFor cls).1.Canonical q := by
  unfold State.drawFor
  dsimp only
  split
  · exact h.drawPm.setCur
  · exact h.drawPm

theorem issued (h : s.Canonical q) {o : LF} {cls num : Nat} : (issued o cls num s).state.Canonical q := h.setX

theorem bufAccess (h : s.Canonical q) {b : Word} {n rights : Nat} {write : Bool} : (stateAfter (s.bufAccess b n rights write)).Canonical q := by
  unfold State.bufAccess
  split
  · exact h
  · split
    · exact h
    · exact h.translatePages

theorem postRead (h : s.Canonical q) {b : Word} {va pa code : Nat} : (s.postRead b va pa code).Canonical q := h.postError

theorem cacheReads (h : s.Canonical q) {b : Word} {ps : List Tlb} {n : Nat} : (s.cacheReads b ps n).1.Canonical q := by
  unfold State.cacheReads
  refine h.foldl_fst fun _ _ hu => ?_
  split
  · exact hu
  · dsimp only
    split
    · exact hu.cacheRead
    · exact hu.cacheRead.postRead

theorem bufRead (h : s.Canonical q) {b : Word} {ps : List Tlb} {n : Nat} : (s.bufRead b ps n).1.Canonical q := h.ite_fst h.cacheReads

theorem bufLoad (h : s.Canonical q) {w : Who} {rd : Reg} {b : Word} {n : Nat} {sx : Bool} : (bufLoad w rd b n sx s).state.Canonical q := by
  unfold Machine.bufLoad
  split
  next e1 => exact (h.bufAccess.error e1).missEff
  next e2 =>
    split
    · exact h
    · split
      · exact h
      · exact (h.bufAccess.ok e2).bufRead.setX

theorem proofWrites (h : s.Canonical q) {b : Word} {ps : List Tlb} {bs : List Byte} (e : s.proofWrites b ps bs = some u) :
    u.Canonical q := by
  have hk : ∀ v ∈ s.proofWrites b ps bs, v.Canonical q := by
    unfold State.proofWrites
    refine List.foldlRecOn (motive := fun r : Option State => ∀ v ∈ r, v.Canonical q) _ _ (fun v hv => Option.mem_some.mp hv ▸ h)
      fun r hr x _ => ?_
    split
    · exact fun _ hv => absurd hv (Option.not_mem_none _)
    · exact hr
    next w _ _ => exact fun v hv => (hr w rfl).proofWrite hv
  exact hk u e

theorem cacheWrites (h : s.Canonical q) {b : Word} {ps : List Tlb} {bs : List Byte} : (s.cacheWrites b ps bs).Canonical q := by
  unfold State.cacheWrites
  refine h.foldl fun _ _ hu => ?_
  split
  · exact hu
  · exact hu.logItem.cacheWrite

theorem bufStore (h : s.Canonical q) {w : Who} {b v : Word} {n : Nat} : (bufStore w b v n s).state.Canonical q := by
  unfold Machine.bufStore
  split
  next e1 => exact (h.bufAccess.error e1).missEff
  next e2 =>
    split
    · exact h
    · split
      · split
        · exact h.freezeFull
        next e3 => exact (h.bufAccess.ok e2).proofWrites e3
      · exact (h.bufAccess.ok e2).cacheWrites

theorem homeReads (h : s.Canonical q) {src cid : Nat} {d : Desc} {ps : List Tlb}
    {va n : Nat} : (s.homeReads src cid d ps va n).1.Canonical q := by
  unfold State.homeReads
  refine h.foldl_fst fun _ _ hu => ?_
  split
  · exact hu
  · exact hu.cross

theorem homeWrites (h : s.Canonical q) {src cid : Nat} {d : Desc} {ps : List Tlb} {b : Word} {va : Nat} {bs : List Byte} :
    (s.homeWrites src cid d ps b va bs).Canonical q := by
  unfold State.homeWrites
  refine h.foldl fun _ _ hu => ?_
  split
  · exact hu
  · exact hu.cross.lineWrite

theorem homeAtomic (h : s.Canonical q) {b : Word} {ps : List Tlb} {n : Nat} {f : Nat → Nat} :
    (s.homeAtomic b ps n f).1.Canonical q := (h.homeReads.ite h.homeReads.homeWrites).ite_fst (h.homeReads.foldl fun _ _ hu => hu.postRead)

theorem atomic (h : s.Canonical q) {o : LF} {w : Who} {n : Nat} {f : Nat → Nat} : (atomic o w n f s).state.Canonical q := by
  unfold Machine.atomic
  dsimp only
  split
  · exact h
  · split
    next e1 => exact (h.bufAccess.error e1).missEff
    next e2 =>
      split
      · exact h
      · split
        · exact h
        · exact (((h.bufAccess.ok e2).wbAll.ite (h.bufAccess.ok e2)).homeAtomic.invAll.ite ((h.bufAccess.ok e2).wbAll.ite
            (h.bufAccess.ok e2)).homeAtomic).external.setX

theorem bufAmo (h : s.Canonical q) {o : LF} {w : Who} : (bufAmo o w s).state.Canonical q := h.atomic

theorem bufCas (h : s.Canonical q) {o : LF} {w : Who} : (bufCas o w s).state.Canonical q := h.atomic

theorem register (h : s.Canonical q) {d : Desc} {b : Word} : (stateAfter (s.register d b)).Canonical q := by
  unfold State.register
  dsimp only
  split
  next e1 => exact h.translateUnder.error e1
  next e2 => split <;> exact (h.translateUnder.ok e2).homeReads

theorem rangesWb (h : s.Canonical q) {y : Sync} : (s.rangesWb y).Canonical q := h.foldl fun _ _ hu => hu.wbRange

theorem rangesInv (h : s.Canonical q) {y : Sync} : (s.rangesInv y).Canonical q := h.foldl fun _ _ hu => hu.invRange

theorem acquireAt (h : s.Canonical q) {w : Who} {excl : Bool} {desc : List Byte} {y : Sync} : (acquireAt w excl desc y s).state.Canonical q := by
  unfold Machine.acquireAt
  dsimp only
  split
  · exact h
  · split
    · split
      · split
        · exact h.rangesInv.external
        · exact h
      · split
        · exact h.rangesInv.external
        · exact h
    · split
      · exact h.setSync
      · exact h.setSync.rangesInv.external

theorem acquire (h : s.Canonical q) {o : LF} {w : Who} : (acquire o w s).state.Canonical q := by
  unfold Machine.acquire
  dsimp only
  split
  · exact h
  · split
    · exact h
    · split
      · exact h.acquireAt
      · split
        · exact h
        · split
          · exact h
          · split
            next e1 => exact (h.register.error e1).missEff
            next e2 => exact (h.register.ok e2).acquireAt

theorem release (h : s.Canonical q) {o : LF} {w : Who} : (release o w s).state.Canonical q := by
  unfold Machine.release
  dsimp only
  split
  · exact h
  · split
    · exact h
    · split
      · exact h
      · split
        · exact h
        · split
          · exact h
          · split
            · exact h
            · exact h.rangesWb.setSync.external

theorem rangeFence (h : s.Canonical q) {o : LF} {w : Who} : (rangeFence o w s).state.Canonical q := by
  unfold Machine.rangeFence
  dsimp only
  split
  · exact h.ite h.external
  · split
    · exact h
    · split
      · exact h
      · split
        · exact h
        · exact ((h.wbRange.ite h).invRange.ite (h.wbRange.ite h)).external

theorem postmarkWait (h : s.Canonical q) {o : LF} {w : Who} : (postmarkWait o w s).state.Canonical q := by
  unfold Machine.postmarkWait
  dsimp only
  split
  · exact h
  · split
    · exact h
    · split <;> exact h

theorem waitCounters (h : s.Canonical q) {o : LF} {w : Who} : (waitCounters o w s).state.Canonical q := by
  unfold Machine.waitCounters
  split
  · split <;> exact h
  · dsimp only
    split <;> exact h

theorem holeConfig (h : s.Canonical q) {o : LF} : (holeConfig o s).state.Canonical q := by
  unfold Machine.holeConfig
  dsimp only
  split
  · split
    · exact h.setHole
    · exact h
  · split
    · exact h.setHole
    · exact h

theorem holeWait (h : s.Canonical q) {w : Who} {n : Nat} {k : Wait} : (s.holeWait w n k).state.Canonical q := by
  unfold State.holeWait
  split <;> exact h

theorem withHole (h : s.Canonical q) {o : LF} {f : Hole → Eff} (hf : ∀ a, (f a).state.Canonical q) : (withHole o s f).state.Canonical q := by
  unfold Machine.withHole
  dsimp only
  split
  · exact hf _
  · exact h

theorem holeTake (h : s.Canonical q) {o : LF} {w : Who} : (holeTake o w s).state.Canonical q := by
  unfold Machine.holeTake
  refine h.withHole fun _ => ?_
  split
  · exact h.holeWait
  · exact h.setHole.setX

theorem holeReserve (h : s.Canonical q) {o : LF} {w : Who} : (holeReserve o w s).state.Canonical q := by
  unfold Machine.holeReserve
  refine h.withHole fun _ => ?_
  split
  · exact h.holeWait
  · exact h.setHole.setX

theorem holePost (h : s.Canonical q) {o : LF} : (holePost o s).state.Canonical q := by
  unfold Machine.holePost
  refine h.withHole fun _ => ?_
  split
  · exact h
  · exact h.setHole

theorem holeGive (h : s.Canonical q) {o : LF} {w : Who} : (holeGive o w s).state.Canonical q := by
  unfold Machine.holeGive
  refine h.withHole fun _ => ?_
  dsimp only
  split
  · exact h
  · split
    · exact h
    · exact h.setHole

theorem holeStat (h : s.Canonical q) {o : LF} : (holeStat o s).state.Canonical q := h.withHole fun _ => h.setX

theorem setQueue (h : s.Canonical q) {q' : Fin 8} {ws : List Word} : (s.setQueue q' ws).Canonical q := h.setTeam

theorem queuePut (h : s.Canonical q) {o : LF} : (queuePut o s).state.Canonical q := by
  unfold Machine.queuePut
  dsimp only
  split
  · exact h.setQueue
  · split <;> exact h

theorem queueGet (h : s.Canonical q) {o : LF} : (queueGet o s).state.Canonical q := by
  unfold Machine.queueGet
  dsimp only
  split
  · split <;> exact h
  · exact (h.ite h.setQueue).setX

theorem translateAll (h : s.Canonical q) {rs : List (Word × Nat)} {write : Bool} : (stateAfter (s.translateAll rs write)).Canonical q := by
  refine List.foldlRecOn (motive := fun r => (stateAfter r).Canonical q) _ _ h fun r hr x _ => ?_
  split
  · exact hr
  next y =>
    have hy : y.1.Canonical q := hr
    split
    next e => exact (hy.translatePages.error e :)
    next e => exact (hy.translatePages.ok e :)

theorem readLocal_ok (h : s.Canonical q) {a n : Nat} (e : s.readLocal a n = .ok u) : u.Canonical q := by
  unfold State.readLocal at e
  split at e
  · cases e
  · cases e
    exact h.rebuild

theorem readLocal_error (h : s.Canonical q) {a n : Nat} {m : Miss} (e : s.readLocal a n = .error m) : m.state.Canonical q := by
  unfold State.readLocal at e
  split at e
  · cases e
    exact h.postLocalUe
  · cases e

theorem planLoad (h : s.Canonical q) {o : LF} : (stateAfter (planLoad o s)).Canonical q := by
  unfold Machine.planLoad
  dsimp only
  split
  · exact h
  · split
    next e1 => exact h.translateAll.error e1
    next e2 => exact h.translateAll.ok e2

theorem planStore (h : s.Canonical q) {o : LF} : (stateAfter (planStore o s)).Canonical q := by
  unfold Machine.planStore
  dsimp only
  split
  · exact h
  · split
    next e1 => exact h.translateAll.error e1
    next e2 =>
      split
      next e3 => exact (h.translateAll.ok e2).readLocal_error e3
      next e3 => exact (h.translateAll.ok e2).readLocal_ok e3

theorem planRows (h : s.Canonical q) {o : LF} {scatter : Bool} : (stateAfter (planRows o scatter s)).Canonical q := by
  unfold Machine.planRows
  extract_lets a d total ok1 local_ aligned
  split
  · exact h
  · split
    · exact h
    · split
      next e => exact h.readLocal_error e
      next v ev =>
        have hv : v.Canonical q := h.readLocal_ok ev
        split
        next e => exact hv.readLocal_error e
        next w ew =>
          have hw : w.Canonical q := hv.readLocal_ok ew
          dsimp only
          split
          · exact hw
          · split
            next e => exact hw.translateAll.error e
            next x _ ex =>
              have hx : x.Canonical q := hw.translateAll.ok ex
              split
              next e =>
                split at e
                · exact hx.readLocal_error e
                · cases e
              next e =>
                split at e
                · exact hx.readLocal_ok e
                · cases e
                  exact hx

theorem planLocal (h : s.Canonical q) {o : LF} : (stateAfter (planLocal o s)).Canonical q := by
  unfold Machine.planLocal
  dsimp only
  split
  · exact h
  · split
    next e => exact h.readLocal_error e
    next e => exact h.readLocal_ok e

theorem planRemote (h : s.Canonical q) {o : LF} : (stateAfter (planRemote o s)).Canonical q := by
  unfold Machine.planRemote
  dsimp only
  split
  · exact h
  · split
    next e1 => exact h.translateAll.error e1
    next e2 =>
      split
      next e3 => exact (h.translateAll.ok e2).translateAll.error e3
      next e4 => exact (h.translateAll.ok e2).translateAll.ok e4

theorem startCopy (h : s.Canonical q) {o : LF} {w : Who} {moves : List Move} {pages : List Tlb} {slot : Nat} {remote : Bool} :
    (s.startCopy o w moves pages slot remote).1.Canonical q := by
  unfold State.startCopy
  extract_lets id x c _ u'
  have hx : x.1.Canonical q := h.same.drawFor
  have hu' : u'.Canonical q := hx
  exact hu'.setCur

theorem issueCopy (h : s.Canonical q) (hu : u.Canonical q) {o : LF} {w : Who} {remote : Bool} {p : CopyPlan} :
    (issueCopy o w remote p s u).state.Canonical q := by
  unfold Machine.issueCopy
  extract_lets n hl ms u1 x
  split
  · exact h
  · split
    · exact h
    · split
      · exact h
      · split
        · exact h
        · exact (hu.setHole.ite hu).startCopy.issued

theorem copyOf (h : s.Canonical q) {o : LF} {w : Who} {r : Except Miss (State × CopyPlan)} (hr : (stateAfter r).Canonical q) :
    (copyOf o w s r).state.Canonical q := by
  unfold Machine.copyOf
  split
  next e => exact (hr.error rfl).missEff
  next e => exact h.issueCopy (hr.ok rfl)

theorem copyRows (h : s.Canonical q) {o : LF} {w : Who} {scatter : Bool} : (copyRows o w scatter s).state.Canonical q := by
  unfold Machine.copyRows
  split
  · exact h
  · exact h.copyOf h.planRows

theorem copyRemote (h : s.Canonical q) {o : LF} {w : Who} : (copyRemote o w s).state.Canonical q := by
  unfold Machine.copyRemote
  split
  · exact h
  · split
    next e => exact (h.planRemote.error e).missEff
    next e => exact h.issueCopy (h.planRemote.ok e).wbRange

theorem setColl (h : s.Canonical q) {c : Coll} : (s.setColl c).Canonical q := h

theorem settleColl (h : s.Canonical q) {c : Coll} :
    (s.settleColl c).Canonical q :=
  (h.foldl fun _ _ hu => hu.completePm.withTask fun _ hu => hu.external).same.ite
    (h.foldl fun _ _ hu => hu.completePm.withTask fun _ hu => hu.external).setColl

theorem startColl (h : s.Canonical q) {w : Who} {d : CollDesc} {variant : Nat} {sends : List (Nat × Word × Word)} {recv : Word} {ps : List Tlb} :
    (s.startColl w d variant sends recv ps).1.Canonical q := h.drawFor.setCur.settleColl

theorem groupBufs (h : s.Canonical q) {d : CollDesc} {ps : List Tlb} : (s.groupBufs d ps).1.Canonical q := h.homeReads

theorem collIssue (h : s.Canonical q) {o : LF} {w : Who} {d : CollDesc} : (collIssue o w d s).state.Canonical q := by
  unfold Machine.collIssue
  dsimp only
  split
  · exact h
  · split
    next e => exact (h.translateAll.error e).missEff
    next v _ e =>
      have hv : v.Canonical q := h.translateAll.ok e
      refine ite_state h ?_
      split
      · exact hv.groupBufs
      · split
        next e => exact (hv.groupBufs.translateAll.error e).missEff
        next v' _ e =>
          have hv' : v'.Canonical q := hv.groupBufs.translateAll.ok e
          split
          next e => exact (hv'.translateAll.error e).missEff
          next e =>
            have hw := hv'.translateAll.ok e
            exact ite_state hw (ite_state h (ite_state h hw.startColl.issued))

theorem leaveLentDie (h : s.Canonical q) : s.leaveLentDie.Canonical q := h.setCur

theorem collective (h : s.Canonical q) {o : LF} {w : Who} : (collective o w s).state.Canonical q := by
  unfold Machine.collective
  extract_lets a d
  split
  · exact h
  · split
    · exact h.leaveLentDie
    · split
      · exact h
      · split
        · exact h
        · split
          · exact h
          · split
            next e => exact (h.readLocal_error e).missEff
            next e => exact (h.readLocal_ok e).collIssue

theorem nbPort (h : s.Canonical q) {d : QueryDesc} : (stateAfter (s.nbPort d)).Canonical q := by
  unfold State.nbPort
  extract_lets n fin
  have hfin : ∀ (v : State) (t : Option Trap), v.Canonical q → (stateAfter (fin v t)).Canonical q := by
    intro v t hv
    dsimp only [fin]
    split
    · cases t <;> exact hv
    · split
      · exact hv
      · split <;> exact hv
  split
  next e => exact hfin _ _ (h.translateAll.ok e)
  next m e =>
    have hm : m.state.Canonical q := h.translateAll.error e
    split
    · split
      · exact hfin _ _ hm
      · exact hm
    · exact hm

theorem startQuery (h : s.Canonical q) {w : Who} {d : QueryDesc} {hole koff voff frame : Nat} {es : List Nat} :
    (s.startQuery w d hole koff voff frame es).1.Canonical q := by
  unfold State.startQuery
  extract_lets p id _ x q'
  have hx : x.1.Canonical q := h.setHole.same.drawFor
  exact hx.same

theorem queryIssue (h : s.Canonical q) {o : LF} {w : Who} {d : QueryDesc} : (queryIssue o w d s).state.Canonical q := by
  unfold Machine.queryIssue
  dsimp only
  split
  · exact h
  · split
    next e1 => exact (h.nbPort.error e1).missEff
    next e2 =>
      split
      · exact h
      · split
        · exact h
        · exact (h.nbPort.ok e2).startQuery.issued

theorem bankQuery (h : s.Canonical q) {o : LF} {w : Who} : (bankQuery o w s).state.Canonical q := by
  unfold Machine.bankQuery
  dsimp only
  split
  · exact h
  · split
    · exact h
    · split
      · exact h
      · split
        next e => exact (h.readLocal_error e).missEff
        next e => exact (h.readLocal_ok e).queryIssue

theorem bankCancel (h : s.Canonical q) {o : LF} : (bankCancel o s).state.Canonical q := h.same.external

/-! ### The sorters (02 R33, 20, 21) -/

theorem undo (h : s.Canonical q) {e : LogEntry} : (s.undo e).Canonical q := by
  unfold State.undo
  split
  · exact h.withClus (putMasked_wf h.2.1 ..)
  next old =>
    extract_lets t _
    have ht : s.cur.filesOk = true → t.filesOk = true := fun hc => Task.filesOk_congr hc
    cases old with
    | none => exact h.setCur ht
    | some l => exact h.setCur fun hc => Task.filesOk_congr (ht hc)
  · extract_lets a d
    split
    next e => exact h.translate.error e
    next e =>
      split
      · exact (h.translate.ok e).copyLine
      · exact (h.translate.ok e).cacheLine

theorem checkpointHere (h : s.Canonical q) : s.checkpointHere.Canonical q :=
  h.newCur fun hq => by
    rw [Task.filesOk, Bool.and_eq_true]
    exact ⟨h.team_files hq, h.team_files hq⟩

theorem stopEngines (h : s.Canonical q) :
    s.stopEngines.Canonical q := h.same.ite ((h.same.foldl fun _ _ hu => hu.completePm).foldl fun _ _ hu => hu.completePm)

theorem dropMx (h : s.Canonical q) {snap : Team} : (s.dropMx snap).Canonical q := h.ite (h.foldl fun _ _ hu => hu.completePm)

theorem rollback (h : s.Canonical q) {reason : Nat} : (s.rollback reason).Canonical q := by
  unfold State.rollback
  split
  · exact h
  next snap e =>
    extract_lets s1 s2 _ s3 s4 _ s5
    have hsnap : q → snap.filesOk = true := fun hq => h.ckpt_files e hq
    have hs2 : s2.Canonical q := (h.stopEngines.dropMx).foldl fun _ _ hu => hu.undo
    clear_value s2
    have hs3 : s3.Canonical q := hs2.newCur fun hq => Task.filesOk_withTeam (hs2.cur_files hq) fun _ => hsnap hq
    have hs4 : s4.Canonical q := hs3.writeImage.releaseCore
    clear_value s4
    have hs5 : s5.Canonical q := hs4.setCur
    exact hs5.putState

theorem killHang (h : s.Canonical q) {detail : Word} : (s.killHang detail).Canonical q := by
  unfold State.killHang
  extract_lets t r s1 v s2
  have hs1 : s1.Canonical q := h.dropNumbers.discardTeam
  clear_value s1
  have hs2 : s2.Canonical q := hs1.setCur fun hc => Task.filesOk_congr (t := v) (by dsimp only [v]; split <;> exact hc)
  exact hs2.putState.postFault

theorem takeOff (h : s.Canonical q) {detail : Word} : (s.takeOff detail).Canonical q := h.ite (h.releaseCore.ite (h.kill.ite h.killHang))

theorem applyPolicy (h : s.Canonical q) {p : Policy} {reason : Nat} : (s.applyPolicy p reason).Canonical q := by
  unfold State.applyPolicy
  split
  · exact h.setCur
  · exact h.ite h.setCur
  · exact h.rollback
  · exact h.kill

theorem postHalt (h : s.Canonical q) : s.postHalt.Canonical q := h.post

theorem finishSave (h : s.Canonical q) {reason : Nat} :
    (s.finishSave reason).Canonical q := h.writeImage.releaseCore.setCur.putState.postHalt.ite h.writeImage.releaseCore.setCur.putState

theorem recallTask (h : s.Canonical q) {d : Nat} : (s.recallTask d).Canonical q := by
  unfold State.recallTask
  dsimp only
  split
  · exact h.setCur
  · split
    · exact h.setCur.squash
    · split
      · exact h.setCur.applyPolicy
      · exact h.setCur

theorem startRecall (h : s.Canonical q) {die : Nat} : (s.startRecall die).Canonical q := by
  unfold State.startRecall
  split
  · exact h
  · exact h.ite (h.setDie.foldl fun _ _ hu => hu.withTask fun _ hu => hu.recallTask)

theorem readied (h : s.Canonical q) {ids : List Nat} : (s.readied ids).Canonical q := by
  unfold State.readied
  refine h.foldl fun _ _ hu => ?_
  split
  · exact hu
  · split
    · exact hu.startRecall.ite hu
    · exact hu

theorem noted (h : s.Canonical q) {before : State} : (s.noted before).Canonical q := h.readied

/-! ### Task instructions (13) -/

theorem postSpecDecl (h : s.Canonical q) {t : Task} {slot when_ : Nat} : (s.postSpecDecl t slot when_).Canonical q := h.post

theorem setLaunch (h : s.Canonical q) {l : Launch} : (s.setLaunch l).Canonical q := h

theorem charge (h : s.Canonical q) {part q' est : Nat} : (s.charge part q' est).Canonical q := by
  unfold State.charge
  split
  · exact h
  · exact h.setPart

/-- A task's declarations checked: the task keeps its memories. -/
theorem declared_files {t : Tcb} {v : Task} (hv : v.filesOk = true) : (s.declared t v).2.filesOk = true := by
  unfold State.declared
  extract_lets one x
  have hone : ∀ (y : State × Task) (i : Nat), y.2.filesOk = true → (one y i).2.filesOk = true := by
    intro y i hy
    dsimp only [one]
    split
    · exact Task.filesOk_congr hy
    · exact hy
  have hx : x.2.filesOk = true := hone _ 1 (hone _ 0 hv)
  clear_value x
  split
  · exact hx
  · exact Task.filesOk_congr hx

theorem declared (h : s.Canonical q) {t : Tcb} {v : Task} : (s.declared t v).1.Canonical q := by
  unfold State.declared
  extract_lets one x
  have hone : ∀ (y : State × Task) (i : Nat), y.1.Canonical q → (one y i).1.Canonical q := by
    intro y i hy
    dsimp only [one]
    split
    · exact hy.postSpecDecl
    · exact hy
  have hx : x.1.Canonical q := hone _ 1 (hone _ 0 h)
  clear_value x
  split
  · exact hx
  · exact hx.postSpecDecl

theorem registerTask (h : s.Canonical q) {b : Word} {t : Tcb} : (s.registerTask b t).Canonical q := by
  unfold State.registerTask
  extract_lets x id a s1 s2 s3
  have hx : x.1.Canonical q := h.declared
  have hf : x.2.filesOk = true := declared_files Task.filesOk_blank
  clear_value x
  have hs1 : s1.Canonical q := hx.devWrite.devWrite.devWrite
  clear_value s1
  have hs2 : s2.Canonical q := hs1.addTask fun _ => hf
  clear_value s2
  have hs3 : s3.Canonical q := by
    dsimp only [s3]
    split
    · exact hs2.setLaunch.charge
    · exact hs2
  exact hs3.readied

theorem touchDecls (h : s.Canonical q) {t : Tcb} :
    (s.touchDecls t).Canonical q :=
  ((h.ite h.devTouch).foldl fun _ _ hu => hu.devTouch).devTouch.ite ((h.ite h.devTouch).foldl fun _ _ hu => hu.devTouch)

theorem taskEnqueue (h : s.Canonical q) {o : LF} {w : Who} : (taskEnqueue o w s).state.Canonical q := by
  unfold Machine.taskEnqueue
  dsimp only
  refine ite_state h (ite_state h (ite_state h.wbAll ?_))
  split
  · exact h.wbAll
  · split
    next e => exact (h.wbAll.translatePages.error e).missEff
    next v _ e =>
      have hv : v.Canonical q := h.wbAll.translatePages.ok e
      exact ite_state hv.devTouch.devTouch (ite_state hv.devTouch.devTouch hv.devTouch.devTouch.touchDecls.registerTask.external.done)

theorem endMember (h : s.Canonical q) {w : Who} : (s.endMember w).Canonical q := h.setMember.setTeam.ite h.setMember

theorem park (h : s.Canonical q) : s.park.Canonical q := h.releaseCore.setCur.answerTask.ite h

theorem taskEnd (h : s.Canonical q) {w : Who} : (taskEnd w s).state.Canonical q := by
  unfold Machine.taskEnd
  dsimp only
  split
  · split
    · exact h.blockWith
    · split
      · exact h
      · exact h.endMember.park
  · split
    · exact h
    · split
      · exact h
      · exact h.endMember.park

theorem taskYield (h : s.Canonical q) : (taskYield s).state.Canonical q := by
  unfold Machine.taskYield
  split
  · exact h.setCur
  · exact h

theorem taskAbort (h : s.Canonical q) {o : LF} : (taskAbort o s).state.Canonical q := h

theorem linkSegment (h : s.Canonical q) {part q' : Nat} {seg : Word} : (s.linkSegment part q' seg).Canonical q := by
  unfold State.linkSegment
  split
  · exact h
  · exact h.devWrite.setPart

theorem unstall (h : s.Canonical q) {part q' : Nat} : (s.unstall part q').Canonical q := by
  unfold State.unstall
  split
  · exact h.setPart.linkSegment.ite h
  · exact h

theorem enqueueRecord (h : s.Canonical q) {part q' : Nat} {v : Queue} {a : Acc} {p : Posted} {bs : List Byte} :
    (s.enqueueRecord part q' v a p bs).Canonical q :=
  h.devWrite.setPart.ite (h.devWrite.setPart.unstall.notify.ite h.devWrite.setPart.unstall)

theorem childAdded (h : s.Canonical q) {cid id : Nat} : (s.childAdded cid id).Canonical q := by
  unfold State.childAdded
  split
  · exact h.setLaunch
  · exact h

theorem launchEnds (h : s.Canonical q) {w : Who} {q' : Nat} : (launchEnds w q' s).state.Canonical q := by
  unfold Machine.launchEnds
  split <;> exact h.external

theorem launchPost (h : s.Canonical q) {w : Who} {q' : Nat} {v : Queue} {bs : List Byte} : (launchPost w q' v bs s).state.Canonical q := by
  unfold Machine.launchPost
  dsimp only
  split
  · exact h
  · split
    · exact h.foldl fun _ _ hu => hu.wbRange
    · split
      · split
        · exact (h.foldl fun _ _ hu => hu.wbRange).enqueueRecord.childAdded
        · exact (h.foldl fun _ _ hu => hu.wbRange).enqueueRecord.childAdded.launchEnds
      · split
        · exact (h.foldl fun _ _ hu => hu.wbRange).enqueueRecord.childAdded
        · exact (h.foldl fun _ _ hu => hu.wbRange).enqueueRecord.childAdded.launchEnds

theorem launchNew (h : s.Canonical q) {o : LF} {w : Who} : (launchNew o w s).state.Canonical q := by
  unfold Machine.launchNew
  dsimp only
  split
  · exact h
  · split
    · exact h
    · split
      · exact h
      · split
        next e1 => exact (h.readLocal_error e1).missEff
        next e1 _ => exact h.readLocal_ok e1
        next e2 _ =>
          split
          · exact h.readLocal_ok e2
          · split
            · exact h.readLocal_ok e2
            · exact (h.readLocal_ok e2).launchPost

theorem launchHeld (h : s.Canonical q) {w : Who} {n : Nat} {x : Eff} (e : s.launchHeld w n = some x) : x.state.Canonical q := by
  unfold State.launchHeld at e
  split at e
  · cases e
    split
    · exact h
    · exact h.launchEnds
  · cases e

theorem launchChild (h : s.Canonical q) {o : LF} {w : Who} : (launchChild o w s).state.Canonical q := by
  unfold Machine.launchChild
  split
  next e => exact h.launchHeld e
  · exact h.launchNew

theorem waitRead (h : s.Canonical q) {d : Desc} {b : Word} {ps : List Tlb} {va n : Nat} {report : Bool} :
    (s.waitRead d b ps va n report).1.Canonical q := by
  unfold State.waitRead
  extract_lets x
  have hx : x.1.Canonical q := h.homeReads
  clear_value x
  split
  · exact hx
  · exact (hx.foldl fun _ _ hu => hu.postError).ite hx

theorem wordWait (h : s.Canonical q) {o : LF} {w : Who} : (wordWait o w s).state.Canonical q := by
  unfold Machine.wordWait
  extract_lets n b m report
  refine ite_state h ?_
  split
  · exact h
  · extract_lets d va
    split
    next e => exact (h.translateUnder.error e).missEff
    next v _ e =>
      have hv : v.Canonical q := h.translateUnder.ok e
      extract_lets x word
      have hx : x.1.Canonical q := hv.wbAll.waitRead
      exact ite_state h (ite_state hx.invAll.external.setX.done hx)

theorem blockStat (h : s.Canonical q) {o : LF} : (blockStat o s).state.Canonical q := by
  unfold Machine.blockStat
  dsimp only
  split
  · exact h
  · split
    next e1 => exact (h.translatePages.error e1).missEff
    next e2 =>
      split
      · exact h.translatePages.ok e2
      · exact (h.translatePages.ok e2).settle.setX

theorem scrubLocal (h : s.Canonical q) {o : LF} {w : Who} : (scrubLocal o w s).state.Canonical q := by
  unfold Machine.scrubLocal
  dsimp only
  split
  · exact h
  · split
    · exact h
    · split
      · exact h
      · exact h.setLocalBytes

theorem rotateBlock (h : s.Canonical q) {b : Word} {va pa slot : Nat} : (s.rotateBlock b va pa slot).1.Canonical q := by
  unfold State.rotateBlock
  dsimp only
  split
  · exact h.settle.setBlock
  · split
    · exact h.settle
    · split
      · exact h.settle.postError
      · split
        · exact h.settle.postError
        · exact h.settle.setBlock.bump

theorem rotateKeys (h : s.Canonical q) {o : LF} {w : Who} : (rotateKeys o w s).state.Canonical q := by
  unfold Machine.rotateKeys
  dsimp only
  refine ite_state h (ite_state h (ite_state h.external.setX.done (ite_state h ?_)))
  split
  · exact h
  · split
    next e => exact (h.translatePages.error e).missEff
    next e =>
      refine ite_state h (State.Canonical.done (State.Canonical.foldl_fst (h.translatePages.ok e) fun _ _ hu => ?_).external.setX)
      split
      · exact hu
      · exact hu.rotateBlock

theorem markDeadRange (h : s.Canonical q) {o : LF} {w : Who} : (markDeadRange o w s).state.Canonical q := by
  unfold Machine.markDeadRange
  dsimp only
  refine ite_state h (ite_state h.external.done (ite_state h ?_))
  split
  · exact h
  · refine ite_state h (ite_state h ?_)
    split
    next e => exact (h.translatePages.error e).missEff
    next e =>
      refine ite_state h (State.Canonical.done (State.Canonical.foldl (h.translatePages.ok e).wbRange fun _ _ hu => ?_).invRange.external)
      split
      · exact hu
      · exact hu.killBlock

theorem sealRead (h : s.Canonical q) {b : Word} {ps : List Tlb} {n : Nat} :
    (s.sealRead b ps n).1.Canonical q := h.homeReads.foldl fun _ _ hu => hu.postRead

theorem sealImage (h : s.Canonical q) {img : Word} {rs : List (Word × Nat × Nat)} {ps : List Tlb} : (s.sealImage img rs ps).Canonical q := by
  unfold State.sealImage
  extract_lets size cid table marks head x h' e p s1 s2 s3
  have hx : x.1.Canonical q := h.foldl_fst fun _ _ hu => hu.sealRead
  have hs1 : s1.Canonical q := hx.setPart
  have hs2 : s2.Canonical q := hs1.wbRange
  have hs3 : s3.Canonical q := hs2.homeWrites
  exact hs3.invRange

theorem sealIssue (h : s.Canonical q) {o : LF} {w : Who} {a : Nat} : (sealIssue o w a s).state.Canonical q := by
  unfold Machine.sealIssue
  extract_lets cid d rs size clash ranges late
  split
  · exact h
  · split
    · exact h
    · split
      next e => exact (h.translateAll.error e).missEff
      next v _ e =>
        have hv : v.Canonical q := h.translateAll.ok e
        split
        next e' => exact (hv.translateAll.error e').missEff
        next x _ e' =>
          extract_lets u1
          have hu1 : u1.Canonical q := (hv.translateAll.ok e').foldl fun _ _ hu => hu.wbRange
          clear_value u1
          split
          · exact h
          · split
            · exact h
            · exact hu1.sealImage.external.setX.done

theorem sealRanges (h : s.Canonical q) {o : LF} {w : Who} : (sealRanges o w s).state.Canonical q := by
  unfold Machine.sealRanges
  dsimp only
  split
  · exact h
  · split
    · exact h
    · split
      · exact h
      · split
        · exact h
        · split
          next e => exact (h.readLocal_error e).missEff
          next e => exact (h.readLocal_ok e).sealIssue

theorem unsealWrite (h : s.Canonical q) {ps : List Tlb} {rs : List ((Word × Nat × Nat) × List Byte)} :
    (s.unsealWrite ps rs).Canonical q := h.foldl fun _ _ hu => hu.wbRange.homeWrites.invRange

theorem unsealImageOf (h : s.Canonical q) {o : LF} {w : Who} {img : List Byte} {avail : Nat} :
    (unsealImageOf o w img avail s).state.Canonical q := by
  unfold Machine.unsealImageOf
  split
  · exact h.external.setX
  · split
    next e1 => exact (h.translateAll.error e1).missEff
    next e2 =>
      split
      · exact h
      · exact (h.translateAll.ok e2).unsealWrite.external.setX

theorem unsealRanges (h : s.Canonical q) {o : LF} {w : Who} : (unsealRanges o w s).state.Canonical q := by
  unfold Machine.unsealRanges
  dsimp only
  refine ite_state h ?_
  split
  · exact h
  · refine ite_state h ?_
    split
    next e => exact (h.readLocal_error e).missEff
    next v e =>
      have hv : v.Canonical q := h.readLocal_ok e
      refine ite_state hv ?_
      split
      · exact hv
      · split
        next e => exact (hv.translatePages.error e).missEff
        next e => exact ite_state h (hv.translatePages.ok e).wbRange.sealRead.unsealImageOf

/-! ### The task graph (02 R31-R35, 06) -/

theorem settleLaunch (h : s.Canonical q) {fuel cid id : Nat} : (State.settleLaunch fuel s cid id).Canonical q := by
  induction fuel generalizing s id with
  | zero => exact h
  | succ fuel ih =>
    unfold State.settleLaunch
    split
    next l hf _ =>
      cases hf
      split
      · extract_lets s1 s2
        have hs1 : s1.Canonical q := h.devWrite
        have hs2 : s2.Canonical q := hs1
        clear_value s2
        split
        · exact hs2
        · split
          · exact hs2
          · exact ih hs2.setLaunch
      · exact h
    · exact h

theorem settleLaunches (h : s.Canonical q) : s.settleLaunches.Canonical q := h.foldl fun _ _ hu => hu.settleLaunch

theorem taskGone (h : s.Canonical q) {cancelled : Nat} : (s.taskGone cancelled).Canonical q := by
  unfold State.taskGone
  split
  · exact h
  · exact h.setLaunch

theorem freeSlot (h : s.Canonical q) : s.freeSlot.Canonical q := by
  unfold State.freeSlot
  refine State.Canonical.setCur ?_
  split
  · exact h.setCtx
  · exact h

theorem postTaskGraph (h : s.Canonical q) {b : Word} {cause : Nat} : (s.postTaskGraph b cause).Canonical q := h.post

theorem succList (h : s.Canonical q) {cid : Nat} {a : Acc} {succ : Word}
    {n : Nat} : (s.succList cid a succ n).1.Canonical q := h.devTouch.ite_fst h

theorem historyUpdate (h : s.Canonical q) : s.historyUpdate.1.Canonical q := by
  unfold State.historyUpdate
  extract_lets t a s' hist s0 s1 s2
  have hs' : s'.Canonical q := h.devTouch
  have hs2 : s2.Canonical q := hs'.devTouch.devWrite.devWrite
  clear_value s2
  split
  · exact h
  · split
    · exact hs'.postSpecDecl
    · exact hs2.ite hs2.devWrite

theorem drainPart (h : s.Canonical q) {l : ProofLine} {p : ProofPart} {mask : BitVec 64} : (s.drainPart l p mask).Canonical q := h.copyLine

theorem drainLine (h : s.Canonical q) {l : ProofLine} : (s.drainLine l).Canonical q := by
  unfold State.drainLine
  split
  · exact h
  · exact h.drainPart.ite (h.foldl fun _ _ hu => hu.drainPart)

theorem commitNumbers (h : s.Canonical q) : s.commitNumbers.Canonical q := (h.foldl fun _ _ hu => hu.completePm).setCur

theorem commit (h : s.Canonical q) : s.commit.Canonical q := (h.foldl fun _ _ hu => hu.drainLine).commitNumbers.setCur.putState

theorem reportHeld (h : s.Canonical q) : s.reportHeld.Canonical q := by
  unfold State.reportHeld
  split
  · exact h
  · exact h.setCur.putState.postFault

theorem markDone (h : s.Canonical q) : s.markDone.1.Canonical q := by
  unfold State.markDone
  extract_lets x s1 _ s2
  have hs1 : s1.Canonical q := h.wbAll.historyUpdate.releaseCore
  clear_value s1
  have hs2 : s2.Canonical q := hs1.setCur fun _ => rfl
  exact hs2.putState.freeSlot

theorem decrementOne (h : s.Canonical q) : s.decrementOne.Canonical q := h.setCur.tcbPut.makeReady.ite h.setCur.tcbPut

theorem decrement (h : s.Canonical q) {b : Word} : (s.decrement b).Canonical q := by
  unfold State.decrement
  dsimp only
  split
  · exact h
  · split
    · exact h.postTaskGraph
    · split
      · exact h.postTaskGraph
      · split
        · exact h.postTaskGraph.ite (h.withTask fun _ hu => hu.decrementOne)
        · exact h.devTouch.postTaskGraph.ite h.devTouch.devWrite

theorem noticed_files {t : Task} (ht : t.filesOk = true) {id : Nat} {good : Bool} : (t.noticed id good).filesOk = true := by
  unfold Task.noticed
  dsimp only
  split <;> split <;> exact ht

theorem completeTask (h : s.Canonical q) : s.completeTask.Canonical q := by
  unfold State.completeTask
  extract_lets id x s1 l s2 s3 s4
  have hs2 : s2.Canonical q := h.markDone.succList.foldl fun _ _ hu => hu.decrement
  clear_value s2
  have hs3 : s3.Canonical q := hs2.mapTasks fun _ ht => noticed_files ht
  exact hs3.unsquash.taskGone.settleLaunches.readied

theorem commitEnds (h : s.Canonical q) : s.commitEnds.Canonical q := (h.completeTask.ite h.reportHeld).ite h

theorem commitOne (h : s.Canonical q) : s.commitOne.Canonical q := h.commit.commitEnds.ite h

theorem commitAll (h : s.Canonical q) {fuel : Nat} : (State.commitAll fuel s).Canonical q := by
  induction fuel generalizing s with
  | zero => exact h
  | succ fuel ih =>
    unfold State.commitAll
    split
    · exact h
    · exact ih (h.withTask fun _ hu => hu.commitOne)

theorem complete (h : s.Canonical q) : s.complete.Canonical q := h.completeTask.commitAll

theorem afterCommit (h : s.Canonical q) : s.afterCommit.Canonical q := h.commitEnds.commitAll

theorem tryCommit (h : s.Canonical q) : s.tryCommit.Canonical q := h.commitOne.commitAll

theorem dropHeld (h : s.Canonical q) : s.dropHeld.Canonical q := by
  unfold State.dropHeld
  dsimp only
  split
  · exact h.setPart.setLaunch
  · exact h.setPart

theorem cancelOne (h : s.Canonical q) : s.cancelOne.Canonical q := by
  unfold State.cancelOne
  extract_lets id s1 s2
  have hs1 : s1.Canonical q := h.squashTree.ite h.dropNumbers
  have hs2 : s2.Canonical q := hs1.discardTeam.dropHeld.putState.freeSlot
  exact hs2.squashDependants.taskGone

theorem cancelFree (h : s.Canonical q) {cid launch : Nat} {a : Acc} {b : Word} : (s.cancelFree cid launch a b).Canonical q := by
  unfold State.cancelFree
  dsimp only
  split
  · exact h.devWrite.setLaunch
  · exact h.devWrite

theorem cascade (h : s.Canonical q) {fuel cid launch : Nat} {a : Acc} {work : List Word} :
    (State.cascade fuel s cid launch a work).Canonical q := by
  induction fuel generalizing s work with
  | zero => exact h
  | succ fuel ih =>
    cases work with
    | nil => exact h
    | cons b rest =>
      unfold State.cascade
      split
      · exact ih h
      · split
        · split
          · exact ih h
          · exact ih (h.succList.withTask fun _ hu => hu.cancelOne)
        · dsimp only
          split
          · exact ih h.devTouch.succList.cancelFree
          · exact ih h.devTouch

theorem cancel (h : s.Canonical q) : s.cancel.Canonical q := h.succList.cancelOne.cascade.unsquash.settleLaunches.readied

/-! ### System instructions (23) -/

theorem sysEnd (h : s.Canonical q) {o : LF} {code : Nat} : (sysEnd o code s).state.Canonical q := h.setX

theorem sysWait (h : s.Canonical q) {h' : Fin 16} {w : HartWait} : (sysWait h' w s).state.Canonical q := h.setHart

theorem hubOnly (h : s.Canonical q) {o : LF} {h' : Fin 16} {e : Eff} (he : e.state.Canonical q) : (hubOnly o h' s e).state.Canonical q := by
  unfold Machine.hubOnly
  split
  · exact h.sysEnd
  · exact he

theorem onTask (h : s.Canonical q) {o : LF} {i : Fin 16} {k : Task → Eff} (hk : ∀ a, (k a).state.Canonical q) :
    (onTask o i s k).state.Canonical q := by
  unfold Machine.onTask
  split
  · exact h.sysEnd
  · exact hk _

theorem onTaskHub (h : s.Canonical q) {o : LF} {i : Fin 16} {k : Task → Eff} (hk : ∀ a, (k a).state.Canonical q) :
    (onTaskHub o i s k).state.Canonical q := h.hubOnly (h.onTask hk)

theorem failedImage (h : s.Canonical q) {id : Nat} : (s.failedImage id).Canonical q := h.withTask fun _ hu => hu.killHang

theorem ctxSave (h : s.Canonical q) {reason : Nat} {o : LF} {h' : Fin 16} : (ctxSave reason o h' s).state.Canonical q := by
  unfold Machine.ctxSave
  refine h.onTask fun _ => ?_
  split
  · exact h.sysEnd
  · split
    · exact (h.withTask fun _ hu => hu.finishSave).sysEnd
    · split
      · exact h.sysWait
      · exact (h.withTask fun _ hu => hu.setCur).sysWait

theorem ctxRestore (h : s.Canonical q) {o : LF} {h' : Fin 16} : (ctxRestore o h' s).state.Canonical q := by
  unfold Machine.ctxRestore
  refine h.onTask fun _ => ?_
  split
  · exact h.sysEnd
  · split
    · exact h.sysEnd
    · split
      · exact h.failedImage.sysEnd
      · exact (h.withTask fun _ hu => hu.setCur.makeReady).readied.sysEnd

theorem ctxCheckpoint (h : s.Canonical q) {o : LF} {h' : Fin 16} : (ctxCheckpoint o h' s).state.Canonical q := by
  unfold Machine.ctxCheckpoint
  refine h.onTask fun _ => ?_
  split
  · exact h.sysEnd
  · exact (h.withTask fun _ hu => hu.setCur).sysWait

theorem ctxRollback (h : s.Canonical q) {o : LF} {h' : Fin 16} : (ctxRollback o h' s).state.Canonical q := by
  unfold Machine.ctxRollback
  refine h.onTask fun _ => ?_
  split
  · exact h.sysEnd
  · split
    · exact (h.withTask fun _ hu => hu.rollback).sysEnd
    · split
      · exact (h.withTask fun _ hu => hu.kill).noted.sysEnd
      · split
        · exact (h.withTask fun _ hu => hu.finishSave).sysEnd
        · exact (h.withTask fun _ hu => hu.applyPolicy).sysWait

theorem releaseHeld (h : s.Canonical q) : s.releaseHeld.Canonical q := h.setPart

theorem applyAnswer (h : s.Canonical q) {w : Who} : (s.applyAnswer w).Canonical q := by
  unfold State.applyAnswer
  dsimp only
  split
  · exact h.setMember.retireMember.external.setCur
  · exact h.setMember.takeTrap
  · exact h

theorem applyAnswers (h : s.Canonical q) : s.applyAnswers.Canonical q := h.applyAnswer.applyAnswer.applyAnswer

theorem tresmResume (h : s.Canonical q) {o : LF} {h' : Fin 16} : (tresmResume o h' s).state.Canonical q := by
  unfold Machine.tresmResume
  refine h.onTaskHub fun _ => ?_
  split
  · exact h.sysEnd
  · split
    · exact h.sysEnd
    · split
      · exact h.sysEnd
      · split
        · exact h.failedImage.sysEnd
        · exact (h.withTask fun _ hu => hu.releaseHeld.resumeTask).readied.sysEnd

theorem tresmRestart (h : s.Canonical q) {o : LF} {h' : Fin 16} : (tresmRestart o h' s).state.Canonical q := by
  unfold Machine.tresmRestart
  refine h.onTaskHub fun _ => ?_
  split
  · exact h.sysEnd
  · split
    · exact h.sysEnd
    · exact (h.withTask fun _ hu => hu.releaseHeld.restartTask).readied.sysEnd

theorem enterCore (h : s.Canonical q) {c : CoreId} : (s.enterCore c).Canonical q := by
  unfold State.enterCore
  extract_lets s' _ t s1
  have hs' : s'.Canonical q := h.adoptSize
  have ht : s'.cur.filesOk = true → t.filesOk = true := fun hc => Task.filesOk_congr hc
  clear_value s'
  have hs1 : s1.Canonical q ∧ s1.cur = s'.cur := by
    dsimp only [s1]
    split
    · split
      · exact ⟨hs', rfl⟩
      · exact ⟨hs'.setCtx, rfl⟩
    · exact ⟨hs', rfl⟩
  clear_value s1
  exact (hs1.1.setCur (hs1.2 ▸ ht)).dropClean

theorem stepOn (h : s.Canonical q) {c : CoreId} : (s.stepOn c).Canonical q := h.enterCore.setCur.applyAnswers.checkpointHere

theorem beginStep (h : s.Canonical q) {w : Who} : (s.beginStep w).Canonical q := by
  unfold State.beginStep
  extract_lets _ v
  have hv : v.Canonical q := h.setCur
  clear_value v
  split
  · exact hv.stepOn
  · exact hv

theorem tresmStep (h : s.Canonical q) {o : LF} {h' : Fin 16} : (tresmStep o h' s).state.Canonical q := by
  unfold Machine.tresmStep
  refine h.onTaskHub fun _ => ?_
  split
  · exact h.sysEnd
  · split
    · exact h.sysEnd
    · split
      · exact h.sysEnd
      · split
        · exact h.sysEnd
        · split
          · exact h.failedImage.sysEnd
          · exact (h.withTask fun _ hu => hu.beginStep).sysEnd

theorem stepEnds (h : s.Canonical q) {w : Who} {d1 d2 : Word} : (s.stepEnds w d1 d2).Canonical q := h.same.endStep

theorem tresmAbandon (h : s.Canonical q) {o : LF} {h' : Fin 16} : (tresmAbandon o h' s).state.Canonical q := by
  unfold Machine.tresmAbandon
  refine h.onTaskHub fun _ => ?_
  split
  · exact h.sysEnd
  · split
    · exact h.sysEnd
    · split
      · exact h.sysEnd
      · exact (h.withTask fun _ hu => hu.setMember.stepEnds).sysEnd

theorem tresmRelease (h : s.Canonical q) {o : LF} {h' : Fin 16} : (tresmRelease o h' s).state.Canonical q := by
  unfold Machine.tresmRelease
  refine h.onTaskHub fun _ => ?_
  split
  · exact h.sysEnd
  · split
    · exact h.sysEnd
    · exact (h.withTask fun _ hu => hu.releaseHeld).sysEnd

theorem deliverReturn (h : s.Canonical q) {w : Who} {r : Answer} :
    (s.deliverReturn w r).Canonical q := h.setMember.ite (h.setMember.applyAnswer.stepEnds.ite h.setMember.applyAnswer)

theorem deliverFault (h : s.Canonical q) {w : Who} {r : Answer} :
    (s.deliverFault w r).Canonical q := h.setMember.ite (h.setMember.takeTrap.ite h.setMember.setMember.setCur.putState.postFault)

theorem tresmService (h : s.Canonical q) {o : LF} {h' : Fin 16} : (tresmService o h' s).state.Canonical q := by
  unfold Machine.tresmService
  refine h.onTaskHub fun _ => ?_
  dsimp only
  split
  · exact h.sysEnd
  · split
    · exact h.sysEnd
    · exact (h.withTask fun _ hu => hu.deliverReturn.ite hu.deliverFault).sysEnd

theorem taskCancel (h : s.Canonical q) {o : LF} {h' : Fin 16} : (taskCancel o h' s).state.Canonical q := by
  unfold Machine.taskCancel
  refine h.onTaskHub fun _ => ?_
  split
  · exact h.sysEnd
  · exact (h.withTask fun _ hu => hu.cancel).sysEnd

theorem startInval (h : s.Canonical q) {h' : Fin 16} {cid va n : Nat} : (s.startInval h' cid va n).Canonical q := h

theorem tlbInvalidate (h : s.Canonical q) {o : LF} {h' : Fin 16} : (tlbInvalidate o h' s).state.Canonical q := by
  unfold Machine.tlbInvalidate
  refine h.hubOnly ?_
  split
  · exact h.sysEnd
  · split
    · exact h.sysEnd
    · exact h.startInval.sysWait

theorem onSlot (h : s.Canonical q) {o : LF} {i : Fin 16} {k : Nat → Nat → KeySlot → Eff} (hk : ∀ a b c, (k a b c).state.Canonical q) :
    (onSlot o i s k).state.Canonical q := by
  unfold Machine.onSlot
  exact h.hubOnly (h.sysEnd.ite_state (h.sysEnd.ite_state (hk ..)))

theorem takeGen (h : s.Canonical q) {p : Nat} : (s.takeGen p).Canonical q := h.setPart

theorem keyLoadNew (h : s.Canonical q) {o : LF} {h' : Fin 16} : (keyLoadNew o h' s).state.Canonical q := by
  unfold Machine.keyLoadNew
  refine h.onSlot fun _ _ _ => ?_
  split
  · exact h.sysEnd
  · split
    · exact h.sysEnd
    · exact h.setKeySlot.takeGen.sysEnd

theorem keyLoad (h : s.Canonical q) {o : LF} {h' : Fin 16} : (keyLoad o h' s).state.Canonical q := by
  unfold Machine.keyLoad
  refine h.onSlot fun _ _ _ => ?_
  dsimp only
  split
  · exact h.sysEnd
  · exact h.setKeySlot.takeGen.sysEnd

theorem settleSlot (h : s.Canonical q) {n : Nat} : (s.settleSlot n).Canonical q := h.settleWhere

theorem keyClear (h : s.Canonical q) {o : LF} {h' : Fin 16} : (keyClear o h' s).state.Canonical q := by
  unfold Machine.keyClear
  refine h.onSlot fun _ _ _ => ?_
  dsimp only
  split
  · exact h.sysEnd
  · split
    · exact h.sysEnd
    · exact h.settleSlot.setKeySlot.sysEnd

theorem keyClearAll (h : s.Canonical q) {o : LF} {h' : Fin 16} : (keyClearAll o h' s).state.Canonical q := by
  unfold Machine.keyClearAll
  refine h.onSlot fun _ _ _ => ?_
  split
  · exact h.sysEnd
  · exact h.settleSlot.setKeySlot.sysEnd

theorem zeroOldClusters (h : s.Canonical q) {c : Context} {die : Nat} : (s.zeroOldClusters c die).Canonical q :=
  h.foldl fun _ _ hu => hu.withClus (Sparse.wf_clear hu.2.1 ..)

theorem squashWhere (h : s.Canonical q) {p : Task → Bool} :
    (s.squashWhere p).Canonical q := h.foldl fun _ _ hu => hu.withTask fun _ hu => hu.squash.ite hu

theorem rebound_files {t : Task} (ht : t.filesOk = true) {cid : Nat} {new : List Nat} : (t.rebound cid new).filesOk = true := by
  unfold Task.rebound
  split <;> exact ht

theorem bindVdies (h : s.Canonical q) {c : Context} {new : List Nat} {bs : List Byte} : (s.bindVdies c new bs).Canonical q := by
  unfold State.bindVdies
  extract_lets gone s0 s1 s2
  have hs1 : s1.Canonical q := h.squashWhere.foldl fun _ _ hu => hu.zeroOldClusters
  clear_value s1
  have hs2 : s2.Canonical q := hs1.setCtx.fwWrite
  clear_value s2
  exact (hs2.mapTasks fun _ ht => rebound_files ht).withCur fun hc => rebound_files hc

theorem sliceMap (h : s.Canonical q) {o : LF} {h' : Fin 16} : (sliceMap o h' s).state.Canonical q := by
  unfold Machine.sliceMap
  refine h.hubOnly ?_
  split
  · exact h.sysEnd
  · split
    · exact h.sysEnd
    · split
      · split
        · exact h.sysEnd
        · exact h.bindVdies.sysEnd
      · exact h.sysEnd

theorem scrubDie (h : s.Canonical q) {die : Nat} : (s.scrubDie die).Canonical q := by
  unfold State.scrubDie
  extract_lets s0 mine s1
  have hs1 : s1.Canonical q := h.squashWhere.foldl fun _ _ hu => hu.writeBack
  clear_value s1
  exact hs1.withClus (Sparse.wf_clear hs1.2.1 ..)

theorem rekey (h : s.Canonical q) {parts : List Nat} : (s.rekey parts).Canonical q := h.foldl fun _ _ hu => hu.setPart

theorem sliceLend (h : s.Canonical q) {o : LF} {h' : Fin 16} : (sliceLend o h' s).state.Canonical q := by
  unfold Machine.sliceLend
  refine h.hubOnly ?_
  split
  · exact h.sysEnd
  · split
    · split
      · exact h.sysEnd
      · split <;> exact h.sysEnd
    · split
      · exact h.sysEnd
      · split
        · exact h.sysEnd
        · split
          · exact h.sysEnd
          · exact h.scrubDie.rekey.setDie.sysEnd

theorem sliceRecall (h : s.Canonical q) {o : LF} {h' : Fin 16} : (sliceRecall o h' s).state.Canonical q := by
  unfold Machine.sliceRecall
  refine h.hubOnly ?_
  split
  · exact h.sysEnd
  · split
    · exact h.sysEnd
    · split
      · exact h.sysEnd
      · exact h.startRecall.noted.sysWait

theorem queueLink (h : s.Canonical q) {o : LF} {h' : Fin 16} : (queueLink o h' s).state.Canonical q := by
  unfold Machine.queueLink
  refine h.hubOnly ?_
  split
  · exact h.sysEnd
  · split
    · exact h.sysEnd
    · split
      · exact h.sysEnd
      · split
        · exact h.sysEnd
        · dsimp only
          split
          · exact h.devTouch.sysEnd
          · split
            · exact h.devTouch.sysEnd
            · exact (h.devTouch.ite h.devTouch.setPart).linkSegment.sysEnd

theorem recordPost (h : s.Canonical q) {o : LF} {h' : Fin 16} : (recordPost o h' s).state.Canonical q := by
  unfold Machine.recordPost
  refine h.hubOnly ?_
  split
  · exact h.sysEnd
  · split
    · exact h.sysEnd
    · exact h.post.sysEnd

theorem stampSetPool (h : s.Canonical q) {o : LF} {h' : Fin 16} : (stampSetPool o h' s).state.Canonical q := by
  unfold Machine.stampSetPool
  dsimp only
  split
  · exact h.sysEnd
  · split
    · split
      · exact h.sysEnd
      · split
        · exact h.sysEnd
        · exact h.setDie.sysEnd
    · split
      · exact h.sysEnd
      · split
        · exact h.sysEnd
        · exact h.setDie.sysEnd

theorem timeSet (h : s.Canonical q) {o : LF} {h' : Fin 16} : (timeSet o h' s).state.Canonical q := by
  unfold Machine.timeSet
  refine h.hubOnly ?_
  split
  · exact h.sysEnd
  · exact h.same.sysEnd

theorem timeAdjust (h : s.Canonical q) {o : LF} {h' : Fin 16} : (timeAdjust o h' s).state.Canonical q := by
  unfold Machine.timeAdjust
  refine h.hubOnly ?_
  split
  · exact h.sysEnd
  · split
    · exact h.sysEnd
    · exact h.same.sysEnd

/-! ### Starts (02 R26, 06 R102-R109, 20 R348) -/

theorem takeSlot (h : s.Canonical q) {k : Nat} : (s.takeSlot k).Canonical q := by
  unfold State.takeSlot
  split
  · exact h.setCtx.setCur
  · exact h

theorem startHoles (h : s.Canonical q) {es : List Word} (e : s.startHoles es = some u) : u.Canonical q := by
  have hk : ∀ v ∈ s.startHoles es, v.Canonical q := by
    unfold State.startHoles
    refine List.foldlRecOn (motive := fun r : Option State => ∀ v ∈ r, v.Canonical q) _ _ (fun v hv => Option.mem_some.mp hv ▸ h) fun r hr
      x _ => ?_
    split
    · exact hr
    next w =>
      have hw : w.Canonical q := hr w rfl
      split
      · exact hr
      · split
        · exact fun v hv => Option.mem_some.mp hv ▸ hw.setHole
        · exact fun _ hv => absurd hv (Option.not_mem_none _)
  exact hk u e

theorem touchCode (h : s.Canonical q) : s.touchCode.Canonical q := h.devTouch.foldl fun _ _ hu => hu.devTouch

theorem startTeam_files : s.startTeam.filesOk = true := rfl

theorem applyPhcfg_ok (h : s.Canonical q) (e : s.applyPhcfg = .ok u) : u.Canonical q := by
  unfold State.applyPhcfg at e
  dsimp only at e
  split at e
  · cases e
    exact h
  · split at e
    · cases e
    · split at e
      · cases e
      next et =>
        split at e
        next es =>
          cases e
          exact (h.translatePages.ok et).devTouch.startHoles es
        · cases e

theorem applyPhcfg_error (h : s.Canonical q) {m : Miss} (e : s.applyPhcfg = .error m) : m.state.Canonical q := by
  unfold State.applyPhcfg at e
  dsimp only at e
  split at e
  · cases e
  · split at e
    · cases e
      exact h
    · split at e
      next et =>
        cases e
        exact h.translatePages.error et
      next et =>
        split at e
        · cases e
        · cases e
          exact (h.translatePages.ok et).devTouch

theorem startFresh (h : s.Canonical q) {c : CoreId} {spec : Bool} (e : s.startFresh c spec = some u) : u.Canonical q := by
  unfold State.startFresh at e
  extract_lets s1 _ s2 at e
  have hs1 : s1.Canonical q := h.enterCore.touchCode
  clear_value s1
  have hs2 : s2.Canonical q := (hs1.setCur fun hc => Task.filesOk_withTeam hc fun _ => startTeam_files).putState
  clear_value s2
  split at e
  next v ev =>
    cases e
    exact (hs2.applyPhcfg_ok ev).checkpointHere
  next m em =>
    obtain ⟨t, _, rfl⟩ := Option.map_eq_some_iff.mp e
    have hm : (m.state.takeTrap .seq t).Canonical q := (hs2.applyPhcfg_error em).takeTrap
    exact hm.setCur

theorem restoreOn (h : s.Canonical q) {c : CoreId} : (s.restoreOn c).Canonical q := by
  unfold State.restoreOn
  split
  · exact h.killHang
  · split
    · exact h.squash
    · extract_lets t t1 u0 s0 s1
      have ht : s.cur.team.filesOk = true → t1.filesOk = true := fun hs => filesOk_restored (by
        split
        · exact hs
        · exact hs)
      have hu0 : u0.Canonical q := h.setTeam ht
      have hs0 : s0.Canonical q := hu0
      clear_value s0
      have hs1 : s1.Canonical q := hs0.enterCore.putState
      clear_value s1
      have hs2 : ({ s1 with cur := { s1.cur with image := false } } : State).Canonical q := hs1.setCur
      exact hs2.applyAnswers.checkpointHere

theorem restoreIdle (h : s.Canonical q) : s.restoreIdle.Canonical q := (h.putState.ite h.putState.afterCommit).ite h.killHang

theorem startTask (h : s.Canonical q) {t : Task} {c : CoreId} : (s.startTask t c).Canonical q := by
  unfold State.startTask
  split
  · exact h
  · refine h.withTask fun u hu => ?_
    extract_lets v w
    have hv : v.Canonical q := hu.takeSlot
    clear_value v
    have hw : w.Canonical q := by
      dsimp only [w]
      split
      · exact hv
      · exact hv.setCur
    clear_value w
    split
    · exact hv.restoreIdle
    · split
      · exact hv.restoreOn
      · cases e : w.startFresh c v.cur.spec with
        | none => exact hu
        | some x => exact hw.startFresh e

theorem granted (h : s.Canonical q) {t : Task} {c : CoreId} (ht : q → t.filesOk = true) : (s.granted t c).Canonical q := by
  unfold State.granted
  extract_lets s1
  have hs1 : s1.Canonical q := by
    dsimp only [s1]
    split
    · exact h.setCtx
    · exact h
  exact hs1.setTask ht

theorem putGuess_files {t : Task} (ht : t.filesOk = true) {va : Nat} {bs : List Byte} : (t.putGuess va bs).filesOk = true := by
  refine List.foldlRecOn (motive := fun u : Task => u.filesOk = true) _ _ ht fun u hu _ _ => ?_
  exact Task.filesOk_congr hu

theorem proveSlot (h : s.Canonical q) {i : Nat} : (s.proveSlot i).Canonical q := by
  unfold State.proveSlot
  extract_lets t f
  have hf : ∀ (n : Nat) (p : Option Nat) (g : List Nat) (v : Task), v.filesOk = true → (f n p g v).filesOk = true := by
    intro n p g v hv
    dsimp only [f]
    split <;> exact hv
  split
  · exact h.setCur fun hc => hf _ _ _ _ hc
  · exact h.setCur fun hc => putGuess_files (hf _ _ _ _ hc)

theorem touchSlot (h : s.Canonical q) {assay : Bool} {i : Nat} :
    (s.touchSlot assay i).Canonical q := h.ite (h.devTouch.devTouch.foldl fun _ _ hu => hu.devTouch)

theorem startSpec (h : s.Canonical q) {t : Task} {c : CoreId} : (s.startSpec t c).Canonical q := by
  unfold State.startSpec
  split
  · exact h
  · refine h.withTask fun u hu => ?_
    extract_lets u' _ v _ w
    have hu' : u'.Canonical q := hu.adoptSize
    clear_value u'
    have hv : v.Canonical q := State.Canonical.takeSlot hu'.setCur
    clear_value v
    have hw : w.Canonical q := hv.setCur
    clear_value w
    cases e : State.startFresh ((w.proveSlot 0).proveSlot 1) c true with
    | none => exact hu'
    | some x => exact hw.proveSlot.proveSlot.startFresh e

end Sys2Proof.Machine.State.Canonical
end

section
/-! What the events do to the state. -/

namespace Sys2Proof.Machine.State.Canonical

set_option Elab.async false

variable {q : Prop} {s u : State}

/-! ### Events of one task -/

theorem onArg (h : s.Canonical q) {f : State → State} (hf : ∀ u, u.Canonical q → (f u).Canonical q) : (s.onArg f).Canonical q :=
  h.withTask hf

theorem beginStop (h : s.Canonical q) {r : Stop} : (s.beginStop r).Canonical q := h.setCur

theorem abandonStop (h : s.Canonical q) : s.abandonStop.Canonical q := h.rollback.ite h.killHang

theorem hang (h : s.Canonical q) : s.hang.Canonical q := by
  unfold State.hang
  split
  · exact h
  · split
    · exact h.abandonStop
    · split
      · exact h
      · exact h.takeTrap

theorem evLanding (h : s.Canonical q) : (evLanding s).Canonical q := by
  refine h.onArg fun u hu => ?_
  have hv : (u.setTeam u.cur.team.landDue).Canonical q := hu.setTeam fun hs => filesOk_landDue hs
  exact hv.ite (hv.foldl fun _ _ hx => hx.completePm)

theorem evTrap (h : s.Canonical q) : (evTrap s).Canonical q := by
  unfold Machine.evTrap
  refine h.onArg fun _ hu => ?_
  split
  · exact hu.ite hu.finishTrap
  · exact hu

theorem evTaskStart (h : s.Canonical q) : (evTaskStart s).Canonical q := by
  unfold Machine.evTaskStart
  split
  · exact h
  · exact h.startTask.noted.ite ((h.withTask fun _ hu => hu.stepOn).ite h)

theorem evTaskComplete (h : s.Canonical q) : (evTaskComplete s).Canonical q := h.onArg fun _ hu => hu.complete.ite hu

theorem evSpeculativeStart (h : s.Canonical q) : (evSpeculativeStart s).Canonical q := by
  unfold Machine.evSpeculativeStart
  dsimp only
  split
  · exact h
  · exact (h.onArg fun _ hu => hu.touchSlot.touchSlot).startSpec.ite h

theorem setAssay_files {t : Task} (ht : t.filesOk = true) {i : Nat} {a : Assay} : (t.setAssay i a).filesOk = true := by
  unfold Task.setAssay
  split <;> exact ht

theorem evAssayNotice (h : s.Canonical q) : (evAssayNotice s).Canonical q := by
  refine h.onArg fun u hu => ?_
  split
  · have hv : (u.touchSlot true (s.arg 1)).Canonical q := hu.touchSlot
    exact hv.setCur fun hc => setAssay_files hc
  · exact hu

theorem passSlot_files {t : Task} (ht : t.filesOk = true) {i : Nat} : (t.passSlot i).filesOk = true := by
  unfold Task.passSlot
  split <;> exact ht

theorem evAssayVerdict (h : s.Canonical q) : (evAssayVerdict s).Canonical q := by
  refine (h.onArg fun u hu => ?_).noted
  split
  · exact (hu.setCur fun hc => passSlot_files (setAssay_files hc)).tryCommit
  · exact (hu.setCur fun hc => setAssay_files hc).squash
  · exact hu

theorem evProofStoreTimeout (h : s.Canonical q) : (evProofStoreTimeout s).Canonical q := (h.onArg fun _ hu => hu.squash.ite hu).noted

theorem evTeamSwap (h : s.Canonical q) : (evTeamSwap s).Canonical q := h.onArg fun _ hu => hu.beginStop.ite hu

theorem evSwapRequeue (h : s.Canonical q) : (evSwapRequeue s).Canonical q := h.onArg fun _ hu => hu.makeReady.readied.ite hu

theorem evHangTimeout (h : s.Canonical q) : (evHangTimeout s).Canonical q := (h.onArg fun _ hu => hu.hang).noted

theorem takeOffDie (h : s.Canonical q) {die : Nat} {detail : Task → Word} :
    (s.takeOffDie die detail).Canonical q := h.foldl fun _ _ hu => hu.withTask fun _ hu => hu.takeOff

theorem evFirmwareWatchdog (h : s.Canonical q) : (evFirmwareWatchdog s).Canonical q := by
  unfold Machine.evFirmwareWatchdog
  split
  · extract_lets v s1 _ d
    have hs1 : s1.Canonical q := h.setHart
    exact h.setHart.ite (hs1.same.ite hs1.setDie.takeOffDie.noted)
  · exact h

theorem evSaveComplete (h : s.Canonical q) : (evSaveComplete s).Canonical q := by
  unfold Machine.evSaveComplete
  refine h.onArg fun _ hu => ?_
  split
  · exact hu.ite hu.finishSave
  · exact hu

theorem evCheckpointDue (h : s.Canonical q) : (evCheckpointDue s).Canonical q := h.onArg fun _ hu => hu.setCur.ite hu

theorem evCheckpointTaken (h : s.Canonical q) : (evCheckpointTaken s).Canonical q := h.onArg fun _ hu => hu.checkpointHere.answerHarts.ite hu

/-! ### Events of launches -/

theorem linkStalled (h : s.Canonical q) {part : Nat} : (s.linkStalled part).Canonical q := h.foldl fun _ _ hu => hu.unstall

theorem advanceHead (h : s.Canonical q) {part q' : Nat} {v : Queue} :
    (s.advanceHead part q' v).Canonical q := h.setPart.ite h.devTouch.setPart.linkStalled

theorem childRejected (h : s.Canonical q) {cid parent : Nat} : (s.childRejected cid parent).Canonical q := by
  unfold State.childRejected
  split
  · exact h.setLaunch.settleLaunches
  · exact h

theorem acceptRecord (h : s.Canonical q) {part q' : Nat} {v : Queue} {c : Context} {bs : List Byte} :
    (s.acceptRecord part q' v c bs).Canonical q := by
  unfold State.acceptRecord
  extract_lets a kernel args id parent depth s1 s1' k verdict s2 ls n l s3
  have hs1 : s1.Canonical q := h.setCtx.advanceHead
  clear_value s1
  have hs1' : s1'.Canonical q := hs1.devTouch
  clear_value s1'
  have hs2 : s2.Canonical q := hs1'.devWrite
  clear_value s2
  have hs3 : s3.Canonical q := hs2.devWrite
  clear_value s3
  exact hs1.post.childRejected.ite (hs2.devWrite.childRejected.ite hs3.same)

theorem loopTask_files {l : Launch} {k : Kernel} {v : Nat} {t : Nat × Nat × Nat} : (s.loopTask l k v t).filesOk = true := rfl

theorem dispatchOne (h : s.Canonical q) {l : Launch} {v : Nat} : (s.dispatchOne l v).Canonical q := by
  unfold State.dispatchOne
  extract_lets s0 k p prio s1 s2
  have hs1 : s1.Canonical q := h.devTouch.setPart
  clear_value s1
  have hs2 : s2.Canonical q := (hs1.addTask fun _ => loopTask_files).setLaunch
  clear_value s2
  exact hs2.charge.readied

theorem credited (h : s.Canonical q) {part : Nat} : (s.credited part).Canonical q := h.foldl fun _ _ hu => hu.setPart

theorem applySched (h : s.Canonical q) {part : Nat} : (s.applySched part).Canonical q := by
  unfold State.applySched
  dsimp only
  split
  · exact h
  · exact h.setPart

theorem hostSubmit (h : s.Canonical q) {part q' size : Nat} {v : Queue} {bs : List Byte} : (s.hostSubmit part q' size v bs).Canonical q := by
  unfold State.hostSubmit
  dsimp only
  split <;> exact (h.setPart.notify.ite h.setPart).ite h.enqueueRecord

theorem supervisorSubmit (h : s.Canonical q) {part q' : Nat} {v : Queue} {bs : List Byte} :
    (s.supervisorSubmit part q' v bs).Canonical q := h.ite h.enqueueRecord

theorem evLaunchAccept (h : s.Canonical q) : (evLaunchAccept s).Canonical q := by
  unfold Machine.evLaunchAccept
  dsimp only
  split
  · exact h
  · split
    · exact h
    · exact h.ite (h.advanceHead.ite h.devTouch.acceptRecord)

theorem evHostLaunchSubmit (h : s.Canonical q) : (evHostLaunchSubmit s).Canonical q := by
  unfold Machine.evHostLaunchSubmit
  dsimp only
  split
  · split
    · exact h
    · exact h.supervisorSubmit
  · exact h.hostSubmit.ite h

theorem evQuantumTick (h : s.Canonical q) : (evQuantumTick s).Canonical q := h.setPart.applySched.credited.ite h

theorem evDispatch (h : s.Canonical q) : (evDispatch s).Canonical q := by
  unfold Machine.evDispatch
  dsimp only
  split
  · exact h.dispatchOne.ite h
  · exact h

theorem evTokenRefill (h : s.Canonical q) : (evTokenRefill s).Canonical q := by
  unfold Machine.evTokenRefill
  dsimp only
  split
  · exact h
  · exact h.ite h.setPart

theorem evReservePoolRefill (h : s.Canonical q) : (evReservePoolRefill s).Canonical q := h.setPart.linkStalled

/-! ### Events of the sorters -/

theorem preemptOne (h : s.Canonical q) {urgent : Bool} {drain : Option Nat} {reason : Nat} : (s.preemptOne urgent drain reason).Canonical q := by
  unfold State.preemptOne
  split
  · exact h
  · split
    · exact h.applyPolicy
    · exact h

theorem preemptFor (h : s.Canonical q) {n : Task} {l : Launch} {q' : Queue} {vs : List Task} {paid : Nat} :
    (s.preemptFor n l q' vs paid).Canonical q :=
  (h.setPart.withTask fun _ hu => hu.setCur).foldl fun _ _ hu => hu.withTask fun _ hu => hu.preemptOne

theorem preempt (h : s.Canonical q) {n : Task} {past : Option Nat} {paid : Nat} : (s.preempt n past paid).Canonical q := by
  unfold State.preempt
  split
  · exact h
  · split
    · split
      · exact h
      · split
        · exact h.preemptFor.ite h
        · exact h
    · exact h

theorem replaceVictim (h : s.Canonical q) {v : Task} : (s.replaceVictim v).Canonical q := by
  unfold State.replaceVictim
  split
  · exact h
  · dsimp only
    split
    · exact (h.withTask fun _ hu => hu.setCur).preempt
    · exact h.withTask fun _ hu => hu.setCur

theorem regain (h : s.Canonical q) : s.regain.Canonical q := h.setCur

theorem restoreGang (h : s.Canonical q) {cid : Nat} : (s.restoreGang cid).Canonical q := h.foldl fun _ _ hu => hu.withTask fun _ hu => hu.regain

theorem commitGang (h : s.Canonical q) {g : Gang} {table : List Nat} : (s.commitGang g table).Canonical q := by
  unfold State.commitGang
  split
  · exact h
  · extract_lets s1 s2
    have hs1 : s1.Canonical q := h
    have hs2 : s2.Canonical q := by
      dsimp only [s2]
      split
      · exact hs1
      · split
        · exact hs1.bindVdies
        · exact hs1
    exact hs2.restoreGang

theorem forceRollback (h : s.Canonical q)
    {reason : Nat} : (s.forceRollback reason).Canonical q := h.ite (h.rollback.ite (h.kill.ite h.applyPolicy))

theorem resetDieWith (h : s.Canonical q) {detail : Task → Word} {die : Nat} : (s.resetDieWith detail die).Canonical q := by
  unfold State.resetDieWith
  extract_lets s0 s1 s2 _ s3 s3'
  have hs0 : s0.Canonical q := h
  have hs1 : s1.Canonical q := hs0.takeOffDie
  clear_value s1
  have hs2 : s2.Canonical q := hs1.withClus (Sparse.wf_clear hs1.2.1 ..)
  clear_value s2
  have hs3 : s3'.Canonical q := by
    dsimp only [s3']
    split
    · exact hs2.setDie.setHart
    · exact hs2.setDie
  clear_value s3'
  split
  · exact hs3.notify
  · exact hs3

theorem resetDie (h : s.Canonical q) {die : Nat} : (s.resetDie die).Canonical q := h.resetDieWith

theorem tellOwner (h : s.Canonical q) {die : Nat} : (s.tellOwner die).Canonical q := h

theorem returnDie (h : s.Canonical q) {die : Nat} {l : Loan} : (s.returnDie die l).Canonical q := h.scrubDie.rekey.setDie.answerHarts

theorem evPreempt (h : s.Canonical q) : (evPreempt s).Canonical q := by
  unfold Machine.evPreempt
  split
  · exact h.preempt.noted
  · exact h

theorem drainOver (h : s.Canonical q) : s.drainOver.Canonical q := by
  unfold State.drainOver
  dsimp only
  split
  · exact h.setCur.applyPolicy
  · exact h.setCur.replaceVictim

theorem evDrainTimeout (h : s.Canonical q) : (evDrainTimeout s).Canonical q := (h.onArg fun _ hu => hu.drainOver.ite hu).noted

theorem evGangSwitch (h : s.Canonical q) : (evGangSwitch s).Canonical q := by
  unfold Machine.evGangSwitch
  dsimp only
  split
  · exact h.ite (h.same.foldl fun _ _ hu => hu.withTask fun _ hu => hu.preemptOne).noted
  · exact h

theorem evGangVote (h : s.Canonical q) : (evGangVote s).Canonical q := by
  unfold Machine.evGangVote
  split
  · exact h
  · exact h.ite h.commitGang

theorem evGangVoteDeadline (h : s.Canonical q) : (evGangVoteDeadline s).Canonical q := by
  unfold Machine.evGangVoteDeadline
  split
  · exact h
  · exact h.ite (h.foldl fun _ _ hu => hu.withTask fun _ hu => hu.forceRollback).noted

theorem evGangResetDeadline (h : s.Canonical q) : (evGangResetDeadline s).Canonical q := by
  unfold Machine.evGangResetDeadline
  split
  · exact h
  · exact h.ite (h.same.foldl fun _ _ hu => hu.resetDieWith.tellOwner).commitGang.noted

theorem evRecallDeadline (h : s.Canonical q) : (evRecallDeadline s).Canonical q := by
  unfold Machine.evRecallDeadline
  dsimp only
  split
  · exact h
  · split
    · exact h
    · exact h.ite h.resetDieWith.noted

theorem evRecallReturn (h : s.Canonical q) : (evRecallReturn s).Canonical q := by
  unfold Machine.evRecallReturn
  dsimp only
  split
  · exact h
  · exact h.returnDie.ite h

/-! ### Events of memory -/

theorem holdTxn (h : s.Canonical q) {t : Txn} : (s.holdTxn t).Canonical q := h.setBlock

theorem onTxn (h : s.Canonical q) {home : Bool} {f : Txn → State → State} (hf : ∀ t u, u.Canonical q → (f t u).Canonical q) :
    (s.onTxn home f).Canonical q := by
  unfold State.onTxn
  split
  · exact h
  next t _ =>
    split
    · extract_lets v
      have hv : v.Canonical q := h
      exact hv.holdTxn.ite (hf _ _ hv)
    · exact h

theorem sendErrors (h : s.Canonical q) {cid num : Nat} {x : Send} {es : List (Nat × Nat × Nat)} :
    (s.sendErrors cid num x es).Canonical q := h.foldl fun _ _ hu => hu.postError

theorem performSend (h : s.Canonical q) {c : Coll} {x : Send} : (s.performSend c x).Canonical q := h.homeReads.sendErrors.homeWrites

theorem finishInval (h : s.Canonical q) {v : Inval} : (s.finishInval v).Canonical q := by
  unfold State.finishInval
  extract_lets s1 ids s2
  have hs1 : s1.Canonical q := h.foldl fun _ _ hu => hu.invRange
  clear_value s1
  have hs2 : s2.Canonical q := hs1.foldl fun _ _ hu => hu.withTask fun _ hu => hu.squash.ite hu
  clear_value s2
  exact hs2.same.answerHarts.noted

theorem evCacheEviction (h : s.Canonical q) : (evCacheEviction s).Canonical q := by
  unfold Machine.evCacheEviction
  split
  · exact h
  · extract_lets u' dst
    have hu' : u'.Canonical q := h.dropCache
    exact hu'.ite (h.ite hu'.same)

theorem copyFault (h : s.Canonical q) {c : Copy} {ms : List Move} : (s.copyFault c ms).Canonical q := by
  unfold State.copyFault
  split
  · exact h.postLocalUe.takeTrap.ite h.postLocalUe
  · exact h

theorem evCopyComplete (h : s.Canonical q) : (evCopyComplete s).Canonical q := by
  unfold Machine.evCopyComplete
  split
  · exact h
  · refine h.withTask fun _ hu => ?_
    dsimp only
    split
    · split
      next e => exact (hu.finishCopy e).copyFault
      · exact hu.freezeFull
    · exact hu.copyAhead.copyFault
    · exact hu.copyEarly.copyFault

theorem evSyncGrant (h : s.Canonical q) : (evSyncGrant s).Canonical q := by
  unfold Machine.evSyncGrant
  split
  · exact h
  · exact h.setSync

theorem evNbqAccept (h : s.Canonical q) : (evNbqAccept s).Canonical q := by
  unfold Machine.evNbqAccept
  split
  · exact h
  · exact h.nbAccept.ite h

theorem evNbEngineRecord (h : s.Canonical q) : (evNbEngineRecord s).Canonical q := by
  unfold Machine.evNbEngineRecord
  split
  · exact h
  · exact h.nbEngine.ite h

theorem evNbSummary (h : s.Canonical q) : (evNbSummary s).Canonical q := by
  unfold Machine.evNbSummary
  split
  · exact h
  · exact h.nbFinish.ite h

theorem evSameBankRefresh (h : s.Canonical q) : (evSameBankRefresh s).Canonical q := h.setMdie.ite h

theorem evCollArrival (h : s.Canonical q) : (evCollArrival s).Canonical q := by
  unfold Machine.evCollArrival
  split
  · exact h
  · split
    · exact h
    · exact h.performSend.settleColl

theorem evHomeRead (h : s.Canonical q) : (evHomeRead s).Canonical q := by
  unfold Machine.evHomeRead
  refine h.onTxn fun _ _ hu => ?_
  split
  · exact hu.performTxn
  · exact h

theorem evHomeWrite (h : s.Canonical q) : (evHomeWrite s).Canonical q := by
  unfold Machine.evHomeWrite
  refine h.onTxn fun _ _ hu => ?_
  split
  · exact hu.performTxn
  · exact h

theorem evBlockUnlock (h : s.Canonical q) : (evBlockUnlock s).Canonical q := h.unlock

theorem evHomeAtomic (h : s.Canonical q) : (evHomeAtomic s).Canonical q := by
  unfold Machine.evHomeAtomic
  refine h.onTxn fun _ _ hu => ?_
  split
  · exact hu.performTxn
  · exact h

theorem evErrorScrub (h : s.Canonical q) : (evErrorScrub s).Canonical q := (h.setDie.same.ite h).ite (h.setMdie.same.ite h)

theorem evCompletion (h : s.Canonical q) : (evCompletion s).Canonical q := by
  unfold Machine.evCompletion
  refine h.onTxn fun _ _ hu => ?_
  split
  · exact hu
  · exact h

theorem evAcknowledgementToken (h : s.Canonical q) : (evAcknowledgementToken s).Canonical q := by
  unfold Machine.evAcknowledgementToken
  refine h.onTxn fun _ _ hu => ?_
  split
  · exact hu
  · exact h

theorem evDirectoryMessage (h : s.Canonical q) : (evDirectoryMessage s).Canonical q := by
  unfold Machine.evDirectoryMessage
  split
  · exact h
  · exact h.setSync

theorem evManagementMessage (h : s.Canonical q) : (evManagementMessage s).Canonical q := by
  unfold Machine.evManagementMessage
  refine h.onTxn fun _ _ hu => ?_
  split
  · exact hu
  · exact h

theorem evTlbirAck (h : s.Canonical q) : (evTlbirAck s).Canonical q := by
  unfold Machine.evTlbirAck
  split
  · exact h
  · exact h.finishInval.ite h

theorem evPageWalk (h : s.Canonical q) : (evPageWalk s).Canonical q := by
  unfold Machine.evPageWalk
  dsimp only
  split
  · exact h
  · split
    next e1 => exact h.translate.error e1
    next e2 => exact h.translate.ok e2

/-! ### Events of confidential computing (22) -/

theorem clearSlots (h : s.Canonical q) {part : Nat} : (s.clearSlots part).Canonical q := h.foldl fun _ _ hu => hu.settleSlot.setKeySlot.ite hu

theorem zeroise (h : s.Canonical q) {part : Nat} : (s.zeroise part).Canonical q := by
  unfold State.zeroise
  extract_lets s1 _ s2
  have hs1 : s1.Canonical q := h.clearSlots
  clear_value s1
  have hs2 : s2.Canonical q := hs1
  clear_value s2
  exact hs2.setPart

theorem tdiError (h : s.Canonical q) {part : Nat} : (s.tdiError part).Canonical q := h.zeroise.setPart.ite h

theorem respond (h : s.Canonical q) {request port nonce : Nat} : (s.respond request port nonce).Canonical q := h

theorem setSpdm (h : s.Canonical q) {port : Nat} {v : Spdm} : (s.setSpdm port v).Canonical q := by
  unfold State.setSpdm
  split <;> exact h

theorem spdmMove (h : s.Canonical q) {port : Nat} {ok : Spdm → Bool} {f : Spdm → Spdm} {response : List Word} :
    (s.spdmMove port ok f response).Canonical q := h.setSpdm.same.ite h

theorem spdmStep (h : s.Canonical q) {request port nonce : Nat} {ok : Spdm → Bool} {f : Spdm → Spdm} :
    (s.spdmStep request port nonce ok f).Canonical q := h.spdmMove

theorem installRecord (h : s.Canonical q) {part : Nat} {t : Tenant} {genno : BitVec 32} : (s.installRecord part t genno).Canonical q := h.setPart

theorem joinFails (h : s.Canonical q) {part : Nat} : (s.joinFails part).Canonical q := h.setPart.notify

theorem joinMoves (h : s.Canonical q) {part : Nat} {j : Join} : (s.joinMoves part j).Canonical q := h.setPart

theorem loadLinkKeys (h : s.Canonical q) {part peer : Nat} {mine theirs : List Byte} : (s.loadLinkKeys part peer mine theirs).Canonical q := h

theorem joined (h : s.Canonical q) {part peer : Nat} {t : Tenant} {mine theirs : List Byte} :
    (s.joined part peer t mine theirs).Canonical q := h.setPart.loadLinkKeys

theorem evTenantSet (h : s.Canonical q) : (evTenantSet s).Canonical q := h.installRecord.ite h

theorem evGetTdispVersion (h : s.Canonical q) : (evGetTdispVersion s).Canonical q := h.respond

theorem evGetTdispCapabilities (h : s.Canonical q) : (evGetTdispCapabilities s).Canonical q := h.respond

theorem evLockInterfaceRequest (h : s.Canonical q) : (evLockInterfaceRequest s).Canonical q := h.setPart.ite h

theorem evGetDeviceInterfaceReport (h : s.Canonical q) : (evGetDeviceInterfaceReport s).Canonical q := h

theorem evGetDeviceInterfaceState (h : s.Canonical q) : (evGetDeviceInterfaceState s).Canonical q := h

theorem evStartInterfaceRequest (h : s.Canonical q) : (evStartInterfaceRequest s).Canonical q := h.setPart.ite h

theorem evStopInterfaceRequest (h : s.Canonical q) : (evStopInterfaceRequest s).Canonical q := h.zeroise.setPart.ite (h.setPart.ite h)

theorem evIdeKm (h : s.Canonical q) : (evIdeKm s).Canonical q := h.ite (h.setPart.ite (h.same.ite h))

theorem evIdeStreamFailure (h : s.Canonical q) : (evIdeStreamFailure s).Canonical q := h.same.ite h.tdiError.setPart

theorem evGetVersion (h : s.Canonical q) : (evGetVersion s).Canonical q := h.spdmMove

theorem evGetCapabilities (h : s.Canonical q) : (evGetCapabilities s).Canonical q := h.spdmStep

theorem evNegotiateAlgorithms (h : s.Canonical q) : (evNegotiateAlgorithms s).Canonical q := h.spdmStep

theorem evGetDigests (h : s.Canonical q) : (evGetDigests s).Canonical q := h.spdmMove

theorem evGetCertificate (h : s.Canonical q) : (evGetCertificate s).Canonical q := h.spdmMove

theorem evChallenge (h : s.Canonical q) : (evChallenge s).Canonical q := h.spdmMove

theorem evGetMeasurements (h : s.Canonical q) : (evGetMeasurements s).Canonical q := h.spdmMove

theorem evKeyExchange (h : s.Canonical q) : (evKeyExchange s).Canonical q := h.spdmStep

theorem evFinish (h : s.Canonical q) : (evFinish s).Canonical q := h.spdmStep

theorem evEndSession (h : s.Canonical q) : (evEndSession s).Canonical q := h.spdmStep

theorem sendHello (h : s.Canonical q) {part peer : Nat} : (s.sendHello part peer).Canonical q := by
  unfold State.sendHello
  extract_lets
  exact h.joinMoves.withReply

theorem answerHello (h : s.Canonical q) {part peer : Nat} {m : List Byte} : (s.answerHello part peer m).Canonical q := by
  unfold State.answerHello
  extract_lets
  split
  · exact h.joinMoves.withReply
  · exact h.joinFails

theorem sendFinish (h : s.Canonical q) {part peer : Nat} {t : Tenant} {j : Join} {m : List Byte} :
    (s.sendFinish part peer t j m).Canonical q := by
  unfold State.sendFinish
  extract_lets z secret v
  have hv : v.Canonical q := h.joinMoves
  exact hv.withReply

theorem answerFinish (h : s.Canonical q) {part peer : Nat} {j : Join} {m : List Byte} :
    (s.answerFinish part peer j m).Canonical q := by
  unfold State.answerFinish
  split
  · exact h.joinFails
  · extract_lets k v
    have hv : v.Canonical q := h.installRecord.joined
    exact hv.withReply

theorem evJoinHello (h : s.Canonical q) : (evJoinHello s).Canonical q := h.ite ((h.sendHello.ite h).ite h.answerHello)

theorem evJoinReply (h : s.Canonical q) : (evJoinReply s).Canonical q := by
  unfold Machine.evJoinReply
  dsimp only
  split
  · exact h
  · split
    · exact h.sendFinish.ite h.joinFails
    · exact h.joinFails
    · exact h

theorem evJoinFinish (h : s.Canonical q) : (evJoinFinish s).Canonical q := by
  unfold Machine.evJoinFinish
  dsimp only
  split
  · exact h
  · split
    · exact h.answerFinish.ite h.joinFails
    · exact h

theorem evJoinDone (h : s.Canonical q) : (evJoinDone s).Canonical q := by
  unfold Machine.evJoinDone
  dsimp only
  split
  · exact h
  · split
    · exact h.joined.ite h.joinFails
    · exact h.joinFails
    · exact h

theorem evJoinTimeout (h : s.Canonical q) : (evJoinTimeout s).Canonical q := by
  unfold Machine.evJoinTimeout
  dsimp only
  split
  · exact h.joinFails.ite h
  · exact h

/-! ### Events of links, time and UALink (24) -/

theorem noteCuts (h : s.Canonical q) : s.noteCuts.Canonical q := h

theorem dropLink (h : s.Canonical q) {n : Nat} : (s.dropLink n).Canonical q := h.setLink.noteCuts

theorem linkFails (h : s.Canonical q) {n : Nat} {key : List Nat} : (s.linkFails n key).Canonical q := h.dropLink.ite h.setLink

theorem dropSends (h : s.Canonical q) : s.dropSends.Canonical q := h.foldl fun _ _ hu => hu.ite (hu.foldl fun _ _ hu => hu.completePm).setColl

theorem orphanDie (h : s.Canonical q) {n : Nat} : (s.orphanDie n).Canonical q := by
  unfold State.orphanDie
  extract_lets ids s1 s2 s3 d s4
  have hs1 : s1.Canonical q := h
  have hs2 : s2.Canonical q := hs1.foldl fun _ _ hu => hu.withTask fun _ hu => hu.stopEngines.dropSends
  have hs3 : s3.Canonical q := hs2.resetDie
  have hs4 : s4.Canonical q := hs3.setDie
  split
  · exact hs4.tdiError
  · exact hs4

theorem orphanStack (h : s.Canonical q) {m : Nat} : (s.orphanStack m).Canonical q := by
  unfold State.orphanStack
  extract_lets d s1 s2
  have hs1 : s1.Canonical q := h.setMdie
  have hs2 : s2.Canonical q := hs1.same.failHeld.failQueries
  split
  · exact hs2.notify.tdiError
  · exact hs2

theorem setClock (h : s.Canonical q) {d : Nat} {c : Clock} : (s.setClock d c).Canonical q := h.same.ite (h.setDie.ite h.setMdie)

theorem ualinkAt (h : s.Canonical q) {kind pa size : Nat} {bs : List Byte} {cid slot : Nat} {nb : Bool} {b : Word} :
    (s.ualinkAt kind pa size bs cid slot nb b).1.Canonical q := by
  unfold State.ualinkAt
  extract_lets u' t x old failed lm
  have hu' : u'.Canonical q := h.settle
  have hfailed : failed.Canonical q := by
    dsimp only [failed]
    split
    · exact hu'.reportErrors
    · exact hu'
  split
  · exact hfailed
  · exact hu'.lineWrite
  · exact hfailed.ite_fst (hu'.ite hu'.lineWrite)

theorem ualinkReply (h : s.Canonical q) {n part peer : Nat} {header bs : List Byte} : (s.ualinkReply n part peer header bs).Canonical q := by
  unfold State.ualinkReply
  split
  · exact h
  · exact h.setPort

theorem accept (h : s.Canonical q) {ts : List Txn} : (s.accept ts).Canonical q := h

theorem evBurstTag (h : s.Canonical q) : (evBurstTag s).Canonical q := h.ite (h.setLink.burstTaken.accept.ite h.linkFails)

theorem evReplayRequest (h : s.Canonical q) : (evReplayRequest s).Canonical q := h.linkFails.ite h

theorem evLinkDown (h : s.Canonical q) : (evLinkDown s).Canonical q := h.dropLink.ite h

theorem evLinkUp (h : s.Canonical q) : (evLinkUp s).Canonical q := h.ite h.setLink.noteCuts

theorem evOrphanTimeout (h : s.Canonical q) : (evOrphanTimeout s).Canonical q := h.orphanDie.noted.ite (h.orphanStack.ite h)

theorem evTimeExchangeTick (h : s.Canonical q) : (evTimeExchangeTick s).Canonical q := (h.setClock.same.ite h.setClock.same.burstTaken).ite h

theorem evTimeExchange (h : s.Canonical q) :
    (evTimeExchange s).Canonical q := (h.same.ite h).ite (h.ite (h.setDie.burstTaken.ite h.setMdie.burstTaken))

theorem evTimeUnlockTimeout (h : s.Canonical q) : (evTimeUnlockTimeout s).Canonical q := h.setDie.ite (h.setMdie.ite h)

theorem evUalinkTransaction (h : s.Canonical q) : (evUalinkTransaction s).Canonical q := by
  unfold Machine.evUalinkTransaction
  dsimp only
  split
  · exact h
  · split
    · exact h
    · split
      · exact h.setPort
      · exact h.setPort.ualinkAt.ualinkReply

theorem evUalinkLaneFault (h : s.Canonical q) : (evUalinkLaneFault s).Canonical q := h.setPort.ite h.setPort

/-! ### Events of the package (25) -/

theorem heard (h : s.Canonical q) {master : Nat} : (s.heard master).Canonical q := h.same.ite h

theorem byOwner (h : s.Canonical q) {master : Nat} {f : State → State} (hf : ∀ u, u.Canonical q → (f u).Canonical q) :
    (s.byOwner master f).Canonical q := by
  unfold State.byOwner
  extract_lets v
  have hv : v.Canonical q := h.heard
  exact State.Canonical.ite (hf _ hv) hv

theorem setOwner (h : s.Canonical q) {o : BitVec 2} : (s.setOwner o).Canonical q := h

theorem claim (h : s.Canonical q) {master : Nat} {rival : Bool} : (s.claim master rival).Canonical q := by
  unfold State.claim
  dsimp only
  split
  · exact State.Canonical.withReply h.setOwner
  · split
    · exact State.Canonical.withReply h.setOwner
    · exact h

theorem writeRemap (h : s.Canonical q) {die reg : Nat} {v : Word} : (s.writeRemap die reg v).Canonical q := h.ite h.setDie

theorem clearStatus (h : s.Canonical q) {reg : Nat} {ones : Word} :
    (s.clearStatus reg ones).Canonical q := h.ite (h.same.ite (h.setDie.ite (h.setMdie.ite h)))

theorem killStack (h : s.Canonical q) {m : Nat} : (s.killStack m).Canonical q := h.withMem (Sparse.wf_clear h.1 ..)

theorem resetStack (h : s.Canonical q) {m : Nat} : (s.resetStack m).Canonical q := h.setMdie.same.failHeld.failQueries

theorem retrain (h : s.Canonical q) {d : Nat} :
    (s.retrain d).Canonical q := (h.foldl fun _ _ hu => hu.setLink).setDie.ite (h.foldl fun _ _ hu => hu.setLink).setMdie

theorem bringBack (h : s.Canonical q) {d : Nat} :
    (s.bringBack d).Canonical q := (h.setDie.rekey.retrain.ite h).ite ((h.setMdie.killStack.retrain.ite h).ite h)

theorem freeSlice (h : s.Canonical q) {n : Nat} : (s.freeSlice n).Canonical q := h.killStack.killStack.setMdie.setMdie

theorem createPart (h : s.Canonical q) {part pageCtl svcCtl : Nat}
    {ns : List Nat} : (s.createPart part pageCtl svcCtl ns).Canonical q := h.setPart

theorem destroyPart (h : s.Canonical q) {part : Nat} : (s.destroyPart part).Canonical q := h.zeroise.setPart

theorem rebindAll (h : s.Canonical q) {part : Nat} : (s.rebindAll part).Canonical q := h.foldl fun _ _ hu => hu.bindVdies

theorem partRequest (h : s.Canonical q) {part pageCtl svcCtl : Nat} {ns : List Nat} (e : s.partRequest part pageCtl svcCtl ns = some u) :
    u.Canonical q := by
  unfold State.partRequest at e
  extract_lets p gone s1 at e
  have hs1 : s1.Canonical q := h.setPart
  clear_value s1
  split at e
  · cases e
  · split at e
    · split at e
      · cases e
      · cases e
        exact h.destroyPart.foldl fun _ _ hu => hu.freeSlice
    · split at e
      · cases e
      · split at e
        · cases e
          exact h.createPart
        · split at e
          · cases e
          · cases e
            exact hs1.rebindAll.foldl fun _ _ hu => hu.freeSlice

theorem writeDesc (h : s.Canonical q) {part cid index : Nat} {bs : List Byte} : (s.writeDesc part cid index bs).Canonical q := by
  unfold State.writeDesc
  split
  · exact h
  · exact h.fwWrite.ite h

theorem addFrames (h : s.Canonical q) {part stack size : Nat} {ns : List Nat} : (s.addFrames part stack size ns).Canonical q := h.setMdie.ite h

theorem writeSched (h : s.Canonical q) {part tw hg dm ci pz : Nat} : (s.writeSched part tw hg dm ci pz).Canonical q := h.ite h.setPart

theorem writeQueue (h : s.Canonical q) {part q' cid weight prio tokcap refill : Nat} {seg : Word} :
    (s.writeQueue part q' cid weight prio tokcap refill seg).Canonical q := h.ite h.setPart

theorem writeContext (h : s.Canonical q) {part : Nat} {bs : List Byte} : (s.writeContext part bs).Canonical q := by
  unfold State.writeContext
  dsimp only
  split
  · exact h
  · split
    · split
      · exact h.setCtx
      · exact h
    · split
      · exact h.same.fwWrite
      · exact h

theorem aperFails (h : s.Canonical q) {part : Nat} : (s.aperFails part).Canonical q := h.setPart

theorem aperCheck (h : s.Canonical q) {cid : Nat} {b : Word} {n rights : Nat} {write : Bool} :
    (stateAfter (s.aperCheck cid b n rights write)).Canonical q := by
  unfold State.aperCheck
  split
  · exact h
  · exact h.translatePages

theorem aperMiss {part : Nat} {m : Miss} (h : m.state.Canonical q) : (State.aperMiss part m).Canonical q := h.aperFails.ite h

theorem aperRead (h : s.Canonical q) {part off n : Nat} : (s.aperRead part off n).Canonical q := by
  unfold State.aperRead
  split
  · exact h.aperFails
  · split
    next e => exact aperMiss (h.aperCheck.error e)
    next e =>
      extract_lets x v
      have hv : v.Canonical q := (h.aperCheck.ok e).homeReads.foldl fun _ _ hu => hu.postError
      exact hv

theorem aperWrite (h : s.Canonical q) {part off : Nat} {bs : List Byte} : (s.aperWrite part off bs).Canonical q := by
  unfold State.aperWrite
  split
  · exact h.aperFails
  · split
    next e => exact aperMiss (h.aperCheck.error e)
    next e =>
      extract_lets v
      have hv : v.Canonical q := (h.aperCheck.ok e).homeWrites
      exact hv

theorem trainLinks (h : s.Canonical q) {fs : List Nat} : (s.trainLinks fs).Canonical q := (h.foldl fun _ _ hu => hu.setLink).noteCuts

theorem dropSlice (h : s.Canonical q) {n : Nat} : (s.dropSlice n).Canonical q := h.setDie.setMdie.setMdie

theorem checkSlices (h : s.Canonical q) {fs : List Nat} {step : Nat} : (s.checkSlices fs step).Canonical q := h.foldl fun _ _ hu => hu.dropSlice

theorem raiseDies (h : s.Canonical q) : s.raiseDies.Canonical q := h

theorem lockRemaps (h : s.Canonical q) : s.lockRemaps.Canonical q := h

theorem reset : State.Canonical q State.reset := ⟨rfl, rfl, fun _ => List.forall_mem_singleton.mpr rfl⟩

theorem blank : s.blank.Canonical q := State.Canonical.reset (q := q)

theorem loadTime (h : s.Canonical q) {t : Nat} : (s.loadTime t).Canonical q := h

theorem raisePools (h : s.Canonical q) : s.raisePools.Canonical q := h

theorem bootStage (h : s.Canonical q) {step time : Nat} {fs peers : List Nat} : (s.bootStage step time fs peers).Canonical q := by
  unfold State.bootStage
  split
  · exact h.raiseDies.checkSlices
  · exact h.checkSlices
  · exact h.trainLinks.checkSlices
  · exact h.lockRemaps.checkSlices
  · exact h.loadTime.checkSlices
  · exact h
  · exact h.raisePools
  · exact h

theorem bringUp (h : s.Canonical q) {time : Nat} {fs peers : List Nat} :
    (s.bringUp time fs peers).Canonical q := h.ite (h.same.ite h.bootStage.same)

theorem bootWith (hu : u.Canonical q) : (s.bootWith u).Canonical q := hu.bringUp

theorem evNotificationPop (h : s.Canonical q) : (evNotificationPop s).Canonical q := by
  unfold Machine.evNotificationPop
  dsimp only
  split
  · exact h
  · split <;> exact h.setPart

theorem evApertureRead (h : s.Canonical q) : (evApertureRead s).Canonical q := h.aperRead.ite h.same

theorem evApertureWrite (h : s.Canonical q) : (evApertureWrite s).Canonical q := h.aperWrite.ite h.same

theorem evMgmtClaim (h : s.Canonical q) : (evMgmtClaim s).Canonical q := h.heard.claim.ite h

theorem evMgmtHandover (h : s.Canonical q) : (evMgmtHandover s).Canonical q := h.byOwner fun _ hu => hu.same.ite hu

theorem evHandoverTimeout (h : s.Canonical q) : (evHandoverTimeout s).Canonical q := h.same.ite h

theorem evBmcSilenceTimeout (h : s.Canonical q) : (evBmcSilenceTimeout s).Canonical q := h.setOwner.ite h

theorem evHostLinkDown (h : s.Canonical q) : (evHostLinkDown s).Canonical q := h.setOwner.ite h

theorem evPkgcfgLock (h : s.Canonical q) : (evPkgcfgLock s).Canonical q := h.byOwner fun _ hu => hu.same

theorem evDiestatClear (h : s.Canonical q) : (evDiestatClear s).Canonical q := h.byOwner fun _ hu => hu.clearStatus

theorem evRegisterWrite (h : s.Canonical q) :
    (evRegisterWrite s).Canonical q := h.writeRemap.ite (h.heard.same.ite (h.byOwner fun _ hu => hu.same.ite hu.clearStatus))

theorem evPartitionRequest (h : s.Canonical q) : (evPartitionRequest s).Canonical q := by
  unfold Machine.evPartitionRequest
  extract_lets v
  have hv : v.Canonical q := h.heard
  clear_value v
  split
  · exact hv.withReply
  · split
    next x e =>
      have hx : x.Canonical q := hv.partRequest e
      exact hx.withReply
    · exact hv.withReply

theorem evBdtWrite (h : s.Canonical q) : (evBdtWrite s).Canonical q := h.writeDesc

theorem evSchedBlockWrite (h : s.Canonical q) : (evSchedBlockWrite s).Canonical q := h.writeSched

theorem evPoolFrameAdd (h : s.Canonical q) : (evPoolFrameAdd s).Canonical q := h.addFrames

theorem evPowerUp (h : s.Canonical q) : (evPowerUp s).Canonical q := by
  unfold Machine.evPowerUp
  extract_lets b r _ r1
  have hr : r.Canonical q := blank
  have hr1 : r1.Canonical q := hr
  split
  · exact h
  · exact (hr1.ite h).bootWith

theorem evModuleReset : (evModuleReset s).Canonical q := blank.bootWith

theorem tripped (h : s.Canonical q) {n : Nat} : (s.tripped n).Canonical q := h.resetDie.noted.setDie.ite h

theorem evThermalCapStep (h : s.Canonical q) : (evThermalCapStep s).Canonical q := h.ite h.setDie.tripped

theorem evThermalTrip (h : s.Canonical q) : (evThermalTrip s).Canonical q := h.setDie.tripped.ite ((h.setMdie.resetStack.ite h.setMdie).ite h)

theorem evQueueDescWrite (h : s.Canonical q) : (evQueueDescWrite s).Canonical q := h.writeQueue

theorem evContextDescWrite (h : s.Canonical q) : (evContextDescWrite s).Canonical q := h.writeContext

theorem evApertureTableWrite (h : s.Canonical q) : (evApertureTableWrite s).Canonical q := h.setPart.ite h

theorem evDieReset (h : s.Canonical q) : (evDieReset s).Canonical q := h.resetDie.noted.ite (h.resetStack.ite h)

theorem evDieReturn (h : s.Canonical q) : (evDieReturn s).Canonical q := h.bringBack

/-! ### Harts and passing time (18 R304, 24 R405) -/

theorem hartAt (h : s.Canonical q) {i : Fin 16} {a : Word} {n align fault : Nat} {write : Bool} {k : State → Nat → Eff}
    (hk : ∀ u n, u.Canonical q → (k u n).state.Canonical q) : (s.hartAt i a n align fault write k).state.Canonical q := by
  unfold State.hartAt
  split
  · exact h
  · extract_lets v
    have hv : v.Canonical q := h.settle
    clear_value v
    split
    · exact hv
    · exact hk _ _ hv

theorem hartExec (h : s.Canonical q) {h' : Fin 16} {tval : Word} {i : HartOp} : (s.hartExec h' tval i).state.Canonical q := by
  unfold State.hartExec
  dsimp only
  split
  · split
    · exact h.setHart
    · exact h
  · split
    · exact h.setHart
    · exact h
  · split <;> exact h
  · exact h
  · split <;> exact h
  · exact h.hartAt fun _ _ hu => hu.setHart.setX
  · refine h.hartAt fun _ _ hu => ?_
    split
    · exact hu.fwWrite.setHart.setX
    · exact hu.setHart.setX
  · exact h.hartAt fun _ _ hu => hu.fwWrite.setX

theorem elapse (h : s.Canonical q) : s.elapse.Canonical q := by
  have hm := (h.mapTasks (f := fun t => t.elapse (Config.freeElapsed s.freeCount)) fun _ ht => Task.filesOk_congr ht).setCur
    (v := s.cur.elapse (Config.freeElapsed s.freeCount))
  exact hm.same

theorem look (h : s.Canonical q) {w : Who} : (s.look w).Canonical q := h

theorem glance (h : s.Canonical q) {w : Who} {a : Nat} : (s.glance w a).Canonical q := h.same.ite h

end Sys2Proof.Machine.State.Canonical
end

section
/-! One step keeps the canonical form (05 R78, 04 R68). -/

namespace Sys2Proof.Machine.State.Canonical

set_option Elab.async false

variable {q : Prop} {s u : State}

/-! ### How an instruction ends (08 R139, 18 R308) -/

theorem next (h : u.Canonical q) : endsCanonical q (.next u) := fun _ e => by
  cases e
  exact h

theorem finish {e : Eff} (h : e.state.Canonical q) {n : Nat} : endsCanonical q (e.finish n) := by
  cases e with
  | done _ => exact next h.retire.endStep
  | doneWith _ _ _ => exact next h.retire.endStep
  | jump _ _ => exact next h.retire.endStep
  | stay _ _ => exact next h.blockWith
  | drain _ => exact next h.drainCycle
  | trap _ _ => exact next h.trapFocus
  | ends _ => exact next h

theorem issueBase (h : s.Canonical q) {e : Eff} (he : e.state.Canonical q) : endsCanonical q (issueBase s e) := by
  rcases issueBase_cases s e with e' | e' <;> rw [e']
  · exact next (State.Canonical.drainCycle h.drainOwed)
  · exact finish he

theorem issue (h : s.Canonical q) {i : Instr} {n : Nat} {o : LF} {sh : Shape} {plan : Team → Res → Plan} {body : Who → Res → State → Eff}
    (hb : ∀ w r, (body w r s).state.Canonical q) : endsCanonical q (issue i n o sh plan body s) := by
  rcases issue_cases i n o sh plan body s with ⟨t, e⟩ | e | ⟨w, _, e⟩ <;> rw [e]
  · exact finish (e := .trap t s) (n := n) h
  · exact next (State.Canonical.drainCycle h.drainOwed)
  · exact finish (hb w _)

theorem issueSys (h : s.Canonical q) {i : Instr} {o : LF} {sh : Shape} {body : Fin 16 → State → Eff}
    (hb : ∀ k, (body k s).state.Canonical q) : endsCanonical q (issueSys i o sh body s) := by
  rcases issueSys_cases i o sh body s with ⟨t, e⟩ | ⟨k, code, _, e⟩ | ⟨k, _, e⟩ <;> rw [e]
  · exact finish (e := .trap t s) (n := 8) h
  · exact finish (e := .done _) (n := 8) h.setHart.setX
  · exact finish (hb k)

theorem shortBuf (h : s.Canonical q) {i : Instr} {f : Who → Eff} (hf : ∀ w, (f w).state.Canonical q) : endsCanonical q (shortBuf i s f) := by
  unfold Machine.shortBuf
  split
  · exact finish (e := .trap _ s) h
  · exact finish (e := .trap _ s) h
  · exact finish (hf _)

/-! ### Every instruction -/

theorem execLui (h : s.Canonical q) {rd : Reg} {imm : BitVec 20} : endsCanonical q (Machine.execLui rd imm s) := h.issueBase h.writeRd

theorem execAuipc (h : s.Canonical q) {rd : Reg} {imm : BitVec 20} : endsCanonical q (Machine.execAuipc rd imm s) := h.issueBase h.writeRd

theorem execJal (h : s.Canonical q) {rd : Reg} {imm : BitVec 20} : endsCanonical q (Machine.execJal rd imm s) := h.issueBase h.jumpTo

theorem execJalr (h : s.Canonical q) {rd rs1 : Reg} {imm : BitVec 12} : endsCanonical q (Machine.execJalr rd rs1 imm s) := h.issueBase h.jumpTo

theorem execBeq (h : s.Canonical q) {rs1 rs2 : Reg} {imm : BitVec 12} : endsCanonical q (Machine.execBeq rs1 rs2 imm s) := h.issueBase h.branch

theorem execBne (h : s.Canonical q) {rs1 rs2 : Reg} {imm : BitVec 12} : endsCanonical q (Machine.execBne rs1 rs2 imm s) := h.issueBase h.branch

theorem execBlt (h : s.Canonical q) {rs1 rs2 : Reg} {imm : BitVec 12} : endsCanonical q (Machine.execBlt rs1 rs2 imm s) := h.issueBase h.branch

theorem execBge (h : s.Canonical q) {rs1 rs2 : Reg} {imm : BitVec 12} : endsCanonical q (Machine.execBge rs1 rs2 imm s) := h.issueBase h.branch

theorem execBltu (h : s.Canonical q) {rs1 rs2 : Reg} {imm : BitVec 12} : endsCanonical q (Machine.execBltu rs1 rs2 imm s) := h.issueBase h.branch

theorem execBgeu (h : s.Canonical q) {rs1 rs2 : Reg} {imm : BitVec 12} : endsCanonical q (Machine.execBgeu rs1 rs2 imm s) := h.issueBase h.branch

theorem execLb (h : s.Canonical q) {rd rs1 : Reg} {imm : BitVec 12} : endsCanonical q (Machine.execLb rd rs1 imm s) := h.issueBase h.load

theorem execLh (h : s.Canonical q) {rd rs1 : Reg} {imm : BitVec 12} : endsCanonical q (Machine.execLh rd rs1 imm s) := h.issueBase h.load

theorem execLw (h : s.Canonical q) {rd rs1 : Reg} {imm : BitVec 12} : endsCanonical q (Machine.execLw rd rs1 imm s) := h.issueBase h.load

theorem execLd (h : s.Canonical q) {rd rs1 : Reg} {imm : BitVec 12} : endsCanonical q (Machine.execLd rd rs1 imm s) := h.issueBase h.load

theorem execLbu (h : s.Canonical q) {rd rs1 : Reg} {imm : BitVec 12} : endsCanonical q (Machine.execLbu rd rs1 imm s) := h.issueBase h.load

theorem execLhu (h : s.Canonical q) {rd rs1 : Reg} {imm : BitVec 12} : endsCanonical q (Machine.execLhu rd rs1 imm s) := h.issueBase h.load

theorem execLwu (h : s.Canonical q) {rd rs1 : Reg} {imm : BitVec 12} : endsCanonical q (Machine.execLwu rd rs1 imm s) := h.issueBase h.load

theorem execSb (h : s.Canonical q) {rs1 rs2 : Reg} {imm : BitVec 12} : endsCanonical q (Machine.execSb rs1 rs2 imm s) := h.issueBase h.store

theorem execSh (h : s.Canonical q) {rs1 rs2 : Reg} {imm : BitVec 12} : endsCanonical q (Machine.execSh rs1 rs2 imm s) := h.issueBase h.store

theorem execSw (h : s.Canonical q) {rs1 rs2 : Reg} {imm : BitVec 12} : endsCanonical q (Machine.execSw rs1 rs2 imm s) := h.issueBase h.store

theorem execSd (h : s.Canonical q) {rs1 rs2 : Reg} {imm : BitVec 12} : endsCanonical q (Machine.execSd rs1 rs2 imm s) := h.issueBase h.store

theorem execAddi (h : s.Canonical q) {rd rs1 : Reg} {imm : BitVec 12} : endsCanonical q (Machine.execAddi rd rs1 imm s) := h.issueBase h.writeRd

theorem execSlti (h : s.Canonical q) {rd rs1 : Reg} {imm : BitVec 12} : endsCanonical q (Machine.execSlti rd rs1 imm s) := h.issueBase h.writeRd

theorem execSltiu (h : s.Canonical q) {rd rs1 : Reg} {imm : BitVec 12} : endsCanonical q (Machine.execSltiu rd rs1 imm s) := h.issueBase h.writeRd

theorem execXori (h : s.Canonical q) {rd rs1 : Reg} {imm : BitVec 12} : endsCanonical q (Machine.execXori rd rs1 imm s) := h.issueBase h.writeRd

theorem execOri (h : s.Canonical q) {rd rs1 : Reg} {imm : BitVec 12} : endsCanonical q (Machine.execOri rd rs1 imm s) := h.issueBase h.writeRd

theorem execAndi (h : s.Canonical q) {rd rs1 : Reg} {imm : BitVec 12} : endsCanonical q (Machine.execAndi rd rs1 imm s) := h.issueBase h.writeRd

theorem execSlli (h : s.Canonical q) {rd rs1 : Reg} {sh : BitVec 6} : endsCanonical q (Machine.execSlli rd rs1 sh s) := h.issueBase h.writeRd

theorem execSrli (h : s.Canonical q) {rd rs1 : Reg} {sh : BitVec 6} : endsCanonical q (Machine.execSrli rd rs1 sh s) := h.issueBase h.writeRd

theorem execSrai (h : s.Canonical q) {rd rs1 : Reg} {sh : BitVec 6} : endsCanonical q (Machine.execSrai rd rs1 sh s) := h.issueBase h.writeRd

theorem execAdd (h : s.Canonical q) {rd rs1 rs2 : Reg} : endsCanonical q (Machine.execAdd rd rs1 rs2 s) := h.issueBase h.writeRd

theorem execSub (h : s.Canonical q) {rd rs1 rs2 : Reg} : endsCanonical q (Machine.execSub rd rs1 rs2 s) := h.issueBase h.writeRd

theorem execSll (h : s.Canonical q) {rd rs1 rs2 : Reg} : endsCanonical q (Machine.execSll rd rs1 rs2 s) := h.issueBase h.writeRd

theorem execSlt (h : s.Canonical q) {rd rs1 rs2 : Reg} : endsCanonical q (Machine.execSlt rd rs1 rs2 s) := h.issueBase h.writeRd

theorem execSltu (h : s.Canonical q) {rd rs1 rs2 : Reg} : endsCanonical q (Machine.execSltu rd rs1 rs2 s) := h.issueBase h.writeRd

theorem execXor (h : s.Canonical q) {rd rs1 rs2 : Reg} : endsCanonical q (Machine.execXor rd rs1 rs2 s) := h.issueBase h.writeRd

theorem execSrl (h : s.Canonical q) {rd rs1 rs2 : Reg} : endsCanonical q (Machine.execSrl rd rs1 rs2 s) := h.issueBase h.writeRd

theorem execSra (h : s.Canonical q) {rd rs1 rs2 : Reg} : endsCanonical q (Machine.execSra rd rs1 rs2 s) := h.issueBase h.writeRd

theorem execOr (h : s.Canonical q) {rd rs1 rs2 : Reg} : endsCanonical q (Machine.execOr rd rs1 rs2 s) := h.issueBase h.writeRd

theorem execAnd (h : s.Canonical q) {rd rs1 rs2 : Reg} : endsCanonical q (Machine.execAnd rd rs1 rs2 s) := h.issueBase h.writeRd

theorem execMul (h : s.Canonical q) {rd rs1 rs2 : Reg} : endsCanonical q (Machine.execMul rd rs1 rs2 s) := h.issueBase h.writeRd

theorem execMulh (h : s.Canonical q) {rd rs1 rs2 : Reg} : endsCanonical q (Machine.execMulh rd rs1 rs2 s) := h.issueBase h.writeRd

theorem execMulhsu (h : s.Canonical q) {rd rs1 rs2 : Reg} : endsCanonical q (Machine.execMulhsu rd rs1 rs2 s) := h.issueBase h.writeRd

theorem execMulhu (h : s.Canonical q) {rd rs1 rs2 : Reg} : endsCanonical q (Machine.execMulhu rd rs1 rs2 s) := h.issueBase h.writeRd

theorem execDiv (h : s.Canonical q) {rd rs1 rs2 : Reg} : endsCanonical q (Machine.execDiv rd rs1 rs2 s) := h.issueBase h.writeRd

theorem execDivu (h : s.Canonical q) {rd rs1 rs2 : Reg} : endsCanonical q (Machine.execDivu rd rs1 rs2 s) := h.issueBase h.writeRd

theorem execRem (h : s.Canonical q) {rd rs1 rs2 : Reg} : endsCanonical q (Machine.execRem rd rs1 rs2 s) := h.issueBase h.writeRd

theorem execRemu (h : s.Canonical q) {rd rs1 rs2 : Reg} : endsCanonical q (Machine.execRemu rd rs1 rs2 s) := h.issueBase h.writeRd

theorem execAddiw (h : s.Canonical q) {rd rs1 : Reg} {imm : BitVec 12} : endsCanonical q (Machine.execAddiw rd rs1 imm s) := h.issueBase h.writeRd

theorem execSlliw (h : s.Canonical q) {rd rs1 : Reg} {sh : BitVec 5} : endsCanonical q (Machine.execSlliw rd rs1 sh s) := h.issueBase h.writeRd

theorem execSrliw (h : s.Canonical q) {rd rs1 : Reg} {sh : BitVec 5} : endsCanonical q (Machine.execSrliw rd rs1 sh s) := h.issueBase h.writeRd

theorem execSraiw (h : s.Canonical q) {rd rs1 : Reg} {sh : BitVec 5} : endsCanonical q (Machine.execSraiw rd rs1 sh s) := h.issueBase h.writeRd

theorem execAddw (h : s.Canonical q) {rd rs1 rs2 : Reg} : endsCanonical q (Machine.execAddw rd rs1 rs2 s) := h.issueBase h.writeRd

theorem execSubw (h : s.Canonical q) {rd rs1 rs2 : Reg} : endsCanonical q (Machine.execSubw rd rs1 rs2 s) := h.issueBase h.writeRd

theorem execSllw (h : s.Canonical q) {rd rs1 rs2 : Reg} : endsCanonical q (Machine.execSllw rd rs1 rs2 s) := h.issueBase h.writeRd

theorem execSrlw (h : s.Canonical q) {rd rs1 rs2 : Reg} : endsCanonical q (Machine.execSrlw rd rs1 rs2 s) := h.issueBase h.writeRd

theorem execSraw (h : s.Canonical q) {rd rs1 rs2 : Reg} : endsCanonical q (Machine.execSraw rd rs1 rs2 s) := h.issueBase h.writeRd

theorem execMulw (h : s.Canonical q) {rd rs1 rs2 : Reg} : endsCanonical q (Machine.execMulw rd rs1 rs2 s) := h.issueBase h.writeRd

theorem execDivw (h : s.Canonical q) {rd rs1 rs2 : Reg} : endsCanonical q (Machine.execDivw rd rs1 rs2 s) := h.issueBase h.writeRd

theorem execDivuw (h : s.Canonical q) {rd rs1 rs2 : Reg} : endsCanonical q (Machine.execDivuw rd rs1 rs2 s) := h.issueBase h.writeRd

theorem execRemw (h : s.Canonical q) {rd rs1 rs2 : Reg} : endsCanonical q (Machine.execRemw rd rs1 rs2 s) := h.issueBase h.writeRd

theorem execRemuw (h : s.Canonical q) {rd rs1 rs2 : Reg} : endsCanonical q (Machine.execRemuw rd rs1 rs2 s) := h.issueBase h.writeRd

theorem execFence (h : s.Canonical q) {_rd _rs1 : Reg} {_imm : BitVec 12} : endsCanonical q (Machine.execFence _rd _rs1 _imm s) := h.issueBase h

theorem execCsrrw (h : s.Canonical q) {rd rs1 : Reg} {csr : BitVec 12} : endsCanonical q (Machine.execCsrrw rd rs1 csr s) := h.issueBase h.csrOp

theorem execCsrrs (h : s.Canonical q) {rd rs1 : Reg} {csr : BitVec 12} : endsCanonical q (Machine.execCsrrs rd rs1 csr s) := h.issueBase h.csrOp

theorem execCsrrc (h : s.Canonical q) {rd rs1 : Reg} {csr : BitVec 12} : endsCanonical q (Machine.execCsrrc rd rs1 csr s) := h.issueBase h.csrOp

theorem execCsrrwi (h : s.Canonical q) {rd rs1 : Reg} {csr : BitVec 12} : endsCanonical q (Machine.execCsrrwi rd rs1 csr s) := h.issueBase h.csrOp

theorem execCsrrsi (h : s.Canonical q) {rd rs1 : Reg} {csr : BitVec 12} : endsCanonical q (Machine.execCsrrsi rd rs1 csr s) := h.issueBase h.csrOp

theorem execCsrrci (h : s.Canonical q) {rd rs1 : Reg} {csr : BitVec 12} : endsCanonical q (Machine.execCsrrci rd rs1 csr s) := h.issueBase h.csrOp

theorem execVadd (h : s.Canonical q) {o : LF} : endsCanonical q (Machine.execVadd o s) := h.issue fun _ _ => h.fpArith

theorem execVsub (h : s.Canonical q) {o : LF} : endsCanonical q (Machine.execVsub o s) := h.issue fun _ _ => h.fpArith

theorem execVmul (h : s.Canonical q) {o : LF} : endsCanonical q (Machine.execVmul o s) := h.issue fun _ _ => h.fpArith

theorem execVfma (h : s.Canonical q) {o : LF} : endsCanonical q (Machine.execVfma o s) := h.issue fun _ _ => h.fpArith

theorem execVmin (h : s.Canonical q) {o : LF} : endsCanonical q (Machine.execVmin o s) := h.issue fun _ _ => h.map2

theorem execVmax (h : s.Canonical q) {o : LF} : endsCanonical q (Machine.execVmax o s) := h.issue fun _ _ => h.map2

theorem execVsgn (h : s.Canonical q) {o : LF} : endsCanonical q (Machine.execVsgn o s) := h.issue fun _ _ => h.map2

theorem execVcmp (h : s.Canonical q) {o : LF} : endsCanonical q (Machine.execVcmp o s) := h.issue fun _ _ => h.vecCompare

theorem execVclass (h : s.Canonical q) {o : LF} : endsCanonical q (Machine.execVclass o s) := h.issue fun _ _ => h.map1

theorem execViadd (h : s.Canonical q) {o : LF} : endsCanonical q (Machine.execViadd o s) := h.issue fun _ _ => h.intArith

theorem execVisub (h : s.Canonical q) {o : LF} : endsCanonical q (Machine.execVisub o s) := h.issue fun _ _ => h.intArith

theorem execVimul (h : s.Canonical q) {o : LF} : endsCanonical q (Machine.execVimul o s) := h.issue fun _ _ => h.intArith

theorem execVimulh (h : s.Canonical q) {o : LF} : endsCanonical q (Machine.execVimulh o s) := h.issue fun _ _ => h.intArith

theorem execVimad (h : s.Canonical q) {o : LF} : endsCanonical q (Machine.execVimad o s) := h.issue fun _ _ => h.intArith

theorem execVand (h : s.Canonical q) {o : LF} : endsCanonical q (Machine.execVand o s) := h.issue fun _ _ => h.map2

theorem execVor (h : s.Canonical q) {o : LF} : endsCanonical q (Machine.execVor o s) := h.issue fun _ _ => h.map2

theorem execVxor (h : s.Canonical q) {o : LF} : endsCanonical q (Machine.execVxor o s) := h.issue fun _ _ => h.map2

theorem execVshl (h : s.Canonical q) {o : LF} : endsCanonical q (Machine.execVshl o s) := h.issue fun _ _ => h.shiftElems

theorem execVshr (h : s.Canonical q) {o : LF} : endsCanonical q (Machine.execVshr o s) := h.issue fun _ _ => h.shiftElems

theorem execViminmax (h : s.Canonical q) {o : LF} : endsCanonical q (Machine.execViminmax o s) := h.issue fun _ _ => h.map2

theorem execVsel (h : s.Canonical q) {o : LF} : endsCanonical q (Machine.execVsel o s) := h.issue fun _ _ => h.vecSelect

theorem execVcvt (h : s.Canonical q) {o : LF} : endsCanonical q (Machine.execVcvt o s) := h.issue fun _ _ => h.convert

theorem execVpack (h : s.Canonical q) {o : LF} : endsCanonical q (Machine.execVpack o s) := h.issue fun _ _ => h.landRegs h.team_files

theorem execVunpack (h : s.Canonical q) {o : LF} : endsCanonical q (Machine.execVunpack o s) := h.issue fun _ _ => h.landRegs h.team_files

theorem execVlnmul (h : s.Canonical q) {o : LF} : endsCanonical q (Machine.execVlnmul o s) := h.issue fun _ _ => h.landElems h.team_files

theorem execVlnlin (h : s.Canonical q) {o : LF} : endsCanonical q (Machine.execVlnlin o s) := h.issue fun _ _ => h.lnLinear

theorem execVexp2 (h : s.Canonical q) {o : LF} : endsCanonical q (Machine.execVexp2 o s) := h.issue fun _ _ => h.sfu

theorem execVlog2 (h : s.Canonical q) {o : LF} : endsCanonical q (Machine.execVlog2 o s) := h.issue fun _ _ => h.sfu

theorem execVrcp (h : s.Canonical q) {o : LF} : endsCanonical q (Machine.execVrcp o s) := h.issue fun _ _ => h.sfu

theorem execVrsqrt (h : s.Canonical q) {o : LF} : endsCanonical q (Machine.execVrsqrt o s) := h.issue fun _ _ => h.sfu

theorem execVsum (h : s.Canonical q) {o : LF} : endsCanonical q (Machine.execVsum o s) := h.issue fun _ _ => h.vecSum

theorem execVrmax (h : s.Canonical q) {o : LF} : endsCanonical q (Machine.execVrmax o s) := h.issue fun _ _ => h.vecMax

theorem execVperm (h : s.Canonical q) {o : LF} : endsCanonical q (Machine.execVperm o s) := h.issue fun _ _ => h.permute

theorem execVbcast (h : s.Canonical q) {o : LF} : endsCanonical q (Machine.execVbcast o s) := h.issue fun _ _ => h.splat

theorem execVslide (h : s.Canonical q) {o : LF} : endsCanonical q (Machine.execVslide o s) := h.issue fun _ _ => h.landElems h.team_files

theorem execVmov (h : s.Canonical q) {o : LF} : endsCanonical q (Machine.execVmov o s) := h.issue fun _ _ => h.splat.ite_state h.map1

theorem execVmvx (h : s.Canonical q) {o : LF} : endsCanonical q (Machine.execVmvx o s) := h.issue fun _ _ => h.setX.done

theorem execVins (h : s.Canonical q) {o : LF} : endsCanonical q (Machine.execVins o s) := h.issue fun _ _ => h.setTeam

theorem execVld (h : s.Canonical q) {o : LF} : endsCanonical q (Machine.execVld o s) := h.issue fun _ _ => h.vecLoad

theorem execVst (h : s.Canonical q) {o : LF} : endsCanonical q (Machine.execVst o s) := h.issue fun _ _ => h.vecStore

theorem execVgath (h : s.Canonical q) {o : LF} : endsCanonical q (Machine.execVgath o s) := h.issue fun _ _ => h.vecLoad

theorem execVscat (h : s.Canonical q) {o : LF} : endsCanonical q (Machine.execVscat o s) := h.issue fun _ _ => h.vecStore

theorem runMpush (h : s.Canonical q) {i : Instr} {len : Nat} {o : LF} : endsCanonical q (Machine.runMpush i len o s) :=
  h.issue fun _ _ => h.maskPush

theorem execMpush (h : s.Canonical q) {o : LF} : endsCanonical q (Machine.execMpush o s) := h.runMpush

theorem runMinv (h : s.Canonical q) {i : Instr} {len : Nat} {o : LF} : endsCanonical q (Machine.runMinv i len o s) :=
  h.issue fun _ _ => h.maskInvert

theorem execMinv (h : s.Canonical q) {o : LF} : endsCanonical q (Machine.execMinv o s) := h.runMinv

theorem runMpop (h : s.Canonical q) {i : Instr} {len : Nat} {o : LF} : endsCanonical q (Machine.runMpop i len o s) := h.issue fun _ _ => h.maskPop

theorem execMpop (h : s.Canonical q) {o : LF} : endsCanonical q (Machine.execMpop o s) := h.runMpop

theorem runMget (h : s.Canonical q) {i : Instr} {len : Nat}
    {o : LF} : endsCanonical q (Machine.runMget i len o s) := h.issue fun _ _ => h.setX.done

theorem execMget (h : s.Canonical q) {o : LF} : endsCanonical q (Machine.execMget o s) := h.runMget

theorem execBmz (h : s.Canonical q) {o : LF} : endsCanonical q (Machine.execBmz o s) := h.issue fun _ _ => h.branchMaskZero

theorem runWenter (h : s.Canonical q) {i : Instr} {len : Nat} {o : LF} : endsCanonical q (Machine.runWenter i len o s) :=
  h.issue fun _ _ => h.windowEnter

theorem execWenter (h : s.Canonical q) {o : LF} : endsCanonical q (Machine.execWenter o s) := h.runWenter

theorem runWleave (h : s.Canonical q) {i : Instr} {len : Nat} {o : LF} : endsCanonical q (Machine.runWleave i len o s) :=
  h.issue fun _ _ => h.windowLeave

theorem execWleave (h : s.Canonical q) {o : LF} : endsCanonical q (Machine.execWleave o s) := h.runWleave

theorem execMma (h : s.Canonical q) {o : LF} : endsCanonical q (Machine.execMma o s) := h.issue fun _ _ => h.matMul

theorem execMmac (h : s.Canonical q) {o : LF} : endsCanonical q (Machine.execMmac o s) := h.issue fun _ _ => h.matMulAcc

theorem execMlutb (h : s.Canonical q) {o : LF} : endsCanonical q (Machine.execMlutb o s) := h.issue fun _ _ => h.lutBuild

theorem execMlut (h : s.Canonical q) {o : LF} : endsCanonical q (Machine.execMlut o s) := h.issue fun _ _ => h.lutAccum

theorem execAzero (h : s.Canonical q) {o : LF} : endsCanonical q (Machine.execAzero o s) := h.issue fun _ _ => h.accZero

theorem execAld (h : s.Canonical q) {o : LF} : endsCanonical q (Machine.execAld o s) := h.issue fun _ _ => h.accLoad

theorem execAst (h : s.Canonical q) {o : LF} : endsCanonical q (Machine.execAst o s) := h.issue fun _ _ => h.accStore

theorem execArdv (h : s.Canonical q) {o : LF} : endsCanonical q (Machine.execArdv o s) := h.issue fun _ _ => h.accToVec

theorem execAwrv (h : s.Canonical q) {o : LF} : endsCanonical q (Machine.execAwrv o s) := h.issue fun _ _ => h.vecToAcc

theorem execHset (h : s.Canonical q) {o : LF} : endsCanonical q (Machine.execHset o s) := h.issue fun _ _ => h.landAt h.team_files

theorem execHget (h : s.Canonical q) {o : LF} : endsCanonical q (Machine.execHget o s) := h.issue fun _ _ => h.setX.done

theorem execHld (h : s.Canonical q) {o : LF} : endsCanonical q (Machine.execHld o s) := h.issue fun _ _ => h.handleLoad

theorem execHst (h : s.Canonical q) {o : LF} : endsCanonical q (Machine.execHst o s) := h.issue fun _ _ => h.handleStore

theorem runHadv (h : s.Canonical q) {i : Instr} {len : Nat} {o : LF} : endsCanonical q (Machine.runHadv i len o s) :=
  h.issue fun _ _ => h.handleAdvance

theorem execHadv (h : s.Canonical q) {o : LF} : endsCanonical q (Machine.execHadv o s) := h.runHadv

theorem execLoop (h : s.Canonical q) {o : LF} : endsCanonical q (Machine.execLoop o s) := h.issue fun _ _ => h.loopStart

theorem runLcrd (h : s.Canonical q) {i : Instr} {len : Nat}
    {o : LF} : endsCanonical q (Machine.runLcrd i len o s) := h.issue fun _ _ => h.setX.done

theorem execLcrd (h : s.Canonical q) {o : LF} : endsCanonical q (Machine.execLcrd o s) := h.runLcrd

theorem runLbrk (h : s.Canonical q) {i : Instr} {len : Nat}
    {o : LF} : endsCanonical q (Machine.runLbrk i len o s) := h.issue fun _ _ => h.loopBreak

theorem execLbrk (h : s.Canonical q) {o : LF} : endsCanonical q (Machine.execLbrk o s) := h.runLbrk

theorem execFmtset (h : s.Canonical q) {o : LF} : endsCanonical q (Machine.execFmtset o s) := h.issue fun _ _ => h.setTeam

theorem runFmtsel (h : s.Canonical q) {i : Instr} {len : Nat} {o : LF} : endsCanonical q (Machine.runFmtsel i len o s) :=
  h.issue fun _ _ => h.formatSelect

theorem execFmtsel (h : s.Canonical q) {o : LF} : endsCanonical q (Machine.execFmtsel o s) := h.runFmtsel

theorem runFmtget (h : s.Canonical q) {i : Instr} {len : Nat} {o : LF} : endsCanonical q (Machine.runFmtget i len o s) :=
  h.issue fun _ _ => h.setX.done

theorem execFmtget (h : s.Canonical q) {o : LF} : endsCanonical q (Machine.execFmtget o s) := h.runFmtget

theorem execCpld (h : s.Canonical q) {o : LF} : endsCanonical q (Machine.execCpld o s) := h.issue fun _ _ => h.copyOf h.planLoad

theorem execCpst (h : s.Canonical q) {o : LF} : endsCanonical q (Machine.execCpst o s) := h.issue fun _ _ => h.copyOf h.planStore

theorem execCpgat (h : s.Canonical q) {o : LF} : endsCanonical q (Machine.execCpgat o s) := h.issue fun _ _ => h.copyRows

theorem execCpsca (h : s.Canonical q) {o : LF} : endsCanonical q (Machine.execCpsca o s) := h.issue fun _ _ => h.copyRows

theorem execCploc (h : s.Canonical q) {o : LF} : endsCanonical q (Machine.execCploc o s) := h.issue fun _ _ => h.copyOf h.planLocal

theorem execCprem (h : s.Canonical q) {o : LF} : endsCanonical q (Machine.execCprem o s) := h.issue fun _ _ => h.copyRemote

theorem execColl (h : s.Canonical q) {o : LF} : endsCanonical q (Machine.execColl o s) := h.issue fun _ _ => h.collective

theorem execBld (h : s.Canonical q) {o : LF} : endsCanonical q (Machine.execBld o s) := h.issue fun _ _ => h.bufLoad

theorem execBst (h : s.Canonical q) {o : LF} : endsCanonical q (Machine.execBst o s) := h.issue fun _ _ => h.bufStore

theorem execBamo (h : s.Canonical q) {o : LF} : endsCanonical q (Machine.execBamo o s) := h.issue fun _ _ => h.bufAmo

theorem execBcas (h : s.Canonical q) {o : LF} : endsCanonical q (Machine.execBcas o s) := h.issue fun _ _ => h.bufCas

theorem runAcq (h : s.Canonical q) {i : Instr} {len : Nat} {o : LF} : endsCanonical q (Machine.runAcq i len o s) := h.issue fun _ _ => h.acquire

theorem execAcq (h : s.Canonical q) {o : LF} : endsCanonical q (Machine.execAcq o s) := h.runAcq

theorem runRel (h : s.Canonical q) {i : Instr} {len : Nat} {o : LF} : endsCanonical q (Machine.runRel i len o s) := h.issue fun _ _ => h.release

theorem execRel (h : s.Canonical q) {o : LF} : endsCanonical q (Machine.execRel o s) := h.runRel

theorem execFrange (h : s.Canonical q) {o : LF} : endsCanonical q (Machine.execFrange o s) := h.issue fun _ _ => h.rangeFence

theorem runPmrd (h : s.Canonical q) {i : Instr} {len : Nat}
    {o : LF} : endsCanonical q (Machine.runPmrd i len o s) := h.issue fun _ _ => h.setX.done

theorem execPmrd (h : s.Canonical q) {o : LF} : endsCanonical q (Machine.execPmrd o s) := h.runPmrd

theorem runPmwait (h : s.Canonical q) {i : Instr} {len : Nat} {o : LF} : endsCanonical q (Machine.runPmwait i len o s) :=
  h.issue fun _ _ => h.postmarkWait

theorem execPmwait (h : s.Canonical q) {o : LF} : endsCanonical q (Machine.execPmwait o s) := h.runPmwait

theorem execWait (h : s.Canonical q) {o : LF} : endsCanonical q (Machine.execWait o s) := h.issue fun _ _ => h.waitCounters

theorem execPhcfg (h : s.Canonical q) {o : LF} : endsCanonical q (Machine.execPhcfg o s) := h.issue fun _ _ => h.holeConfig

theorem runPhtake (h : s.Canonical q) {i : Instr} {len : Nat} {o : LF} : endsCanonical q (Machine.runPhtake i len o s) :=
  h.issue fun _ _ => h.holeTake

theorem execPhtake (h : s.Canonical q) {o : LF} : endsCanonical q (Machine.execPhtake o s) := h.runPhtake

theorem runPhgive (h : s.Canonical q) {i : Instr} {len : Nat} {o : LF} : endsCanonical q (Machine.runPhgive i len o s) :=
  h.issue fun _ _ => h.holeGive

theorem execPhgive (h : s.Canonical q) {o : LF} : endsCanonical q (Machine.execPhgive o s) := h.runPhgive

theorem runPhres (h : s.Canonical q) {i : Instr} {len : Nat} {o : LF} : endsCanonical q (Machine.runPhres i len o s) :=
  h.issue fun _ _ => h.holeReserve

theorem execPhres (h : s.Canonical q) {o : LF} : endsCanonical q (Machine.execPhres o s) := h.runPhres

theorem runPhpost (h : s.Canonical q) {i : Instr} {len : Nat} {o : LF} : endsCanonical q (Machine.runPhpost i len o s) :=
  h.issue fun _ _ => h.holePost

theorem execPhpost (h : s.Canonical q) {o : LF} : endsCanonical q (Machine.execPhpost o s) := h.runPhpost

theorem runPhstat (h : s.Canonical q) {i : Instr} {len : Nat} {o : LF} : endsCanonical q (Machine.runPhstat i len o s) :=
  h.issue fun _ _ => h.holeStat

theorem execPhstat (h : s.Canonical q) {o : LF} : endsCanonical q (Machine.execPhstat o s) := h.runPhstat

theorem runTqput (h : s.Canonical q) {i : Instr} {len : Nat} {o : LF} : endsCanonical q (Machine.runTqput i len o s) :=
  h.issue fun _ _ => h.queuePut

theorem execTqput (h : s.Canonical q) {o : LF} : endsCanonical q (Machine.execTqput o s) := h.runTqput

theorem runTqget (h : s.Canonical q) {i : Instr} {len : Nat} {o : LF} : endsCanonical q (Machine.runTqget i len o s) :=
  h.issue fun _ _ => h.queueGet

theorem execTqget (h : s.Canonical q) {o : LF} : endsCanonical q (Machine.execTqget o s) := h.runTqget

theorem execNbq (h : s.Canonical q) {o : LF} : endsCanonical q (Machine.execNbq o s) := h.issue fun _ _ => h.bankQuery

theorem runNbcan (h : s.Canonical q) {i : Instr} {len : Nat} {o : LF} : endsCanonical q (Machine.runNbcan i len o s) :=
  h.issue fun _ _ => h.bankCancel

theorem execNbcan (h : s.Canonical q) {o : LF} : endsCanonical q (Machine.execNbcan o s) := h.runNbcan

theorem runTenq (h : s.Canonical q) {i : Instr} {len : Nat} {o : LF} : endsCanonical q (Machine.runTenq i len o s) :=
  h.issue fun _ _ => h.taskEnqueue

theorem execTenq (h : s.Canonical q) {o : LF} : endsCanonical q (Machine.execTenq o s) := h.runTenq

theorem runTend (h : s.Canonical q) {i : Instr} {len : Nat} {o : LF} : endsCanonical q (Machine.runTend i len o s) := h.issue fun _ _ => h.taskEnd

theorem execTend (h : s.Canonical q) {o : LF} : endsCanonical q (Machine.execTend o s) := h.runTend

theorem runTyield (h : s.Canonical q) {i : Instr} {len : Nat} {o : LF} : endsCanonical q (Machine.runTyield i len o s) :=
  h.issue fun _ _ => h.taskYield

theorem execTyield (h : s.Canonical q) {o : LF} : endsCanonical q (Machine.execTyield o s) := h.runTyield

theorem execLnch (h : s.Canonical q) {o : LF} : endsCanonical q (Machine.execLnch o s) := h.issue fun _ _ => h.launchChild

theorem execTwait (h : s.Canonical q) {o : LF} : endsCanonical q (Machine.execTwait o s) := h.issue fun _ _ => h.wordWait

theorem runSpecq (h : s.Canonical q) {i : Instr} {len : Nat} {o : LF} : endsCanonical q (Machine.runSpecq i len o s) :=
  h.issue fun _ _ => h.setX.done

theorem execSpecq (h : s.Canonical q) {o : LF} : endsCanonical q (Machine.execSpecq o s) := h.runSpecq

theorem runVdist (h : s.Canonical q) {i : Instr} {len : Nat} {o : LF} : endsCanonical q (Machine.runVdist i len o s) :=
  h.issue fun _ _ => h.setX.done

theorem execVdist (h : s.Canonical q) {o : LF} : endsCanonical q (Machine.execVdist o s) := h.runVdist

theorem runTabort (h : s.Canonical q) {i : Instr} {len : Nat} {o : LF} : endsCanonical q (Machine.runTabort i len o s) :=
  h.issue fun _ _ => h.taskAbort

theorem execTabort (h : s.Canonical q) {o : LF} : endsCanonical q (Machine.execTabort o s) := h.runTabort

theorem execKrot (h : s.Canonical q) {o : LF} : endsCanonical q (Machine.execKrot o s) := h.issue fun _ _ => h.rotateKeys

theorem runKstat (h : s.Canonical q) {i : Instr} {len : Nat} {o : LF} : endsCanonical q (Machine.runKstat i len o s) :=
  h.issue fun _ _ => h.blockStat

theorem execKstat (h : s.Canonical q) {o : LF} : endsCanonical q (Machine.execKstat o s) := h.runKstat

theorem execSealImage (h : s.Canonical q) {o : LF} : endsCanonical q (Machine.execSealImage o s) := h.issue fun _ _ => h.sealRanges

theorem execUnsealImage (h : s.Canonical q) {o : LF} : endsCanonical q (Machine.execUnsealImage o s) := h.issue fun _ _ => h.unsealRanges

theorem runScrub (h : s.Canonical q) {i : Instr} {len : Nat} {o : LF} : endsCanonical q (Machine.runScrub i len o s) :=
  h.issue fun _ _ => h.scrubLocal

theorem execScrub (h : s.Canonical q) {o : LF} : endsCanonical q (Machine.execScrub o s) := h.runScrub

theorem execMdead (h : s.Canonical q) {o : LF} : endsCanonical q (Machine.execMdead o s) := h.issue fun _ _ => h.markDeadRange

theorem execCtxsv (h : s.Canonical q) {o : LF} : endsCanonical q (Machine.execCtxsv o s) := h.issueSys fun _ => h.ctxSave

theorem execCtxsvHalt (h : s.Canonical q) {o : LF} : endsCanonical q (Machine.execCtxsvHalt o s) := h.issueSys fun _ => h.ctxSave

theorem execCtxrs (h : s.Canonical q) {o : LF} : endsCanonical q (Machine.execCtxrs o s) := h.issueSys fun _ => h.ctxRestore

theorem execCkpt (h : s.Canonical q) {o : LF} : endsCanonical q (Machine.execCkpt o s) := h.issueSys fun _ => h.ctxCheckpoint

theorem execCkrb (h : s.Canonical q) {o : LF} : endsCanonical q (Machine.execCkrb o s) := h.issueSys fun _ => h.ctxRollback

theorem execTlbir (h : s.Canonical q) {o : LF} : endsCanonical q (Machine.execTlbir o s) := h.issueSys fun _ => h.tlbInvalidate

theorem execKsload (h : s.Canonical q) {o : LF} : endsCanonical q (Machine.execKsload o s) := h.issueSys fun _ => h.keyLoad

theorem execKsloadNew (h : s.Canonical q) {o : LF} : endsCanonical q (Machine.execKsloadNew o s) := h.issueSys fun _ => h.keyLoadNew

theorem execKsclr (h : s.Canonical q) {o : LF} : endsCanonical q (Machine.execKsclr o s) := h.issueSys fun _ => h.keyClear

theorem execKsclrAll (h : s.Canonical q) {o : LF} : endsCanonical q (Machine.execKsclrAll o s) := h.issueSys fun _ => h.keyClearAll

theorem execSlmap (h : s.Canonical q) {o : LF} : endsCanonical q (Machine.execSlmap o s) := h.issueSys fun _ => h.sliceMap

theorem execSlend (h : s.Canonical q) {o : LF} : endsCanonical q (Machine.execSlend o s) := h.issueSys fun _ => h.sliceLend

theorem execSlrcl (h : s.Canonical q) {o : LF} : endsCanonical q (Machine.execSlrcl o s) := h.issueSys fun _ => h.sliceRecall

theorem execQlink (h : s.Canonical q) {o : LF} : endsCanonical q (Machine.execQlink o s) := h.issueSys fun _ => h.queueLink

theorem execTset (h : s.Canonical q) {o : LF} : endsCanonical q (Machine.execTset o s) := h.issueSys fun _ => h.timeSet

theorem execTadj (h : s.Canonical q) {o : LF} : endsCanonical q (Machine.execTadj o s) := h.issueSys fun _ => h.timeAdjust

theorem execErrpost (h : s.Canonical q) {o : LF} : endsCanonical q (Machine.execErrpost o s) := h.issueSys fun _ => h.recordPost

theorem execStmp (h : s.Canonical q) {o : LF} : endsCanonical q (Machine.execStmp o s) := h.issueSys fun _ => h.stampSetPool

theorem execTresmResume (h : s.Canonical q) {o : LF} : endsCanonical q (Machine.execTresmResume o s) := h.issueSys fun _ => h.tresmResume

theorem execTresmRestart (h : s.Canonical q) {o : LF} : endsCanonical q (Machine.execTresmRestart o s) := h.issueSys fun _ => h.tresmRestart

theorem execTresmStep (h : s.Canonical q) {o : LF} : endsCanonical q (Machine.execTresmStep o s) := h.issueSys fun _ => h.tresmStep

theorem execTresmAbandon (h : s.Canonical q) {o : LF} : endsCanonical q (Machine.execTresmAbandon o s) := h.issueSys fun _ => h.tresmAbandon

theorem execTresmRel (h : s.Canonical q) {o : LF} : endsCanonical q (Machine.execTresmRel o s) := h.issueSys fun _ => h.tresmRelease

theorem execTresmSvc (h : s.Canonical q) {o : LF} : endsCanonical q (Machine.execTresmSvc o s) := h.issueSys fun _ => h.tresmService

theorem execTcanc (h : s.Canonical q) {o : LF} : endsCanonical q (Machine.execTcanc o s) := h.issueSys fun _ => h.taskCancel

theorem execBldBShort (h : s.Canonical q) {rd rs1 : Reg} {imm : BitVec 12} : endsCanonical q (Machine.execBldBShort rd rs1 imm s) :=
  h.shortBuf fun _ => h.bufLoad

theorem execBldHShort (h : s.Canonical q) {rd rs1 : Reg} {imm : BitVec 12} : endsCanonical q (Machine.execBldHShort rd rs1 imm s) :=
  h.shortBuf fun _ => h.bufLoad

theorem execBldWShort (h : s.Canonical q) {rd rs1 : Reg} {imm : BitVec 12} : endsCanonical q (Machine.execBldWShort rd rs1 imm s) :=
  h.shortBuf fun _ => h.bufLoad

theorem execBldDShort (h : s.Canonical q) {rd rs1 : Reg} {imm : BitVec 12} : endsCanonical q (Machine.execBldDShort rd rs1 imm s) :=
  h.shortBuf fun _ => h.bufLoad

theorem execBstBShort (h : s.Canonical q) {rs1 rs2 : Reg} {imm : BitVec 12} : endsCanonical q (Machine.execBstBShort rs1 rs2 imm s) :=
  h.shortBuf fun _ => h.bufStore

theorem execBstHShort (h : s.Canonical q) {rs1 rs2 : Reg} {imm : BitVec 12} : endsCanonical q (Machine.execBstHShort rs1 rs2 imm s) :=
  h.shortBuf fun _ => h.bufStore

theorem execBstWShort (h : s.Canonical q) {rs1 rs2 : Reg} {imm : BitVec 12} : endsCanonical q (Machine.execBstWShort rs1 rs2 imm s) :=
  h.shortBuf fun _ => h.bufStore

theorem execBstDShort (h : s.Canonical q) {rs1 rs2 : Reg} {imm : BitVec 12} : endsCanonical q (Machine.execBstDShort rs1 rs2 imm s) :=
  h.shortBuf fun _ => h.bufStore

theorem execAcqShort (h : s.Canonical q) {rd rs1 rs2 : Reg} : endsCanonical q (Machine.execAcqShort rd rs1 rs2 s) := h.runAcq

theorem execAcqShShort (h : s.Canonical q) {rd rs1 rs2 : Reg} : endsCanonical q (Machine.execAcqShShort rd rs1 rs2 s) := h.runAcq

theorem execRelShort (h : s.Canonical q) {rd rs1 rs2 : Reg} : endsCanonical q (Machine.execRelShort rd rs1 rs2 s) := h.runRel

theorem execPmrdShort (h : s.Canonical q) {rd rs1 rs2 : Reg} : endsCanonical q (Machine.execPmrdShort rd rs1 rs2 s) := h.runPmrd

theorem execPmwaitShort (h : s.Canonical q) {rd rs1 rs2 : Reg} : endsCanonical q (Machine.execPmwaitShort rd rs1 rs2 s) := h.runPmwait

theorem execPhresShort (h : s.Canonical q) {rd rs1 rs2 : Reg} : endsCanonical q (Machine.execPhresShort rd rs1 rs2 s) := h.runPhres

theorem execPhpostShort (h : s.Canonical q) {rd rs1 rs2 : Reg} : endsCanonical q (Machine.execPhpostShort rd rs1 rs2 s) := h.runPhpost

theorem execPhtakeShort (h : s.Canonical q) {rd rs1 rs2 : Reg} : endsCanonical q (Machine.execPhtakeShort rd rs1 rs2 s) := h.runPhtake

theorem execPhgiveShort (h : s.Canonical q) {rd rs1 rs2 : Reg} : endsCanonical q (Machine.execPhgiveShort rd rs1 rs2 s) := h.runPhgive

theorem execPhstatShort (h : s.Canonical q) {rd rs1 rs2 : Reg} : endsCanonical q (Machine.execPhstatShort rd rs1 rs2 s) := h.runPhstat

theorem execTqputShort (h : s.Canonical q) {rd rs1 rs2 : Reg} : endsCanonical q (Machine.execTqputShort rd rs1 rs2 s) := h.runTqput

theorem execTqgetShort (h : s.Canonical q) {rd rs1 rs2 : Reg} : endsCanonical q (Machine.execTqgetShort rd rs1 rs2 s) := h.runTqget

theorem execTqgetPkShort (h : s.Canonical q) {rd rs1 rs2 : Reg} : endsCanonical q (Machine.execTqgetPkShort rd rs1 rs2 s) := h.runTqget

theorem execVdistShort (h : s.Canonical q) {rd rs1 rs2 : Reg} : endsCanonical q (Machine.execVdistShort rd rs1 rs2 s) := h.runVdist

theorem execSpecqShort (h : s.Canonical q) {rd rs1 rs2 : Reg} : endsCanonical q (Machine.execSpecqShort rd rs1 rs2 s) := h.runSpecq

theorem execKstatShort (h : s.Canonical q) {rd rs1 rs2 : Reg} : endsCanonical q (Machine.execKstatShort rd rs1 rs2 s) := h.runKstat

theorem execLcrdShort (h : s.Canonical q) {rd rs1 rs2 : Reg} : endsCanonical q (Machine.execLcrdShort rd rs1 rs2 s) := h.runLcrd

theorem execLbrkShort (h : s.Canonical q) {rd rs1 rs2 : Reg} : endsCanonical q (Machine.execLbrkShort rd rs1 rs2 s) := h.runLbrk

theorem execFmtselShort (h : s.Canonical q) {rd rs1 rs2 : Reg} : endsCanonical q (Machine.execFmtselShort rd rs1 rs2 s) := h.runFmtsel

theorem execFmtgetShort (h : s.Canonical q) {rd rs1 rs2 : Reg} : endsCanonical q (Machine.execFmtgetShort rd rs1 rs2 s) := h.runFmtget

theorem execMgetShort (h : s.Canonical q) {rd rs1 rs2 : Reg} : endsCanonical q (Machine.execMgetShort rd rs1 rs2 s) := h.runMget

theorem execMpushShort (h : s.Canonical q) {rd rs1 rs2 : Reg} : endsCanonical q (Machine.execMpushShort rd rs1 rs2 s) := h.runMpush

theorem execWenterShort (h : s.Canonical q) {rd rs1 rs2 : Reg} : endsCanonical q (Machine.execWenterShort rd rs1 rs2 s) := h.runWenter

theorem execNbcanShort (h : s.Canonical q) {rd rs1 rs2 : Reg} : endsCanonical q (Machine.execNbcanShort rd rs1 rs2 s) := h.runNbcan

theorem execTabortShort (h : s.Canonical q) {rd rs1 rs2 : Reg} : endsCanonical q (Machine.execTabortShort rd rs1 rs2 s) := h.runTabort

theorem execScrubShort (h : s.Canonical q) {rd rs1 rs2 : Reg} : endsCanonical q (Machine.execScrubShort rd rs1 rs2 s) := h.runScrub

theorem execHadvShort (h : s.Canonical q) {rd rs1 rs2 : Reg} : endsCanonical q (Machine.execHadvShort rd rs1 rs2 s) := h.runHadv

theorem execTenqShort (h : s.Canonical q) {rd rs1 rs2 : Reg} : endsCanonical q (Machine.execTenqShort rd rs1 rs2 s) := h.runTenq

theorem execEcall (h : s.Canonical q) : endsCanonical q (Machine.execEcall s) := h.issueBase h.ecall

theorem execEbreak (h : s.Canonical q) : endsCanonical q (Machine.execEbreak s) := h.issueBase h.ebreak

theorem execTendShort (h : s.Canonical q) : endsCanonical q (Machine.execTendShort s) := h.runTend

theorem execTyieldShort (h : s.Canonical q) : endsCanonical q (Machine.execTyieldShort s) := h.runTyield

theorem execMinvShort (h : s.Canonical q) : endsCanonical q (Machine.execMinvShort s) := h.runMinv

theorem execMpopShort (h : s.Canonical q) : endsCanonical q (Machine.execMpopShort s) := h.runMpop

theorem execWleaveShort (h : s.Canonical q) : endsCanonical q (Machine.execWleaveShort s) := h.runWleave

/-- Every instruction and event keeps the canonical form. -/
theorem exec (h : s.Canonical q) (i : Instr) : endsCanonical q (exec i s) := by
  cases i
  exacts [h.execLui, h.execAuipc, h.execJal, h.execJalr, h.execBeq, h.execBne, h.execBlt, h.execBge, h.execBltu, h.execBgeu, h.execLb, h.execLh,
    h.execLw, h.execLd, h.execLbu, h.execLhu, h.execLwu, h.execSb, h.execSh, h.execSw, h.execSd, h.execAddi, h.execSlti, h.execSltiu, h.execXori,
    h.execOri, h.execAndi, h.execSlli, h.execSrli, h.execSrai, h.execAdd, h.execSub, h.execSll, h.execSlt, h.execSltu, h.execXor, h.execSrl,
    h.execSra, h.execOr, h.execAnd, h.execMul, h.execMulh, h.execMulhsu, h.execMulhu, h.execDiv, h.execDivu, h.execRem, h.execRemu, h.execAddiw,
    h.execSlliw, h.execSrliw, h.execSraiw, h.execAddw, h.execSubw, h.execSllw, h.execSrlw, h.execSraw, h.execMulw, h.execDivw, h.execDivuw,
    h.execRemw, h.execRemuw, h.issueBase (e := .done s) h, h.execCsrrw, h.execCsrrs, h.execCsrrc, h.execCsrrwi, h.execCsrrsi, h.execCsrrci,
    h.execVadd, h.execVsub, h.execVmul, h.execVfma, h.execVmin, h.execVmax, h.execVsgn, h.execVcmp, h.execVclass, h.execViadd, h.execVisub,
    h.execVimul, h.execVimulh, h.execVimad, h.execVand, h.execVor, h.execVxor, h.execVshl, h.execVshr, h.execViminmax, h.execVsel, h.execVcvt,
    h.execVpack, h.execVunpack, h.execVlnmul, h.execVlnlin, h.execVexp2, h.execVlog2, h.execVrcp, h.execVrsqrt, h.execVsum, h.execVrmax,
    h.execVperm, h.execVbcast, h.execVslide, h.execVmov, h.execVmvx, h.execVins, h.execVld, h.execVst, h.execVgath, h.execVscat, h.execMpush,
    h.execMinv, h.execMpop, h.execMget, h.execBmz, h.execWenter, h.execWleave, h.execMma, h.execMmac, h.execMlutb, h.execMlut, h.execAzero,
    h.execAld, h.execAst, h.execArdv, h.execAwrv, h.execHset, h.execHget, h.execHld, h.execHst, h.execHadv, h.execLoop, h.execLcrd, h.execLbrk,
    h.execFmtset, h.execFmtsel, h.execFmtget, h.execCpld, h.execCpst, h.execCpgat, h.execCpsca, h.execCploc, h.execCprem, h.execColl, h.execBld,
    h.execBst, h.execBamo, h.execBcas, h.execAcq, h.execRel, h.execFrange, h.execPmrd, h.execPmwait, h.execWait, h.execPhcfg, h.execPhtake,
    h.execPhgive, h.execPhres, h.execPhpost, h.execPhstat, h.execTqput, h.execTqget, h.execNbq, h.execNbcan, h.execTenq, h.execTend,
    h.execTyield, h.execLnch, h.execTwait, h.execSpecq, h.execVdist, h.execTabort, h.execKrot, h.execKstat, h.execSealImage, h.execUnsealImage,
    h.execScrub, h.execMdead, h.execCtxsv, h.execCtxsvHalt, h.execCtxrs, h.execCkpt, h.execCkrb, h.execTlbir, h.execKsload, h.execKsloadNew,
    h.execKsclr, h.execKsclrAll, h.execSlmap, h.execSlend, h.execSlrcl, h.execQlink, h.execTset, h.execTadj, h.execErrpost, h.execStmp,
    h.execTresmResume, h.execTresmRestart, h.execTresmStep, h.execTresmAbandon, h.execTresmRel, h.execTresmSvc, h.execTcanc, h.execBldBShort,
    h.execBldHShort, h.execBldWShort, h.execBldDShort, h.execBstBShort, h.execBstHShort, h.execBstWShort, h.execBstDShort, h.execAcqShort,
    h.execAcqShShort, h.execRelShort, h.execPmrdShort, h.execPmwaitShort, h.execPhresShort, h.execPhpostShort, h.execPhtakeShort,
    h.execPhgiveShort, h.execPhstatShort, h.execTqputShort, h.execTqgetShort, h.execTqgetPkShort, h.execVdistShort, h.execSpecqShort,
    h.execKstatShort, h.execLcrdShort, h.execLbrkShort, h.execFmtselShort, h.execFmtgetShort, h.execMgetShort, h.execMpushShort,
    h.execWenterShort, h.execNbcanShort, h.execTabortShort, h.execScrubShort, h.execHadvShort, h.execTenqShort, h.execEcall, h.execEbreak, next
    h.evTlbirAck, h.execTendShort, h.execTyieldShort, h.execMinvShort, h.execMpopShort, h.execWleaveShort, next h.evLanding, next h.evTrap, next
    h.evLaunchAccept, next h.evHostLaunchSubmit, next h.evQuantumTick, next h.evDispatch, next h.evTokenRefill, next h.evTaskStart, next
    h.evTaskComplete, next h.evSpeculativeStart, next h.evAssayNotice, next h.evAssayVerdict, next h.evProofStoreTimeout, next h.evTeamSwap, next
    h.evSwapRequeue, next h.evHangTimeout, next h.evFirmwareWatchdog, next h.evPreempt, next h.evDrainTimeout, next h.evSaveComplete, next
    h.evCheckpointDue, next h.evCheckpointTaken, next h.evGangSwitch, next h.evGangVote, next h.evGangVoteDeadline, next h.evGangResetDeadline,
    next h.evCacheEviction, next h.evCopyComplete, next h.evSyncGrant, next h.evNbqAccept, next h.evNbEngineRecord, next h.evNbSummary, next
    h.evSameBankRefresh, next h.evCollArrival, next h.evHomeRead, next h.evHomeWrite, next h.evBlockUnlock, next h.evHomeAtomic, next
    h.evErrorScrub, next h.evCompletion, next h.evAcknowledgementToken, next h.evDirectoryMessage, next h.evManagementMessage, next h.evBurstTag,
    next h.evReplayRequest, next h.evLinkDown, next h.evLinkUp, next h.evOrphanTimeout, next h.evTimeExchangeTick, next h.evTimeExchange, next
    h.evPageWalk, next h.evRecallDeadline, next h.evRecallReturn, next h.evNotificationPop, next h.evApertureRead, next h.evApertureWrite, next
    h.evMgmtClaim, next h.evMgmtHandover, next h.evHandoverTimeout, next h.evBmcSilenceTimeout, next h.evHostLinkDown, next h.evPkgcfgLock, next
    h.evDiestatClear, next h.evRegisterWrite, next h.evPartitionRequest, next h.evBdtWrite, next h.evSchedBlockWrite, next h.evPoolFrameAdd, next
    h.evTenantSet, next h.evGetTdispVersion, next h.evGetTdispCapabilities, next h.evLockInterfaceRequest, next h.evGetDeviceInterfaceReport,
    next h.evGetDeviceInterfaceState, next h.evStartInterfaceRequest, next h.evStopInterfaceRequest, next h.evIdeKm, next h.evIdeStreamFailure,
    next h.evGetVersion, next h.evGetCapabilities, next h.evNegotiateAlgorithms, next h.evGetDigests, next h.evGetCertificate, next
    h.evChallenge, next h.evGetMeasurements, next h.evKeyExchange, next h.evFinish, next h.evEndSession, next h.evJoinHello, next h.evJoinReply,
    next h.evJoinFinish, next h.evJoinDone, next h.evJoinTimeout, next h.evUalinkTransaction, next h.evPowerUp, next evModuleReset, next
    h.evThermalCapStep, next h.evThermalTrip, next h.evTimeUnlockTimeout, next h.evReservePoolRefill, next h.evQueueDescWrite, next
    h.evContextDescWrite, next h.evApertureTableWrite, next h.evDieReset, next h.evDieReturn, next h.evUalinkLaneFault]

/-! ### One step (04 R59, 18 R304, R308) -/

theorem stepMember (h : s.Canonical q) {w : Who} : endsCanonical q (stepMember w s) := by
  unfold Machine.stepMember
  split
  · split
    · exact next h.trapFocus
    · exact h.exec _
  · exact next h

theorem stepHart (h : s.Canonical q) {i : Fin 16} : endsCanonical q (stepHart i s) := by
  unfold Machine.stepHart
  split
  · exact next h
  · split
    · exact next h.setHart
    · split
      · exact next h.trapFocus
      · dsimp only
        split
        · exact h.exec _
        · split
          · exact finish h.hartExec
          · exact next h.trapFocus

theorem lookAway {x : Host.Outcome State Fault Refusal} (h : endsCanonical q x) : endsCanonical q (lookAway x) := by
  cases x with
  | next v => exact next (h v rfl)
  | fault _ => exact fun _ e => nomatch e
  | refused _ => exact fun _ e => nomatch e

theorem stepAgent (h : s.Canonical q) : endsCanonical q (stepAgent s) := by
  unfold Machine.stepAgent
  split
  · exact lookAway (stepMember h.look)
  · exact h.stepHart

theorem stepTurn (h : s.Canonical q) {t : Turn} : endsCanonical q (stepTurn t s) := by
  cases t with
  | run a => exact stepAgent (s := { s with focus := a }) h
  | glance _ _ => exact next h.glance
  | event i args => exact exec (s := { s with args := args }) h i
  | focusTask _ => exact next h.focusTask

/-- Whatever a step performs, it keeps the canonical form. -/
theorem step (h : s.Canonical q) : endsCanonical q (step s) := by
  unfold Machine.step
  split
  · exact h.elapse.stepAgent
  next rest _ => exact stepTurn (s := { s.elapse with agenda := rest }) h.elapse

end Sys2Proof.Machine.State.Canonical

namespace Sys2Proof.Machine

/-- Settles O7: every operation that writes a memory keeps the canonical form, so every step does. -/
theorem memoryKept : Obligations.MemoryKept := by
  unfold Obligations.MemoryKept
  exact ⟨fun _ t h e => canonical_false.mp ((canonical_false.mpr h).step t e),
    fun _ t h e => canonical_true.mp ((canonical_true.mpr h).step t e)⟩

end Sys2Proof.Machine
end

section
/-! Sync objects, fences, postmarks and waits (05 R83-R90, 12 R244-R247). -/

namespace Sys2Proof.Machine

section
variable {o : LF} {s u : State} {i : Instr} {n : Nat} {w : Who}

/-! ### Instructions that issue -/

theorem exec_acq_issued
    (h : spells .acq .acqShort shortLong o i n ∨ spells .acq .acqShShort (fun rd rs1 rs2 => shortLF rd rs1 rs2 1) o i n)
    (hi : s.issues w o (shapeAcq o) {}) : exec i s = (acquire o w s).finish n := by
  have hrun : exec i s = runAcq i n o s := by
    cases h with
    | inl h => exact exec_of_spells (fun _ _ => rfl) (fun _ _ _ _ => rfl) h s
    | inr h => exact exec_of_spells (fun _ _ => rfl) (fun _ _ _ _ => rfl) h s
  exact hrun.trans (issue_ok hi)

theorem exec_rel_issued (h : spells .rel .relShort shortLong o i n) (hi : s.issues w o (shapeRel o) {}) :
    exec i s = (release o w s).finish n :=
  (exec_of_spells (run := runRel) (fun _ _ => rfl) (fun _ _ _ _ => rfl) h s).trans (issue_ok hi)

theorem exec_frange_issued (hi : s.issues w o (shapeFrange o) {}) : exec (.frange o) s = (rangeFence o w s).finish 8 := by
  rw [exec, execFrange]
  exact issue_ok hi

theorem exec_pmrd_issued (h : spells .pmrd .pmrdShort shortLong o i n) (hi : s.issues w o (shapePmrd o) {}) :
    exec i s = .next ((s.setX (fieldReg o.d) (BitVec.ofNat 64 (s.pmCompleted o.b.toNat))).completed n) :=
  (exec_of_spells (run := runPmrd) (fun _ _ => rfl) (fun _ _ _ _ => rfl) h s).trans (issue_done hi rfl)

theorem exec_pmwait_issued (h : spells .pmwait .pmwaitShort shortLong o i n) (hi : s.issues w o (shapePmwait o) {}) :
    exec i s = (postmarkWait o w s).finish n :=
  (exec_of_spells (run := runPmwait) (fun _ _ => rfl) (fun _ _ _ _ => rfl) h s).trans (issue_ok hi)

theorem exec_wait_issued (hi : s.issues w o (shapeWait o) { ok5 := o.d.toNat ≤ 63 && o.a.toNat ≤ 63 && o.b.toNat ≤ 63 }) :
    exec (.wait o) s = (waitCounters o w s).finish 8 := by
  rw [exec, execWait]
  exact issue_ok hi

/-! ### What the checks find (05 R79, 19 R325) -/

theorem State.check_of_passes {cid : Nat} {b : Word} {len rights : Nat} (h : s.passes cid b len rights = true) :
    s.check cid b len rights = .ok () := by
  unfold State.passes at h
  split at h
  · assumption
  · cases h

theorem State.syncDesc_first {b : Word} (hw : ∀ va seen d, (s.member w).wait ≠ some (.acq va seen d)) (ha : brefOff b % 64 = 0)
    (hc : s.passes s.cur.cid b 64 rightA = true) : s.syncDesc w b = .ok (s.descBytes s.cur.cid b) := by
  unfold State.syncDesc
  split
  next e => exact absurd e (hw _ _ _)
  · rw [if_neg (not_not_intro ha), State.check_of_passes hc]

theorem State.syncDesc_waiting {b : Word} {va : Nat} {seen : Option Nat} {desc : List Byte}
    (hw : (s.member w).wait = some (.acq va seen desc)) : s.syncDesc w b = .ok desc := by
  rw [State.syncDesc, hw]

/-! ### A request on an entry behind which nobody waits (05 R88) -/

section
variable {excl : Bool} {desc : List Byte} {y : Sync}

theorem Sync.waiting_of_queue_nil (hq : y.queue = []) (id : Nat) : y.waiting id w = false := by
  rw [Sync.waiting, hq, List.any_nil]

/-- The entry that a request joins, alone in the queue. -/
theorem Sync.queue_append (hq : y.queue = []) (r : Nat × Who × Bool) : { y with queue := y.queue ++ [r] } = { y with queue := [r] } := by
  rw [hq, List.nil_append]

theorem Sync.grant_exclusive {id : Nat} (he : y.excl = none) (hs : y.shared = []) (hq : y.queue = []) :
    ({ y with queue := [(id, w, true)] } : Sync).grant = { y with excl := some id, changes := y.changes + 1 } := by
  simp [Sync.grant, he, hs, hq]

theorem Sync.grant_shared {id : Nat} (he : y.excl = none) (hq : y.queue = []) :
    ({ y with queue := [(id, w, false)] } : Sync).grant = { y with shared := y.shared ++ [id], changes := y.changes + 1 } := by
  simp [Sync.grant, he, hq]

theorem Sync.grant_held {id : Nat} (h : y.excl ≠ none ∨ (excl = true ∧ y.shared ≠ [])) :
    ({ y with queue := [(id, w, excl)] } : Sync).grant = { y with queue := [(id, w, excl)] } := by
  cases excl with
  | true => exact if_neg (by simpa [Option.isNone_iff_eq_none] using fun he hs => h.elim (absurd he) fun h => absurd hs h.2)
  | false => exact if_pos (Option.isSome_iff_ne_none.mpr (h.resolve_right (by simp)))

/-- A new request is queued, and granted when no hold stands against it. -/
theorem acquireAt_asks (hq : y.queue = []) (hh : y.holds s.cur.id = false) {z : Sync}
    (hz : ({ y with queue := [(s.cur.id, w, excl)] } : Sync).grant = z) :
    acquireAt w excl desc y s = if z.waiting s.cur.id w then .stay (.acq y.va (some z.changes) desc) (s.setSync z)
      else .done ((s.setSync z).rangesInv z).external := by
  unfold acquireAt
  dsimp only
  rw [if_neg (by simp [Sync.waiting_of_queue_nil hq]), if_neg (by simp [hh]), Sync.queue_append hq, hz]

theorem acquireAt_exclusive (hq : y.queue = []) (hh : y.holds s.cur.id = false) (he : y.excl = none) (hs : y.shared = []) :
    acquireAt w true desc y s =
      .done ((s.setSync { y with excl := some s.cur.id, changes := y.changes + 1 }).rangesInv
        { y with excl := some s.cur.id, changes := y.changes + 1 }).external := by
  rw [acquireAt_asks hq hh (Sync.grant_exclusive he hs hq), if_neg (by simp [Sync.waiting_of_queue_nil, hq])]

theorem acquireAt_shared (hq : y.queue = []) (hh : y.holds s.cur.id = false) (he : y.excl = none) :
    acquireAt w false desc y s =
      .done ((s.setSync { y with shared := y.shared ++ [s.cur.id], changes := y.changes + 1 }).rangesInv
        { y with shared := y.shared ++ [s.cur.id], changes := y.changes + 1 }).external := by
  rw [acquireAt_asks hq hh (Sync.grant_shared he hq), if_neg (by simp [Sync.waiting_of_queue_nil, hq])]

theorem acquireAt_waits (hq : y.queue = []) (hh : y.holds s.cur.id = false) (h : y.excl ≠ none ∨ (excl = true ∧ y.shared ≠ [])) :
    acquireAt w excl desc y s =
      .stay (.acq y.va (some y.changes) desc) (s.setSync { y with queue := [(s.cur.id, w, excl)] }) := by
  rw [acquireAt_asks hq hh (Sync.grant_held h), if_pos (by simp [Sync.waiting])]

theorem acquireAt_held (hq : y.queue = []) (hh : y.holds s.cur.id = true) (hw : (s.member w).wait = none) :
    acquireAt w excl desc y s = .trap (trapOf .syncState) s := by
  simp [acquireAt, Sync.waiting_of_queue_nil hq, hh, hw]

theorem acquireAt_granted {k : Nat} (hq : y.queue = []) (hh : y.holds s.cur.id = true)
    (hw : (s.member w).wait = some (.acq y.va (some k) desc)) : acquireAt w excl desc y s = .done (s.rangesInv y).external := by
  simp [acquireAt, Sync.waiting_of_queue_nil hq, hh, hw]

/-! ### `acq` and `rel` (05 R87-R89) -/

/-- The address of the object that an `acq` names, under the descriptor it goes by. -/
def syncAddr (desc : List Byte) (b : Word) : Nat := (parseDesc desc).vbase + brefOff b

theorem acquire_found (hs : s.cur.spec = false) (hd : s.syncDesc w (s.x (fieldReg o.a)) = .ok desc)
    (hf : s.sync? s.cur.cid (syncAddr desc (s.x (fieldReg o.a))) = some y) : acquire o w s = acquireAt w (o.sub == 0) desc y s := by
  unfold acquire
  dsimp only
  rw [if_neg (by simp [hs]), hd]
  dsimp only
  rw [← syncAddr, hf]

theorem acquire_registers (hs : s.cur.spec = false) (hd : s.syncDesc w (s.x (fieldReg o.a)) = .ok desc)
    (hf : s.sync? s.cur.cid (syncAddr desc (s.x (fieldReg o.a))) = none) (hfull : s.directoryFull = false)
    (hz : s.bufHazard w (syncAddr desc (s.x (fieldReg o.a))) 64 false = false)
    (hr : s.register (parseDesc desc) (s.x (fieldReg o.a)) = .ok (u, y)) : acquire o w s = acquireAt w (o.sub == 0) desc y u := by
  unfold acquire
  dsimp only
  rw [if_neg (by simp [hs]), hd]
  dsimp only
  rw [← syncAddr, hf]
  dsimp only
  rw [if_neg (by simp [hfull]), if_neg (by simp [hz]), hr]

theorem acquire_full (hs : s.cur.spec = false) (hd : s.syncDesc w (s.x (fieldReg o.a)) = .ok desc)
    (hf : s.sync? s.cur.cid (syncAddr desc (s.x (fieldReg o.a))) = none) (hfull : s.directoryFull = true) :
    acquire o w s = .stay (.acq (syncAddr desc (s.x (fieldReg o.a))) none desc) s := by
  unfold acquire
  dsimp only
  rw [if_neg (by simp [hs]), hd]
  dsimp only
  rw [← syncAddr, hf]
  exact if_pos hfull

/-- `rel` of an object that the directory holds is decided by the task's hold. -/
theorem release_found (hs : s.cur.spec = false) (ha : brefOff (s.x (fieldReg o.a)) % 64 = 0)
    (hc : s.passes s.cur.cid (s.x (fieldReg o.a)) 64 rightA = true)
    (hf : s.sync? s.cur.cid (s.vaOf s.cur.cid (s.x (fieldReg o.a))) = some y) :
    (y.holds s.cur.id = false → release o w s = .trap (trapOf .syncState) s) ∧
    (y.holds s.cur.id = true → s.ownCopies w = [] → release o w s = .done ((s.rangesWb y).setSync (y.drop s.cur.id)).external) := by
  unfold release
  dsimp only
  rw [if_neg (by simp [hs]), if_neg (not_not_intro ha), State.check_of_passes hc]
  dsimp only
  rw [hf]
  exact ⟨fun hh => if_pos (by simp [hh]), fun hh hown => by simp [hh, hown]⟩

theorem Sync.drop_of_holds {id : Nat} (h : y.holds id = true) :
    y.drop id = { y with excl := if y.excl = some id then none else y.excl, shared := y.shared.filter (· != id),
                         changes := y.changes + 1 } := if_pos h

end

/-! ### Range fences and waits (05 R83, R90, 12 R245-R247) -/

theorem rangeFence_empty (h : (s.x (fieldReg o.b)).toNat = 0) :
    rangeFence o w s = .done (if o.scope = 0 then s else s.external) := if_pos h

theorem rangeFence_passes (h : (s.x (fieldReg o.b)).toNat ≠ 0)
    (hc : s.passes s.cur.cid (s.x (fieldReg o.a)) (s.x (fieldReg o.b)).toNat rightR = true)
    (hz : o.sub.getLsbD 0 = true → s.bufHazard w (s.vaOf s.cur.cid (s.x (fieldReg o.a))) (s.x (fieldReg o.b)).toNat false = false) :
    rangeFence o w s =
      if o.scope = 0 then .done s
      else
        let s1 := if o.sub.getLsbD 0 then
            s.wbRange s.cur.cluster s.cur.cid (s.vaOf s.cur.cid (s.x (fieldReg o.a))) (s.x (fieldReg o.b)).toNat else s
        let s2 := if o.sub.getLsbD 1 then
            s1.invRange s.cur.cluster s.cur.cid (s.vaOf s.cur.cid (s.x (fieldReg o.a))) (s.x (fieldReg o.b)).toNat else s1
        .done s2.external := by
  unfold rangeFence
  dsimp only
  rw [if_neg h, State.check_of_passes hc]
  exact if_neg (by simpa using hz)

theorem postmarkWait_zero (h : (s.x (fieldReg o.a)).toNat = 0) : postmarkWait o w s = .done s := if_pos h

theorem postmarkWait_compares (h : (s.x (fieldReg o.a)).toNat ≠ 0) (hw : w ≠ .seq ∨ o.b ≠ 2) :
    postmarkWait o w s = if (s.x (fieldReg o.a)).toNat ≤ s.pmCompleted o.b.toNat then .done s
      else .stay (.pmwait o.b.toNat (s.x (fieldReg o.a)).toNat) s := by
  unfold postmarkWait
  dsimp only
  rw [if_neg h]
  exact if_neg fun ⟨h1, h2, _⟩ => hw.elim (absurd h1) (absurd h2)

theorem postmarkWait_passed (h : (s.x (fieldReg o.a)).toNat ≠ 0) (hw : w ≠ .seq ∨ o.b ≠ 2)
    (hle : (s.x (fieldReg o.a)).toNat ≤ s.pmCompleted o.b.toNat) : postmarkWait o w s = .done s := by
  rw [postmarkWait_compares h hw, if_pos hle]

theorem postmarkWait_waits (h : (s.x (fieldReg o.a)).toNat ≠ 0) (hw : w ≠ .seq ∨ o.b ≠ 2)
    (hlt : s.pmCompleted o.b.toNat < (s.x (fieldReg o.a)).toNat) :
    postmarkWait o w s = .stay (.pmwait o.b.toNat (s.x (fieldReg o.a)).toNat) s := by
  rw [postmarkWait_compares h hw, if_neg (Nat.not_le.mpr hlt)]

theorem waitCounters_seq (h : s.cur.team.tileOps ≤ o.sub.toNat) : waitCounters o .seq s = .done s := if_pos h

theorem waitCounters_courier (hw : w ≠ .seq) (hu : ((s.ownCopies w).filter Copy.unread).length ≤ o.d.toNat)
    (hc : (s.ownCopies w).length ≤ o.b.toNat) (ht : s.courierTiles w ≤ o.sub.toNat) : waitCounters o w s = .done s := by
  cases w with
  | seq => exact absurd rfl hw
  | ld | st => exact if_pos (by simp [hu, hc, ht])

end

/-! ### The obligation -/

/-- The entry that a request finds or registers decides it; `u` is the state that then holds the entry `y`. -/
theorem acquire_decided {o : LF} {w : Who} {s u : State} {desc : List Byte} {y : Sync} (hs : s.cur.spec = false)
    (hd : s.syncDesc w (s.x (fieldReg o.a)) = .ok desc)
    (hy : (s.sync? s.cur.cid (syncAddr desc (s.x (fieldReg o.a))) = some y ∧ u = s) ∨
      (s.sync? s.cur.cid (syncAddr desc (s.x (fieldReg o.a))) = none ∧ s.directoryFull = false ∧
        s.bufHazard w (syncAddr desc (s.x (fieldReg o.a))) 64 false = false ∧
        s.register (parseDesc desc) (s.x (fieldReg o.a)) = .ok (u, y))) : acquire o w s = acquireAt w (o.sub == 0) desc y u := by
  obtain ⟨hf, rfl⟩ | ⟨hf, hfull, hz, hr⟩ := hy
  · exact acquire_found hs hd hf
  · exact acquire_registers hs hd hf hfull hz hr

/-- Settles O45: the entry decides a request and a release, the lengths and scopes a fence, the counters a wait. -/
theorem synchronisation : Obligations.Synchronisation := by
  unfold Obligations.Synchronisation
  refine ⟨fun o w s u i n y desc => ?_, fun o w s i n => ?_⟩
  · intro b cid sound first d va found id hs hq
    constructor
    case left =>
      intro hsp hi hdesc
      have hd : s.syncDesc w b = .ok desc := by
        obtain ⟨hfirst, ⟨ha, hc⟩, rfl⟩ | ⟨at_, seen, hw⟩ := hdesc
        · exact State.syncDesc_first hfirst ha hc
        · exact State.syncDesc_waiting hw
      rw [exec_acq_issued hsp hi]
      refine ⟨fun hy => ?_, fun hf hfull => by rw [acquire_full hs hd hf hfull, Eff.finish_stay]; rfl⟩
      rw [acquire_decided hs hd hy]
      refine ⟨fun hh he => ⟨fun hsub hsh => ?_, fun hsub => ?_⟩, fun hh h => ?_, fun hh hw => ?_, fun k hh hw => ?_⟩
      · rw [beq_iff_eq.mpr hsub, acquireAt_exclusive hq hh he hsh, Eff.finish_done]
      · rw [beq_eq_false_iff_ne.mpr hsub, acquireAt_shared hq hh he, Eff.finish_done]
      · rw [acquireAt_waits hq hh (by simpa using h), Eff.finish_stay]
      · rw [acquireAt_held hq hh hw, Eff.finish_trap]
      · rw [acquireAt_granted hq hh hw, Eff.finish_done]
    case right =>
      rintro hsp hi ⟨ha, hc⟩ hf rfl
      obtain ⟨hfree, hheld⟩ := release_found (o := o) (w := w) hs ha hc hf
      rw [exec_rel_issued hsp hi]
      exact ⟨fun hh => by rw [hfree hh, Eff.finish_trap],
        fun hh hown => by rw [hheld hh hown, Sync.drop_of_holds hh, Eff.finish_done]⟩
  · intro b len va num
    refine ⟨fun hi => ?frange, fun hsp hi => exec_pmrd_issued hsp hi, fun hsp hi => ?pmwait, fun hi => ?wait⟩
    case frange =>
      rw [exec_frange_issued hi]
      refine ⟨fun h => by rw [rangeFence_empty h, Eff.finish_done], fun h hc hz => ?_⟩
      rw [rangeFence_passes h hc hz]
      exact ⟨fun hsc => by rw [if_pos hsc, Eff.finish_done], fun hsc => by rw [if_neg hsc]; rfl⟩
    case pmwait =>
      rw [exec_pmwait_issued hsp hi]
      exact ⟨fun h => by rw [postmarkWait_zero h, Eff.finish_done],
        fun h hw => ⟨fun hle => by rw [postmarkWait_passed h hw hle, Eff.finish_done],
          fun hlt => by rw [postmarkWait_waits h hw hlt, Eff.finish_stay]⟩⟩
    case wait =>
      rw [exec_wait_issued hi]
      exact ⟨fun hw ht => by rw [hw, waitCounters_seq ht, Eff.finish_done],
        fun hw hu hc ht => by rw [waitCounters_courier hw hu hc ht, Eff.finish_done]⟩

end Sys2Proof.Machine
end

section
/-! Events of memory, queries, collectives and translation (05 R81, R87-R91, 07, 12, 18, 19, 22, 24). -/

namespace Sys2Proof.Machine

section
variable {s u : State}

/-! ### Evictions and copies (05 R81, 12 R230, 04 R69, R72) -/

section
variable {l : CacheLine} (h : s.cached (s.arg 0) (s.arg 1) (s.arg 2) = some l)
include h

theorem evCacheEviction_clean (hd : l.dirty = 0) : evCacheEviction s = s.dropCache l.cluster l.cid l.va := by
  rw [evCacheEviction, h]
  exact if_pos hd

theorem evCacheEviction_full (hd : l.dirty ≠ 0) (hm : s.maySend (1 + l.cluster / 32) (s.homeDie l.pa) = false) :
    evCacheEviction s = s := by
  rw [evCacheEviction, h]
  dsimp only
  rw [if_neg hd, if_pos (by simp [hm])]

theorem evCacheEviction_sends (hd : l.dirty ≠ 0) (hm : s.maySend (1 + l.cluster / 32) (s.homeDie l.pa) = true) :
    evCacheEviction s =
      let u := s.dropCache l.cluster l.cid l.va
      { u with nextId := u.nextId + 1,
               txns := u.txns ++ [⟨u.nextId, l.cid, 1 + l.cluster / 32, s.homeDie l.pa, l.pa / 64 * 64, l.va, l.slot, l.nb, l.bref, 64,
                                   .write l.data l.dirty, false⟩] } := by
  rw [evCacheEviction, h]
  dsimp only
  rw [if_neg hd, if_neg (by simp [hm])]

end

/-- The moves of those not yet read. -/
def unreadMoves (ms : List (Move × List (Nat × Byte))) : List Move := (ms.filter unreadMove).map Prod.fst

section
variable {c : Copy} (h : (s.copies.find? fun c => c.id == s.arg 0) = some c)
include h

theorem evCopyComplete_ends (hb : s.arg 1 = 0) :
    evCopyComplete s = s.withTask c.task fun u => ((u.finishCopy c).map fun v => v.copyFault c (unreadMoves c.todo)).getD u.freezeFull := by
  rw [evCopyComplete, h]
  refine congrArg (s.withTask c.task) (funext fun u => ?_)
  rw [hb]
  dsimp only
  cases u.finishCopy c <;> rfl

theorem evCopyComplete_writes (hb : s.arg 1 = 1) :
    evCopyComplete s = s.withTask c.task fun u => (u.copyAhead c (s.arg 2) (s.arg 3)).copyFault c
      (unreadMoves ((c.todo[s.arg 2]?).toList.flatMap fun m => (c.atom (s.arg 2) (s.arg 3) m).1)) := by
  rw [evCopyComplete, h]
  refine congrArg (s.withTask c.task) (funext fun u => ?_)
  dsimp only
  rw [hb]
  rfl

theorem evCopyComplete_reads (hb : 2 ≤ s.arg 1) :
    evCopyComplete s = s.withTask c.task fun u => (u.copyEarly c (s.arg 2) (s.arg 3)).copyFault c
      (unreadMoves ((c.todo[s.arg 2]?).toList.flatMap fun m => partOfMove m (s.arg 3) 1)) := by
  obtain ⟨k, hk⟩ := Nat.exists_eq_add_of_le' hb
  rw [evCopyComplete, h]
  refine congrArg (s.withTask c.task) (funext fun u => ?_)
  dsimp only
  rw [hk]
  rfl

end

/-- A copy all of whose local sources can be read meets no fault. -/
theorem State.copyFault_of_readable {c : Copy} {ms : List Move} (h : ∀ m ∈ ms, ∀ l, m.src = .loc l → u.badLineIn l m.len = none) :
    u.copyFault c ms = u := by
  unfold State.copyFault
  rw [List.findSome?_eq_none_iff.mpr]
  intro m hm
  split
  next a e => rw [h m hm a e]; rfl
  · rfl

/-! ### Grants, queries, refreshes and collectives (05 R87, R88, 07 R119-R128, 12 R236, R237) -/

theorem evSyncGrant_of_sync? {y : Sync} (h : s.sync? (s.arg 0) (s.arg 1) = some y) : evSyncGrant s = s.setSync y.grant := by
  rw [evSyncGrant, h]

theorem evDirectoryMessage_of_sync? {y : Sync} (h : s.sync? (s.arg 0) (s.arg 1) = some y) :
    evDirectoryMessage s = s.setSync y.grant := by rw [evDirectoryMessage, h]

section
variable {r : Query} (h : (s.queries.find? fun r => r.id == s.arg 0) = some r)
include h

theorem evNbqAccept_of_query (ha : r.accepted = false) (hl : s.nbLoad (stackOf r.frame) < 64) : evNbqAccept s = s.nbAccept r := by
  rw [evNbqAccept, h]
  exact if_pos (by simp [ha, hl])

theorem evNbEngineRecord_of_query (ha : r.accepted = true) : evNbEngineRecord s = s.nbEngine r (s.arg 1) := by
  rw [evNbEngineRecord, h]
  exact if_pos ha

theorem evNbSummary_of_query (ha : r.accepted = true) (hr : ∀ x ∈ r.records, x.posted = true) : evNbSummary s = s.nbFinish r := by
  rw [evNbSummary, h]
  exact if_pos (by simpa [ha] using hr)

end

theorem evSameBankRefresh_new (hb : s.arg 1 < 256) (hc : s.arg 2 < 4) (hr : (s.arg 1, s.arg 2) ∉ (s.mdie (s.arg 0)).refreshed) :
    evSameBankRefresh s = s.setMdie (s.arg 0)
      { s.mdie (s.arg 0) with refreshed := (s.mdie (s.arg 0)).refreshed ++ [(s.arg 1, s.arg 2)] } :=
  if_pos (by simp [hb, hc, hr])

theorem evCollArrival_of_send {c : Coll} {x : Send} (hc : s.coll? (s.arg 0) (s.arg 1) = some c)
    (hx : (c.sends.find? fun x => x.sender == s.arg 2 && x.receiver == s.arg 3 && !x.done) = some x) :
    evCollArrival s = (s.performSend c x).settleColl
      { c with sends := markSend (s.arg 2) (s.arg 3) c.sends,
               counted := if (s.arg 2, s.arg 3) ∈ c.counted then c.counted else c.counted ++ [(s.arg 2, s.arg 3)] } := by
  have hp := List.find?_some hx
  simp only [Bool.and_eq_true, beq_iff_eq] at hp
  obtain ⟨⟨hs, hr⟩, -⟩ := hp
  rw [evCollArrival, hc]
  dsimp only
  rw [hx]
  simp only [hs, hr, List.contains_iff_mem]

/-! ### Transactions at their homes (22 R371-R374, 24 R399-R401) -/

/-- A transaction whose burst no receiver has accepted does not arrive. -/
theorem State.onTxn_of_unaccepted {t : Txn} (h : s.txn? (s.arg 0) = some t) (ha : t.accepted = false) (home : Bool)
    (f : Txn → State → State) : s.onTxn home f = s := by
  rw [State.onTxn, h]
  exact if_neg (by simp [ha])

/-- The transaction that the first argument names arrives: `u` is the state without it. -/
structure State.Arrives (s : State) (t : Txn) (u : State) : Prop where
  found : s.txn? (s.arg 0) = some t
  accepted : t.accepted = true
  first : s.txnFirst t = true
  routed : s.routed t.src t.dst = true
  taken : u = { s with txns := s.txns.filter fun x => x.tag != t.tag }

section
variable {t : Txn} (h : s.Arrives t u)
include h

theorem State.Arrives.onTxn (home : Bool) (f : Txn → State → State) :
    s.onTxn home f = if home && (s.block t.pa).locked then u.holdTxn t else f t u := by
  rw [State.onTxn, h.found, h.taken]
  exact if_pos (by simp [h.accepted, h.first, h.routed])

theorem State.Arrives.held (hl : (s.block t.pa).locked = true) (f : Txn → State → State) : s.onTxn true f = u.holdTxn t := by
  rw [h.onTxn, hl]
  rfl

theorem State.Arrives.atHome (hl : (s.block t.pa).locked = false) (f : Txn → State → State) : s.onTxn true f = f t u := by
  rw [h.onTxn, hl]
  rfl

theorem State.Arrives.away (f : Txn → State → State) : s.onTxn false f = f t u := h.onTxn false f

end

section
variable {t : Txn} {n : Nat}

/-- The bytes of a line that a transaction of `n` bytes asks for, as a number. -/
def Txn.bytesOf (t : Txn) (line : List Byte) (n : Nat) : Nat := leNat ((line.drop (t.pa % 64)).take n)

@[simp] theorem State.reportErrors_nil (s : State) : s.reportErrors [] = s := rfl

theorem performTxn_read (hk : t.kind = .read n) :
    u.performTxn t = (u.answerTxn t (.completion (BitVec.ofNat 512 (t.bytesOf (u.homeRead t.cid t.slot t.pa).1 n))) n).reportErrors
      ((u.homeRead t.cid t.slot t.pa).2.toList.map t.failed) := by
  rw [State.performTxn, State.serve, hk]
  rfl

theorem performTxn_write {data : BitVec 512} {mask : BitVec 64} (hk : t.kind = .write data mask) :
    u.performTxn t = ((u.lineOut t.cid t.slot t.nb t.bref t.pa data mask).1.answerTxn t .ack 0).reportErrors
      (u.lineOut t.cid t.slot t.nb t.bref t.pa data mask).2 := by
  rw [State.performTxn, State.serve, hk]
  rfl

variable {op : Nat} {v : Word}

/-- The word that an atomic leaves of the line at its home. -/
def State.atomicNew (u : State) (t : Txn) (op n : Nat) (v : Word) : Nat :=
  amoNew op n (t.bytesOf (u.homeRead t.cid t.slot t.pa).1 n) (v.toNat % 256 ^ n)

theorem performTxn_atomic (hk : t.kind = .atomic op n v) :
    u.performTxn t = ((u.atomicAt t op n v).sent t).reportErrors (u.atomicAt t op n v).reports := by
  rw [State.performTxn, State.serve, hk]

theorem performTxn_atomic_failed {e : Nat} (hk : t.kind = .atomic op n v) (he : (u.homeRead t.cid t.slot t.pa).2 = some e) :
    u.performTxn t = (u.answerTxn t (.completion 0) n).reportErrors [t.failed e] := by
  have hs : u.atomicAt t op n v = ⟨u, [t.failed e], some (.completion 0, n)⟩ := by
    rw [State.atomicAt]
    dsimp only
    rw [he]
  rw [performTxn_atomic hk, hs]
  rfl

/-- An atomic on a line that can be read writes nothing back where it leaves the word as it is. -/
theorem State.atomicAt_of_read (he : (u.homeRead t.cid t.slot t.pa).2 = none) :
    u.atomicAt t op n v =
      let old := t.bytesOf (u.homeRead t.cid t.slot t.pa).1 n
      let l := lineOf (t.pa % 64) (leBytes n (u.atomicNew t op n v))
      let w := if u.atomicNew t op n v = old then (u, []) else u.lineOut t.cid t.slot t.nb t.bref t.pa l.1 l.2
      ⟨w.1, w.2, some (.completion (BitVec.ofNat 512 old), n)⟩ := by
  rw [State.atomicAt]
  dsimp only
  rw [he]
  rfl

theorem performTxn_atomic_same (hk : t.kind = .atomic op n v) (he : (u.homeRead t.cid t.slot t.pa).2 = none)
    (hn : u.atomicNew t op n v = t.bytesOf (u.homeRead t.cid t.slot t.pa).1 n) :
    u.performTxn t = u.answerTxn t (.completion (BitVec.ofNat 512 (t.bytesOf (u.homeRead t.cid t.slot t.pa).1 n))) n := by
  rw [performTxn_atomic hk, State.atomicAt_of_read he]
  dsimp only
  rw [if_pos hn]
  rfl

theorem performTxn_atomic_writes (hk : t.kind = .atomic op n v) (he : (u.homeRead t.cid t.slot t.pa).2 = none)
    (hn : u.atomicNew t op n v ≠ t.bytesOf (u.homeRead t.cid t.slot t.pa).1 n) :
    u.performTxn t =
      let l := lineOf (t.pa % 64) (leBytes n (u.atomicNew t op n v))
      let w := u.lineOut t.cid t.slot t.nb t.bref t.pa l.1 l.2
      (w.1.answerTxn t (.completion (BitVec.ofNat 512 (t.bytesOf (u.homeRead t.cid t.slot t.pa).1 n))) n).reportErrors w.2 := by
  rw [performTxn_atomic hk, State.atomicAt_of_read he]
  dsimp only
  rw [if_neg hn]
  rfl

end

/-! ### Unlocks, errors, invalidations and walks (22 R373, 18 R318, 04 R72, 19 R327-R334) -/

theorem State.unlock_locked {pa : Nat} (h : (s.block pa).locked = true) :
    s.unlock pa =
      let k := s.block pa
      let z := k.held.foldl (fun (u : State × List Report) t => ((u.1.serve t).sent t, u.2 ++ (u.1.serve t).reports))
        (s.setBlock pa { k with locked := false, held := [] }, [])
      z.1.reportErrors z.2 := by
  unfold State.unlock State.unlockOut
  dsimp only
  rw [if_pos h]

theorem State.unlock_unlocked {pa : Nat} (h : (s.block pa).locked = false) : s.unlock pa = s := by
  unfold State.unlock State.unlockOut
  dsimp only
  rw [if_neg (by simp [h])]
  rfl

theorem evErrorScrub_line (hb : s.arg 1 ≠ 5) (hb' : s.arg 1 ≤ 12) (hh : s.homeOf (64 * s.arg 0) = .here)
    (hd : s.damageAt (64 * s.arg 0) = none) (hk : (s.block (64 * s.arg 0)).dead = false) :
    evErrorScrub s =
      let m := s.mdie (stackOf (64 * s.arg 0))
      { s.setMdie (stackOf (64 * s.arg 0)) { m with errcnt := if s.arg 1 < 3 then m.errcnt + 1 else m.errcnt } with
        damage := (s.arg 0, damageOf (s.arg 1)) :: s.damage } := by
  unfold evErrorScrub
  dsimp only
  rw [if_neg hb, if_pos (by simp [hb', hh, hd, hk])]

theorem evErrorScrub_scratch (hb : s.arg 1 = 5) (ha : s.arg 0 < 256) (hl : s.arg 2 < 131072) (hn : (s.arg 0, s.arg 2) ∉ s.clusBad) :
    evErrorScrub s =
      { s.setDie (s.arg 0 / 32) { s.die (s.arg 0 / 32) with errcnt := (s.die (s.arg 0 / 32)).errcnt + 1 } with
        clusBad := s.clusBad ++ [(s.arg 0, s.arg 2)] } := by
  unfold evErrorScrub
  dsimp only
  rw [if_pos hb, if_pos (by simp [ha, hl, hn])]

theorem evTlbirAck_ready {v : Inval} (h : (s.invals.find? fun v => v.ticket == s.arg 0) = some v) (hr : s.invalReady v = true) :
    evTlbirAck s = s.finishInval v := by
  rw [evTlbirAck, h]
  exact if_pos hr

/-- What a walk leaves is the state of its translation, whether it faults or not. -/
theorem evPageWalk_walks (hd : (s.desc (s.arg 0) (s.brefOfVa (s.arg 0) (s.arg 1))).length ≠ 0) (hc : s.arg 3 < 256) :
    evPageWalk s = stateAfter (s.translate (s.clusterAcc (s.arg 0) (s.arg 3)) (s.desc (s.arg 0) (s.brefOfVa (s.arg 0) (s.arg 1)))
      (s.arg 1) (s.arg 2 != 0)) := by
  unfold evPageWalk
  dsimp only
  rw [if_neg (not_or.mpr ⟨hd, Nat.not_le.mpr hc⟩)]
  split
  next e => rw [e]; rfl
  next e => rw [e]; rfl

end

/-! ### The obligation -/

/-- Settles O56: each event by the rule of its own operation, with what it finds. -/
theorem memoryEvents : Obligations.MemoryEvents := by
  unfold Obligations.MemoryEvents
  intro s a b
  refine ⟨?eviction, ?copy, fun u c ms => State.copyFault_of_readable, ?grant, ?query, ?refresh, ?collective, ?unaccepted, ?arrival,
    ?unlock, ?error, ?inval, ?walk⟩
  case eviction =>
    intro l hl u src dst
    exact ⟨fun hd => congrArg _ (evCacheEviction_clean hl hd), fun hd hm => congrArg _ (evCacheEviction_full hl hd hm),
      fun hd hm => congrArg _ (evCacheEviction_sends hl hd hm)⟩
  case copy =>
    intro c hc unread todo
    exact ⟨fun hb => congrArg _ (evCopyComplete_ends hc hb), fun hb => congrArg _ (evCopyComplete_writes hc hb),
      fun hb => congrArg _ (evCopyComplete_reads hc hb)⟩
  case grant =>
    exact fun y hy => ⟨congrArg _ (evSyncGrant_of_sync? hy), congrArg _ (evDirectoryMessage_of_sync? hy)⟩
  case query =>
    exact fun r hr => ⟨fun ha hl => congrArg _ (evNbqAccept_of_query hr ha hl), fun ha => congrArg _ (evNbEngineRecord_of_query hr ha),
      fun ha hp => congrArg _ (evNbSummary_of_query hr ha hp)⟩
  case refresh => exact fun hb hc hn => congrArg _ (evSameBankRefresh_new hb hc hn)
  case collective => exact fun c x hc hx => congrArg _ (evCollArrival_of_send hc hx)
  case unaccepted =>
    intro t ht ha i hi
    have hstay := State.onTxn_of_unaccepted ht ha
    simp only [List.mem_cons, List.not_mem_nil, or_false] at hi
    obtain rfl | rfl | rfl | rfl | rfl | rfl := hi
    all_goals exact congrArg _ (hstay _ _)
  case arrival =>
    intro t ht ha hfirst hroute u
    have h : s.Arrives t u := ⟨ht, ha, hfirst, hroute, rfl⟩
    refine ⟨fun hl => ?home, fun hl => ?held, fun v hk => ?completion, fun hk => ?ack, fun hk => ?mgmt⟩
    case home =>
      intro x bytes
      have hread {n : Nat} (hk : t.kind = .read n) : evHomeRead s = u.performTxn t := (h.atHome hl _).trans (by rw [hk])
      have hwrite {data mask} (hk : t.kind = .write data mask) : evHomeWrite s = u.performTxn t := (h.atHome hl _).trans (by rw [hk])
      have hatomic {op n v} (hk : t.kind = .atomic op n v) : evHomeAtomic s = u.performTxn t := (h.atHome hl _).trans (by rw [hk])
      refine ⟨fun n hk => congrArg _ ((hread hk).trans (performTxn_read hk)),
        fun data mask hk => congrArg _ ((hwrite hk).trans (performTxn_write hk)), fun op n v hk => ⟨fun e he => ?_, fun he => ?_⟩⟩
      · exact congrArg _ ((hatomic hk).trans (performTxn_atomic_failed hk he))
      · exact ⟨fun hn => congrArg _ ((hatomic hk).trans (performTxn_atomic_same hk he hn)),
          fun hn => congrArg _ ((hatomic hk).trans (performTxn_atomic_writes hk he hn))⟩
    case held => exact ⟨congrArg _ (h.held hl _), congrArg _ (h.held hl _), congrArg _ (h.held hl _)⟩
    case completion => exact congrArg _ ((h.away _).trans (by rw [hk]))
    case ack => exact congrArg _ ((h.away _).trans (by rw [hk]))
    case mgmt => exact congrArg _ ((h.away _).trans (by rw [hk]))
  case unlock => exact ⟨fun hl => congrArg _ (State.unlock_locked hl), fun hl => congrArg _ (State.unlock_unlocked hl)⟩
  case error =>
    exact ⟨fun hb hb' hh hd hk => congrArg _ (evErrorScrub_line hb hb' hh hd hk),
      fun hb ha hl hn => congrArg _ (evErrorScrub_scratch hb ha hl hn)⟩
  case inval => exact fun v hv hr => congrArg Host.Outcome.next (evTlbirAck_ready hv hr)
  case walk =>
    intro hd hc x
    have hw : exec .pageWalk s = .next (stateAfter x) := congrArg Host.Outcome.next (evPageWalk_walks hd hc)
    exact ⟨fun u p hx => hw.trans (by rw [hx]; rfl), fun m hx => hw.trans (by rw [hx]; rfl)⟩

end Sys2Proof.Machine
end

section
/-! Decoding the encoding of an instruction, and encoding what a word decodes to (08 R132-R144, 09 R155). -/

namespace Sys2Proof

/-! ### From an instruction to its words and back -/

/-- The round trip of every instruction, by the law of its row. -/
theorem Laws.RoundTrip.all (i : Instr) : Laws.RoundTrip.Statement i := by
  cases i
  exacts [
    lui _ _, auipc _ _, jal _ _, jalr _ _ _, beq _ _ _, bne _ _ _, blt _ _ _, bge _ _ _, bltu _ _ _, bgeu _ _ _, lb _ _ _,
    lh _ _ _, lw _ _ _, ld _ _ _, lbu _ _ _, lhu _ _ _, lwu _ _ _, sb _ _ _, sh _ _ _, sw _ _ _, sd _ _ _, addi _ _ _,
    slti _ _ _, sltiu _ _ _, xori _ _ _, ori _ _ _, andi _ _ _, slli _ _ _, srli _ _ _, srai _ _ _, add _ _ _, sub _ _ _,
    sll _ _ _, slt _ _ _, sltu _ _ _, xor _ _ _, srl _ _ _, sra _ _ _, or _ _ _, and _ _ _, mul _ _ _, mulh _ _ _, mulhsu _ _ _,
    mulhu _ _ _, div _ _ _, divu _ _ _, rem _ _ _, remu _ _ _, addiw _ _ _, slliw _ _ _, srliw _ _ _, sraiw _ _ _, addw _ _ _,
    subw _ _ _, sllw _ _ _, srlw _ _ _, sraw _ _ _, mulw _ _ _, divw _ _ _, divuw _ _ _, remw _ _ _, remuw _ _ _, fence _ _ _,
    csrrw _ _ _, csrrs _ _ _, csrrc _ _ _, csrrwi _ _ _, csrrsi _ _ _, csrrci _ _ _, vadd _, vsub _, vmul _, vfma _, vmin _,
    vmax _, vsgn _, vcmp _, vclass _, viadd _, visub _, vimul _, vimulh _, vimad _, vand _, vor _, vxor _, vshl _, vshr _,
    viminmax _, vsel _, vcvt _, vpack _, vunpack _, vlnmul _, vlnlin _, vexp2 _, vlog2 _, vrcp _, vrsqrt _, vsum _, vrmax _,
    vperm _, vbcast _, vslide _, vmov _, vmvx _, vins _, vld _, vst _, vgath _, vscat _, mpush _, minv _, mpop _, mget _, bmz _,
    wenter _, wleave _, mma _, mmac _, mlutb _, mlut _, azero _, ald _, ast _, ardv _, awrv _, hset _, hget _, hld _, hst _,
    hadv _, loop _, lcrd _, lbrk _, fmtset _, fmtsel _, fmtget _, cpld _, cpst _, cpgat _, cpsca _, cploc _, cprem _, coll _,
    bld _, bst _, bamo _, bcas _, acq _, rel _, frange _, pmrd _, pmwait _, wait _, phcfg _, phtake _, phgive _, phres _,
    phpost _, phstat _, tqput _, tqget _, nbq _, nbcan _, tenq _, tend _, tyield _, lnch _, twait _, specq _, vdist _, tabort _,
    krot _, kstat _, sealImage _, unsealImage _, scrub _, mdead _, ctxsv _, ctxsvHalt _, ctxrs _, ckpt _, ckrb _, tlbir _,
    ksload _, ksloadNew _, ksclr _, ksclrAll _, slmap _, slend _, slrcl _, qlink _, tset _, tadj _, errpost _, stmp _,
    tresmResume _, tresmRestart _, tresmStep _, tresmAbandon _, tresmRel _, tresmSvc _, tcanc _, bldBShort _ _ _,
    bldHShort _ _ _, bldWShort _ _ _, bldDShort _ _ _, bstBShort _ _ _, bstHShort _ _ _, bstWShort _ _ _, bstDShort _ _ _,
    acqShort _ _ _, acqShShort _ _ _, relShort _ _ _, pmrdShort _ _ _, pmwaitShort _ _ _, phresShort _ _ _, phpostShort _ _ _,
    phtakeShort _ _ _, phgiveShort _ _ _, phstatShort _ _ _, tqputShort _ _ _, tqgetShort _ _ _, tqgetPkShort _ _ _,
    vdistShort _ _ _, specqShort _ _ _, kstatShort _ _ _, lcrdShort _ _ _, lbrkShort _ _ _, fmtselShort _ _ _,
    fmtgetShort _ _ _, mgetShort _ _ _, mpushShort _ _ _, wenterShort _ _ _, nbcanShort _ _ _, tabortShort _ _ _,
    scrubShort _ _ _, hadvShort _ _ _, tenqShort _ _ _, ecall, ebreak, tlbirAck, tendShort, tyieldShort, minvShort, mpopShort,
    wleaveShort, landing, trap, launchAccept, hostLaunchSubmit, quantumTick, dispatch, tokenRefill, taskStart, taskComplete,
    speculativeStart, assayNotice, assayVerdict, proofStoreTimeout, teamSwap, swapRequeue, hangTimeout, firmwareWatchdog,
    preempt, drainTimeout, saveComplete, checkpointDue, checkpointTaken, gangSwitch, gangVote, gangVoteDeadline,
    gangResetDeadline, cacheEviction, copyComplete, syncGrant, nbqAccept, nbEngineRecord, nbSummary, sameBankRefresh,
    collArrival, homeRead, homeWrite, blockUnlock, homeAtomic, errorScrub, completion, acknowledgementToken, directoryMessage,
    managementMessage, burstTag, replayRequest, linkDown, linkUp, orphanTimeout, timeExchangeTick, timeExchange, pageWalk,
    recallDeadline, recallReturn, notificationPop, apertureRead, apertureWrite, mgmtClaim, mgmtHandover, handoverTimeout,
    bmcSilenceTimeout, hostLinkDown, pkgcfgLock, diestatClear, registerWrite, partitionRequest, bdtWrite, schedBlockWrite,
    poolFrameAdd, tenantSet, getTdispVersion, getTdispCapabilities, lockInterfaceRequest, getDeviceInterfaceReport,
    getDeviceInterfaceState, startInterfaceRequest, stopInterfaceRequest, ideKm, ideStreamFailure, getVersion, getCapabilities,
    negotiateAlgorithms, getDigests, getCertificate, challenge, getMeasurements, keyExchange, finish, endSession, joinHello,
    joinReply, joinFinish, joinDone, joinTimeout, ualinkTransaction, powerUp, moduleReset, thermalCapStep, thermalTrip,
    timeUnlockTimeout, reservePoolRefill, queueDescWrite, contextDescWrite, apertureTableWrite, dieReset, dieReturn,
    ualinkLaneFault]

/-- No instruction has both a word of four bytes and one of eight. -/
theorem encode64_eq_none_of_encode32 {i : Instr} {w : BitVec 32} (h : encode32 i = some w) : encode64 i = none := by
  cases i <;> cases h <;> rfl

/-- Settles O1: the round trip of each row, and each row is of one length. -/
theorem decodeOfEncode : Obligations.DecodeOfEncode := by
  intro i hw
  obtain ⟨h32, h64⟩ := Laws.RoundTrip.all i hw
  refine ⟨h32, h64, ?_⟩
  cases h : encode32 i with
  | none => exact .inl rfl
  | some w => exact .inr (encode64_eq_none_of_encode32 h)

/-! ### Each layout, put together from its fields -/

theorem encR_fields (w : BitVec 32) : encR (fF7 w) (fRs2 w) (fRs1 w) (fF3 w) (fRd w) (fOpcode w) = w := by
  refine BitVec.eq_of_getLsbD_eq fun i hi => ?_
  simp only [getLsbD_encR, fF7, fRs2, fRs1, fF3, fRd, fOpcode, BitVec.getLsbD_extractLsb']
  grind

theorem encI_fields (w : BitVec 32) : encI (fImmI w) (fRs1 w) (fF3 w) (fRd w) (fOpcode w) = w := by
  refine BitVec.eq_of_getLsbD_eq fun i hi => ?_
  simp only [getLsbD_encI, fImmI, fRs1, fF3, fRd, fOpcode, BitVec.getLsbD_extractLsb']
  grind

theorem encS_fields (w : BitVec 32) : encS (fImmS w) (fRs2 w) (fRs1 w) (fF3 w) (fOpcode w) = w := by
  refine BitVec.eq_of_getLsbD_eq fun i hi => ?_
  simp only [getLsbD_encS, fImmS, fRs2, fRs1, fF3, fOpcode, BitVec.getLsbD_append, BitVec.getLsbD_extractLsb']
  grind

theorem encB_fields {w : BitVec 32} (h : fOpcode w = 0x63#7) : encB (fImmB w) (fRs2 w) (fRs1 w) (fF3 w) = w := by
  refine BitVec.eq_of_getLsbD_eq fun i hi => ?_
  simp only [getLsbD_encB, ← h, fImmB, fRs2, fRs1, fF3, fOpcode, BitVec.getLsbD_append, BitVec.getLsbD_extractLsb']
  grind

theorem encU_fields (w : BitVec 32) : encU (fImmU w) (fRd w) (fOpcode w) = w := by
  refine BitVec.eq_of_getLsbD_eq fun i hi => ?_
  simp only [getLsbD_encU, fImmU, fRd, fOpcode, BitVec.getLsbD_extractLsb']
  grind

theorem encJ_fields {w : BitVec 32} (h : fOpcode w = 0x6F#7) : encJ (fImmJ w) (fRd w) = w := by
  refine BitVec.eq_of_getLsbD_eq fun i hi => ?_
  simp only [getLsbD_encJ, ← h, fImmJ, fRd, fOpcode, BitVec.getLsbD_append, BitVec.getLsbD_extractLsb']
  grind

theorem encL_fields {w : BitVec 64} (h : w.extractLsb' 0 7 = 0x3F#7) :
    encL (fLF w) (w.extractLsb' 11 6) (w.extractLsb' 7 4) = w := by
  refine BitVec.eq_of_getLsbD_eq fun i hi => ?_
  simp only [getLsbD_encL, ← h, fLF, BitVec.getLsbD_extractLsb']
  grind (splits := 30)

/-! ### The four-byte tables -/

/-- The word `w` is the encoding of `i`, which is well formed. -/
def Instr.EncodedBy (i : Instr) (w : BitVec 32) : Prop := i.wellFormed = true ∧ encode32 i = some w

section
variable {w : BitVec 32} {i : Instr}

theorem encodedBy_encR {f7 : BitVec 7} {f3 : BitVec 3} {opc : BitVec 7} (hw : i.wellFormed = true)
    (he : encode32 i = some (encR f7 (fRs2 w) (fRs1 w) f3 (fRd w) opc)) (ho : fOpcode w = opc) (h7 : (fF7 w).toNat = f7.toNat)
    (h3 : (fF3 w).toNat = f3.toNat) : i.EncodedBy w :=
  ⟨hw, by rw [he, ← ho, ← BitVec.eq_of_toNat_eq h7, ← BitVec.eq_of_toNat_eq h3, encR_fields]⟩

theorem encodedBy_encI {f3 : BitVec 3} {opc : BitVec 7} (hw : i.wellFormed = true)
    (he : encode32 i = some (encI (fImmI w) (fRs1 w) f3 (fRd w) opc)) (ho : fOpcode w = opc) (h3 : (fF3 w).toNat = f3.toNat) :
    i.EncodedBy w :=
  ⟨hw, by rw [he, ← ho, ← BitVec.eq_of_toNat_eq h3, encI_fields]⟩

theorem encodedBy_encS {f3 : BitVec 3} {opc : BitVec 7} (hw : i.wellFormed = true)
    (he : encode32 i = some (encS (fImmS w) (fRs2 w) (fRs1 w) f3 opc)) (ho : fOpcode w = opc) (h3 : (fF3 w).toNat = f3.toNat) :
    i.EncodedBy w :=
  ⟨hw, by rw [he, ← ho, ← BitVec.eq_of_toNat_eq h3, encS_fields]⟩

theorem encodedBy_encB {f3 : BitVec 3} (hw : i.wellFormed = true) (he : encode32 i = some (encB (fImmB w) (fRs2 w) (fRs1 w) f3))
    (ho : fOpcode w = 0x63#7) (h3 : (fF3 w).toNat = f3.toNat) : i.EncodedBy w :=
  ⟨hw, by rw [he, ← BitVec.eq_of_toNat_eq h3, encB_fields ho]⟩

theorem encodedBy_encU {opc : BitVec 7} (hw : i.wellFormed = true) (he : encode32 i = some (encU (fImmU w) (fRd w) opc))
    (ho : fOpcode w = opc) : i.EncodedBy w :=
  ⟨hw, by rw [he, ← ho, encU_fields]⟩

/-- The I layout of a 64-bit shift by an immediate, whose high bits select the shift. -/
theorem fImmI_of_high6 {h : BitVec 6} (hh : (fImmI w).extractLsb' 6 6 = h) : h ++ w.extractLsb' 20 6 = fImmI w := by
  refine BitVec.eq_of_getLsbD_eq fun i hi => ?_
  simp only [← hh, fImmI, BitVec.getLsbD_append, BitVec.getLsbD_extractLsb']
  grind

theorem encodedBy_encI_shift {h : BitVec 6} {f3 : BitVec 3} {opc : BitVec 7} (hw : i.wellFormed = true)
    (he : encode32 i = some (encI (h ++ w.extractLsb' 20 6) (fRs1 w) f3 (fRd w) opc)) (ho : fOpcode w = opc)
    (h6 : (fImmI w).extractLsb' 6 6 = h) (h3 : (fF3 w).toNat = f3.toNat) : i.EncodedBy w :=
  encodedBy_encI hw (by rw [he, fImmI_of_high6 h6]) ho h3

theorem encodedBy_of_decodeBranch (ho : fOpcode w = 0x63#7) (h : decodeBranch w = .ok i) : i.EncodedBy w := by
  unfold decodeBranch at h
  split at h <;> cases h
  all_goals exact encodedBy_encB rfl rfl ho ‹_›

theorem encodedBy_of_decodeLoad (ho : fOpcode w = 0x03#7) (h : decodeLoad w = .ok i) : i.EncodedBy w := by
  unfold decodeLoad at h
  split at h <;> cases h
  all_goals exact encodedBy_encI rfl rfl ho ‹_›

theorem encodedBy_of_decodeStore (ho : fOpcode w = 0x23#7) (h : decodeStore w = .ok i) : i.EncodedBy w := by
  unfold decodeStore at h
  split at h <;> cases h
  all_goals exact encodedBy_encS rfl rfl ho ‹_›

theorem encodedBy_of_decodeOpImm (ho : fOpcode w = 0x13#7) (h : decodeOpImm w = .ok i) : i.EncodedBy w := by
  unfold decodeOpImm at h
  split at h
  case h_1 h3 =>
    split at h <;> cases h
    case isTrue h6 => exact encodedBy_encI_shift rfl rfl ho h6 h3
  case h_2 h3 =>
    split at h <;> cases h
    all_goals exact encodedBy_encI_shift rfl rfl ho (BitVec.eq_of_toNat_eq ‹_›) h3
  all_goals cases h
  all_goals exact encodedBy_encI rfl rfl ho ‹_›

theorem encodedBy_of_decodeOpImm32 (ho : fOpcode w = 0x1B#7) (h : decodeOpImm32 w = .ok i) : i.EncodedBy w := by
  unfold decodeOpImm32 at h
  split at h <;> cases h
  case h_1 h3 => exact encodedBy_encI rfl rfl ho h3
  all_goals exact encodedBy_encR rfl rfl ho ‹_› ‹_›

theorem encodedBy_of_decodeOp (ho : fOpcode w = 0x33#7) (h : decodeOp w = .ok i) : i.EncodedBy w := by
  unfold decodeOp at h
  split at h <;> cases h
  all_goals exact encodedBy_encR rfl rfl ho ‹_› ‹_›

theorem encodedBy_of_decodeOp32 (ho : fOpcode w = 0x3B#7) (h : decodeOp32 w = .ok i) : i.EncodedBy w := by
  unfold decodeOp32 at h
  split at h <;> cases h
  all_goals exact encodedBy_encR rfl rfl ho ‹_› ‹_›

theorem encodedBy_of_decodeSystem (ho : fOpcode w = 0x73#7) (h : decodeSystem w = .ok i) : i.EncodedBy w := by
  unfold decodeSystem at h
  split at h
  case h_1 =>
    split at h
    case isTrue hcall =>
      cases h
      exact ⟨rfl, congrArg some hcall.symm⟩
    case isFalse =>
      split at h <;> cases h
      case isTrue hbreak => exact ⟨rfl, congrArg some hbreak.symm⟩
  all_goals cases h
  all_goals exact encodedBy_encI rfl rfl ho ‹_›

theorem encodedBy_of_decodeCustom0 (ho : fOpcode w = 0x0B#7) (h : decodeCustom0 w = .ok i) : i.EncodedBy w := by
  unfold decodeCustom0 at h
  split at h
  case h_5 | h_6 | h_7 | h_8 =>
    cases h
    exact encodedBy_encS rfl rfl ho ‹_›
  all_goals cases h
  all_goals exact encodedBy_encI rfl rfl ho ‹_›

/-- Where its row has no operands, the register fields of a custom-1 word are zero (R142). -/
theorem encode32_of_custom1Row {f3 f7 : Nat} {rd rs1 rs2 : Reg} (h : custom1Row f3 f7 rd rs1 rs2 = some i)
    (hz : i.hasShortFields = true ∨ rd = 0 ∧ rs1 = 0 ∧ rs2 = 0) :
    encode32 i = some (encR (BitVec.ofNat 7 f7) rs2 rs1 (BitVec.ofNat 3 f3) rd 0x2B#7) := by
  unfold custom1Row at h
  split at h <;> cases h
  -- `tend`, `tyield`, `minv`, `mpop` and `wleave`
  case h_14 | h_15 | h_25 | h_26 | h_28 =>
    obtain ⟨rfl, rfl, rfl⟩ := hz.resolve_left Bool.false_ne_true
    rfl
  all_goals rfl

theorem encodedBy_of_decodeCustom1 (ho : fOpcode w = 0x2B#7) (h : decodeCustom1 w = .ok i) : i.EncodedBy w := by
  unfold decodeCustom1 at h
  split at h
  case h_1 => cases h
  case h_2 j hrow =>
    split at h <;> cases h
    case isTrue hok =>
      obtain ⟨hw, hz⟩ : i.wellFormed = true ∧ (i.hasShortFields = true ∨ fRd w = 0 ∧ fRs1 w = 0 ∧ fRs2 w = 0) := by
        simpa [and_assoc] using hok
      refine ⟨hw, ?_⟩
      rw [encode32_of_custom1Row hrow hz, BitVec.ofNat_toNat, BitVec.ofNat_toNat, BitVec.setWidth_eq, BitVec.setWidth_eq, ← ho,
        encR_fields]

theorem encodedBy_of_decode32 (h : decode32 w = .ok i) : i.EncodedBy w := by
  unfold decode32 at h
  split at h
  -- `lui`, `auipc`, `jal`, then `jalr` and `fence`
  case h_1 ho | h_2 ho =>
    cases h
    exact encodedBy_encU rfl rfl (BitVec.eq_of_toNat_eq ho)
  case h_3 ho =>
    cases h
    exact ⟨rfl, congrArg some (encJ_fields (BitVec.eq_of_toNat_eq ho))⟩
  case h_4 ho | h_12 ho =>
    split at h <;> cases h
    case isTrue h3 => exact encodedBy_encI rfl rfl (BitVec.eq_of_toNat_eq ho) (congrArg BitVec.toNat h3)
  case h_5 ho => exact encodedBy_of_decodeBranch (BitVec.eq_of_toNat_eq ho) h
  case h_6 ho => exact encodedBy_of_decodeLoad (BitVec.eq_of_toNat_eq ho) h
  case h_7 ho => exact encodedBy_of_decodeStore (BitVec.eq_of_toNat_eq ho) h
  case h_8 ho => exact encodedBy_of_decodeOpImm (BitVec.eq_of_toNat_eq ho) h
  case h_9 ho => exact encodedBy_of_decodeOpImm32 (BitVec.eq_of_toNat_eq ho) h
  case h_10 ho => exact encodedBy_of_decodeOp (BitVec.eq_of_toNat_eq ho) h
  case h_11 ho => exact encodedBy_of_decodeOp32 (BitVec.eq_of_toNat_eq ho) h
  case h_13 ho => exact encodedBy_of_decodeSystem (BitVec.eq_of_toNat_eq ho) h
  case h_14 ho => exact encodedBy_of_decodeCustom0 (BitVec.eq_of_toNat_eq ho) h
  case h_15 ho => exact encodedBy_of_decodeCustom1 (BitVec.eq_of_toNat_eq ho) h
  case h_16 => cases h

end

/-! ### The CLASS/OP map -/

section
variable {op : Nat} {o : LF} {i : Instr}

theorem encode64_of_class15Row {x : Nat} (h : class15Row op x o = .ok i) :
    encode64 i = some (encL o (BitVec.ofNat 6 op) 15#4) := by
  unfold class15Row at h
  split at h <;> cases h
  all_goals rfl

/-- Every row of the map is encoded under its own CLASS and OP (R144). -/
theorem encode64_of_longRow {cls : Nat} (h : longRow cls op o = .ok i) :
    encode64 i = some (encL o (BitVec.ofNat 6 op) (BitVec.ofNat 4 cls)) := by
  have hrow {r : Option Instr}
      (hr : (match r with | some j => .ok j | none => .error .badPair) = (.ok i : Except DecodeError Instr)) : r = some i := by
    cases r <;> cases hr
    rfl
  unfold longRow at h
  split at h
  case h_16 => exact encode64_of_class15Row h
  case h_17 => cases h
  all_goals
    replace h := hrow h
    simp only [class0Row.eq_def, class1Row.eq_def, class2Row.eq_def, class3Row.eq_def, class4Row.eq_def, class5Row.eq_def,
      class6Row.eq_def, class7Row.eq_def, class8Row.eq_def, class9Row.eq_def, class10Row.eq_def, class11Row.eq_def,
      class12Row.eq_def, class13Row.eq_def, class14Row.eq_def] at h
    split at h <;> cases h
  all_goals rfl

end

theorem encode64_of_decodeLong {w : BitVec 64} {i : Instr} (hw : w.extractLsb' 0 7 = 0x3F#7) (h : decodeLong w = .ok i) :
    i.wellFormed = true ∧ encode64 i = some w := by
  simp only [decodeLong] at h
  split at h
  case h_1 => cases h
  case h_2 j hrow =>
    split at h <;> cases h
    case isTrue hok =>
      refine ⟨hok, ?_⟩
      rw [encode64_of_longRow hrow, BitVec.ofNat_toNat, BitVec.ofNat_toNat, BitVec.setWidth_eq, BitVec.setWidth_eq, encL_fields hw]

/-- Settles O2: the fields a decoder reads are those its row encodes, and no word has other bits than its fields. -/
theorem encodeOfDecode : Obligations.EncodeOfDecode := by
  intro lo hi i n h
  unfold decode at h
  split at h
  case isTrue ho =>
    split at h
    case h_1 => cases h
    case h_2 v =>
      split at h <;> cases h
      case h_1 hl =>
        have hmajor : (v ++ lo).extractLsb' 0 7 = 0x3F#7 := by
          rw [← ho, fOpcode]
          exact BitVec.extractLsb'_append_eq_of_add_le (by decide)
        obtain ⟨hw, he⟩ := encode64_of_decodeLong hmajor hl
        exact ⟨hw, .inr ⟨rfl, v, rfl, he⟩⟩
  case isFalse =>
    split at h <;> cases h
    case h_1 hd =>
      obtain ⟨hw, he⟩ := encodedBy_of_decode32 hd
      exact ⟨hw, .inl ⟨rfl, he⟩⟩

/-! ### Words of the spec -/

/-- Settles O3: the decoder evaluated on each word. -/
theorem decodeExamples : Obligations.DecodeExamples := by
  unfold Obligations.DecodeExamples
  and_intros <;> decide +kernel

end Sys2Proof
end

section
/-! Steps whose words are no instruction of the table (08 R132, R139, 18 R304, 23 R383). -/

namespace Sys2Proof.Machine

/-! ### Members -/

section
variable {s : State} {w : Who}

theorem stepMember_stopped (hr : s.memberRuns w = false) : stepMember w s = .next s := by
  simp only [stepMember, hr, Bool.false_eq_true, if_false]

theorem decodeTrap_eq (e : DecodeError) : decodeTrap e = trapOf (if e = .systemField then .privilege else .illegalInstr) := by
  cases e <;> rfl

theorem stepMember_undecoded {e : DecodeError} (hf : s.focus = .member w) (hr : s.memberRuns w = true)
    (he : (s.member w).fetch = .error e) :
    stepMember w s = .next (s.takeTrap w (trapOf (if e = .systemField then .privilege else .illegalInstr))) := by
  simp only [stepMember, hr, if_true, he, decodeTrap_eq, State.trapFocus, hf]

end

theorem Member.fetch_of_word {m : Member} {lo : BitVec 32} (h : m.code[m.pc / 4]? = some lo) :
    m.fetch = decode lo m.code[m.pc / 4 + 1]? := by
  simp only [Member.fetch, h]

theorem Member.fetch_outside {m : Member} (h : m.code[m.pc / 4]? = none) : m.fetch = .error .fetchOutside := by
  simp only [Member.fetch, h]

/-! ### Harts -/

/-- A trap of the hart in focus is its exception, by code and tval (18 R304). -/
theorem State.trapFocus_hart {s : State} {h : Fin 16} (hf : s.focus = .hart h) (t : Trap) :
    s.trapFocus t = s.setHart h ((s.hart h).take t.cause.code.toNat t.d1) := by
  simp only [State.trapFocus, hf]

section
variable {s : State} {h : Fin 16}

theorem stepHart_stopped (hs : (s.hart h).waits = true ∨ s.hartHalted h = true) : stepHart h s = .next s := by
  simp only [stepHart, Bool.or_eq_true, hs, if_true]

theorem stepHart_interrupted {n : Nat} (hw : (s.hart h).waits = false) (hh : s.hartHalted h = false) (hwait : (s.hart h).wait = none)
    (hirq : (s.hart h).irq = some n) : stepHart h s = .next (s.setHart h ((s.hart h).takeIrq n)) := by
  simp [stepHart, hw, hh, hwait, hirq]

/-- A fetch that memory does not answer is an access fault (18 R304). -/
theorem stepHart_unanswered (hf : s.focus = .hart h) (hw : (s.hart h).waits = false) (hh : s.hartHalted h = false)
    (hirq : (s.hart h).irq = none) (hm : s.hartMay (s.hart h).pc.toNat = false) :
    stepHart h s = .next (s.setHart h ((s.hart h).take 1 (s.hart h).pc)) := by
  simp [stepHart, hw, hh, hirq, hm, accessFault, State.trapFocus_hart hf, Cause.code]

/-- Where the words are no row of the table, the word alone says what the hart does. -/
theorem stepHart_undecoded {e : DecodeError} (hf : s.focus = .hart h) (hw : (s.hart h).waits = false) (hh : s.hartHalted h = false)
    (hirq : (s.hart h).irq = none) (hm : s.hartMay (s.hart h).pc.toNat = true) (he : s.hartFetch h = .error e) :
    (∀ op, decodeHart (s.wordAt (s.hart h).pc.toNat) = some op →
      stepHart h s = (s.hartExec h ((s.wordAt (s.hart h).pc.toNat).setWidth 64) op).finish 4) ∧
    (decodeHart (s.wordAt (s.hart h).pc.toNat) = none →
      stepHart h s = .next (s.setHart h ((s.hart h).take 2 ((s.wordAt (s.hart h).pc.toNat).setWidth 64)))) := by
  refine ⟨fun op hop => ?_, fun hop => ?_⟩
  · simp [stepHart, hw, hh, hirq, hm, he, hop]
  · simp [stepHart, hw, hh, hirq, hm, he, hop, State.trapFocus_hart hf, Cause.code]

end

/-- Settles O5: the agent in focus moves after the time that passes, and what stops it, or traps it, comes before any execution. -/
theorem otherSteps : Obligations.OtherSteps := by
  refine ⟨fun s w ha hf => ?member, fun s h ha hf => ?hart, fun s h e ha hf hw hh hirq hm hd => ?undecoded⟩
  case member =>
    rw [step_of_agenda_nil ha, stepAgent_member (s := s.elapse) hf]
    refine ⟨fun hr => ?_, fun hr => ⟨fun lo e hlo hd => ?_, fun hlo => ?_⟩⟩
    · rw [stepMember_stopped (s := s.elapse.look w) hr]
    · rw [stepMember_undecoded (s := s.elapse.look w) hf hr ((Member.fetch_of_word hlo).trans hd)]
    · rw [stepMember_undecoded (s := s.elapse.look w) hf hr (Member.fetch_outside hlo)]
      rfl
  case hart =>
    rw [step_of_agenda_nil ha, stepAgent_hart (s := s.elapse) hf]
    refine ⟨fun hs => ?_, fun hw hh => ⟨fun n hwait hirq => ?_, fun hirq hm => ?_⟩⟩
    · exact stepHart_stopped (by simpa using hs)
    · exact stepHart_interrupted (by simpa using hw) hh (by simpa using hwait) (by simpa using hirq)
    · rw [stepHart_unanswered (s := s.elapse) hf (by simpa using hw) hh (by simpa using hirq) (by simpa using hm), State.elapse_hart,
        Hart.elapse_pc]
  case undecoded =>
    have hu := stepHart_undecoded (s := s.elapse) (e := e) hf (by simpa using hw) hh (by simpa using hirq) (by simpa using hm)
      ((s.elapse_hartFetch h).trans hd)
    rw [step_of_agenda_nil ha, stepAgent_hart (s := s.elapse) hf]
    simpa using hu

end Sys2Proof.Machine
end

section
/-! Which agents execute a long form, and what a short form does (08 R138-R143, 18 R304, 23 R382). -/

namespace Sys2Proof.Machine

/-! ### The issue of an instruction in a team -/

/-- What the issue of an instruction by member `w` comes to: neither its spelling nor its length bears on it (08 R139, R143). -/
def State.issueEff (s : State) (w : Who) (o : LF) (sh : Shape) (plan : Team → Res → Plan) (body : Who → Res → State → Eff) :
    Eff :=
  let t := s.cur.team
  let r := t.res o
  let p := plan t r
  if !permitted sh.cls sh.op w then .trap (trapOf .illegalInstr) s
  else
    match p.check t w o sh with
    | some c => .trap (trapOf c) s
    | none =>
      if w == .seq && p.drains t then .drain s.drainOwed
      else if o.t == 1 && t.bypassConflict p.lat then .trap (trapOf .bypassConflict) s
      else body w r s

section
variable {o : LF} {sh : Shape} {plan : Team → Res → Plan} {body : Who → Res → State → Eff} {s : State} {w : Who}

theorem issue_in_team (hf : s.focus = .member w) (i : Instr) (n : Nat) :
    issue i n o sh plan body s = (s.issueEff w o sh plan body).finish n := by
  simp only [issue, hf, State.issueEff]
  cases (plan s.cur.team (s.cur.team.res o)).check s.cur.team w o sh <;> simp only [apply_ite (Eff.finish n)]

/-- A form outside the member's list is illegal, and so is one whose fields break check 4 (08 R138, R139). -/
theorem issueEff_illegal (hbad : permitted sh.cls sh.op w = false ∨ sh.fieldsOk o = false) :
    s.issueEff w o sh plan body = .trap (trapOf .illegalInstr) s := by
  cases hbad with
  | inl hp => simp [State.issueEff, hp]
  | inr hfields => simp [State.issueEff, Plan.check, hfields]

end

/-! ### Who may execute a long form -/

section
variable {i : Instr} {s : State} {h : Fin 16}

/-- A class 15 form is illegal on a hart in U, and one whose fields break check 4 in any mode (18 R304). -/
theorem issueSys_illegal {o : LF} {sh : Shape} {body : Fin 16 → State → Eff} (hf : s.focus = .hart h)
    (hbad : (s.hart h).mode = 0 ∨ sh.fieldsOk o = false) : issueSys i o sh body s = .next (s.trapped (illegalOnHart i)) := by
  simp only [issueSys, hf]
  exact if_pos (by simpa using hbad)

theorem State.trapped_illegalOnHart (hf : s.focus = .hart h) :
    s.trapped (illegalOnHart i) = s.setHart h ((s.hart h).take 2 (lowWord i)) :=
  State.trapFocus_hart hf _

end

/-- Settles O24: a long form is issued by the shared issue of its class, which checks the agent and the fields first. -/
theorem whoMayExecute : Obligations.WhoMayExecute := by
  intro i o sh s hs
  obtain ⟨hcls, plan, body, hexec⟩ | ⟨hcls, body, hexec⟩ := issued_all i o sh hs
  · refine ⟨fun w hf => ⟨fun h15 => absurd h15 hcls, fun _ hbad => ?_⟩, fun h hf _ => ?_⟩
    · rw [hexec, issue_in_team hf, issueEff_illegal hbad]
      rfl
    · rw [hexec, issue_on_hart hf, State.trapped_illegalOnHart hf]
  · refine ⟨fun w hf => ⟨fun _ => ?_, fun hne => absurd hcls hne⟩, fun h hf hbad => ?_⟩
    · rw [hexec, issueSys_in_team hf]
    · rw [hexec, issueSys_illegal hf (hbad.resolve_left (absurd hcls)), State.trapped_illegalOnHart hf]

/-! ### Short forms -/

/-- A short form and a long one end with the same effect, but for the length by which they move the pc (08 R143). -/
def State.SameEffect (s : State) (short long : Instr) : Prop := ∃ e : Eff, exec short s = e.finish 4 ∧ exec long s = e.finish 8

section
variable {s : State} {w : Who}

/-- The two spellings of one form are issued by the same operation. -/
theorem sameEffect_of_run {short long : Instr} {o : LF} {sh : Shape} {plan : Team → Res → Plan}
    {body : Who → Res → State → Eff} (hf : s.focus = .member w) (run : Instr → Nat → LF → State → Host.Outcome State Fault Refusal)
    (hrun : ∀ i n, run i n o s = issue i n o sh plan body s) (hs : exec short s = run short 4 o s)
    (hl : exec long s = run long 8 o s) : s.SameEffect short long :=
  ⟨s.issueEff w o sh plan body, by rw [hs, hrun, issue_in_team hf], by rw [hl, hrun, issue_in_team hf]⟩

/-- What a short buffer access by member `w` comes to. -/
def State.bufEff (s : State) (w : Who) (e : Who → Eff) : Eff :=
  match w with
  | .seq => .trap (trapOf .illegalInstr) s
  | _ => e w

theorem shortBuf_in_team (hf : s.focus = .member w) (i : Instr) (e : Who → Eff) : shortBuf i s e = (s.bufEff w e).finish 4 := by
  simp only [shortBuf, hf]
  cases w <;> rfl

/-- A buffer access in its long form, whose fields are allowed, is refused to the sequencer alone and drains nothing (R138). -/
theorem issueEff_buf {o : LF} {sh : Shape} {body : Who → Res → State → Eff} (hc : sh.cls = 10) (hok : sh.fieldsOk o = true)
    (ht : o.t = 0) : s.issueEff w o sh (fun _ _ => {}) body = s.bufEff w fun w => body w (s.cur.team.res o) s := by
  cases w with
  | seq => exact issueEff_illegal (.inl (by simp [permitted, hc]))
  | ld => simp [State.issueEff, State.bufEff, permitted, hc, Plan.check, hok, groupOk, Plan.routeOk, ht]
  | st => simp [State.issueEff, State.bufEff, permitted, hc, Plan.check, hok, groupOk, Plan.routeOk, ht]

@[simp] theorem fieldReg_setWidth (r : Reg) : fieldReg (r.setWidth 11) = r := by
  simp [fieldReg]

/-- A register number is one that an operand field may hold (R134). -/
theorem fieldOk_setWidth (r : Reg) : Kind.x.fieldOk (r.setWidth 11) = true := by
  simp only [Kind.fieldOk, BitVec.toNat_setWidth]
  have := r.isLt
  exact decide_eq_true (by omega)

theorem signExtend_eq_sext11 (imm : BitVec 11) : (imm.signExtend 12).signExtend 64 = sext11 imm :=
  BitVec.eq_of_toInt_eq (by simp only [sext11, BitVec.toInt_signExtend_of_le, Nat.reduceLeDiff])

/-- The long form of a short load, MOD and operands (R141). -/
def bldLF (sub : BitVec 6) (rd rs1 : Reg) (imm : BitVec 11) : LF := ⟨sub, 0, 0, 0, 0, imm, rs1.setWidth 11, rd.setWidth 11⟩

/-- The long form of a short store, MOD and operands (R141). -/
def bstLF (sub : BitVec 6) (rs1 rs2 : Reg) (imm : BitVec 11) : LF := ⟨sub, 0, 0, 0, 0, rs2.setWidth 11, rs1.setWidth 11, imm⟩

/-- A MOD that is a size alone is allowed to every buffer access, and does not sign-extend (R239). -/
theorem bufMod_of_size {o : LF} (h : o.sub ∈ ([0, 1, 2, 3] : List (BitVec 6))) (sx : Bool) :
    o.bufMod sx [0, 1, 2, 3] false = true ∧ o.sx = false := by
  simp only [List.mem_cons, List.not_mem_nil, or_false] at h
  simp only [LF.bufMod, LF.size, LF.sx, LF.scope]
  obtain h | h | h | h := h <;> simp [h]

theorem sameEffect_bld {short : Instr} {sub : BitVec 6} {rd rs1 : Reg} {imm : BitVec 11} {n : Nat} (hf : s.focus = .member w)
    (hsub : sub ∈ ([0, 1, 2, 3] : List (BitVec 6))) (hn : 2 ^ (bldLF sub rd rs1 imm).size = n)
    (hs : exec short s = shortBuf short s fun w => bufLoad w rd (s.x rs1 + (imm.signExtend 12).signExtend 64) n false s) :
    s.SameEffect short (.bld (bldLF sub rd rs1 imm)) := by
  obtain ⟨hmod, hsx⟩ := bufMod_of_size (o := bldLF sub rd rs1 imm) hsub true
  have hok : (shapeBld (bldLF sub rd rs1 imm)).fieldsOk (bldLF sub rd rs1 imm) = true := by
    simp only [Shape.fieldsOk, shapeBld, hmod]
    simp only [bldLF, fieldOk_setWidth]
    rfl
  refine ⟨_, hs.trans (shortBuf_in_team hf _ _), ?_⟩
  rw [exec, execBld, issue_in_team hf, issueEff_buf rfl hok rfl, hsx, hn, signExtend_eq_sext11]
  simp only [bldLF, fieldReg_setWidth]

theorem sameEffect_bst {short : Instr} {sub : BitVec 6} {rs1 rs2 : Reg} {imm : BitVec 11} {n : Nat} (hf : s.focus = .member w)
    (hsub : sub ∈ ([0, 1, 2, 3] : List (BitVec 6))) (hn : 2 ^ (bstLF sub rs1 rs2 imm).size = n)
    (hs : exec short s = shortBuf short s fun w => bufStore w (s.x rs1 + (imm.signExtend 12).signExtend 64) (s.x rs2) n s) :
    s.SameEffect short (.bst (bstLF sub rs1 rs2 imm)) := by
  obtain ⟨hmod, -⟩ := bufMod_of_size (o := bstLF sub rs1 rs2 imm) hsub false
  have hok : (shapeBst (bstLF sub rs1 rs2 imm)).fieldsOk (bstLF sub rs1 rs2 imm) = true := by
    simp only [Shape.fieldsOk, shapeBst, hmod]
    simp only [bstLF, fieldOk_setWidth]
    rfl
  refine ⟨_, hs.trans (shortBuf_in_team hf _ _), ?_⟩
  rw [exec, execBst, issue_in_team hf, issueEff_buf rfl hok rfl, hn, signExtend_eq_sext11]
  simp only [bstLF, fieldReg_setWidth]

end

/-- Settles O25: both spellings of a form are issued by one operation, or are the same buffer access. -/
theorem shortForms : Obligations.ShortForms := by
  intro s w rd rs1 rs2 imm hf
  simp only [List.forall_mem_cons, List.not_mem_nil, false_imp_iff, implies_true, and_true]
  exact ⟨sameEffect_of_run hf runAcq (fun _ _ => rfl) rfl rfl,
    sameEffect_of_run hf runAcq (fun _ _ => rfl) rfl rfl,
    sameEffect_of_run hf runRel (fun _ _ => rfl) rfl rfl,
    sameEffect_of_run hf runPmrd (fun _ _ => rfl) rfl rfl,
    sameEffect_of_run hf runPmwait (fun _ _ => rfl) rfl rfl,
    sameEffect_of_run hf runPhres (fun _ _ => rfl) rfl rfl,
    sameEffect_of_run hf runPhpost (fun _ _ => rfl) rfl rfl,
    sameEffect_of_run hf runPhtake (fun _ _ => rfl) rfl rfl,
    sameEffect_of_run hf runPhgive (fun _ _ => rfl) rfl rfl,
    sameEffect_of_run hf runPhstat (fun _ _ => rfl) rfl rfl,
    sameEffect_of_run hf runTqput (fun _ _ => rfl) rfl rfl,
    sameEffect_of_run hf runTqget (fun _ _ => rfl) rfl rfl,
    sameEffect_of_run hf runTqget (fun _ _ => rfl) rfl rfl,
    sameEffect_of_run hf runVdist (fun _ _ => rfl) rfl rfl,
    sameEffect_of_run hf runSpecq (fun _ _ => rfl) rfl rfl,
    sameEffect_of_run hf runKstat (fun _ _ => rfl) rfl rfl,
    sameEffect_of_run hf runLcrd (fun _ _ => rfl) rfl rfl,
    sameEffect_of_run hf runLbrk (fun _ _ => rfl) rfl rfl,
    sameEffect_of_run hf runFmtsel (fun _ _ => rfl) rfl rfl,
    sameEffect_of_run hf runFmtget (fun _ _ => rfl) rfl rfl,
    sameEffect_of_run hf runMget (fun _ _ => rfl) rfl rfl,
    sameEffect_of_run hf runMpush (fun _ _ => rfl) rfl rfl,
    sameEffect_of_run hf runWenter (fun _ _ => rfl) rfl rfl,
    sameEffect_of_run hf runNbcan (fun _ _ => rfl) rfl rfl,
    sameEffect_of_run hf runTabort (fun _ _ => rfl) rfl rfl,
    sameEffect_of_run hf runScrub (fun _ _ => rfl) rfl rfl,
    sameEffect_of_run hf runHadv (fun _ _ => rfl) rfl rfl,
    sameEffect_of_run hf runTenq (fun _ _ => rfl) rfl rfl,
    sameEffect_of_run hf runTend (fun _ _ => rfl) rfl rfl,
    sameEffect_of_run hf runTyield (fun _ _ => rfl) rfl rfl,
    sameEffect_of_run hf runMinv (fun _ _ => rfl) rfl rfl,
    sameEffect_of_run hf runMpop (fun _ _ => rfl) rfl rfl,
    sameEffect_of_run hf runWleave (fun _ _ => rfl) rfl rfl,
    sameEffect_bld hf (by decide) rfl rfl,
    sameEffect_bld hf (by decide) rfl rfl,
    sameEffect_bld hf (by decide) rfl rfl,
    sameEffect_bld hf (by decide) rfl rfl,
    sameEffect_bst hf (by decide) rfl rfl,
    sameEffect_bst hf (by decide) rfl rfl,
    sameEffect_bst hf (by decide) rfl rfl,
    sameEffect_bst hf (by decide) rfl rfl⟩

end Sys2Proof.Machine
end

section
/-! The forms of the scalar base that only compute: what they write, and what they leave alone (09 R154, R156, R158). -/

namespace Sys2Proof.Machine

/-! ### One scalar register written -/

/-- A scalar register written with what it holds changes nothing. -/
theorem State.setX_self (s : State) (r : Reg) : s.setX r (s.x r) = s := by
  have key (v : Vector Word 32) : regSet v r (regGet v r) = v := by
    by_cases hr : r = 0
    · rw [regSet, if_pos hr]
    · rw [regSet, regGet, if_neg hr, if_neg hr]
      exact Vector.set_getElem_self r.isLt
  unfold State.setX State.x
  cases s.focus with
  | member w =>
    dsimp only
    rw [key]
    exact congrArg s.setTeam (s.cur.team.setMember_self w)
  | hart h =>
    dsimp only
    rw [key]
    exact s.setHart_self h

/-- What a scalar register's write may change of a state: the members of the focused team and the harts. -/
theorem State.setX_eq (s : State) (r : Reg) (v : Word) : ∃ sq ld st hs,
    s.setX r v = { s with cur := { s.cur with team := { s.cur.team with seq := sq, ld := ld, st := st } }, harts := hs } := by
  unfold State.setX
  split
  next w _ => cases w <;> exact ⟨_, _, _, _, rfl⟩
  next h _ => exact ⟨_, _, _, _, rfl⟩

theorem State.setX_member_other {s : State} {w : Who} (hw : s.focus ≠ .member w) (r : Reg) (v : Word) :
    (s.setX r v).member w = s.member w := by
  unfold State.setX
  cases hf : s.focus with
  | member u => exact Team.member_setMember_ne _ _ _ _ fun e => hw (hf.trans (by rw [e]))
  | hart h => rfl

theorem State.setX_hart_other {s : State} {h : Fin 16} (hh : s.focus ≠ .hart h) (r : Reg) (v : Word) :
    (s.setX r v).hart h = s.hart h := by
  unfold State.setX
  cases hf : s.focus with
  | member u => rfl
  | hart k => exact State.hart_setHart_ne _ _ _ _ fun e => hh (hf.trans (by rw [e]))

theorem State.setX_hart_self {s : State} {h : Fin 16} (hf : s.focus = .hart h) (r : Reg) (v : Word) :
    (s.setX r v).hart h = { s.hart h with x := regSet (s.hart h).x r v } := by
  unfold State.setX
  rw [hf]
  exact s.hart_setHart h _

/-! ### Drain cycles -/

/-- An agent that owes a drain cycle is the sequencer, and its base instruction is one (04 R59, R66). -/
theorem issueBase_owing {s : State} (h : ¬ s.ready) (e : Eff) :
    s.focus = .member .seq ∧ issueBase s e = .next s.drainOwed.drainCycle := by
  obtain ⟨hf, hd⟩ := Classical.not_imp.mp h
  refine ⟨hf, ?_⟩
  unfold issueBase
  rw [hf]
  exact if_pos (bne_iff_ne.mpr hd)

/-! ### What computing leaves alone -/

/-- What `t` has of `s` when only scalar register `rd` of the agent in focus, the agent's own progress and what an issue cycle lands
differ (09 R154, R158). -/
def State.KeptBut (s : State) (rd : Reg) (t : State) : Prop :=
  t.mem = s.mem ∧ t.clus = s.clus ∧ t.cur.team.scratch = s.cur.team.scratch ∧ t.focus = s.focus ∧
  (∀ q, q ≠ rd → t.x q = s.x q) ∧ t.x 0 = 0 ∧
  (∀ w, s.focus ≠ .member w → t.member w = s.member w) ∧ (∀ h, s.focus ≠ .hart h → t.hart h = s.hart h) ∧
  (∀ h, s.focus = .hart h → ∃ x pc, t.hart h = { (s.hart h).retired with x := x, pc := pc, wait := none }) ∧
  t.cur.team.rm = s.cur.team.rm ∧ t.cur.team.srseed = s.cur.team.srseed ∧ t.cur.team.ft = s.cur.team.ft ∧
  t.cur.team.masks = s.cur.team.masks ∧ t.cur.team.wb = s.cur.team.wb ∧ t.cur.team.fs = s.cur.team.fs ∧
  t.cur.team.tq = s.cur.team.tq ∧ t.cur.team.ph = s.cur.team.ph

/-- The drain cycle that a sequencer owes touches no scalar register. -/
theorem State.keptBut_drainOwed {s : State} (hf : s.focus = .member .seq) (rd : Reg) : s.KeptBut rd s.drainOwed.drainCycle := by
  obtain ⟨p, hp⟩ := s.drainOwed.drainCycle_eq
  obtain ⟨_, _, _, _, _, _, _, _, _, _, _, _, ht⟩ := s.drainOwed.cur.team.tick_eq
  have hteam : s.drainOwed.drainCycle.cur.team = s.drainOwed.cur.team.tick := by rw [hp]; rfl
  have hfocus : s.drainOwed.drainCycle.focus = s.focus := by rw [hp]; rfl
  have hm (w : Who) : s.drainOwed.drainCycle.member w = s.member w := by
    rw [State.member, hteam, Team.tick_member]
    cases w <;> rfl
  have hx (q : Reg) : s.drainOwed.drainCycle.x q = s.x q := by
    simp only [State.x, hfocus, hf, hm]
  refine ⟨by rw [hp]; rfl, by rw [hp]; rfl, by rw [hteam, ht]; rfl, hfocus, fun q _ => hx q, (hx 0).trans s.x_zero, fun w _ => hm w,
    fun h _ => by rw [hp]; rfl, fun h hh => ?_, ?_⟩
  · cases hf.symm.trans hh
  · rw [hteam, ht]
    and_intros <;> rfl

/-- A result written to `rd` and the instruction's completion touch no other register. -/
theorem State.keptBut_completed {s : State} (hstep : s.cur.stepping = none) (rd : Reg) (v : Word) :
    s.KeptBut rd ((s.setX rd v).completed 4) := by
  obtain ⟨_, _, _, _, hset⟩ := s.setX_eq rd v
  have hstep' : (s.setX rd v).cur.stepping = none := by rw [hset]; exact hstep
  rw [State.completed_free hstep']
  generalize (s.setX rd v).pc + BitVec.ofNat 64 4 = pc
  obtain ⟨_, _, _, hr⟩ := (s.setX rd v).retire_eq pc
  obtain ⟨_, _, _, _, _, _, _, _, _, _, _, _, _, _, _, _, _, ht⟩ := (s.setX rd v).retire_team_eq pc
  refine ⟨by rw [hr, hset], by rw [hr, hset], by rw [ht, hset], by rw [hr, hset], fun q hq => ?_, State.x_zero _, fun w hw => ?_,
    fun h hh => ?_, fun h hh => ⟨regSet (s.hart h).x rd v, pc, ?_⟩, ?_⟩
  · rw [State.retire_x, State.x_setX, if_neg fun e => hq e.1]
  · rw [State.retire_member_other (by rwa [State.setX_focus]), State.setX_member_other hw]
  · rw [State.retire_hart_other (by rwa [State.setX_focus]), State.setX_hart_other hh]
  · rw [State.retire_hart_self (by rwa [State.setX_focus]), State.setX_hart_self hh]
    rfl
  · rw [ht, hset]
    and_intros <;> rfl

/-! ### The forms -/

/-- An instruction that only computes: whatever it finds, it writes some value to `rd` and falls through. -/
def ComputesInto (rd : Reg) (i : Instr) : Prop := ∀ s, ∃ v, exec i s = issueBase s (writeRd s rd v)

theorem ComputesInto.keptBut {rd : Reg} {i : Instr} (hi : ComputesInto rd i) {s t : State} (hstep : s.cur.stepping = none)
    (h : exec i s = .next t) : s.KeptBut rd t := by
  obtain ⟨v, hv⟩ := hi s
  rw [hv] at h
  by_cases hr : s.ready
  · rw [writeRd_eq, issueBase_done hr] at h
    cases h
    exact State.keptBut_completed hstep rd v
  · obtain ⟨hf, hd⟩ := issueBase_owing hr (writeRd s rd v)
    rw [hd] at h
    cases h
    exact State.keptBut_drainOwed hf rd

/-- `fence` writes what its unused register field names with what it holds. -/
theorem fence_computesInto (rd rs1 : Reg) (imm : BitVec 12) : ComputesInto rd (.fence rd rs1 imm) :=
  fun s => ⟨s.x rd, by rw [writeRd_eq, State.setX_self, exec, execFence]⟩

/-- Settles O20: each of the forms writes one register, or owes a drain cycle. -/
theorem scalarFrame : Obligations.ScalarFrame := by
  intro s t rd rs1 rs2 imm sh sw up hstep i hi
  suffices hc : ComputesInto rd i from hc.keptBut hstep
  revert i
  simp only [List.forall_mem_cons, List.not_mem_nil, false_imp_iff, implies_true, and_true]
  iterate 43 refine ⟨fun s => ⟨_, rfl⟩, ?_⟩
  exact fence_computesInto rd rs1 imm

end Sys2Proof.Machine
end

section
/-! A store while a byte of local space has been read ahead (04 R69, 09 R157). -/

namespace Sys2Proof.Machine

/-- A byte that was read ahead is found as it was read, whatever stands there (04 R69). -/
theorem State.localByte_of_seen {s : State} {a : Nat} {e : Nat × Byte} (h : (s.seen.find? fun e => e.1 == a) = some e) :
    s.localByte a = e.2 := by
  rw [State.localByte, h]

theorem State.setLocalByte_seen (s : State) (a : Nat) (b : Byte) : (s.setLocalByte a b).seen = s.seen := by
  unfold State.setLocalByte
  split <;> rfl

/-- A write of local space leaves what was read ahead as it was read. -/
theorem State.setLocalBytes_seen (s : State) (a : Nat) (bs : List Byte) : (s.setLocalBytes a bs).seen = s.seen := by
  induction bs generalizing s a with
  | nil => rfl
  | cons b bs ih => exact (ih (s.setLocalByte a b) (a + 1)).trans (s.setLocalByte_seen a b)

/-- A sequencer about to execute an instruction that finds byte 0 of its scratchpad as it was read ahead, 1. -/
def readAheadState : State := ({ State.reset with glances := [(State.reset.cur.id, .seq, 0, 1)] } : State).look .seq

/-- Refutes O28: where byte 0 has been read ahead as 1, the instruction that writes 0 there still finds 1. -/
theorem not_storeFrame : ¬ Obligations.StoreFrame := by
  intro ⟨hlocal, _⟩
  obtain ⟨_, hwritten, _⟩ := hlocal readAheadState 0 [0] (by decide) (by decide)
  have hnew : (readAheadState.setLocalBytes 0 [0]).localByte (0 + 0) = 0 := hwritten 0 Nat.zero_lt_one
  have hold : (readAheadState.setLocalBytes 0 [0]).localByte (0 + 0) = 1 :=
    State.localByte_of_seen (e := (0, 1)) (by rw [State.setLocalBytes_seen]; rfl)
  exact absurd (hnew.symm.trans hold) (by decide)

end Sys2Proof.Machine
end

section
/-! The results of the scalar base's computations, and its jumps and branches (09 R154, R156, R158). -/

namespace Sys2Proof.Machine

/-! ### Values -/

theorem boolWord_slt (a b : Word) : boolWord (a.slt b) = if a.toInt < b.toInt then 1 else 0 := by
  simp only [boolWord, BitVec.slt, decide_eq_true_eq]

theorem boolWord_ult (a b : Word) : boolWord (a.ult b) = if a.toNat < b.toNat then 1 else 0 := by
  simp only [boolWord, BitVec.ult, decide_eq_true_eq]

theorem not_slt (a b : Word) : (!a.slt b) = decide (b.toInt ≤ a.toInt) := by
  rw [BitVec.slt, ← decide_not, decide_eq_decide, Int.not_lt]

theorem not_ult (a b : Word) : (!a.ult b) = decide (b.toNat ≤ a.toNat) := by
  rw [BitVec.ult, ← decide_not, decide_eq_decide, Nat.not_lt]

@[simp] theorem toInt_sext12 (imm : BitVec 12) : (sext12 imm).toInt = imm.toInt :=
  BitVec.toInt_signExtend_of_le (by decide)

/-- The low six bits of a shift's second operand are its amount (09 R154). -/
theorem shiftAmount6 (b : Word) : (b.extractLsb' 0 6).toNat = b.toNat % 64 := by
  rw [BitVec.extractLsb'_toNat, Nat.shiftRight_zero]

/-- Those of a 32-bit shift are the low five bits, of the low word too (09 R154). -/
theorem shiftAmount5 (b : Word) : (b.extractLsb' 0 5).toNat = (b.setWidth 32).toNat % 32 := by
  rw [BitVec.extractLsb'_toNat, Nat.shiftRight_zero, BitVec.toNat_setWidth]
  omega

/-- The low word of a sum with an immediate. -/
theorem lowW_add_sext12 (a : Word) (imm : BitVec 12) : lowW (a + sext12 imm) = a.setWidth 32 + imm.signExtend 32 := by
  have himm : (sext12 imm).setWidth 32 = imm.signExtend 32 := by
    refine BitVec.eq_of_getLsbD_eq fun i hi => ?_
    simp only [sext12, BitVec.getLsbD_setWidth, BitVec.getLsbD_signExtend]
    grind
  rw [lowW, BitVec.setWidth_add _ _ (by decide), himm]

/-! ### Completion -/

/-- A form that writes a result completes with that result in `rd`. -/
theorem exec_of_writeRd {s : State} {i : Instr} {rd : Reg} {v v' : Word} (hs : s.ready) (h : exec i s = issueBase s (writeRd s rd v))
    (hv : v = v') : exec i s = .next ((s.setX rd v').completed 4) := by
  rw [h, writeRd_eq, issueBase_done hs, hv]

/-- Settles O9: each form issues as the write of one value, which is the spec's. -/
theorem integerArithmetic : Obligations.IntegerArithmetic := by
  refine ⟨fun s rd rs1 rs2 hs => ?registers, fun s rd rs1 imm sh up hs => ?immediates, fun s rd rs1 rs2 imm sh hs => ?words⟩
  all_goals
    simp only [List.forall_mem_cons, List.not_mem_nil, false_imp_iff, implies_true, and_true]
  case registers =>
    exact ⟨exec_of_writeRd hs rfl rfl, exec_of_writeRd hs rfl rfl,
      exec_of_writeRd hs rfl (by rw [shiftAmount6]), exec_of_writeRd hs rfl (by rw [shiftAmount6]),
      exec_of_writeRd hs rfl (by rw [shiftAmount6]), exec_of_writeRd hs rfl (boolWord_slt _ _), exec_of_writeRd hs rfl (boolWord_ult _ _),
      exec_of_writeRd hs rfl rfl, exec_of_writeRd hs rfl rfl, exec_of_writeRd hs rfl rfl⟩
  case immediates =>
    exact ⟨exec_of_writeRd hs rfl rfl, exec_of_writeRd hs rfl (by rw [boolWord_slt, toInt_sext12]),
      exec_of_writeRd hs rfl (boolWord_ult _ _), exec_of_writeRd hs rfl rfl, exec_of_writeRd hs rfl rfl, exec_of_writeRd hs rfl rfl,
      exec_of_writeRd hs rfl rfl, exec_of_writeRd hs rfl rfl, exec_of_writeRd hs rfl rfl, exec_of_writeRd hs rfl rfl,
      exec_of_writeRd hs rfl rfl⟩
  case words =>
    exact ⟨exec_of_writeRd hs rfl (by rw [lowW_add_sext12]; rfl), exec_of_writeRd hs rfl rfl, exec_of_writeRd hs rfl rfl,
      exec_of_writeRd hs rfl rfl, exec_of_writeRd hs rfl rfl, exec_of_writeRd hs rfl rfl,
      exec_of_writeRd hs rfl (by rw [shiftAmount5]; rfl), exec_of_writeRd hs rfl (by rw [shiftAmount5]; rfl),
      exec_of_writeRd hs rfl (by rw [shiftAmount5]; rfl), exec_of_writeRd hs rfl rfl⟩

/-- Settles O16: `fence` has no effect of its own. -/
theorem fence : Obligations.Fence :=
  fun _ _ _ _ hs => issueBase_done hs

/-! ### Jumps and branches (09 R156) -/

/-- A target is a multiple of 4 where its two low bits are 0. -/
theorem low2_eq_zero_iff (v : Word) : v.extractLsb' 0 2 = 0 ↔ v.toNat % 4 = 0 := by
  rw [← BitVec.toNat_inj, BitVec.extractLsb'_toNat, Nat.shiftRight_zero]
  rfl

section
variable {s : State} {target : Word}

/-- A misaligned target is ALIGN in a member, and the misaligned-fetch exception on a hart. -/
theorem issueBase_badTarget (hs : s.ready) :
    (∀ w, s.focus = .member w → issueBase s (s.badTarget target) = .next (s.trapped { cause := .align, d1 := target, d2 := 4 })) ∧
    (∀ h, s.focus = .hart h → issueBase s (s.badTarget target) = .next (s.trapped { cause := .hart 0, d1 := target })) := by
  refine ⟨fun w hf => ?_, fun h hf => ?_⟩ <;>
    · rw [State.badTarget, hf]
      exact issueBase_trap hs

theorem State.jumpTo_aligned (ht : target.toNat % 4 = 0) (rd : Reg) : s.jumpTo rd target = .jump (s.setX rd (s.pc + 4)) target :=
  if_neg (not_not_intro ((low2_eq_zero_iff target).mpr ht))

theorem State.jumpTo_misaligned (ht : target.toNat % 4 ≠ 0) (rd : Reg) : s.jumpTo rd target = s.badTarget target :=
  if_pos fun e => ht ((low2_eq_zero_iff target).mp e)

theorem State.branch_not_taken (s : State) (imm : BitVec 12) : s.branch false imm = .done s := rfl

theorem State.branch_aligned {imm : BitVec 12} (ht : (s.pc + immB imm).toNat % 4 = 0) :
    s.branch true imm = .jump s (s.pc + immB imm) :=
  if_neg (not_not_intro ((low2_eq_zero_iff _).mpr ht))

theorem State.branch_misaligned {imm : BitVec 12} (ht : (s.pc + immB imm).toNat % 4 ≠ 0) :
    s.branch true imm = s.badTarget (s.pc + immB imm) :=
  if_pos fun e => ht ((low2_eq_zero_iff _).mp e)

/-- How a jump with a link ends. -/
theorem exec_of_jumpTo {i : Instr} {rd : Reg} (hs : s.ready) (h : exec i s = issueBase s (s.jumpTo rd target)) :
    (target.toNat % 4 = 0 → exec i s = .next ((s.setX rd (s.pc + 4)).jumped target)) ∧
    (target.toNat % 4 ≠ 0 →
      (∀ w, s.focus = .member w → exec i s = .next (s.trapped { cause := .align, d1 := target, d2 := 4 })) ∧
      (∀ h, s.focus = .hart h → exec i s = .next (s.trapped { cause := .hart 0, d1 := target }))) := by
  rw [h]
  refine ⟨fun ht => ?_, fun ht => ?_⟩
  · rw [State.jumpTo_aligned ht, issueBase_jump hs]
  · rw [State.jumpTo_misaligned ht]
    exact issueBase_badTarget hs

/-- How a conditional branch ends. -/
theorem exec_of_branch {i : Instr} {taken taken' : Bool} {imm : BitVec 12} (hs : s.ready)
    (h : exec i s = issueBase s (s.branch taken imm)) (htaken : taken = taken') :
    (taken' = false → exec i s = .next (s.completed 4)) ∧
    (taken' = true → (s.pc + immB imm).toNat % 4 = 0 → exec i s = .next (s.jumped (s.pc + immB imm))) ∧
    (taken' = true → (s.pc + immB imm).toNat % 4 ≠ 0 →
      (∀ w, s.focus = .member w → exec i s = .next (s.trapped { cause := .align, d1 := s.pc + immB imm, d2 := 4 })) ∧
      (∀ h, s.focus = .hart h → exec i s = .next (s.trapped { cause := .hart 0, d1 := s.pc + immB imm }))) := by
  subst htaken
  rw [h]
  refine ⟨?_, ?_, ?_⟩ <;> rintro rfl
  · rw [State.branch_not_taken, issueBase_done hs]
  · intro ht
    rw [State.branch_aligned ht, issueBase_jump hs]
  · intro ht
    rw [State.branch_misaligned ht]
    exact issueBase_badTarget hs

end

/-- Settles O11: each jump and branch issues as the shared operation, whose target decides how it ends. -/
theorem controlFlow : Obligations.ControlFlow := by
  refine ⟨fun s rd rs1 imm off hs => ?jumps, fun s rs1 rs2 off hs => ?branches⟩
  all_goals
    simp only [List.forall_mem_cons, List.not_mem_nil, false_imp_iff, implies_true, and_true]
  case jumps => exact ⟨exec_of_jumpTo hs rfl, exec_of_jumpTo hs rfl⟩
  case branches =>
    exact ⟨exec_of_branch hs rfl rfl, exec_of_branch hs rfl decide_not.symm, exec_of_branch hs rfl rfl,
      exec_of_branch hs rfl (not_slt _ _), exec_of_branch hs rfl rfl, exec_of_branch hs rfl (not_ult _ _)⟩

end Sys2Proof.Machine
end

section
/-! A member's scalar loads and stores, and their traps (09 R157, 04 R68). -/

namespace Sys2Proof.Machine

section
variable {s : State} {w : Who} {base : Word} {imm : BitVec 12} {a n : Nat} {load : Bool}

/-! ### Addresses -/

/-- Whether a byte range answers a member's scalar access: it lies in a scratchpad, or a load reads the pigeonhole control words. -/
def State.Answers (s : State) (load : Bool) (a n : Nat) : Prop :=
  s.inScratch a n = true ∨ (load = true ∧ 0x02000000 ≤ a ∧ a + n ≤ 0x02000100)

theorem State.answers_iff : s.Answers load a n ↔ (s.inScratch a n || (load && inHoles a n)) = true := by
  simp only [inHoles, Bool.or_eq_true, Bool.and_eq_true, decide_eq_true_eq]
  rfl

/-- The scratchpads end below the pigeonhole control words (04 R68). -/
theorem State.inScratch_bound (h : s.inScratch a n = true) : a + n ≤ 0x01800000 := by
  simp only [State.inScratch, State.inCore, State.inClus, Bool.or_eq_true, Bool.and_eq_true, decide_eq_true_eq] at h
  simp only [Task.coreLimit, State.clusLimit, clusBase] at h
  omega

theorem State.Answers.lt (h : s.Answers load a n) : a < 4294967296 := by
  obtain h | ⟨_, _, h⟩ := h
  · have := State.inScratch_bound h
    omega
  · omega

theorem localAddr_inside (hsum : base.toNat + imm.toInt = (a : Int)) (ha : a < 4294967296) : localAddr base imm.toInt = some a := by
  simp only [localAddr, hsum]
  rw [if_pos (by omega), Int.toNat_natCast]

theorem localAddr_outside (h : ¬ (0 ≤ (base.toNat : Int) + imm.toInt ∧ (base.toNat : Int) + imm.toInt < 4294967296)) :
    localAddr base imm.toInt = none :=
  if_neg h

/-- The exact sum as the word that a trap's details name. -/
theorem ofNat_of_sum (hsum : base.toNat + imm.toInt = (a : Int)) : BitVec.ofNat 64 a = base + sext12 imm := by
  rw [← BitVec.ofInt_natCast, ← hsum, BitVec.ofInt_add, BitVec.ofInt_natCast, BitVec.ofNat_toNat, BitVec.setWidth_eq]
  rfl

/-! ### The checks, in their order -/

theorem State.scalarAddr_outside (h : ¬ (0 ≤ (base.toNat : Int) + imm.toInt ∧ (base.toNat : Int) + imm.toInt < 4294967296)) :
    s.scalarAddr base imm n load = .error (trapAt .localAddr (base + sext12 imm) n) := by
  rw [State.scalarAddr, localAddr_outside h]

theorem State.scalarAddr_unanswered (hsum : base.toNat + imm.toInt = (a : Int)) (ha : a < 4294967296) (hin : ¬ s.Answers load a n) :
    s.scalarAddr base imm n load = .error (trapAt .localAddr (base + sext12 imm) n) := by
  rw [State.answers_iff, Bool.not_eq_true] at hin
  rw [State.scalarAddr, localAddr_inside hsum ha]
  simp only [hin, Bool.not_false, if_true, ofNat_of_sum hsum]

theorem State.scalarAddr_misaligned (hsum : base.toNat + imm.toInt = (a : Int)) (hin : s.Answers load a n) (hal : a % n ≠ 0) :
    s.scalarAddr base imm n load = .error (trapAt .align (base + sext12 imm) n) := by
  rw [State.scalarAddr, localAddr_inside hsum hin.lt]
  simp only [State.answers_iff.mp hin, Bool.not_true, Bool.false_eq_true, if_false, if_pos hal, ofNat_of_sum hsum]

theorem State.scalarAddr_ok (hsum : base.toNat + imm.toInt = (a : Int)) (hin : s.Answers load a n) (hal : a % n = 0) :
    s.scalarAddr base imm n load = .ok a := by
  rw [State.scalarAddr, localAddr_inside hsum hin.lt]
  simp only [State.answers_iff.mp hin, Bool.not_true, Bool.false_eq_true, if_false, if_neg (not_not_intro hal)]

/-! ### Loads and stores -/

/-- The value of a load: its bytes as a number, sign- or zero-extended. -/
def extended (n : Nat) (sx : Bool) (v : Nat) : Word := if sx then (BitVec.ofNat (8 * n) v).signExtend 64 else BitVec.ofNat 64 v

theorem State.localLoad_scratch (hsum : base.toNat + imm.toInt = (a : Int)) (hal : a % n = 0) (hz : s.localHazard w a n false = false)
    (hin : s.inScratch a n = true) (hbad : s.clusBadAt a = false) (rd : Reg) (sx : Bool) :
    s.localLoad w rd base imm n sx = .done ((s.rebuild a n).setX rd (extended n sx (leNat (s.localBytes a n)))) := by
  have hlow : ¬ holeBase ≤ a := by
    have := State.inScratch_bound hin
    simp only [holeBase]
    omega
  rw [State.localLoad, State.scalarAddr_ok hsum (.inl hin) hal]
  simp only [hbad, hz, hlow, Bool.and_false, Bool.false_eq_true, if_false]
  rfl

theorem State.localLoad_hole (hsum : base.toNat + imm.toInt = (a : Int)) (hal : a % n = 0) (hz : s.localHazard w a n false = false)
    (hlo : 0x02000000 ≤ a) (hhi : a + n ≤ 0x02000100) (rd : Reg) (sx : Bool) :
    s.localLoad w rd base imm n sx =
      .done (s.setX rd (extended n sx ((s.cur.team.holeWord a).toNat / 2 ^ (8 * (a % 8)) % 2 ^ (8 * n)))) := by
  have hhole : holeBase ≤ a := hlo
  rw [State.localLoad, State.scalarAddr_ok hsum (.inr ⟨rfl, hlo, hhi⟩) hal]
  simp only [Nat.not_lt.mpr hhole, decide_false, hz, hhole, Bool.false_and, Bool.false_eq_true, if_false, if_true]
  rfl

theorem State.localStore_scratch (hsum : base.toNat + imm.toInt = (a : Int)) (hal : a % n = 0) (hz : s.localHazard w a n true = false)
    (hin : s.inScratch a n = true) (v : Word) :
    s.localStore w base v imm n = .done (s.setLocalBytes a (leBytes n v.toNat)) := by
  rw [State.localStore, State.scalarAddr_ok hsum (.inl hin) hal]
  simp only [hz, Bool.false_eq_true, if_false]

theorem State.localLoad_error {t : Trap} (h : s.scalarAddr base imm n true = .error t) (rd : Reg) (sx : Bool) :
    s.localLoad w rd base imm n sx = .trap t s := by
  rw [State.localLoad, h]

theorem State.localStore_error {t : Trap} (h : s.scalarAddr base imm n false = .error t) (v : Word) :
    s.localStore w base v imm n = .trap t s := by
  rw [State.localStore, h]

end

/-! ### The instructions of a member -/

section
variable {s : State} {w : Who} {i : Instr} {rd rs1 rs2 : Reg} {imm : BitVec 12} {a n : Nat} {sx : Bool}

theorem State.load_in_team (hf : s.focus = .member w) (rd rs1 : Reg) (imm : BitVec 12) (n : Nat) (sx : Bool) :
    s.load rd rs1 imm n sx = s.localLoad w rd (s.x rs1) imm n sx := by
  rw [State.load, hf]

theorem State.store_in_team (hf : s.focus = .member w) (rs1 rs2 : Reg) (imm : BitVec 12) (n : Nat) :
    s.store rs1 rs2 imm n = s.localStore w (s.x rs1) (s.x rs2) imm n := by
  rw [State.store, hf]

/-- How an aligned load that meets no copy of its own ends. -/
theorem exec_of_load (hf : s.focus = .member w) (hs : s.ready) (hsum : (s.x rs1).toNat + imm.toInt = (a : Int))
    (h : exec i s = issueBase s (s.load rd rs1 imm n sx)) (hal : a % n = 0) (hz : s.localHazard w a n false = false) :
    (s.inScratch a n = true → s.clusBadAt a = false →
      exec i s = .next (((s.rebuild a n).setX rd (extended n sx (leNat (s.localBytes a n)))).completed 4)) ∧
    (0x02000000 ≤ a → a + n ≤ 0x02000100 →
      exec i s = .next
        ((s.setX rd (extended n sx ((s.cur.team.holeWord a).toNat / 2 ^ (8 * (a % 8)) % 2 ^ (8 * n)))).completed 4)) := by
  rw [h, State.load_in_team hf]
  refine ⟨fun hin hbad => ?_, fun hlo hhi => ?_⟩
  · rw [State.localLoad_scratch hsum hal hz hin hbad, issueBase_done hs]
  · rw [State.localLoad_hole hsum hal hz hlo hhi, issueBase_done hs]

/-- How an aligned store inside a scratchpad, which meets no copy of its own, ends. -/
theorem exec_of_store (hf : s.focus = .member w) (hs : s.ready) (hsum : (s.x rs1).toNat + imm.toInt = (a : Int))
    (h : exec i s = issueBase s (s.store rs1 rs2 imm n)) (hal : a % n = 0) (hin : s.inScratch a n = true)
    (hz : s.localHazard w a n true = false) : exec i s = .next ((s.setLocalBytes a (leBytes n (s.x rs2).toNat)).completed 4) := by
  rw [h, State.store_in_team hf, State.localStore_scratch hsum hal hz hin, issueBase_done hs]

/-- The traps of an access whose checks decide how it ends. -/
theorem exec_of_scalarAddr {load : Bool} (h : ∀ t, s.scalarAddr (s.x rs1) imm n load = .error t → exec i s = .next (s.trapped t)) :
    (¬ (0 ≤ ((s.x rs1).toNat : Int) + imm.toInt ∧ ((s.x rs1).toNat : Int) + imm.toInt < 4294967296) →
      exec i s = .next (s.trapped (trapAt .localAddr (s.x rs1 + sext12 imm) n))) ∧
    (∀ a : Nat, (s.x rs1).toNat + imm.toInt = (a : Int) → a < 4294967296 → ¬ s.Answers load a n →
      exec i s = .next (s.trapped (trapAt .localAddr (s.x rs1 + sext12 imm) n))) ∧
    (∀ a : Nat, (s.x rs1).toNat + imm.toInt = (a : Int) → s.Answers load a n → a % n ≠ 0 →
      exec i s = .next (s.trapped (trapAt .align (s.x rs1 + sext12 imm) n))) :=
  ⟨fun hout => h _ (State.scalarAddr_outside hout), fun _ hsum ha hin => h _ (State.scalarAddr_unanswered hsum ha hin),
    fun _ hsum hin hal => h _ (State.scalarAddr_misaligned hsum hin hal)⟩

theorem exec_of_load_error (hf : s.focus = .member w) (hs : s.ready) (h : exec i s = issueBase s (s.load rd rs1 imm n sx)) (t : Trap)
    (ht : s.scalarAddr (s.x rs1) imm n true = .error t) : exec i s = .next (s.trapped t) := by
  rw [h, State.load_in_team hf, State.localLoad_error ht, issueBase_trap hs]

theorem exec_of_store_error (hf : s.focus = .member w) (hs : s.ready) (h : exec i s = issueBase s (s.store rs1 rs2 imm n)) (t : Trap)
    (ht : s.scalarAddr (s.x rs1) imm n false = .error t) : exec i s = .next (s.trapped t) := by
  rw [h, State.store_in_team hf, State.localStore_error ht, issueBase_trap hs]

end

/-- Settles O12: each form issues as the shared access of its size, whose checks and range decide how it ends. -/
theorem memberAccesses : Obligations.MemberAccesses := by
  refine ⟨fun s w rd rs1 imm a hf hs hsum p hp => ?loads, fun s w rs1 rs2 imm a hf hs hsum p hp => ?stores,
    fun s w rd rs1 rs2 imm hf hs p hp => ?traps⟩
  case loads =>
    suffices h : exec p.1 s = issueBase s (s.load rd rs1 imm p.2.1 p.2.2) from exec_of_load hf hs hsum h
    revert p
    simp only [List.forall_mem_cons, List.not_mem_nil, false_imp_iff, implies_true, and_true]
    exact ⟨rfl, rfl, rfl, rfl, rfl, rfl, rfl⟩
  case stores =>
    suffices h : exec p.1 s = issueBase s (s.store rs1 rs2 imm p.2) from exec_of_store hf hs hsum h
    revert p
    simp only [List.forall_mem_cons, List.not_mem_nil, false_imp_iff, implies_true, and_true]
    exact ⟨rfl, rfl, rfl, rfl⟩
  case traps =>
    suffices h : ∀ t, s.scalarAddr (s.x rs1) imm p.2.1 p.2.2 = .error t → exec p.1 s = .next (s.trapped t) from exec_of_scalarAddr h
    revert p
    simp only [List.forall_mem_cons, List.not_mem_nil, false_imp_iff, implies_true, and_true]
    exact ⟨exec_of_load_error hf hs rfl, exec_of_load_error hf hs rfl, exec_of_load_error hf hs rfl, exec_of_load_error hf hs rfl,
      exec_of_load_error hf hs rfl, exec_of_load_error hf hs rfl, exec_of_load_error hf hs rfl, exec_of_store_error hf hs rfl,
      exec_of_store_error hf hs rfl, exec_of_store_error hf hs rfl, exec_of_store_error hf hs rfl⟩

end Sys2Proof.Machine
end

section
/-! The CSR instructions of a team member, and what a write does to the sequencer's CSRs (09 R162-R164, 03 R50, R51, R54). -/

namespace Sys2Proof.Machine

/-! ### The instructions of a member -/

section
variable {s : State} {w : Who} {k : CsrOp} {n : Nat} {rd : Reg} {src old : Word} {reads writes : Bool}

/-- A CSR that the member has, and that the instruction may write, is read and written; one that is not read leaves `rd` alone. -/
theorem State.memberCsr_found (hc : s.userCsr w n = some old) (hw : writes = true → n < 0xC00)
    (hl : reads = true → n = 0x800 → s.cur.team.landings = []) (hrd : reads = false → rd = 0) :
    s.memberCsr w k n rd src reads writes = .done ((if writes then s.setTeam (s.cur.team.writeCsr k n src) else s).setX rd old) := by
  have hwrites : ¬ ((writes && decide (0xC00 ≤ n)) = true) := by
    simp only [Bool.and_eq_true, decide_eq_true_eq, not_and, Nat.not_le]
    exact hw
  have hreads : ¬ ((reads && n == 0x800 && !s.cur.team.landings.isEmpty) = true) := by
    simp only [Bool.and_eq_true, beq_iff_eq]
    rintro ⟨⟨hr, hn⟩, he⟩
    simp [hl hr hn] at he
  rw [State.memberCsr, hc]
  dsimp only
  rw [if_neg hwrites, if_neg hreads]
  cases reads with
  | true => rfl
  | false => rw [hrd rfl, State.setX_zero]; rfl

/-- A read of XFCSR waits for the results still to land (09 R163). -/
theorem State.memberCsr_waits (hc : s.userCsr w 0x800 = some old) (hl : s.cur.team.landings ≠ []) :
    s.memberCsr w k 0x800 rd src true writes = .drain s := by
  have hreads : (true && (0x800 : Nat) == 0x800 && !s.cur.team.landings.isEmpty) = true := by simpa using hl
  rw [State.memberCsr, hc]
  dsimp only
  rw [if_neg (by simp), if_pos hreads]

theorem State.memberCsr_missing (hc : s.userCsr w n = none) :
    s.memberCsr w k n rd src reads writes = .trap (trapOf .illegalInstr) s := by
  rw [State.memberCsr, hc]

theorem State.memberCsr_readOnly (hn : 0xC00 ≤ n) : s.memberCsr w k n rd src reads true = .trap (trapOf .illegalInstr) s := by
  unfold State.memberCsr
  split
  · rfl
  · exact if_pos (by simpa using hn)

/-- A CSR instruction of a member, with whether it reads and writes as the ratified rules say (09 R162). -/
theorem exec_of_csrOp {i i' : Instr} {csr : BitVec 12} {writes' : Bool} (hf : s.focus = .member w)
    (h : exec i s = issueBase s (s.csrOp i' k rd csr src writes')) (hw : writes' = writes) (hr : (k != .write || rd != 0) = reads) :
    exec i s = issueBase s (s.memberCsr w k csr.toNat rd src reads writes) ∧ (reads = false → rd = 0) := by
  subst hw hr
  refine ⟨by rw [h, State.csrOp, hf], fun hno => ?_⟩
  simpa using (Bool.or_eq_false_iff.mp hno).2

end

/-! ### Writes of the sequencer's CSRs -/

/-- A rounding mode that is none keeps the old one (03 R51, R54). -/
theorem writeRm_eq (old new : BitVec 3) : writeRm old new = if new.toNat < 5 then new else old := by
  by_cases h : new.toNat < 5
  · rw [writeRm, if_neg (Nat.not_le.mpr h), if_pos h]
  · rw [writeRm, if_pos (Nat.le_of_not_lt h), if_neg h]

section
variable (t : Team) (k : CsrOp) (src : Word)

theorem Team.writeCsr_xfcsr : t.writeCsr k 0x800 src =
    t.writeXfcsr (if k = .clear then 0 else src.setWidth 6) ((k.apply t.xfcsr src).extractLsb' 8 3) := rfl

/-- XFCSR holds the rounding mode above its byte of flags (03 R51). -/
theorem Team.xfcsr_mode : t.xfcsr.extractLsb' 8 3 = t.rm := by
  refine BitVec.eq_of_getLsbD_eq fun i hi => ?_
  simp only [Team.xfcsr, BitVec.getLsbD_extractLsb', BitVec.getLsbD_or, BitVec.getLsbD_shiftLeft, BitVec.getLsbD_setWidth]
  grind

/-- A write that clears no flag. -/
theorem Team.writeXfcsr_none (rm : BitVec 3) :
    t.writeXfcsr 0 rm = { t with flags := t.flags ||| t.flagsNow, rm := writeRm t.rm rm } := by
  have hall : t.flags &&& ~~~0 = t.flags := BitVec.and_allOnes
  rw [Team.writeXfcsr, hall]

/-- A format-table entry's number lies in the table's range, and in no other CSR's. -/
theorem Team.writeCsr_format (n : Fin 16) : t.writeCsr .write (0x810 + n.val) src = t.setFt n (src.setWidth 8) := by
  rw [Team.writeCsr, if_neg (by omega), if_neg (by omega), dif_pos (by omega)]
  simp only [Nat.add_sub_cancel_left]
  rfl

theorem Team.setFt_get (n m : Fin 16) (v : BitVec 8) :
    (t.setFt n v).ft.get m = if m = n then writeFt (t.ft.get n) v else t.ft.get m := by
  show (t.ft.set n.val _ n.isLt)[m.val] = if m = n then _ else t.ft[m.val]
  rw [Vector.getElem_set]
  simp only [Fin.ext_iff, eq_comm]

end

section
variable (old new : BitVec 8)

theorem writeFt_format : (writeFt old new).extractLsb' 0 4 =
    if new.extractLsb' 0 4 = 15#4 then old.extractLsb' 0 4 else new.extractLsb' 0 4 := by
  refine BitVec.eq_of_getLsbD_eq fun i hi => ?_
  simp only [writeFt, BitVec.getLsbD_extractLsb', BitVec.getLsbD_append]
  grind

theorem writeFt_mode : (writeFt old new).extractLsb' 4 3 = writeRm (old.extractLsb' 4 3) (new.extractLsb' 4 3) := by
  refine BitVec.eq_of_getLsbD_eq fun i hi => ?_
  simp only [writeFt, BitVec.getLsbD_extractLsb', BitVec.getLsbD_append]
  grind

theorem writeFt_top : (writeFt old new).extractLsb' 7 1 = new.extractLsb' 7 1 := by
  refine BitVec.eq_of_getLsbD_eq fun i hi => ?_
  simp only [writeFt, BitVec.getLsbD_extractLsb', BitVec.getLsbD_append]
  grind

end

/-- Settles O14: the CSR's map and the ratified rules decide an instruction, and each CSR's fields a write. -/
theorem userCsrs : Obligations.UserCsrs := by
  refine ⟨fun s w rd rs1 csr hf hs p hp => ?instructions, fun t src n => ?writes⟩
  case instructions =>
    suffices h : exec p.1 s = issueBase s (s.memberCsr w p.2.1 csr.toNat rd p.2.2.1 p.2.2.2.2 p.2.2.2.1) ∧ (p.2.2.2.2 = false → rd = 0) by
      obtain ⟨hexec, hrd⟩ := h
      simp only [hexec]
      refine ⟨fun old hc hw hl => ?_, fun old hc hr hn hl => ?_, fun hc => ?_, fun hw hn => ?_⟩
      · rw [State.memberCsr_found hc hw (fun hr hn => hl hr (BitVec.eq_of_toNat_eq hn)) hrd, issueBase_done hs]
      · subst hn
        rw [hr, show (0x800 : BitVec 12).toNat = 0x800 from rfl, State.memberCsr_waits hc hl, issueBase_ready hs, Eff.finish_drain]
      · rw [State.memberCsr_missing hc, issueBase_trap hs]
      · rw [hw, State.memberCsr_readOnly hn, issueBase_trap hs]
    revert p
    simp only [List.forall_mem_cons, List.not_mem_nil, false_imp_iff, implies_true, and_true]
    exact ⟨exec_of_csrOp hf rfl rfl decide_not.symm, exec_of_csrOp hf rfl decide_not.symm rfl, exec_of_csrOp hf rfl decide_not.symm rfl,
      exec_of_csrOp hf rfl rfl decide_not.symm, exec_of_csrOp hf rfl decide_not.symm rfl, exec_of_csrOp hf rfl decide_not.symm rfl⟩
  case writes =>
    simp only [Team.writeCsr_xfcsr, Team.writeCsr_format, Team.setFt_get, ← writeRm_eq, if_true]
    refine ⟨rfl, ?set, ?clear, rfl, ?format⟩
    case set => rw [CsrOp.apply, BitVec.extractLsb'_or, t.xfcsr_mode]; rfl
    case clear => rw [CsrOp.apply, BitVec.extractLsb'_and, t.xfcsr_mode, BitVec.extractLsb'_not_of_lt (by decide), t.writeXfcsr_none]
    case format =>
      rw [writeFt_format, writeFt_mode, writeFt_top]
      simp only [BitVec.extractLsb'_setWidth_of_le, Nat.reduceAdd, Nat.reduceLeDiff, true_and]
      exact ⟨rfl, fun m hm => if_neg hm⟩

end Sys2Proof.Machine
end

section
/-! What the memory system does on its own leaves every task, the focus and local space alone: writes at homes, translations, the
delivery of what is on the links, and the records that the device posts (18 R310, R316-R318, 19 R327-R333, 22 R371-R375). -/

namespace Sys2Proof.Machine

/-- A state with the tasks, the focus and the cluster scratchpads of another. -/
def State.TasksOf (r s : State) : Prop := s.cur = r.cur ∧ s.tasks = r.tasks ∧ s.focus = r.focus ∧ s.clus = r.clus

namespace State.TasksOf

variable {r s u : State}

theorem refl (s : State) : s.TasksOf s := ⟨rfl, rfl, rfl, rfl⟩

theorem cur_eq (h : r.TasksOf s) : s.cur = r.cur := h.1

theorem of_memoryOnly (h : r.TasksOf s) (hu : s.memoryOnly u) : r.TasksOf u := by
  obtain ⟨_, _, _, _, _, rfl⟩ := hu
  exact h

/-! ### Control -/

theorem ite {c : Prop} {_ : Decidable c} (h : r.TasksOf s) (h' : r.TasksOf u) : r.TasksOf (if c then s else u) := by
  split <;> assumption

theorem ite_fst {α : Type} {c : Prop} {_ : Decidable c} {x y : State × α} (h : r.TasksOf x.1) (h' : r.TasksOf y.1) :
    r.TasksOf (if c then x else y).1 := by
  split <;> assumption

theorem foldl {α : Type} {f : State → α → State} {as : List α} (h : r.TasksOf s) (hf : ∀ u a, r.TasksOf u → r.TasksOf (f u a)) :
    r.TasksOf (as.foldl f s) := List.foldlRecOn as f h fun u hu a _ => hf u a hu

theorem foldl_fst {α β : Type} {f : State × β → α → State × β} {x : State × β} {as : List α} (h : r.TasksOf x.1)
    (hf : ∀ u a, r.TasksOf u.1 → r.TasksOf (f u a).1) : r.TasksOf (as.foldl f x).1 :=
  List.foldlRecOn (motive := fun x : State × β => r.TasksOf x.1) as f h fun u hu a _ => hf u a hu

theorem ok {α : Type} {x : Except Miss (State × α)} {a : α} (h : r.TasksOf (stateAfter x)) (e : x = .ok (u, a)) : r.TasksOf u := by
  rwa [e] at h

theorem error {α : Type} {x : Except Miss (State × α)} {m : Miss} (h : r.TasksOf (stateAfter x)) (e : x = .error m) :
    r.TasksOf m.state := by rwa [e] at h

/-! ### Homes and links -/

theorem setPart (h : r.TasksOf s) {p : Nat} {v : Part} : r.TasksOf (s.setPart p v) := by
  unfold State.setPart
  split <;> exact h

theorem setMdie (h : r.TasksOf s) {n : Nat} {d : Stack} : r.TasksOf (s.setMdie n d) := by
  unfold State.setMdie
  split <;> exact h

theorem notify (h : r.TasksOf s) {p k cid : Nat} : r.TasksOf (s.notify p k cid) := h.setPart.ite h.setPart

theorem homeWrite (h : r.TasksOf s) {cid slot : Nat} {nb : Bool} {pa : Nat} {data : BitVec 512} {mask : BitVec 64} :
    r.TasksOf (s.homeWrite cid slot nb pa data mask).1 := h.of_memoryOnly (s.homeWrite_only ..)

theorem fwWrite (h : r.TasksOf s) {a : Nat} {bs : List Byte} : r.TasksOf (s.fwWrite a bs) := h.of_memoryOnly (s.fwWrite_only a bs)

theorem setPte (h : r.TasksOf s) {a v : Nat} : r.TasksOf (s.setPte a v) := h.fwWrite

theorem markDead (h : r.TasksOf s) {pa : Nat} : r.TasksOf (s.markDead pa) := h

theorem lineOut (h : r.TasksOf s) {cid slot : Nat} {nb : Bool} {b : Word} {pa : Nat} {data : BitVec 512} {mask : BitVec 64} :
    r.TasksOf (s.lineOut cid slot nb b pa data mask).1 := h.homeWrite

theorem serve (h : r.TasksOf s) {t : Txn} : r.TasksOf (s.serve t).state := by
  unfold State.serve
  split
  · exact h
  · exact h.lineOut (b := t.bref)
  · unfold State.atomicAt
    dsimp only
    split
    · exact h
    · exact h.ite_fst (h.lineOut (b := t.bref))
  all_goals exact h

/-- The answer of what was served is on its way. -/
theorem sent {x : Served} (h : r.TasksOf x.state) {t : Txn} : r.TasksOf (x.sent t) := by
  unfold Served.sent
  split <;> exact h

theorem unlockOut (h : r.TasksOf s) {pa : Nat} : r.TasksOf (s.unlockOut pa).1 := by
  have hb (b : Block) : r.TasksOf (s.setBlock pa b) := h
  unfold State.unlockOut
  dsimp only
  split
  · exact (hb _).foldl_fst fun _ _ hu => hu.serve.sent
  · exact h

theorem burstTaken (h : r.TasksOf s) {part src dst : Nat} : r.TasksOf (s.burstTaken part src dst) := h.setPart.ite h

theorem arriveOut (h : r.TasksOf s) {p : Txn → Bool} : r.TasksOf (s.arriveOut p).1 := by
  have carried {u : State} (hu : r.TasksOf u) (t : Txn) : r.TasksOf (u.carried t) := hu.ite hu.burstTaken
  unfold State.arriveOut
  refine foldl_fst h fun _ t hu => ?_
  split
  · exact (carried hu.unlockOut t).lineOut (b := t.bref)
  · exact hu

theorem settleOut (h : r.TasksOf s) {pa : Nat} : r.TasksOf (s.settleOut pa).1 := h.unlockOut.arriveOut.unlockOut

/-! ### Translation -/

theorem takeFrame (h : r.TasksOf s) {stack part size f : Nat} (e : s.takeFrame stack part size = some (f, u)) : r.TasksOf u := by
  unfold State.takeFrame at e
  dsimp only at e
  split at e
  · cases e
    exact h.setMdie.notify.ite h.setMdie
  · cases e

theorem backPage (h : r.TasksOf s) {a : Acc} {d : Desc} {va entry size : Nat} (e : s.backPage a d va entry size = some u) :
    r.TasksOf u := by
  unfold State.backPage at e
  dsimp only at e
  split at e
  · cases e
  · split at e
    · cases e
    · split at e
      · cases e
      next ef =>
        cases e
        refine .ite (.foldl ?_ fun _ _ hu => hu.setPte) (.setPte ?_) <;>
          exact (h.takeFrame ef).setPte.foldl fun _ _ hu => hu.markDead

theorem install (h : r.TasksOf s) {a : Acc} {p : Page} {d : Bool} : r.TasksOf (s.install a p d) := by
  unfold State.install
  split <;> exact h

theorem useLeaf (h : r.TasksOf s) {a : Acc} {va e size frame : Nat} {write : Bool} :
    r.TasksOf (stateAfter (s.useLeaf a va e size frame write)) := by
  unfold State.useLeaf
  dsimp only
  split
  · exact h
  · exact (h.ite h.setPte).install

theorem walkPage (h : r.TasksOf s) {a : Acc} {d : Desc} {va : Nat} {write : Bool} :
    r.TasksOf (stateAfter (s.walkPage a d va write)) := by
  unfold State.walkPage
  split
  · exact h
  · split
    · exact h
    · exact h
    · exact h
    · exact h.useLeaf
    · split
      · exact h
      next e =>
        split
        · exact (h.backPage e).useLeaf
        · exact h.backPage e

theorem translate (h : r.TasksOf s) {a : Acc} {d : Desc} {va : Nat} {write : Bool} :
    r.TasksOf (stateAfter (s.translate a d va write)) := by
  unfold State.translate
  dsimp only
  split
  · split <;> exact h
  · exact h.walkPage

theorem translatePages (h : r.TasksOf s) {a : Acc} {b : Word} {n : Nat} {write : Bool} :
    r.TasksOf (stateAfter (s.translatePages a b n write)) := by
  unfold State.translatePages State.translateUnder
  refine List.foldlRecOn (motive := fun x => r.TasksOf (stateAfter x)) _ _ h fun x hx _ _ => ?_
  split
  · exact hx
  next v _ =>
    have hv : r.TasksOf v := hx
    split
    next e => exact (hv.translate.error e :)
    next e => exact (hv.translate.ok e :)

/-! ### The device's own accesses and records -/

theorem devPut (h : r.TasksOf s) {a : Acc} {b : Word} {bs : List Byte} : r.TasksOf (s.devPut a b bs).1 := by
  unfold State.devPut
  split
  · exact h
  · refine foldl_fst h fun _ _ hu => ?_
    split
    next e => exact hu.translate.error e
    next e => exact (hu.translate.ok e).settleOut.lineOut (b := b)

theorem touchOut (h : r.TasksOf s) {a : Acc} {b : Word} {n : Nat} : r.TasksOf (s.touchOut a b n).1 := by
  unfold State.touchOut
  split
  · exact h
  · split
    next e => exact h.translatePages.error e
    next e =>
      refine foldl_fst (h.translatePages.ok e) fun _ _ hu => ?_
      split
      · exact hu.settleOut
      · exact hu

theorem postCore (h : r.TasksOf s) {cid k : Nat} {bs : List Byte} : r.TasksOf (s.postCore cid k bs).1 := by
  unfold State.postCore
  split
  · exact h
  · exact h.touchOut.devPut.devPut.notify.ite_fst h.touchOut.devPut

theorem reportAll (h : r.TasksOf s) {fuel : Nat} {rs : List Report} : r.TasksOf (State.reportAll fuel s rs) := by
  induction fuel generalizing s rs with
  | zero => exact h
  | succ fuel ih =>
    unfold State.reportAll
    split
    · exact h
    · exact ih (postCore (h.setMdie.ite h))

theorem reportErrors (h : r.TasksOf s) {rs : List Report} : r.TasksOf (s.reportErrors rs) := h.ite h.reportAll

theorem post (h : r.TasksOf s) {cid k : Nat} {bs : List Byte} : r.TasksOf (s.post cid k bs).1 := h.postCore.reportErrors

theorem devWrite (h : r.TasksOf s) {a : Acc} {b : Word} {bs : List Byte} : r.TasksOf (s.devWrite a b bs) := h.devPut.reportErrors

theorem tcbPut (h : r.TasksOf s) {off : Nat} {bs : List Byte} : r.TasksOf (s.tcbPut off bs) := h.ite h.devWrite

theorem tcbOwned (h : r.TasksOf s) : r.TasksOf s.tcbOwned := h.tcbPut.tcbPut.tcbPut

theorem ringPut (h : r.TasksOf s) {ctl : Nat} {bs : List Byte} : r.TasksOf (s.ringPut ctl bs) := h.fwWrite.fwWrite

theorem postFault (h : r.TasksOf s) {t : Task} {q : FaultRec} : r.TasksOf (s.postFault t q) := by
  unfold State.postFault
  dsimp only
  split
  · exact h.fwWrite.ite h.ringPut.notify
  · exact h.post

end State.TasksOf

end Sys2Proof.Machine
end

section
/-! Service requests and breakpoints (09 R159, R160, 18 R304, R308, R314, 06 R106, R107). -/

namespace Sys2Proof.Machine

/-! ### Traps -/

section
variable {s : State} {w : Who} {h : Fin 16} {t : Trap}

theorem State.trapped_in_team (hf : s.focus = .member w) : s.trapped t = s.takeTrap w t := by
  rw [State.trapped, State.trapFocus, hf]

theorem State.trapped_on_hart (hf : s.focus = .hart h) : s.trapped t = s.setHart h ((s.hart h).take t.cause.code.toNat t.d1) :=
  State.trapFocus_hart hf t

/-- With nothing of the task in flight, a trap's stop finishes at once, with the trap's record (18 R308). -/
theorem State.takeTrap_finishes (hstop : s.cur.stop = none) (hfly : s.inFlight s.cur.id = false) (hc : t.cause ≠ .hang) :
    ∃ u : State, u.cur.spec = s.cur.spec ∧ s.takeTrap w t = u.finishTrap ⟨t.cause.code, w, (s.member w).pc, t.d1, t.d2⟩ := by
  rw [State.takeTrap, hstop]
  simp only [if_neg hc]
  refine ⟨_, ?_, if_neg ?_⟩
  · rfl
  · exact Bool.eq_false_iff.mp hfly

theorem State.finishTrap_spec {r : FaultRec} (hs : s.cur.spec = true) : (s.finishTrap r).cur.held = some r := by
  rw [State.finishTrap, if_pos hs]
  rfl

theorem State.putState_faulted (s : State) (spec : Bool) :
    (s.putState .faulted spec).cur = { s.cur with state := .faulted, spec := spec } :=
  (State.TasksOf.refl _).tcbOwned.cur_eq

/-- The record of a trap, and what is written to the TCB, leave the task FAULTED with its record. -/
theorem State.finishTrap_fault {r : FaultRec} (hs : s.cur.spec = false) :
    (s.finishTrap r).cur.state = .faulted ∧ (s.finishTrap r).cur.fault = r := by
  rw [State.finishTrap, if_neg (by simp [hs])]
  dsimp only
  rw [(State.TasksOf.refl _).postFault.cur_eq, State.putState_faulted]
  exact ⟨rfl, rfl⟩

end

/-! ### Records of little-endian fields -/

/-- The bytes of a record's fields, each a size and a value. -/
def packed (fs : List (Nat × Nat)) : List Byte := fs.flatMap fun f => leBytes f.1 f.2

theorem packed_length (fs : List (Nat × Nat)) : (packed fs).length = (fs.map Prod.fst).sum := by
  simp only [packed, List.length_flatMap, leBytes_length]

/-- A field read back at its place in the record. -/
theorem leNat_packed_field (fs : List (Nat × Nat)) (i : Nat) (hi : i < fs.length) :
    leNat (((packed fs).drop ((fs.take i).map Prod.fst).sum).take fs[i].1) = fs[i].2 % 256 ^ fs[i].1 := by
  have hsplit : packed fs = packed (fs.take i) ++ (leBytes fs[i].1 fs[i].2 ++ packed (fs.drop (i + 1))) := by
    conv_lhs => rw [← List.take_append_drop i fs, List.drop_eq_getElem_cons hi, packed, List.flatMap_append, List.flatMap_cons]
    rfl
  rw [hsplit, ← packed_length, List.drop_left, List.take_left' (leBytes_length ..), leNat_leBytes]

/-! ### Service requests -/

section
variable {s : State} {w : Who}

theorem State.ecall_spec (hf : s.focus = .member w) (hs : s.cur.spec = true) : s.ecall = .stay .spec s := by
  rw [State.ecall, hf]
  exact if_pos hs

theorem State.ecall_outstanding {tag : Nat} (hf : s.focus = .member w) (hs : s.cur.spec = false) (hw : (s.member w).svc = some tag) :
    s.ecall = .stay (.ecall tag) s := by
  simp only [State.ecall, hf, hs, hw, Bool.false_eq_true, if_false]

theorem State.ecall_first (hf : s.focus = .member w) (hs : s.cur.spec = false) (hw : (s.member w).svc = none) :
    s.ecall = .stay (.ecall (s.cur.svcTag + 1)) (if s.ringFull (s.part s.cur.part).svcCtl then s else s.postService w) := by
  simp only [State.ecall, hf, hs, hw, Bool.false_eq_true, if_false]

theorem State.notify_mem (s : State) (p k cid : Nat) : (s.notify p k cid).mem = s.mem := by
  unfold State.notify
  dsimp only
  split <;> exact State.setPart_mem ..

/-- The member's request bears the task's next tag. -/
theorem State.postService_svc (s : State) (w : Who) : ((s.postService w).member w).svc = some (s.cur.svcTag + 1) := by
  rw [State.postService, State.member_setMember]

/-- A request's record goes where the ring's next record goes, and PROD advances (18 R310, R314). -/
theorem State.postService_mem (s : State) (w : Who) :
    (s.postService w).mem = (s.ringPut (s.part s.cur.part).svcCtl (s.serviceRecord w (s.cur.svcTag + 1))).mem := by
  unfold State.postService
  dsimp only
  simp only [State.setMember_mem, State.notify_mem]

/-- The fields of a service record, each with its size in bytes (18 R314). -/
def State.serviceFields (s : State) (w : Who) (tag : Nat) : List (Nat × Nat) :=
  let m := s.member w
  let x (n : Nat) : Nat := (regGet m.x (BitVec.ofNat 5 n)).toNat
  [(2, 16), (1, w.num), (1, 0), (2, s.cur.cid), (2, s.cur.vdie), (8, m.pc), (8, s.cur.tcb.toNat), (8, s.cur.launch), (4, s.cur.tile),
    (4, tag), (8, x 17), (8, x 10), (8, x 11), (8, x 12), (8, x 13), (8, x 14), (8, x 15), (8, s.hub.time), (24, 0)]

theorem State.serviceRecord_eq (s : State) (w : Who) (tag : Nat) : s.serviceRecord w tag = packed (s.serviceFields w tag) := by
  simp only [State.serviceRecord, State.serviceFields, packed, List.flatMap_cons, List.flatMap_nil, List.append_nil, List.append_assoc]

theorem State.serviceRecord_length (s : State) (w : Who) (tag : Nat) : (s.serviceRecord w tag).length = 128 := by
  rw [State.serviceRecord_eq, packed_length]
  simp only [State.serviceFields, List.map_cons, List.map_nil, List.sum_cons, List.sum_nil, Nat.reduceAdd]

/-- Field `i` of a service record, read back at the sum of the sizes before it. -/
theorem State.leNat_serviceRecord_field (s : State) (w : Who) (tag i : Nat) (hi : i < 19) :
    leNat (((s.serviceRecord w tag).drop (((s.serviceFields w tag).take i).map Prod.fst).sum).take ((s.serviceFields w tag)[i]'hi).1) =
      ((s.serviceFields w tag)[i]'hi).2 % 256 ^ ((s.serviceFields w tag)[i]'hi).1 := by
  rw [State.serviceRecord_eq]
  exact leNat_packed_field ..

end

/-- Settles O17: the queue and the request outstanding decide how the call ends; the record's fields are read back at their offsets. -/
theorem serviceCall : Obligations.ServiceCall := by
  intro s hs
  have hexec : exec .ecall s = s.ecall.finish 4 := issueBase_ready hs
  refine ⟨fun w hf => ⟨fun hsp => ?_, fun hsp hw hfull => ?_, fun hsp hw hfull => ⟨?_, s.postService_svc w, ?_⟩, fun tag hsp hw => ?_⟩,
    fun h hf => ?_⟩
  · rw [hexec, State.ecall_spec hf hsp, Eff.finish_stay]
  · rw [hexec, State.ecall_first hf hsp hw, if_pos hfull, Eff.finish_stay]
  · rw [hexec, State.ecall_first hf hsp hw, if_neg (by simp [hfull]), Eff.finish_stay]
  · have hlen := s.serviceRecord_length w (s.cur.svcTag + 1)
    have field := s.leNat_serviceRecord_field w (s.cur.svcTag + 1)
    have hword (v : Word) : v.toNat % 256 ^ 8 = v.toNat := Nat.mod_eq_of_lt v.isLt
    refine ⟨s.serviceRecord w (s.cur.svcTag + 1), hlen, ?kind, ?tag, ?service, ?arg, ?ring⟩
    case ring =>
      rw [State.postService_mem, State.ringPut, hlen]
      rfl
    case kind => exact field 0 (by decide)
    case tag => exact field 9 (by decide)
    case service => exact (field 10 (by decide)).trans (hword _)
    case arg => exact (field 11 (by decide)).trans (hword _)
  · rw [hexec, State.ecall_outstanding hf hsp hw, Eff.finish_stay]
  · have he : s.ecall = .trap { cause := .hart (8 + (s.hart h).mode.setWidth 16) } s := by rw [State.ecall, hf]
    have hcode : (8 + (s.hart h).mode.setWidth 16 : BitVec 16).toNat = 8 + (s.hart h).mode.toNat := by
      have := (s.hart h).mode.isLt
      simp only [BitVec.toNat_add, BitVec.toNat_setWidth, show (8 : BitVec 16).toNat = 8 from rfl]
      omega
    rw [hexec, he, Eff.finish_trap, State.trapped_on_hart hf, Cause.code, hcode]

/-- Settles O18: nothing but the trap happens, and its stop finishes at once where nothing is in flight. -/
theorem breakpoint : Obligations.Breakpoint := by
  intro s hs
  refine ⟨fun w hf => ⟨?taken, fun hstop hfly => ?finishes⟩, fun h hf => ?hart⟩
  case taken =>
    have he : s.ebreak = .trap (trapOf .breakpoint) s := by rw [State.ebreak, hf]
    exact (congrArg (issueBase s) he).trans ((issueBase_trap hs).trans (congrArg _ (State.trapped_in_team hf)))
  case finishes =>
    obtain ⟨u, hu, ht⟩ := State.takeTrap_finishes (w := w) (t := trapOf .breakpoint) hstop hfly (by decide)
    dsimp only
    rw [ht, ← hu]
    exact ⟨State.finishTrap_fault, State.finishTrap_spec⟩
  case hart =>
    have he : s.ebreak = .trap { cause := .hart 3, d1 := (s.hart h).pc } s := by rw [State.ebreak, State.pc, hf]
    exact (congrArg (issueBase s) he).trans ((issueBase_trap hs).trans (congrArg _ (State.trapped_on_hart hf)))

end Sys2Proof.Machine
end

section
/-! Vector instructions that issue: the elements of their sources, and the results that land (08 R145, 10 R166, R167). -/

namespace Sys2Proof.Machine

/-! ### Elements of a source -/

theorem elemCodes_getD (regs : List V256) (w n i : Nat) :
    (elemCodes regs w n).getD i 0 = if i < n then elemAt regs w i else 0 := by
  by_cases h : i < n <;> simp [elemCodes, h]

theorem elemCodes_getD_lt {n i : Nat} (h : i < n) (regs : List V256) (w : Nat) : (elemCodes regs w n).getD i 0 = elemAt regs w i := by
  rw [elemCodes_getD, if_pos h]

theorem length_elemCodes (regs : List V256) (w n : Nat) : (elemCodes regs w n).length = n := by
  rw [elemCodes, List.length_map, List.length_range]

theorem getElem_elemCodes {regs : List V256} {w n i : Nat} (h : i < (elemCodes regs w n).length) :
    (elemCodes regs w n)[i] = elemAt regs w i := by
  simp only [elemCodes, List.getElem_map, List.getElem_range]

/-- A code is no wider than its element. -/
theorem elemAt_lt (regs : List V256) (w i : Nat) : elemAt regs w i < 2 ^ w := BitVec.isLt _

/-- Lists of one length whose elements are formed alike at each index. -/
theorem map_range_congr {α : Type} {n : Nat} {f g : Nat → α} (h : ∀ i, i < n → f i = g i) : (List.range n).map f = (List.range n).map g :=
  List.map_congr_left fun i hi => h i (List.mem_range.mp hi)

/-! ### Results -/

theorem landElems_eq (s : State) (t : Team) (o : LF) (w g lat : Nat) (rs : List Elt) :
    landElems s t o w g lat rs = .done (s.withElems t o w g lat rs) := rfl

theorem landRegs_eq (s : State) (t : Team) (o : LF) (lat : Nat) (rs : List V256) (f : BitVec 6) :
    landRegs s t o lat rs f = .done (s.withRegs t o lat rs f) := rfl

theorem plain_map_range (n : Nat) (f : Nat → Nat) : plain ((List.range n).map f) = (List.range n).map fun i => (f i, 0) := by
  rw [plain, List.map_map]
  rfl

/-- Element `i` of a result without flags, of two sources, comes from element `i` of each. -/
theorem map2_eq (o : LF) (w lat : Nat) (s : State) (f : Nat → Nat → Nat) :
    map2 o w lat s f = .done (s.withElems s.cur.team o w (groupRegs o) lat ((List.range (elems (groupRegs o) w)).map fun i =>
      (f (elemAt (s.cur.team.group o.a.toNat (groupRegs o)) w i) (elemAt (s.cur.team.group o.b.toNat (groupRegs o)) w i), 0))) := by
  rw [map2, landElems_eq, plain_map_range]
  congr 2
  exact map_range_congr fun i hi => by rw [elemCodes_getD_lt hi, elemCodes_getD_lt hi]

/-- The same of one source. -/
theorem map1_eq (o : LF) (w lat : Nat) (s : State) (f : Nat → Nat) :
    map1 o w lat s f = .done (s.withElems s.cur.team o w (groupRegs o) lat ((List.range (elems (groupRegs o) w)).map fun i =>
      (f (elemAt (s.cur.team.group o.a.toNat (groupRegs o)) w i), 0))) := by
  rw [map1, landElems_eq, elemCodes, List.map_map, plain_map_range]
  rfl

end Sys2Proof.Machine
end

section
/-! Integer elements: their values, codes and ranges, and shifts (10 R178, R179). -/

namespace Sys2Proof.Machine

section
variable {w : Nat} {uns : Bool}

/-! ### Values and codes -/

theorem two_pow_pred (hw : 0 < w) : (2 : Int) ^ w = 2 * 2 ^ (w - 1) := by
  rw [← pow_succ', Nat.sub_add_cancel hw]

theorem signedOf_eq (w c : Nat) :
    signedOf w c = if (c : Int) % 2 ^ w < 2 ^ (w - 1) then (c : Int) % 2 ^ w else (c : Int) % 2 ^ w - 2 ^ w := by
  have hlt : c % 2 ^ w < 2 ^ (w - 1) ↔ (c : Int) % 2 ^ w < 2 ^ (w - 1) := by
    rw [← Int.ofNat_lt]
    push_cast
    rfl
  simp only [signedOf, hlt]
  push_cast
  rfl

/-- The value of a code lies in the range of its width. -/
theorem asInt_mem_range (hw : 0 < w) (c : Nat) : intLo w uns ≤ asInt w uns c ∧ asInt w uns c ≤ intHi w uns := by
  have h2 := two_pow_pred hw
  have h0 := Int.emod_nonneg (c : Int) (b := 2 ^ w) (by positivity)
  have h1 := Int.emod_lt_of_pos (c : Int) (b := 2 ^ w) (by positivity)
  cases uns with
  | true =>
    simp only [intLo, intHi, asInt, if_true]
    push_cast
    omega
  | false =>
    simp only [intLo, intHi, asInt, signedOf_eq, Bool.false_eq_true, if_false]
    split <;> omega

/-- An integer of the range is the value of its own code. -/
theorem asInt_wrapInt (hw : 0 < w) {e : Int} (hlo : intLo w uns ≤ e) (hhi : e ≤ intHi w uns) : asInt w uns (wrapInt w e) = e := by
  have h2 := two_pow_pred hw
  have hpos : (0 : Int) < 2 ^ w := by positivity
  have hcode : (wrapInt w e : Int) % 2 ^ w = e % 2 ^ w := by
    rw [wrapInt, Int.toNat_of_nonneg (Int.emod_nonneg _ hpos.ne'), Int.emod_emod]
  cases uns with
  | true =>
    simp only [intLo, intHi, if_true] at hlo hhi
    rw [asInt, if_pos rfl]
    push_cast
    rw [hcode, Int.emod_eq_of_lt hlo (by omega)]
  | false =>
    simp only [intLo, intHi, Bool.false_eq_true, if_false] at hlo hhi
    rw [asInt, if_neg Bool.false_ne_true, signedOf_eq, hcode]
    by_cases he : 0 ≤ e
    · rw [Int.emod_eq_of_lt he (by omega), if_pos (by omega)]
    · rw [← Int.add_emod_right, Int.emod_eq_of_lt (by omega) (by omega), if_neg (by omega)]
      omega

theorem intLo_nonpos (w : Nat) (uns : Bool) : intLo w uns ≤ 0 := by
  have h : (0 : Int) < 2 ^ (w - 1) := by positivity
  cases uns <;> simp only [intLo, Bool.false_eq_true, if_true, if_false] <;> omega

theorem intHi_nonneg (w : Nat) (uns : Bool) : 0 ≤ intHi w uns := by
  have h : (0 : Int) < 2 ^ (w - 1) := by positivity
  have h' : (0 : Int) < 2 ^ w := by positivity
  cases uns <;> simp only [intHi, Bool.false_eq_true, if_true, if_false] <;> omega

/-- No bound reaches the whole span of a width. -/
theorem range_lt_span (hw : 0 < w) : -(2 ^ w) < intLo w uns ∧ intHi w uns < 2 ^ w := by
  have h2 := two_pow_pred hw
  have h1 : (0 : Int) < 2 ^ (w - 1) := by positivity
  cases uns <;> simp only [intLo, intHi, Bool.false_eq_true, if_true, if_false] <;> omega

/-! ### Shifts of one element (10 R179) -/

/-- Beyond the width, a right shift has reached the sign already. -/
theorem ediv_two_pow_of_le {v : Int} (hlo : -(2 ^ w) ≤ v) (hhi : v < 2 ^ w) {k : Nat} (hk : w ≤ k) : v / 2 ^ k = v / 2 ^ w := by
  have hpow : (2 : Int) ^ w ≤ 2 ^ k := pow_le_pow_right₀ (by decide) hk
  by_cases hv : 0 ≤ v
  · rw [Int.ediv_eq_zero_of_lt hv (by omega), Int.ediv_eq_zero_of_lt hv hhi]
  · rw [Int.ediv_eq_neg_one_of_neg_of_le (by omega) (by omega), Int.ediv_eq_neg_one_of_neg_of_le (by omega) (by omega)]

theorem shrElem_flags (w a k : Nat) (uns : Bool) : (shrElem w uns a k).2 = 0 := by
  cases uns <;> rfl

/-- The code of a right shift is that of the quotient. -/
theorem shrElem_code (hw : 0 < w) (a k : Nat) : (shrElem w uns a k).1 = wrapInt w (asInt w uns a / 2 ^ k) := by
  cases uns with
  | true =>
    have ha : a % 2 ^ w < 2 ^ w := Nat.mod_lt _ (Nat.two_pow_pos w)
    have hcode : wrapInt w (asInt w true a / 2 ^ k) = a % 2 ^ w / 2 ^ k :=
      Nat.mod_eq_of_lt (lt_of_le_of_lt (Nat.div_le_self _ _) ha)
    rw [hcode, shrElem, if_pos rfl, ite_eq_right_iff]
    exact fun hk => (Nat.div_eq_of_lt (ha.trans_le (Nat.pow_le_pow_right Nat.two_pos hk))).symm
  | false =>
    obtain ⟨hlo, hhi⟩ := asInt_mem_range (uns := false) hw a
    obtain ⟨hl, hh⟩ := range_lt_span (uns := false) hw
    show wrapInt w (asInt w false a / 2 ^ min k w) = _
    rcases Nat.le_total k w with hk | hk
    · rw [Nat.min_eq_left hk]
    · rw [Nat.min_eq_right hk, ediv_two_pow_of_le (by omega) (by omega) hk]

/-- A right shift divides, rounding down. -/
theorem asInt_shrElem (hw : 0 < w) (a k : Nat) : asInt w uns (shrElem w uns a k).1 = asInt w uns a / 2 ^ k := by
  obtain ⟨hlo, hhi⟩ := asInt_mem_range (uns := uns) hw a
  have hpow : (1 : Int) ≤ 2 ^ k := one_le_pow₀ (by decide)
  rw [shrElem_code hw, asInt_wrapInt hw]
  · have := Int.mul_le_mul_of_nonpos_left (intLo_nonpos w uns) hpow
    exact Int.le_ediv_of_mul_le (by omega) (by omega)
  · have := Int.mul_le_mul_of_nonneg_left hpow (intHi_nonneg w uns)
    exact Int.ediv_le_of_le_mul (by omega) (by omega)

/-- A left shift by the width or more leaves nothing but a zero inside the range. -/
theorem eq_zero_of_shift_in_range (hw : 0 < w) {v : Int} {k : Nat} (hk : w ≤ k) (hlo : intLo w uns ≤ v * 2 ^ k)
    (hhi : v * 2 ^ k ≤ intHi w uns) : v = 0 := by
  obtain ⟨hl, hh⟩ := range_lt_span (uns := uns) hw
  have hpow : (2 : Int) ^ w ≤ 2 ^ k := pow_le_pow_right₀ (by decide) hk
  by_contra hv
  rcases Int.lt_or_gt_of_ne hv with hv | hv
  · have : v * 2 ^ k ≤ -1 * 2 ^ k := Int.mul_le_mul_of_nonneg_right (by omega) (by omega)
    omega
  · have : 1 * 2 ^ k ≤ v * 2 ^ k := Int.mul_le_mul_of_nonneg_right (by omega) (by omega)
    omega

/-- A left shift by the width or more leaves no bit of its value. -/
theorem wrapInt_shift_of_le {k : Nat} (hk : w ≤ k) (v : Int) : wrapInt w (v * 2 ^ k) = 0 := by
  rw [wrapInt, Int.emod_eq_zero_of_dvd (dvd_mul_of_dvd_right (pow_dvd_pow 2 hk) v), Int.toNat_zero]

/-- A left shift multiplies, and its product is kept to the range as any exact result is. -/
theorem shlElem_eq (hw : 0 < w) (sat : Bool) (a k : Nat) : shlElem w uns sat a k = intResult w uns sat (asInt w uns a * 2 ^ k) := by
  have hl0 := intLo_nonpos w uns
  have hh0 := intHi_nonneg w uns
  simp only [shlElem, intResult]
  generalize asInt w uns a = v
  have hlow : (if w ≤ k then 0 else wrapInt w (v * 2 ^ k)) = wrapInt w (v * 2 ^ k) :=
    ite_eq_right_iff.mpr fun hk => (wrapInt_shift_of_le hk v).symm
  have hsign : v < 0 ↔ v * 2 ^ k < 0 := by
    have hpow : (0 : Int) < 2 ^ k := by positivity
    exact ⟨fun h => Int.mul_neg_of_neg_of_pos h hpow, fun h => neg_of_mul_neg_left h hpow.le⟩
  have hzero : v = 0 → v * 2 ^ k = 0 := fun h => by rw [h, Int.zero_mul]
  have hwide : w ≤ k → intLo w uns ≤ v * 2 ^ k → v * 2 ^ k ≤ intHi w uns → v = 0 := eq_zero_of_shift_in_range hw
  have hout : (v ≠ 0 ∧ (w ≤ k ∨ v * 2 ^ k < intLo w uns ∨ intHi w uns < v * 2 ^ k)) ↔
      (v * 2 ^ k < intLo w uns ∨ intHi w uns < v * 2 ^ k) := by omega
  by_cases h : v * 2 ^ k < intLo w uns ∨ intHi w uns < v * 2 ^ k
  · have hneg : v < 0 ↔ v * 2 ^ k < intLo w uns := by omega
    simp only [hlow, hneg, Bool.and_assoc, Bool.and_eq_true, Bool.or_eq_true, bne_iff_ne, decide_eq_true_eq, or_assoc, hout]
  · simp only [hlow, Bool.and_assoc, Bool.and_eq_true, Bool.or_eq_true, bne_iff_ne, decide_eq_true_eq, or_assoc, hout]
    simp only [h, and_false, if_false]

/-! ### Exact results kept to the range (10 R178) -/

/-- An exact result in words: bounded below, bounded above, or its low bits. -/
theorem intResult_eq (w : Nat) (uns sat : Bool) (e : Int) :
    intResult w uns sat e =
      if sat && e < intLo w uns then (wrapInt w (intLo w uns), fSAT)
      else if sat && intHi w uns < e then (wrapInt w (intHi w uns), fSAT) else (wrapInt w e, 0) := by
  by_cases hl : e < intLo w uns <;> cases sat <;> simp [intResult, hl]

theorem intResult_wraps (e : Int) : intResult w uns false e = (wrapInt w e, 0) := rfl

theorem intResult_fits {e : Int} (hlo : intLo w uns ≤ e) (hhi : e ≤ intHi w uns) (sat : Bool) :
    intResult w uns sat e = (wrapInt w e, 0) := by
  rw [intResult_eq, if_neg (by simp [hlo]), if_neg (by simp [hhi])]

theorem intResult_below {e : Int} (h : e < intLo w uns) : intResult w uns true e = (wrapInt w (intLo w uns), fSAT) := by
  rw [intResult_eq, if_pos (by simpa using h)]

theorem intResult_above {e : Int} (h : intHi w uns < e) : intResult w uns true e = (wrapInt w (intHi w uns), fSAT) := by
  have := intLo_nonpos w uns
  have := intHi_nonneg w uns
  rw [intResult_eq, if_neg (by simp; omega), if_pos (by simpa using h)]

theorem asInt_intLo (hw : 0 < w) : asInt w uns (wrapInt w (intLo w uns)) = intLo w uns :=
  asInt_wrapInt hw le_rfl ((intLo_nonpos w uns).trans (intHi_nonneg w uns))

theorem asInt_intHi (hw : 0 < w) : asInt w uns (wrapInt w (intHi w uns)) = intHi w uns :=
  asInt_wrapInt hw ((intLo_nonpos w uns).trans (intHi_nonneg w uns)) le_rfl

end

/-! ### Shifts of a group -/

/-- The shifts of class 1 take B's element, or its immediate. -/
theorem shiftElems_eq (o : LF) (r : Res) (s : State) (f : Nat → Nat → Nat → Elt) :
    shiftElems o r s f = .done (s.withElems s.cur.team o (intWidth r.fmt) (groupRegs o) 3
      ((List.range (elems (groupRegs o) (intWidth r.fmt))).map fun i =>
        f (intWidth r.fmt) (elemAt (s.cur.team.group o.a.toNat (groupRegs o)) (intWidth r.fmt) i)
          (if o.sub4 = 1 then o.b.toNat else elemAt (s.cur.team.group o.b.toNat (groupRegs o)) (intWidth r.fmt) i))) := by
  rw [shiftElems, landElems_eq]
  congr 2
  refine map_range_congr fun i hi => ?_
  by_cases h : o.sub4 = 1
  · simp only [if_pos h, elemCodes_getD_lt hi]
  · simp only [if_neg h, elemCodes_getD_lt hi]

/-- Settles O32: both shifts land element by element; a right one is a quotient, and a left one a product kept to the range. -/
theorem shifts : Obligations.Shifts := by
  constructor
  · intro o s t r g w n a k
    simp only [List.forall_mem_cons, List.not_mem_nil, false_imp_iff, implies_true, and_true]
    constructor
    all_goals
      intro hi
      rw [exec]
      exact issue_done hi (shiftElems_eq ..)
  · intro w a k uns sat hw _ _ _
    have hw : 0 < w := by
      simp only [List.mem_cons, List.not_mem_nil, or_false] at hw
      omega
    rw [shlElem_eq hw]
    refine ⟨asInt_shrElem hw a k, shrElem_flags w a k uns, ?wraps, ?bounds⟩
    case wraps =>
      rintro rfl
      exact ⟨rfl, rfl⟩
    case bounds =>
      rintro rfl
      refine ⟨fun hlo hhi => ?_, fun hlo => ?_, fun hhi => ?_⟩
      · rw [intResult_fits hlo hhi]
        exact ⟨asInt_wrapInt hw hlo hhi, rfl⟩
      · rw [intResult_below hlo]
        exact ⟨asInt_intLo hw, rfl⟩
      · rw [intResult_above hhi]
        exact ⟨asInt_intHi hw, rfl⟩

end Sys2Proof.Machine
end

section
/-! Vector accesses of local space (04 R72, 10 R195-R197, 18 R312). -/

namespace Sys2Proof.Machine

/-! ### Loads and stores from the addresses of their elements -/

section
variable {o : LF} {r : Res} {s : State} {whole : Option (Nat × Nat)} {as : List (Nat × Nat)}

theorem vecLoad_trap (tr : Trap) : vecLoad o r s whole (.error tr) = .trap tr s := rfl

/-- Where every line is readable, each active element lands from its own address, and what a read rebuilds is rewritten. -/
theorem vecLoad_readable (h : s.unreadable as = none) :
    vecLoad o r s whole (.ok as) = .done ((s.readElts (fmtWidth r.fmt) as).setTeam
      (s.cur.team.land (groupWrites (s.cur.team.wb + o.d.toNat) (groupRegs o) (fmtWidth r.fmt)
        ((List.range (elems (groupRegs o) (fmtWidth r.fmt))).map fun i =>
          (as.find? fun ia => ia.1 == i).map fun ia => s.eltLoad ia.2 (fmtWidth r.fmt) i)) 0 (if o.sub = 1 then 18 else 6) o)) := by
  simp only [vecLoad, h]
  congr 6
  funext i
  cases as.find? fun ia => ia.1 == i <;> rfl

/-- A line that cannot be read raises LOCAL_UE after its record, about the whole access, or about the element where there is none. -/
theorem vecLoad_unreadable {a : Nat} (h : s.unreadable as = some a) :
    vecLoad o r s whole (.ok as) =
      .trap { cause := .localUe, d1 := BitVec.ofNat 64 (whole.getD (a, eltBytes (fmtWidth r.fmt))).1,
              d2 := BitVec.ofNat 64 (whole.getD (a, eltBytes (fmtWidth r.fmt))).2 } (s.postLocalUe a) := by
  simp only [vecLoad, h, trapAt]

theorem vecStore_trap (tr : Trap) : vecStore o r s (.error tr) = .trap tr s := rfl

end

/-- Every width of a format divides a register. -/
theorem fmtWidth_cases (f : Nat) : fmtWidth f = 4 ∨ fmtWidth f = 8 ∨ fmtWidth f = 16 ∨ fmtWidth f = 32 := by
  unfold fmtWidth
  split <;> simp

/-- Beyond the elements of a group there is nothing to read. -/
theorem elemAt_group_of_le (t : Team) (base g f i : Nat) (h : elems g (fmtWidth f) ≤ i) :
    elemAt (t.group base g) (fmtWidth f) i = 0 := by
  have hreg : (t.group base g).length ≤ i * fmtWidth f / 256 := by
    rw [Team.group, List.length_map, List.length_range, Nat.le_div_iff_mul_le (by decide)]
    rcases fmtWidth_cases f with hw | hw | hw | hw <;> rw [elems, hw] at h <;> rw [hw] <;> omega
  rw [elemAt, List.getD_eq_default _ _ hreg]
  simp

/-- The codes of a group, read at any index. -/
theorem elemCodes_group_getD (t : Team) (base g f i : Nat) :
    (elemCodes (t.group base g) (fmtWidth f) (elems g (fmtWidth f))).getD i 0 = elemAt (t.group base g) (fmtWidth f) i := by
  rw [elemCodes_getD, ite_eq_left_iff]
  exact fun h => (elemAt_group_of_le t base g f i (not_lt.mp h)).symm

/-- A store writes the active elements in their order, each from D's element. -/
theorem vecStore_ok (o : LF) (r : Res) (s : State) (as : List (Nat × Nat)) :
    vecStore o r s (.ok as) = .done (as.foldl (fun u ia => u.eltStore ia.2 (fmtWidth r.fmt) ia.1
      (elemAt (s.cur.team.group o.d.toNat (groupRegs o)) (fmtWidth r.fmt) ia.1)) s) := by
  simp only [vecStore, elemCodes_group_getD]

/-! ### Addresses (10 R196) -/

theorem spaceAddr_ok {base : Word} {off : Int} {k a : Nat} (len : Nat) (ha : base.toNat + off = (a : Int)) (hr : a < 4294967296)
    (hk : a % k = 0) : spaceAddr base off k len = .ok a := by
  have hlocal : localAddr base off = some a := by
    simp only [localAddr, ha, Int.toNat_natCast]
    exact if_pos (by omega)
  simp only [spaceAddr, hlocal]
  exact if_neg (not_not.mpr hk)

theorem unitAddrs_ok {o : LF} {s : State} {w n a : Nat} {cl : Bool} (ha : (s.x (fieldReg o.a)).toNat + o.b.toInt = (a : Int))
    (hr : a < 4294967296) (hk : a % eltBytes w = 0)
    (hin : ∀ i, i < n → s.cur.team.active o.m i = true → s.inSpace cl (eltAddr a w i) (eltBytes w) = true) :
    s.unitAddrs o w n cl =
      .ok (((List.range n).filter fun i => s.cur.team.active o.m i).map fun i => (i, eltAddr a w i)) := by
  have hnone : (((List.range n).filter fun i => s.cur.team.active o.m i).findSome?
      fun i => s.eltTrap cl (eltAddr a w i) (eltBytes w) a (32 * groupRegs o)) = none := by
    rw [List.findSome?_eq_none_iff]
    intro i hi
    obtain ⟨hn, hact⟩ := List.mem_filter.mp hi
    exact if_pos (hin i (List.mem_range.mp hn) hact)
  simp only [State.unitAddrs, spaceAddr_ok _ ha hr hk, hnone]

theorem unitAccess_address (s : State) (o : LF) :
    BitVec.ofNat 64 (s.unitAccess o).1 = s.x (fieldReg o.a) + o.b.signExtend 64 := BitVec.ofNat_toNat ..

/-! ### How a load and a store end -/

section
variable {i : Instr} {o : LF} {r : Res} {s : State} {e : Except Trap (List (Nat × Nat))}

/-- A vector load lands, takes the trap of its addresses, or raises LOCAL_UE after the record about the line. -/
theorem exec_of_vecLoad {whole : Option (Nat × Nat)} (hx : exec i s = (vecLoad o r s whole e).finish 8) :
    (∀ as, e = .ok as → s.unreadable as = none →
      exec i s = .next (((s.readElts (fmtWidth r.fmt) as).setTeam (s.cur.team.land
        (groupWrites (s.cur.team.wb + o.d.toNat) (groupRegs o) (fmtWidth r.fmt)
          ((List.range (elems (groupRegs o) (fmtWidth r.fmt))).map fun i =>
            (as.find? fun ia => ia.1 == i).map fun ia => s.eltLoad ia.2 (fmtWidth r.fmt) i)) 0 (if o.sub = 1 then 18 else 6) o)).completed 8)) ∧
    (∀ tr, e = .error tr → exec i s = .next (s.trapped tr)) ∧
    (∀ as a, e = .ok as → s.unreadable as = some a →
      exec i s = .next ((s.postLocalUe a).trapped
        { cause := .localUe, d1 := BitVec.ofNat 64 (whole.getD (a, eltBytes (fmtWidth r.fmt))).1,
          d2 := BitVec.ofNat 64 (whole.getD (a, eltBytes (fmtWidth r.fmt))).2 })) := by
  refine ⟨?_, ?_, ?_⟩
  · rintro as rfl hr
    rw [hx, vecLoad_readable hr, Eff.finish_done]
  · rintro tr rfl
    rw [hx, vecLoad_trap, Eff.finish_trap]
  · rintro as a rfl hu
    rw [hx, vecLoad_unreadable hu, Eff.finish_trap]

/-- A vector store writes, or takes the trap of its addresses. -/
theorem exec_of_vecStore (hx : exec i s = (vecStore o r s e).finish 8) :
    (∀ as, e = .ok as →
      exec i s = .next ((as.foldl (fun u ia => u.eltStore ia.2 (fmtWidth r.fmt) ia.1
        (elemAt (s.cur.team.group o.d.toNat (groupRegs o)) (fmtWidth r.fmt) ia.1)) s).completed 8)) ∧
    (∀ tr, e = .error tr → exec i s = .next (s.trapped tr)) := by
  constructor
  · rintro as rfl
    rw [hx, vecStore_ok, Eff.finish_done]
  · rintro tr rfl
    rw [hx, vecStore_trap, Eff.finish_trap]

end

/-- Settles O36: the addresses found decide between the landing, the writes and the trap. -/
theorem vectorMemory : Obligations.VectorMemory := by
  refine ⟨fun o s => ⟨?loads, ?stores⟩, fun o s w n a cl ha hr hk hin => unitAddrs_ok ha hr hk hin⟩
  case loads =>
    simp only [List.forall_mem_cons, List.not_mem_nil, false_imp_iff, implies_true, and_true]
    refine ⟨fun hi => ?vld, fun hi => ?vgath⟩
    case vld =>
      obtain ⟨hlands, htraps, hue⟩ := exec_of_vecLoad (i := .vld o) (by rw [exec]; exact issue_ok hi)
      refine ⟨hlands, htraps, fun as a has hu => ⟨fun _ => ?_, fun h => nomatch h⟩⟩
      rw [hue as a has hu, Option.getD_some, unitAccess_address]
      rfl
    case vgath =>
      obtain ⟨hlands, htraps, hue⟩ := exec_of_vecLoad (i := .vgath o) (by rw [exec]; exact issue_ok hi)
      exact ⟨hlands, htraps, fun as a has hu => ⟨fun h => (nomatch h), fun _ => hue as a has hu⟩⟩
  case stores =>
    simp only [List.forall_mem_cons, List.not_mem_nil, false_imp_iff, implies_true, and_true]
    exact ⟨fun hi => exec_of_vecStore (by rw [exec]; exact issue_ok hi), fun hi => exec_of_vecStore (by rw [exec]; exact issue_ok hi)⟩

end Sys2Proof.Machine
end

section
/-! Floating-point arithmetic, selection, classification and comparison (10 R170-R176, 03 R48-R51). -/

namespace Sys2Proof.Machine

/-! ### Floating-point arithmetic (10 R172) -/

/-- Each element of class 0 arithmetic is the exact result of the elements of its sources, rounded once. -/
theorem fpArith_eq (k : Nat) (o : LF) (r : Res) (s : State) :
    let el (base : BitVec 11) (i : Nat) : Val :=
      decodeElem r.fmt (elemAt (s.cur.team.group base.toNat (groupRegs o)) (fmtWidth r.fmt) i)
    let n := elems (groupRegs o) (fmtWidth r.fmt)
    let dr := s.cur.team.drawn r.rm n
    fpArith k o r s = .done (s.withElems dr.2 o (fmtWidth r.fmt) (groupRegs o) 5 ((List.range n).map fun i =>
      roundFp r (dr.1.getD i 0) (fpExact k (r.rm == 2) (el o.a i) (el o.b i) (el o.d i)))) := by
  intro el n dr
  rw [fpArith, landElems_eq]
  congr 2
  exact map_range_congr fun i hi => by simp only [elemCodes_getD_lt hi, el, dr, n]

/-- A created NaN adds NV to the flags of the rounding. -/
theorem or_flagIf (f g : BitVec 6) (b : Bool) : f ||| flagIf b g = if b then f ||| g else f := by
  cases b
  · exact BitVec.or_zero
  · rfl

theorem roundFp_eq (r : Res) (draw : Nat) (v : Val × Bool) :
    roundFp r draw v =
      let e := roundElem r.fmt r.rm true draw v.1
      (e.1, if v.2 then e.2 ||| fNV else e.2) := by
  rw [roundFp, or_flagIf]

/-- Settles O29: the four forms are one operation with four exact results. -/
theorem vectorFloat : Obligations.VectorFloat := by
  intro o s
  simp only [List.forall_mem_cons, List.not_mem_nil, false_imp_iff, implies_true, and_true, ← roundFp_eq]
  refine ⟨fun hi => ?vadd, fun hi => ?vsub, fun hi => ?vmul, fun hi => ?vfma⟩
  all_goals
    rw [exec]
    exact issue_done hi (fpArith_eq ..)

/-! ### Selection and classification (10 R173, R174, R176) -/

theorem sgnCode_eq (w sub a b : Nat) :
    sgnCode w sub a b = a % 2 ^ (w - 1) +
      (if sub = 0 then b / 2 ^ (w - 1) % 2 else if sub = 1 then 1 - b / 2 ^ (w - 1) % 2
        else if sub = 2 then (a / 2 ^ (w - 1) % 2 + b / 2 ^ (w - 1) % 2) % 2 else 0) * 2 ^ (w - 1) := by
  match sub with
  | 0 | 1 | 2 => rfl
  | _ + 3 => rfl

theorem minmaxCode_nan_left {f a b : Nat} (hx : decodeElem f a = .nan) (hy : decodeElem f b ≠ .nan) (mx : Bool) :
    minmaxCode f mx a b = b := by
  simp only [minmaxCode, if_pos hx, if_neg hy]

theorem minmaxCode_nan_right {f a b : Nat} (hx : decodeElem f a ≠ .nan) (hy : decodeElem f b = .nan) (mx : Bool) :
    minmaxCode f mx a b = a := by
  simp only [minmaxCode, if_neg hx, if_pos hy]

theorem minmaxCode_num {f a b : Nat} (hx : decodeElem f a ≠ .nan) (hy : decodeElem f b ≠ .nan) :
    minmaxCode f false a b = (if (decodeElem f b).below (decodeElem f a) then b else a) ∧
      minmaxCode f true a b = (if (decodeElem f a).below (decodeElem f b) then b else a) := by
  simp only [minmaxCode, if_neg hx, if_neg hy, Bool.false_eq_true, if_false, if_true, and_self]

/-! ### Comparison (10 R175) -/

/-- A mask formed by adding a power of two for each index below `n` that holds: it has `n` bits. -/
theorem sum_two_pow_lt (p : Nat → Bool) (n : Nat) : (List.range n).foldl (fun x j => if p j then x + 2 ^ j else x) 0 < 2 ^ n := by
  induction n with
  | zero => exact Nat.one_pos
  | succ n ih =>
    rw [List.range_succ, List.foldl_append, List.foldl_cons, List.foldl_nil, Nat.pow_succ]
    split <;> omega

/-- Its bits are those indices. -/
theorem testBit_sum_two_pow (p : Nat → Bool) (n i : Nat) :
    ((List.range n).foldl (fun x j => if p j then x + 2 ^ j else x) 0).testBit i = (decide (i < n) && p i) := by
  induction n with
  | zero => exact Nat.zero_testBit i
  | succ n ih =>
    have hlt := sum_two_pow_lt p n
    rw [List.range_succ, List.foldl_append, List.foldl_cons, List.foldl_nil]
    generalize (List.range n).foldl (fun x j => if p j then x + 2 ^ j else x) 0 = x at ih hlt
    rcases Nat.lt_trichotomy i n with hi | rfl | hi
    · have : (if p n then x + 2 ^ n else x).testBit i = x.testBit i := by
        split
        · rw [Nat.add_comm, Nat.testBit_two_pow_add_gt hi]
        · rfl
      rw [this, ih, decide_eq_true hi, decide_eq_true (Nat.lt_succ_of_lt hi)]
    · have hx : x.testBit i = false := Nat.testBit_lt_two_pow hlt
      cases hp : p i
      · simp [hx]
      · simp [Nat.add_comm x, Nat.testBit_two_pow_add_eq, hx]
    · have hx : (if p n then x + 2 ^ n else x) < 2 ^ (n + 1) := by
        rw [Nat.pow_succ]
        split <;> omega
      rw [Nat.testBit_lt_two_pow (hx.trans_le (Nat.pow_le_pow_right Nat.two_pos hi)), decide_eq_false (by omega), Bool.false_and]

theorem cmpHolds_eq (sub : Nat) (a b : Val) :
    cmpHolds sub a b =
      if a == .nan || b == .nan then sub == 3
      else if sub = 0 then a.cmp b == 0 else if sub = 1 then decide (a.cmp b < 0)
      else if sub = 2 then decide (a.cmp b ≤ 0) else a.cmp b != 0 := by
  simp only [cmpHolds, Bool.or_eq_true, beq_iff_eq]
  match sub with
  | 0 | 1 | 2 => rfl
  | _ + 3 => rfl

theorem any_range_congr {n : Nat} {p q : Nat → Bool} (h : ∀ i, i < n → p i = q i) : (List.range n).any p = (List.range n).any q := by
  rw [← Function.id_comp p, ← Function.id_comp q, ← List.any_map, ← List.any_map, map_range_congr h]

/-- `vcmp` writes a mask of the active elements whose comparison holds. -/
theorem vecCompare_eq (o : LF) (r : Res) (s : State) :
    let el (base : BitVec 11) (i : Nat) : Val :=
      decodeElem r.fmt (elemAt (s.cur.team.group base.toNat (groupRegs o)) (fmtWidth r.fmt) i)
    let n := elems (groupRegs o) (fmtWidth r.fmt)
    ∃ bits : Word,
      (∀ i, i < 64 → bits.getLsbD i = (decide (i < n) && s.cur.team.active o.m i && cmpHolds o.sub2 (el o.a i) (el o.b i))) ∧
      vecCompare o r s = .done ((s.setTeam (s.cur.team.raise
        (if (List.range n).any (fun i => s.cur.team.active o.m i && (el o.a i == .nan || el o.b i == .nan)) && (o.sub2 == 1 || o.sub2 == 2)
          then fNV else 0))).setX (fieldReg o.d) bits) := by
  intro el n
  have hel {i : Nat} (hi : i < n) (base : BitVec 11) :
      ((elemCodes (s.cur.team.group base.toNat (groupRegs o)) (fmtWidth r.fmt) n).map (decodeElem r.fmt)).getD i vZero = el base i := by
    rw [List.getD_eq_getElem _ _ (by rwa [List.length_map, length_elemCodes]), List.getElem_map, getElem_elemCodes]
  refine ⟨BitVec.ofNat 64 ((List.range n).foldl (fun x i => if s.cur.team.active o.m i && cmpHolds o.sub2 (el o.a i) (el o.b i) then
    x + 2 ^ i else x) 0), fun i hi => ?_, ?_⟩
  · rw [BitVec.getLsbD_ofNat, testBit_sum_two_pow, decide_eq_true hi, Bool.true_and, Bool.and_assoc]
  · rw [vecCompare]
    congr 2
    · rw [flagIf, any_range_congr fun i hi => by rw [hel hi, hel hi]]
    · congr 1
      exact List.foldl_ext _ _ _ fun x i hi => by rw [hel (List.mem_range.mp hi), hel (List.mem_range.mp hi)]

/-- Settles O30: selection and classification are maps over codes, and a comparison fills a mask bit by bit. -/
theorem selectAndCompare : Obligations.SelectAndCompare := by
  refine ⟨fun o s => ?select, fun f a b => ⟨?left, ?right, ?num, by decide, by decide⟩, fun o s => ?compare⟩
  case select =>
    simp only [List.forall_mem_cons, List.not_mem_nil, false_imp_iff, implies_true, and_true, ← sgnCode_eq]
    refine ⟨fun hi => ?vmin, fun hi => ?vmax, fun hi => ?vsgn, fun hi => ?vclass⟩
    case vclass =>
      rw [exec]
      exact issue_done hi (map1_eq ..)
    all_goals
      rw [exec]
      exact issue_done hi (map2_eq ..)
  case left => exact fun hx hy => ⟨minmaxCode_nan_left hx hy false, minmaxCode_nan_left hx hy true⟩
  case right => exact fun hx hy => ⟨minmaxCode_nan_right hx hy false, minmaxCode_nan_right hx hy true⟩
  case num => exact minmaxCode_num
  case compare =>
    intro t r g w n a b nan holds hi
    obtain ⟨bits, hbits, hcmp⟩ := vecCompare_eq o r s
    refine ⟨bits, fun i h => ?_, ?_⟩
    · rw [hbits i h, cmpHolds_eq]
    · rw [exec]
      exact issue_done hi hcmp

end Sys2Proof.Machine
end

section
/-! Integer arithmetic, logic, minimum, maximum and select (10 R178-R180). -/

namespace Sys2Proof.Machine

theorem asInt_eq (w : Nat) (uns : Bool) (c : Nat) :
    asInt w uns c =
      if uns then (c : Int) % 2 ^ w else if (c : Int) % 2 ^ w < 2 ^ (w - 1) then (c : Int) % 2 ^ w else (c : Int) % 2 ^ w - 2 ^ w := by
  cases uns with
  | true => simp only [asInt, if_true, Int.natCast_mod, Int.natCast_pow, Int.cast_ofNat_Int]
  | false => exact signedOf_eq w c

/-- Each element of class 1 arithmetic is the exact result of the elements of its sources, kept to the range. -/
theorem intArith_eq (k : Nat) (o : LF) (r : Res) (s : State) :
    let el (base : BitVec 11) (i : Nat) : Int :=
      asInt (intWidth r.fmt) o.uns (elemAt (s.cur.team.group base.toNat (groupRegs o)) (intWidth r.fmt) i)
    intArith k o r s = .done (s.withElems s.cur.team o (intWidth r.fmt) (groupRegs o) 3
      ((List.range (elems (groupRegs o) (intWidth r.fmt))).map fun i =>
        intResult (intWidth r.fmt) o.uns o.sat (intExact k (intWidth r.fmt) (el o.a i) (el o.b i) (el o.d i)))) := by
  intro el
  rw [intArith, landElems_eq]
  congr 2
  exact map_range_congr fun i hi => by simp only [elemCodes_getD_lt hi, el]

theorem iminmaxCode_eq (w : Nat) (uns : Bool) (sub a b : Nat) :
    iminmaxCode w uns (sub == 1) a b =
      if sub = 1 then (if asInt w uns a < asInt w uns b then b else a) else if asInt w uns b < asInt w uns a then b else a := by
  simp only [iminmaxCode, beq_iff_eq]

/-- `vsel` takes A's element where the mask's top bit is set, B's elsewhere. -/
theorem vecSelect_eq (o : LF) (r : Res) (s : State) :
    vecSelect o r s = .done (s.withElems s.cur.team o (intWidth r.fmt) (groupRegs o) 3
      ((List.range (elems (groupRegs o) (intWidth r.fmt))).map fun i =>
        (if (s.cur.team.masks.headD 0).getLsbD i then elemAt (s.cur.team.group o.a.toNat (groupRegs o)) (intWidth r.fmt) i
          else elemAt (s.cur.team.group o.b.toNat (groupRegs o)) (intWidth r.fmt) i, 0))) := by
  rw [vecSelect, landElems_eq, plain_map_range]
  congr 2
  exact map_range_congr fun i hi => by rw [elemCodes_getD_lt hi, elemCodes_getD_lt hi]

/-- Settles O31: the arithmetic is one operation with five exact results; logic, minimum, maximum and select are maps over codes. -/
theorem integerAndLogic : Obligations.IntegerAndLogic := by
  constructor
  · intro o s t r g w n el lo hi code res
    have hel (base : BitVec 11) (i : Nat) : el base i = asInt w o.uns (elemAt (t.group base.toNat g) w i) := (asInt_eq ..).symm
    have hres (e : Int) : res e = intResult w o.uns o.sat e := (intResult_eq ..).symm
    simp only [List.forall_mem_cons, List.not_mem_nil, false_imp_iff, implies_true, and_true, hres, hel]
    refine ⟨fun hi => ?viadd, fun hi => ?visub, fun hi => ?vimul, fun hi => ?vimulh, fun hi => ?vimad⟩
    all_goals
      rw [exec]
      exact issue_done hi (intArith_eq ..)
  · intro o s t r g w n a b v
    simp only [List.forall_mem_cons, List.not_mem_nil, false_imp_iff, implies_true, and_true, v, ← iminmaxCode_eq]
    refine ⟨fun hi => ?vand, fun hi => ?vor, fun hi => ?vxor, fun hi => ?viminmax, fun hi => ?vsel⟩
    case vsel =>
      rw [exec]
      exact issue_done hi (vecSelect_eq ..)
    all_goals
      rw [exec]
      exact issue_done hi (map2_eq ..)

end Sys2Proof.Machine
end

section
/-! Permutes, slides, moves and broadcasts (10 R192-R194). -/

namespace Sys2Proof.Machine

/-- `vperm`: an index past the group gives 0. -/
theorem permute_eq (o : LF) (r : Res) (s : State) :
    let n := elems (groupRegs o) (fmtWidth r.fmt)
    let a (i : Nat) : Nat := if i < n then elemAt (s.cur.team.group o.a.toNat (groupRegs o)) (fmtWidth r.fmt) i else 0
    permute o r s = .done (s.withElems s.cur.team o (fmtWidth r.fmt) (groupRegs o) 3
      ((List.range n).map fun i => (a (elemAt (s.cur.team.group o.b.toNat (groupRegs o)) (fmtWidth r.fmt) i), 0))) := by
  intro n a
  rw [permute, landElems_eq, plain_map_range]
  congr 2
  exact map_range_congr fun i hi => by rw [elemCodes_getD_lt hi, elemCodes_getD]

/-- One code in every element. -/
theorem splat_eq (s : State) (o : LF) (w c : Nat) :
    splat s o w c = .done (s.withElems s.cur.team o w (groupRegs o) 3
      ((List.range (elems (groupRegs o) w)).map fun _ => (c % 2 ^ w, 0))) := by
  rw [splat, landElems_eq, plain, List.map_replicate, List.map_const', List.length_range]

/-- `vslide`: elements by the immediate, zeros where none comes from. -/
theorem slideCodes_eq (up : Bool) (k n w : Nat) (regs : List V256) :
    let a (i : Nat) : Nat := if i < n then elemAt regs w i else 0
    slideCodes up k (elemCodes regs w n) =
      (List.range n).map fun i => if up then (if i < k then 0 else a (i - k)) else a (i + k) := by
  intro a
  have hlen := length_elemCodes regs w n
  refine List.ext_getElem ?_ fun i h1 h2 => ?_
  · rw [List.length_map, List.length_range]
    cases up <;> simp [slideCodes, hlen]
    omega
  · rw [List.length_map, List.length_range] at h2
    rw [List.getElem_map, List.getElem_range]
    cases up with
    | true =>
      simp only [slideCodes, if_true, List.getElem_take, List.getElem_append, List.length_replicate, List.getElem_replicate,
        getElem_elemCodes]
      by_cases hk : i < k
      · rw [dif_pos hk, if_pos hk]
      · rw [dif_neg hk, if_neg hk]
        exact (if_pos (by omega)).symm
    | false =>
      simp only [slideCodes, Bool.false_eq_true, if_false, List.getElem_append, List.length_drop, hlen, List.getElem_drop,
        List.getElem_replicate, getElem_elemCodes, Nat.add_comm k]
      by_cases hk : i < n - k
      · rw [dif_pos hk]
        exact (if_pos (by omega)).symm
      · rw [dif_neg hk]
        exact (if_neg (by omega)).symm

theorem vslide_result (o : LF) (w : Nat) (s : State) :
    let n := elems (groupRegs o) w
    let a (i : Nat) : Nat := if i < n then elemAt (s.cur.team.group o.a.toNat (groupRegs o)) w i else 0
    landElems s s.cur.team o w (groupRegs o) 3 (plain (slideCodes (o.sub == 1) o.b.toNat
        (elemCodes (s.cur.team.group o.a.toNat (groupRegs o)) w n))) =
      .done (s.withElems s.cur.team o w (groupRegs o) 3 ((List.range n).map fun i =>
        (if o.sub = 1 then (if i < o.b.toNat then 0 else a (i - o.b.toNat)) else a (i + o.b.toNat), 0))) := by
  intro n a
  rw [landElems_eq, slideCodes_eq, plain_map_range]
  simp only [beq_iff_eq, a, n]

/-- `vmov` copies its source, or puts its immediate in every element. -/
theorem vmov_result (o : LF) (w : Nat) (s : State) :
    let n := elems (groupRegs o) w
    let a (i : Nat) : Nat := if i < n then elemAt (s.cur.team.group o.a.toNat (groupRegs o)) w i else 0
    (if o.sub = 1 then splat s o w (wrapInt w o.b.toInt) else map1 o w 3 s fun c => c) =
      .done (s.withElems s.cur.team o w (groupRegs o) 3 ((List.range n).map fun i =>
        (if o.sub = 1 then (o.b.toInt % 2 ^ w).toNat else a i, 0))) := by
  intro n a
  by_cases h : o.sub = 1
  · have hcode : wrapInt w o.b.toInt % 2 ^ w = (o.b.toInt % 2 ^ w).toNat := by
      have hlt := Int.emod_lt_of_pos o.b.toInt (b := 2 ^ w) (by positivity)
      exact Nat.mod_eq_of_lt ((Int.toNat_lt' (Nat.two_pow_pos w)).mpr (by exact_mod_cast hlt))
    simp only [if_pos h, splat_eq, hcode, n]
  · rw [if_neg h, map1_eq]
    congr 2
    exact map_range_congr fun i hi => by simp only [if_neg h, a, n, if_pos hi]

/-- `vbcast` puts one element, or a scalar, in every element. -/
theorem vbcast_result (o : LF) (w : Nat) (s : State) :
    splat s o w (if o.sub = 1 then (s.x (fieldReg o.a)).toNat else elemAt (s.cur.team.group o.a.toNat 1) w o.b.toNat) =
      .done (s.withElems s.cur.team o w (groupRegs o) 3 ((List.range (elems (groupRegs o) w)).map fun _ =>
        (if o.sub = 1 then (s.x (fieldReg o.a)).toNat % 2 ^ w else elemAt (s.cur.team.group o.a.toNat 1) w o.b.toNat, 0))) := by
  rw [splat_eq]
  congr 4
  funext _
  by_cases h : o.sub = 1
  · rw [if_pos h, if_pos h]
  · rw [if_neg h, if_neg h, Nat.mod_eq_of_lt (elemAt_lt ..)]

/-- Settles O35: each form lands its elements, or writes its scalar. -/
theorem moves : Obligations.Moves := by
  constructor
  · intro o s
    simp only [List.forall_mem_cons, List.not_mem_nil, false_imp_iff, implies_true, and_true]
    refine ⟨fun hi => ?vperm, fun hi => ?vslide, fun hi => ?vmov, fun hi => ?vbcast⟩
    all_goals rw [exec]
    case vperm => exact issue_done hi (permute_eq ..)
    case vslide => exact issue_done hi (vslide_result ..)
    case vmov => exact issue_done hi (vmov_result ..)
    case vbcast => exact issue_done hi (vbcast_result ..)
  · intro o s
    refine ⟨fun hi => ?vmvx, fun hi => ?vins⟩
    all_goals
      rw [exec]
      exact issue_done hi rfl

end Sys2Proof.Machine
end

section
/-! Conversions, packing and LN6 codes (10 R182-R186, 03 R43-R46). -/

namespace Sys2Proof.Machine

section
variable {o : LF} {r : Res} (s : State)

/-! ### Conversions (10 R182) -/

theorem convert_elements (h : isNb r.fmt = false) :
    let p := vcvtPlan o r
    let n := elems p.gd (fmtWidth r.fmt)
    let dr := s.cur.team.drawn r.rm n
    let vs := cvtSource o.b.toNat (srcInt o) (s.cur.team.group o.a.toNat p.ga) n
    convert o r s = .done (s.withElems dr.2 o (fmtWidth r.fmt) p.gd 4 ((List.range n).map fun i =>
      cvtRound r.fmt (dstInt o) r (dr.1.getD i 0) (vs.getD i vZero))) := by
  simp only [convert, h, Bool.false_eq_true, if_false, landElems_eq]

theorem convert_blocks (h : isNb r.fmt = true) (hsrc : o.b.toNat ≠ r.fmt) :
    let p := vcvtPlan o r
    let n := elems p.gd (fmtWidth r.fmt)
    let dr := s.cur.team.drawn r.rm n
    let bs := blocksOf r dr.1 (cvtSource o.b.toNat (srcInt o) (s.cur.team.group o.a.toNat p.ga) n)
    convert o r s = .done (s.withRegs dr.2 o 4 (nbRegs r.fmt (bs.map (·.1))) (blocksFlags bs)) := by
  simp only [convert, h, if_true, if_neg hsrc, landRegs_eq]

/-- Between equal nested formats the blocks are kept, a NaN in its one form. -/
theorem convert_same (h : isNb r.fmt = true) (hsrc : o.b.toNat = r.fmt) :
    let p := vcvtPlan o r
    let dr := s.cur.team.drawn r.rm (elems p.gd (fmtWidth r.fmt))
    convert o r s = .done (s.withRegs dr.2 o 4
      ((s.cur.team.group o.a.toNat p.ga).map fun v => nbToReg r.fmt ((nbOfReg r.fmt v).map NBlock.canon)) 0) := by
  simp only [convert, h, if_true, if_pos hsrc, landRegs_eq]

/-! ### LN6 codes (03 R43, 10 R186) -/

/-- Each element of `vlnlin` is the value of a code times a power of two, rounded once. -/
theorem lnLinear_eq :
    let n := elems (groupRegs o) (fmtWidth r.fmt)
    let dl := s.cur.team.drawn r.rm n
    lnLinear o r s = .done (s.withElems dl.2 o (fmtWidth r.fmt) (groupRegs o) 4 ((List.range n).map fun i =>
      roundElem r.fmt r.rm r.ovf (dl.1.getD i 0)
        ((ln6Decode (elemAt (s.cur.team.group o.a.toNat (narrowRegs (groupRegs o) 8 (fmtWidth r.fmt))) 8 i % 64)).scale o.b.toInt))) := by
  intro n dl
  rw [lnLinear, landElems_eq]
  congr 2
  exact map_range_congr fun i hi => by simp only [elemCodes_getD_lt hi, dl, n]

end

theorem ln6Mul_zero {a b : Nat} (h : a % 32 = 0 ∨ b % 32 = 0) : ln6Mul a b = ((a / 32 + b / 32) % 2 * 32, 0) := by
  unfold ln6Mul
  exact if_pos (by omega)

/-- The product of two codes that are no zero, by its index. -/
theorem ln6Mul_nonzero {a b : Nat} (ha : a % 32 ≠ 0) (hb : b % 32 ≠ 0) :
    ln6Mul a b =
      if 48 ≤ a % 32 + b % 32 then ((a / 32 + b / 32) % 2 * 32 + 31, fOF ||| fNX)
      else if a % 32 + b % 32 ≤ 16 then ((a / 32 + b / 32) % 2 * 32, fUF ||| fNX)
      else ((a / 32 + b / 32) % 2 * 32 + (a % 32 + b % 32 - 16), 0) := by
  have hz : ¬ (((a % 32 : Nat) : Int) = 0 ∨ ((b % 32 : Nat) : Int) = 0) := by omega
  have hover : ((a % 32 : Nat) : Int) + (b % 32 : Nat) - 16 > 31 ↔ 48 ≤ a % 32 + b % 32 := by omega
  have hunder : ((a % 32 : Nat) : Int) + (b % 32 : Nat) - 16 < 1 ↔ a % 32 + b % 32 ≤ 16 := by omega
  have hindex : (((a % 32 : Nat) : Int) + (b % 32 : Nat) - 16).toNat = a % 32 + b % 32 - 16 := by omega
  simp only [ln6Mul, if_neg hz, hover, hunder, hindex]

/-- Settles O33: a conversion by the kind of its destination, packing as a whole, and the product of codes by its index. -/
theorem conversions : Obligations.Conversions := by
  refine ⟨fun o s => ⟨fun hf hi => ?elements, fun hi => ?vlnmul, fun hi => ?vlnlin⟩,
    fun o s => ⟨fun hf hi => ⟨fun hsrc => ?blocks, fun hsrc => ?same⟩, ?packing⟩,
    fun a b _ _ => ⟨ln6Mul_zero, fun ha hb => ?product⟩⟩
  case elements =>
    rw [exec]
    exact issue_done hi (convert_elements s hf)
  case vlnmul =>
    rw [exec]
    exact issue_done hi rfl
  case vlnlin =>
    rw [exec]
    exact issue_done hi (lnLinear_eq s)
  case blocks =>
    rw [exec]
    exact issue_done hi (convert_blocks s hf hsrc)
  case same =>
    rw [exec]
    exact issue_done hi (convert_same s hf hsrc)
  case packing =>
    simp only [List.forall_mem_cons, List.not_mem_nil, false_imp_iff, implies_true, and_true]
    refine ⟨fun hi => ?vpack, fun hi => ?vunpack⟩
    all_goals
      rw [exec]
      exact issue_done hi rfl
  case product =>
    rw [ln6Mul_nonzero ha hb]
    refine ⟨fun hx => ?_, fun hl hu => ?_, fun hx => if_pos hx⟩
    · rw [if_neg (by omega), if_pos hx]
    · rw [if_neg (by omega), if_neg (by omega)]

end Sys2Proof.Machine
end

section
/-! Special functions: their corners, and the truncated results they round (10 R188). -/

namespace Sys2Proof.Machine

/-! ### Truncated roots and quotients -/

/-- The bits still to be settled close in on the root: it lies from `acc` below `acc + 2 ^ k`. -/
theorem isqrtBits_spec (k n acc : Nat) (hlo : acc * acc ≤ n) (hhi : n < (acc + 2 ^ k) * (acc + 2 ^ k)) :
    isqrtBits k n acc * isqrtBits k n acc ≤ n ∧ n < (isqrtBits k n acc + 1) * (isqrtBits k n acc + 1) := by
  induction k generalizing acc with
  | zero => exact ⟨hlo, hhi⟩
  | succ k ih =>
    have htop : acc + 2 ^ (k + 1) = acc + 2 ^ k + 2 ^ k := by rw [Nat.pow_succ]; omega
    rw [isqrtBits]
    by_cases h : (acc + 2 ^ k) * (acc + 2 ^ k) ≤ n
    · simp only [if_pos h]
      exact ih _ h (htop ▸ hhi)
    · simp only [if_neg h]
      exact ih _ hlo (not_le.mp h)

/-- `isqrt` is the floor of the square root. -/
theorem isqrt_spec (n : Nat) : isqrt n * isqrt n ≤ n ∧ n < (isqrt n + 1) * (isqrt n + 1) := by
  refine isqrtBits_spec _ n 0 (Nat.zero_le n) ?_
  have hn : n < 2 ^ (log2F n + 1) := Nat.lt_log2_self
  calc n < 2 ^ (log2F n + 1) := hn
    _ ≤ 2 ^ (log2F n / 2 + 1 + (log2F n / 2 + 1)) := Nat.pow_le_pow_right Nat.two_pos (by omega)
    _ = (0 + 2 ^ (log2F n / 2 + 1)) * (0 + 2 ^ (log2F n / 2 + 1)) := by rw [Nat.zero_add, Nat.pow_add]

/-- The floor of the root of a quotient is the floor of the root of the exact one. -/
theorem isqrt_div_spec {m : Nat} (hm : m ≠ 0) (n : Nat) :
    isqrt (n / m) * isqrt (n / m) * m ≤ n ∧ n < (isqrt (n / m) + 1) * (isqrt (n / m) + 1) * m := by
  obtain ⟨hlo, hhi⟩ := isqrt_spec (n / m)
  have hpos : 0 < m := Nat.pos_of_ne_zero hm
  exact ⟨(Nat.mul_le_mul_right m hlo).trans (Nat.div_mul_le_self n m), (Nat.div_lt_iff_lt_mul hpos).mp hhi⟩

/-- 1 / x is the truncated quotient of a power of two, with a sticky part unless it is exact. -/
theorem rcpNum_spec {m : Nat} (hm : m ≠ 0) (e : Int) :
    ∃ q k : Nat, rcpNum m e = (q, -e - k, q * m != 2 ^ k) ∧ q * m ≤ 2 ^ k ∧ 2 ^ k < (q + 1) * m := by
  have hdiv := Nat.div_add_mod' (2 ^ (log2F m + 100)) m
  have hmod := Nat.mod_lt (2 ^ (log2F m + 100)) (Nat.pos_of_ne_zero hm)
  refine ⟨2 ^ (log2F m + 100) / m, log2F m + 100, ?_, by omega, by rw [Nat.add_mul]; omega⟩
  have hsticky : (2 ^ (log2F m + 100) % m != 0) = (2 ^ (log2F m + 100) / m * m != 2 ^ (log2F m + 100)) := by
    rw [Bool.eq_iff_iff, bne_iff_ne, bne_iff_ne]
    omega
  rw [rcpNum, hsticky]

/-- 1 / √x is the truncated root at an even exponent, an odd one having moved into the significand. -/
theorem rsqrtNum_spec {m b : Nat} (hm : m ≠ 0) (hb : b < 2) (e : Int) :
    ∃ q k : Nat, rsqrtNum m (2 * e + b) = (q, -e - k, q * q * (2 ^ b * m) != 2 ^ (2 * k)) ∧
      q * q * (2 ^ b * m) ≤ 2 ^ (2 * k) ∧ 2 ^ (2 * k) < (q + 1) * (q + 1) * (2 ^ b * m) := by
  have hm' : 2 ^ b * m ≠ 0 := Nat.mul_ne_zero (Nat.two_pow_pos b).ne' hm
  refine ⟨_, log2F (2 ^ b * m) + 100, ?_, isqrt_div_spec hm' _⟩
  have hcases : b = 0 ∨ b = 1 := by omega
  rcases hcases with rfl | rfl
  · have heven : (2 * e + (0 : Nat)) % 2 = 0 := by omega
    have hhalf : (2 * e + (0 : Nat)) / 2 = e := by omega
    simp only [rsqrtNum, if_pos heven, hhalf, Nat.pow_zero, Nat.one_mul]
  · have hodd : ¬ (2 * e + (1 : Nat)) % 2 = 0 := by omega
    have hhalf : (2 * e + (1 : Nat) - 1) / 2 = e := by omega
    simp only [rsqrtNum, if_neg hodd, hhalf, Nat.pow_one]

/-! ### Exact powers and logarithms of two -/

/-- 2 to an integer, below the magnitude at which every format overflows. -/
theorem exp2Num_integer {m e : Nat} (hm : m ≠ 0) (h : m * 2 ^ e < 4096) (n : Bool) :
    exp2Num n m e = (1, if n then -((m * 2 ^ e : Nat) : Int) else ((m * 2 ^ e : Nat) : Int), false) := by
  have hlog : log2F m + e < 12 := by
    by_contra hge
    have : 2 ^ 12 ≤ m * 2 ^ e := calc
      2 ^ 12 ≤ 2 ^ (log2F m + e) := Nat.pow_le_pow_right Nat.two_pos (not_lt.mp hge)
      _ = 2 ^ log2F m * 2 ^ e := Nat.pow_add ..
      _ ≤ m * 2 ^ e := Nat.mul_le_mul_right _ (Nat.log2_self_le hm)
    omega
  have hhigh : ¬ (log2F m : Int) + e ≥ 12 := by omega
  have hlow : ¬ (log2F m : Int) + e < -100 := by omega
  have he : (e : Int) ≥ 0 := Int.natCast_nonneg e
  have hsig : sigAt n m (max (e : Int) 0) 0 = if n then -((m * 2 ^ e : Nat) : Int) else ((m * 2 ^ e : Nat) : Int) := by
    rw [sigAt, max_eq_left he, Int.sub_zero, Int.toNat_natCast, Nat.shiftLeft_eq]
  simp only [exp2Num, if_neg hm, if_neg hhigh, if_neg hlow, if_pos he, if_true, hsig]

/-- The logarithm of a power of two is its exponent. -/
theorem log2Num_two_pow (k : Nat) (e : Int) : log2Num (2 ^ k) e = (decide ((k : Int) + e < 0), ((k : Int) + e).natAbs, 0, false) := by
  have hk : log2F (2 ^ k) = k := Nat.log2_two_pow
  simp only [log2Num, hk, if_true]

/-! ### The functions -/

section
variable (r : Res) (d : Nat)

theorem special_exp2 {m : Nat} (hm : m ≠ 0) (n : Bool) (e : Int) :
    special 0 r d (.num n m e) = roundSticky r d false (exp2Num n m e) := if_neg hm

theorem special_log2_neg {m : Nat} (hm : m ≠ 0) (e : Int) :
    special 1 r d (.num true m e) = ((roundElem r.fmt 0 true 0 .nan).1, fNV) := if_neg hm

theorem special_log2_pos {m : Nat} (hm : m ≠ 0) (e : Int) :
    special 1 r d (.num false m e) = roundSticky r d (log2Num m e).1 (log2Num m e).2 := if_neg hm

theorem special_rcp {m : Nat} (hm : m ≠ 0) (n : Bool) (e : Int) :
    special 2 r d (.num n m e) = roundSticky r d n (rcpNum m e) := if_neg hm

theorem special_rsqrt_neg {m : Nat} (hm : m ≠ 0) (e : Int) :
    special 3 r d (.num true m e) = ((roundElem r.fmt 0 true 0 .nan).1, fNV) := if_neg hm

theorem special_rsqrt_pos {m : Nat} (hm : m ≠ 0) (e : Int) :
    special 3 r d (.num false m e) = roundSticky r d false (rsqrtNum m e) := if_neg hm

end

/-- Each element of a special function is that of A's element. -/
theorem sfu_eq (k : Nat) (o : LF) (r : Res) (s : State) :
    let n := elems (groupRegs o) (fmtWidth r.fmt)
    let dr := s.cur.team.drawn r.rm n
    sfu k o r s = .done (s.withElems dr.2 o (fmtWidth r.fmt) (groupRegs o) 10 ((List.range n).map fun i =>
      special k r (dr.1.getD i 0) (decodeElem r.fmt (elemAt (s.cur.team.group o.a.toNat (groupRegs o)) (fmtWidth r.fmt) i)))) := by
  intro n dr
  rw [sfu, landElems_eq]
  congr 2
  exact map_range_congr fun i hi => by simp only [elemCodes_getD_lt hi, dr, n]

end Sys2Proof.Machine
end

section
/-! The order of values, and reductions (10 R173, R187-R190). -/

namespace Sys2Proof.Machine

/-! ### The order of values (10 R173) -/

/-- A finite value as a rational number. -/
def ratOf (n : Bool) (m : Nat) (e : Int) : ℚ := (if n then -(m : ℚ) else m) * 2 ^ e

/-- A significand at a lower exponent stands for the same number. -/
theorem sigAt_mul_two_zpow {e g : Int} (h : g ≤ e) (n : Bool) (m : Nat) : (sigAt n m e g : ℚ) * 2 ^ g = ratOf n m e := by
  have hexp : (2 : ℚ) ^ (e - g).toNat * 2 ^ g = 2 ^ e := by
    rw [← zpow_natCast, ← zpow_add₀ (by norm_num), Int.toNat_of_nonneg (by omega), Int.sub_add_cancel]
  cases n <;> simp [sigAt, ratOf, Nat.shiftLeft_eq, mul_assoc, hexp]

theorem ratOf_eq_zero {n : Bool} {m : Nat} {e : Int} : ratOf n m e = 0 ↔ m = 0 := by
  have hpow : (2 : ℚ) ^ e ≠ 0 := zpow_ne_zero e two_ne_zero
  cases n <;> simp [ratOf, hpow]

/-- The comparison of two finite values is that of their numbers. -/
theorem cmp_num (n k : Bool) (m l : Nat) (e g : Int) :
    ((Val.num n m e).cmp (.num k l g) < 0 ↔ ratOf n m e < ratOf k l g) ∧
      ((Val.num n m e).cmp (.num k l g) = 0 ↔ ratOf n m e = ratOf k l g) := by
  have hdiff : ((sigAt n m e (min e g) - sigAt k l g (min e g) : Int) : ℚ) * 2 ^ min e g = ratOf n m e - ratOf k l g := by
    rw [Int.cast_sub, sub_mul, sigAt_mul_two_zpow (min_le_left e g), sigAt_mul_two_zpow (min_le_right e g)]
  have hcmp : (Val.num n m e).cmp (.num k l g) = if sigAt n m e (min e g) - sigAt k l g (min e g) < 0 then -1
      else if sigAt n m e (min e g) - sigAt k l g (min e g) = 0 then 0 else 1 := rfl
  have hpos : (0 : ℚ) < 2 ^ min e g := by positivity
  rw [hcmp, ← sub_neg (a := ratOf n m e), ← sub_eq_zero (a := ratOf n m e), ← hdiff]
  generalize sigAt n m e (min e g) - sigAt k l g (min e g) = d
  have hlt : (d : ℚ) * 2 ^ min e g < 0 ↔ d < 0 := by
    rw [← Int.cast_lt_zero (R := ℚ)]
    exact ⟨fun h => neg_of_mul_neg_left h hpos.le, fun h => mul_neg_of_neg_of_pos h hpos⟩
  have heq : (d : ℚ) * 2 ^ min e g = 0 ↔ d = 0 := by
    rw [mul_eq_zero, Int.cast_eq_zero, or_iff_left hpos.ne']
  rw [hlt, heq]
  rcases lt_trichotomy d 0 with h | h | h
  · simp [h, h.ne]
  · simp [h]
  · simp [h.not_gt, h.ne']

/-- A value's place in the order of `vmin`, `vmax` and `vrmax`: between the infinities by its number, and −0 below +0. -/
def Val.rank (v : Val) : ℤ ×ₗ ℚ ×ₗ Bool :=
  match v with
  | .nan => toLex (-1, toLex (0, false))
  | .inf n => toLex (if n then -1 else 1, toLex (0, false))
  | .num n m e => toLex (0, toLex (ratOf n m e, m == 0 && !n))

/-- One value is below another where its place is. -/
theorem below_iff_rank_lt {a b : Val} (ha : a ≠ .nan) (hb : b ≠ .nan) : a.below b = true ↔ a.rank < b.rank := by
  match a, b with
  | .nan, _ => exact absurd rfl ha
  | _, .nan => exact absurd rfl hb
  | .inf n, .inf k => cases n <;> cases k <;> simp [Val.below, Val.cmp, Val.rank, Val.isZero, Prod.Lex.toLex_lt_toLex]
  | .inf n, .num k l g => cases n <;> simp [Val.below, Val.cmp, Val.rank, Val.isZero, Prod.Lex.toLex_lt_toLex]
  | .num n m e, .inf k => cases k <;> simp [Val.below, Val.cmp, Val.rank, Val.isZero, Prod.Lex.toLex_lt_toLex]
  | .num n m e, .num k l g =>
    obtain ⟨hlt, heq⟩ := cmp_num n k m l e g
    have hzero : ratOf n m e = ratOf k l g → (m = 0 ↔ l = 0) := fun h => by
      rw [← ratOf_eq_zero (n := n) (e := e), h, ratOf_eq_zero]
    simp only [Val.below, Val.rank, Val.isZero, Val.neg, Prod.Lex.toLex_lt_toLex, lt_irrefl, false_or, true_and, Bool.or_eq_true,
      Bool.and_eq_true, decide_eq_true_eq, beq_iff_eq, hlt, heq, Bool.lt_iff]
    refine or_congr_right ?_
    by_cases h : ratOf n m e = ratOf k l g
    · by_cases hm : m = 0 <;> simp [h, hm, ← hzero h, and_assoc]
    · simp [h]

/-- Nothing is below negative infinity or beside it but itself. -/
theorem rank_le_neg_inf {v : Val} (hv : v ≠ .nan) (h : v.rank ≤ (Val.inf true).rank) : v = .inf true := by
  match v with
  | .nan => exact absurd rfl hv
  | .inf true => rfl
  | .inf false => simp [Val.rank, Prod.Lex.toLex_le_toLex] at h
  | .num n m e => simp [Val.rank, Prod.Lex.toLex_le_toLex] at h

/-! ### The largest value (10 R190) -/

/-- The larger of two values, the first where neither is above. -/
def Val.larger (a v : Val) : Val := if a.below v then v else a

/-- Taking the larger again and again ends at the start or an element of the list, which nothing of either is above. -/
theorem foldl_larger {vs : List Val} (hvs : ∀ v ∈ vs, v ≠ .nan) {a : Val} (ha : a ≠ .nan) :
    (vs.foldl Val.larger a = a ∨ vs.foldl Val.larger a ∈ vs) ∧ a.rank ≤ (vs.foldl Val.larger a).rank ∧
      ∀ v ∈ vs, v.rank ≤ (vs.foldl Val.larger a).rank := by
  induction vs generalizing a with
  | nil => exact ⟨.inl rfl, le_rfl, fun v hv => absurd hv List.not_mem_nil⟩
  | cons v vs ih =>
    obtain ⟨hv, hvs⟩ := List.forall_mem_cons.mp hvs
    have hbelow := below_iff_rank_lt ha hv
    have hstep : (a.larger v = a ∨ a.larger v = v) ∧ a.rank ≤ (a.larger v).rank ∧ v.rank ≤ (a.larger v).rank := by
      rw [Val.larger]
      split
      next h => exact ⟨.inr rfl, (hbelow.mp h).le, le_rfl⟩
      next h => exact ⟨.inl rfl, le_rfl, not_lt.mp (mt hbelow.mpr h)⟩
    obtain ⟨hpick, hra, hrv⟩ := hstep
    have hne : a.larger v ≠ .nan := by rcases hpick with h | h <;> rw [h] <;> assumption
    obtain ⟨hmem, hup, hall⟩ := ih hvs hne
    rw [List.foldl_cons]
    refine ⟨?_, hra.trans hup, List.forall_mem_cons.mpr ⟨hrv.trans hup, hall⟩⟩
    rcases hmem with h | h
    · rw [h]
      exact hpick.imp_right fun hv => by rw [hv]; exact List.mem_cons_self
    · exact .inr (List.mem_cons_of_mem v h)

/-- The value of `vrmax`: negative infinity of no element, NaN of nothing but NaNs, and the largest number otherwise. -/
def maxVal (vs : List Val) : Val :=
  let nums := vs.filter (· != .nan)
  if nums.isEmpty then (if vs.isEmpty then .inf true else .nan) else nums.foldl Val.larger (.inf true)

theorem vecMax_eq (o : LF) (r : Res) (s : State) :
    vecMax o r s = .done (s.withRegs s.cur.team o 7 [BitVec.ofNat 256 (fp32.round 0 true 0 (maxVal (activeVals s.cur.team o r))).1] 0) := rfl

/-- `vsum` rounds its value once as an FP32 code. -/
theorem vecSum_eq (o : LF) (r : Res) (s : State) :
    let dr := s.cur.team.drawn r.rm 8
    let x := sumVal (r.rm == 2) (activeVals s.cur.team o r)
    let e := fp32.round r.rm true (dr.1.getD 0 0) x.1
    vecSum o r s = .done (s.withRegs dr.2 o 7 [BitVec.ofNat 256 e.1] (if x.2 then e.2 ||| fNV else e.2)) := by
  simp only [vecSum, landFirst, landRegs_eq, or_flagIf]

theorem maxVal_nil : maxVal [] = .inf true := rfl

theorem maxVal_nans {vs : List Val} (hne : vs ≠ []) (h : ∀ v ∈ vs, v = .nan) : maxVal vs = .nan := by
  have hnums : vs.filter (· != .nan) = [] := List.filter_eq_nil_iff.mpr fun v hv => by simp [h v hv]
  simp only [maxVal, hnums, List.isEmpty_nil, if_true, List.isEmpty_iff, if_neg hne]

theorem maxVal_spec {vs : List Val} (h : ∃ v ∈ vs, v ≠ .nan) :
    maxVal vs ∈ vs ∧ maxVal vs ≠ .nan ∧ ∀ v ∈ vs, v ≠ .nan → (maxVal vs).below v = false := by
  obtain ⟨v₀, hv₀, hn₀⟩ := h
  have hmem {v : Val} : v ∈ vs.filter (· != .nan) ↔ v ∈ vs ∧ v ≠ .nan := by rw [List.mem_filter, bne_iff_ne]
  have h₀ := hmem.mpr ⟨hv₀, hn₀⟩
  obtain ⟨hpick, -, hall⟩ := foldl_larger (fun v hv => (hmem.mp hv).2) (a := .inf true) nofun
  have hmax : maxVal vs = (vs.filter (· != .nan)).foldl Val.larger (.inf true) :=
    if_neg (by rw [List.isEmpty_iff]; exact List.ne_nil_of_mem h₀)
  rw [← hmax] at hpick hall
  have hin : maxVal vs ∈ vs.filter (· != .nan) := by
    refine hpick.elim (fun hinf => ?_) id
    rw [hinf, ← rank_le_neg_inf hn₀ (hinf ▸ hall v₀ h₀)]
    exact h₀
  obtain ⟨hvs, hne⟩ := hmem.mp hin
  refine ⟨hvs, hne, fun v hv hn => ?_⟩
  rw [← Bool.not_eq_true, below_iff_rank_lt hne hn]
  exact not_lt.mpr (hall v (hmem.mpr ⟨hv, hn⟩))

/-! ### The sum (10 R189) -/

section
variable {down : Bool} {vs : List Val}

theorem sumVal_nan (h : .nan ∈ vs) : sumVal down vs = (.nan, false) := by
  simp only [sumVal, List.contains_iff_mem, if_pos h]

theorem sumVal_infs (hnan : .nan ∉ vs) (hpos : .inf false ∈ vs) (hneg : .inf true ∈ vs) : sumVal down vs = (.nan, true) := by
  simp only [sumVal, Bool.and_eq_true, List.contains_iff_mem, if_neg hnan, if_pos (And.intro hpos hneg)]

theorem sumVal_inf {n : Bool} (hnan : .nan ∉ vs) (hin : .inf n ∈ vs) (hout : .inf (!n) ∉ vs) : sumVal down vs = (.inf n, false) := by
  cases n with
  | false =>
    have hneg : .inf true ∉ vs := hout
    simp only [sumVal, Bool.and_eq_true, List.contains_iff_mem, if_neg hnan, hin, hneg, and_false, if_false, if_true]
  | true =>
    have hpos : .inf false ∉ vs := hout
    simp only [sumVal, Bool.and_eq_true, List.contains_iff_mem, if_neg hnan, hin, hpos, false_and, if_false, if_true]

/-- Of finite values it is the exact sum; a zero sum is negative where every term is −0, and under RDN where a term is no zero. -/
theorem sumVal_finite (h : ∀ v ∈ vs, ∃ n m e, v = .num n m e) :
    sumVal down vs =
      (if (sumFinite vs).isZero then
        .num ((!vs.isEmpty && vs.all fun v => v.isZero && v.neg) || (down && vs.any fun v => !v.isZero)) 0 0
      else sumFinite vs, false) := by
  have hout {w : Val} (hw : ∀ n m e, w ≠ .num n m e) : vs.contains w = false := by
    rw [← Bool.not_eq_true, List.contains_iff_mem]
    intro hmem
    obtain ⟨n, m, e, he⟩ := h w hmem
    exact hw n m e he
  simp only [sumVal, hout (w := .nan) nofun, hout (w := .inf false) nofun, hout (w := .inf true) nofun, Bool.false_and,
    Bool.false_eq_true, if_false]
  by_cases hz : (sumFinite vs).isZero = true
  · rw [if_pos hz, if_pos hz]
  · rw [if_neg hz, if_neg hz]

theorem zeroSum_neg_iff (down : Bool) (vs : List Val) :
    ((!vs.isEmpty && vs.all fun v => v.isZero && v.neg) || (down && vs.any fun v => !v.isZero)) = true ↔
      (vs ≠ [] ∧ ∀ v ∈ vs, v.isZero = true ∧ v.neg = true) ∨ (down = true ∧ ∃ v ∈ vs, v.isZero = false) := by
  simp only [Bool.or_eq_true, Bool.and_eq_true, Bool.not_eq_true', List.isEmpty_eq_false_iff, List.all_eq_true, List.any_eq_true, ne_eq]

end

/-! ### The obligation -/

/-- Settles O34: the functions by their corners and their truncated results, the reductions by the values they round. -/
theorem specialAndReductions : Obligations.SpecialAndReductions := by
  refine ⟨fun o s => ⟨?functions, fun d => ?values⟩, fun o s => ⟨fun hi => ?vsum, fun hi => ?vrmax⟩, fun down vs =>
    ⟨sumVal_nan, sumVal_infs, fun n => sumVal_inf, fun h => ?finite⟩⟩
  case functions =>
    simp only [List.forall_mem_cons, List.not_mem_nil, false_imp_iff, implies_true, and_true]
    refine ⟨fun hi => ?vexp2, fun hi => ?vlog2, fun hi => ?vrcp, fun hi => ?vrsqrt⟩
    all_goals
      rw [exec]
      exact issue_done hi (sfu_eq ..)
  case values =>
    refine ⟨rfl, rfl, rfl, rfl, rfl, rfl, rfl, rfl, fun _ => rfl, fun _ => ⟨rfl, rfl, rfl, rfl⟩,
      fun m e hm => ⟨special_log2_neg _ d hm e, special_rsqrt_neg _ d hm e⟩, fun n m e hm hlt => ?exp2, fun k e => ?log2,
      fun n m e hm => ?rcp, fun m e hm => ?rsqrt⟩
    case exp2 => rw [special_exp2 _ d hm, exp2Num_integer hm hlt, roundSticky]
    case log2 => rw [special_log2_pos _ d (Nat.two_pow_pos k).ne', log2Num_two_pow, roundSticky]
    case rcp =>
      obtain ⟨q, k, hq, hbounds⟩ := rcpNum_spec hm e
      exact ⟨q, k, by rw [special_rcp _ d hm, hq, roundSticky], hbounds⟩
    case rsqrt =>
      obtain ⟨q, k, hq, hbounds⟩ := rsqrtNum_spec hm Nat.two_pos e
      exact ⟨q, k, 0, by rw [special_rsqrt_pos _ d hm, hq, roundSticky], Nat.two_pos, hbounds⟩
  case vsum =>
    rw [exec]
    exact issue_done hi (vecSum_eq ..)
  case vrmax =>
    refine ⟨maxVal (activeVals s.cur.team o (s.cur.team.res o)), ?_, fun h => ?_, maxVal_nans, maxVal_spec⟩
    · rw [exec]
      exact issue_done hi (vecMax_eq ..)
    · exact (congrArg maxVal h).trans maxVal_nil
  case finite =>
    rw [sumVal_finite h]
    refine ⟨rfl, fun hz => if_neg (by rw [sumFinite, hz]; exact Bool.false_ne_true), fun hz => (if_pos hz).trans ?_⟩
    rw [Val.num.injEq, Bool.eq_iff_iff, decide_eq_true_iff, zeroSum_neg_iff]
    exact ⟨Iff.rfl, rfl, rfl⟩

end Sys2Proof.Machine
end

section
/-! The back-edge of the loop stack (11 R216). -/

namespace Sys2Proof.Machine

section
variable {t : Team} {n : Fin 4} {rest : List (Fin 4)} (h : t.loops = n :: rest) (k pc : Nat)
include h

/-- The test of the top loop, as one case distinction. -/
theorem Team.backEdge_cons : t.backEdge (k + 1) pc =
    if pc = (t.loopOf n).stop then
      if (t.loopOf n).count.toNat + 1 < (t.loopOf n).bound.toNat then
        (t.setLoop n { t.loopOf n with count := (t.loopOf n).count + 1 }, (t.loopOf n).start)
      else Team.backEdge { t.setLoop n { t.loopOf n with active := false } with loops := rest } k pc
    else (t, pc) := by
  rw [Team.backEdge.eq_def]
  simp only [h]

theorem Team.backEdge_elsewhere (hpc : pc ≠ (t.loopOf n).stop) : t.backEdge (k + 1) pc = (t, pc) :=
  (Team.backEdge_cons h k pc).trans (if_neg hpc)

theorem Team.backEdge_again (hpc : pc = (t.loopOf n).stop) (hb : (t.loopOf n).count.toNat + 1 < (t.loopOf n).bound.toNat) :
    t.backEdge (k + 1) pc = (t.setLoop n { t.loopOf n with count := (t.loopOf n).count + 1 }, (t.loopOf n).start) :=
  (Team.backEdge_cons h k pc).trans ((if_pos hpc).trans (if_pos hb))

theorem Team.backEdge_last (hpc : pc = (t.loopOf n).stop) (hb : (t.loopOf n).bound.toNat ≤ (t.loopOf n).count.toNat + 1) :
    t.backEdge (k + 1) pc = Team.backEdge { t.setLoop n { t.loopOf n with active := false } with loops := rest } k pc :=
  (Team.backEdge_cons h k pc).trans ((if_pos hpc).trans (if_neg (Nat.not_lt.mpr hb)))

end

/-- Settles O23: the test of one loop, in its three cases. -/
theorem loopBackEdge : Obligations.LoopBackEdge := by
  intro t k pc
  exact ⟨Team.backEdge_nil (k + 1) t pc, fun n rest h =>
    ⟨Team.backEdge_elsewhere h k pc, Team.backEdge_again h k pc, Team.backEdge_last h k pc⟩⟩

end Sys2Proof.Machine
end

section
/-! Handles (11 R202, R215). -/

namespace Sys2Proof.Machine

/-! ### Pending writes of accumulators and handles -/

theorem landAt_eq {s : State} {t : Team} (ht : s.cur.team = t) (ws : List LWrite) (lat : Nat) :
    landAt s t ws lat = .done (s.withWrites ws lat) := by
  subst ht
  rfl

/-- Reading local space rebuilds lines of the cluster's scratchpad, and changes no task. -/
theorem State.rebuild_cur (s : State) (a n : Nat) : (s.rebuild a n).cur = s.cur := by
  unfold State.rebuild
  split <;> rfl

/-! ### Handle instructions that issue -/

section
variable {o : LF} {s : State} {i : Instr} {n : Nat} {w : Who}

theorem exec_hld_issued (hi : s.issues w o (shapeHld o) { entry := true }) : exec (.hld o) s = (handleLoad o s).finish 8 := by
  rw [exec, execHld]
  exact issue_ok hi

theorem exec_hst_issued (hi : s.issues w o (shapeHst o) {}) : exec (.hst o) s = (handleStore o s).finish 8 := by
  rw [exec, execHst]
  exact issue_ok hi

theorem exec_hadv_issued (h : spells .hadv .hadvShort shortLong o i n) (hi : s.issues w o (shapeHadv o) { entry := true }) :
    exec i s = (handleAdvance s (handleOf o.a) o.b.toNat).finish n :=
  (exec_of_spells (run := runHadv) (fun _ _ => rfl) (fun _ _ _ _ => rfl) h s).trans (issue_ok hi)

end

/-! ### Handles in local space -/

/-- Both scratchpads lie below 2^32. -/
theorem State.inSpace_lt {s : State} {cl : Bool} {a n : Nat} (h : s.inSpace cl a n = true) : a < 4294967296 := by
  have hin : s.inScratch a n = true := by
    rw [State.inScratch, Bool.or_eq_true]
    cases cl with
    | true => exact .inr h
    | false => exact .inl h
  have := State.inScratch_bound hin
  omega

section
variable {s : State} {a : Nat}

theorem State.handleAddr_ok {base : Word} {imm : BitVec 11} {cl : Bool} (hsum : (base.toNat : Int) + imm.toInt = a)
    (hin : s.inSpace cl a 32 = true) (hal : a % 32 = 0) : s.handleAddr base imm cl = .ok a := by
  have hlt := State.inSpace_lt hin
  have hlocal : localAddr base imm.toInt = some a := by
    simp only [localAddr, hsum, Int.toNat_natCast]
    exact if_pos (by omega)
  simp only [State.handleAddr, hlocal, hin, Bool.not_true, Bool.false_eq_true, if_false, if_neg (not_not_intro hal)]

variable {o : LF} (h : s.handleAddr (s.x (fieldReg o.a)) o.b (o.sub2 == 1) = .ok a)
include h

theorem handleLoad_readable (hbad : s.clusBadAt a = false) :
    handleLoad o s = .done ((s.rebuild a 32).withWrites [.h (handleOf o.d) (BitVec.ofNat 256 (leNat (s.localBytes a 32)))
      (BitVec.allOnes 256)] (if o.sub2 == 1 then 18 else 6)) := by
  simp only [handleLoad, h, hbad, Bool.false_eq_true, if_false]
  exact landAt_eq (congrArg Task.team (s.rebuild_cur a 32)) _ _

theorem handleStore_ok :
    handleStore o s = .done (s.setLocalBytes a (leBytes 32 (s.cur.team.h.get (handleOf o.d)).toNat)) := by
  simp only [handleStore, h]

end

/-! ### The landing of one handle word (11 R215) -/

/-- An element of a vector after one of its elements is replaced. -/
theorem vector_get_set {α : Type} {n : Nat} (v : Vector α n) (i k : Fin n) (x : α) :
    (v.set i.val x i.isLt).get k = if k = i then x else v.get k := by
  rw [Vector.get_eq_getElem, Vector.getElem_set, ← Vector.get_eq_getElem]
  simp only [Fin.ext_iff, eq_comm]

theorem Team.landWrite_handle (t : Team) (h k : Fin 32) (val mask : V256) :
    (t.landWrite (.h h val mask)).h.get k = if k = h then mergeBits (t.h.get h) val mask else t.h.get k :=
  vector_get_set t.h h k _

/-- The bits that word `j`'s mask covers. -/
theorem getLsbD_wordMask {j p : Nat} (hj : j < 8) :
    (BitVec.ofNat 256 0xFFFFFFFF <<< (32 * j)).getLsbD p = decide (32 * j ≤ p ∧ p < 32 * j + 32) := by
  have hones : (0xFFFFFFFF : Nat) = 2 ^ 32 - 1 := by decide
  rw [BitVec.getLsbD_shiftLeft, BitVec.getLsbD_ofNat, hones, Nat.testBit_two_pow_sub_one, Bool.eq_iff_iff]
  simp only [Bool.and_eq_true, Bool.not_eq_true', decide_eq_true_eq, decide_eq_false_iff_not]
  omega

/-- Word `i` of a handle into which word `j` has been merged. -/
theorem extractLsb'_mergeBits_word {i j : Nat} (hi : i < 8) (hj : j < 8) (old : V256) (v : BitVec 32) :
    (mergeBits old (v.setWidth 256 <<< (32 * j)) (BitVec.ofNat 256 0xFFFFFFFF <<< (32 * j))).extractLsb' (32 * i) 32 =
      if i = j then v else old.extractLsb' (32 * i) 32 := by
  refine BitVec.eq_of_getLsbD_eq fun p hp => ?_
  rw [BitVec.getLsbD_extractLsb', getLsbD_mergeBits, getLsbD_wordMask hj, decide_eq_true hp, Bool.true_and]
  by_cases h : i = j
  · subst h
    have hin : 32 * i ≤ 32 * i + p ∧ 32 * i + p < 32 * i + 32 := by omega
    have hlt : 32 * i + p < 256 := by omega
    simp [hin, hlt]
  · have hout : ¬ (32 * j ≤ 32 * i + p ∧ 32 * i + p < 32 * j + 32) := by omega
    simp [h, hout, hp]

/-- Settles O40: each handle instruction ends as its operation does, and a word's landing covers its own bits alone. -/
theorem handles : Obligations.Handles := by
  refine ⟨fun o s => ⟨fun hi => ?hset, fun hi => ?hget, fun a hsum hin hal => ?space, fun i k h hi => ?hadv⟩,
    fun t h k j i v hj hi => ?landing⟩
  case hset =>
    rw [exec, execHset]
    exact issue_done hi rfl
  case hget =>
    rw [exec, execHget]
    exact issue_done hi rfl
  case space =>
    have ha := State.handleAddr_ok hsum hin hal
    exact ⟨fun hi hbad => by rw [exec_hld_issued hi, handleLoad_readable ha hbad, Eff.finish_done],
      fun hi => by rw [exec_hst_issued hi, handleStore_ok ha, Eff.finish_done]⟩
  case hadv => rw [exec_hadv_issued h hi, handleAdvance, landAt_eq rfl, Eff.finish_done]
  case landing =>
    refine ⟨?_, fun hk => (t.landWrite_handle h k _ _).trans (if_neg hk)⟩
    rw [hWord, t.landWrite_handle, if_pos rfl, extractLsb'_mergeBits_word hi hj]

end Sys2Proof.Machine
end

section
/-! Products of the matrix engine (11 R205-R208, 03 R52, R53). -/

namespace Sys2Proof.Machine

/-! ### What a matrix operation does at issue (05 R83, R84, 11 R206) -/

/-- A value that is not the default reads back after it is set, in any list. -/
theorem Sparse.get_set_of_ne {α : Type} [DecidableEq α] {d v : α} (hv : v ≠ d) (l : List (Nat × α)) (k : Nat) :
    Sparse.get d (Sparse.set d l k v) k = v := by
  have hcons (r : List (Nat × α)) : Sparse.get d (Sparse.cons d k v r) k = v := by
    rw [Sparse.cons, if_neg hv, Sparse.get, if_pos rfl]
  induction l with
  | nil => exact hcons []
  | cons a rest ih =>
    obtain ⟨j, w⟩ := a
    rw [Sparse.set]
    split
    · exact hcons _
    · split
      · exact hcons _
      next h => rw [Sparse.get, if_neg (Ne.symm h), ih]

/-- What is pending on a counter after it is drawn from (05 R84). -/
theorem State.pm_drawPm (s : State) (cid vdie cls : Nat) :
    (s.drawPm cid vdie cls).1.pm cid vdie cls =
      { drawn := (s.pm cid vdie cls).drawn + 1, pending := (s.pm cid vdie cls).pending ++ [(s.pm cid vdie cls).drawn + 1] } :=
  Sparse.get_set_of_ne (fun h => Nat.succ_ne_zero _ (congrArg Postmark.drawn h)) s.postmarks _

section
variable (s : State) (t : Team) (ws : List LWrite) (flags : BitVec 6) (occ lat : Nat)

/-- A matrix operation completes. -/
theorem landMatrix_done (draw : Bool) : landMatrix s t ws flags occ lat draw = .done (landMatrix s t ws flags occ lat draw).state := rfl

/-- One that draws a number appends its result with that number, and holds the engine. -/
theorem landMatrix_team : (landMatrix s t ws flags occ lat true).state.cur.team =
    { t with landings := t.landings ++ [⟨ws, flags, lat, false, true, some ((s.pm s.cur.cid s.cur.vdie 2).drawn + 1)⟩], matBusy := occ } := rfl

theorem Team.tileOps_append_matrix (mx : Option Nat) :
    ({ t with landings := t.landings ++ [⟨ws, flags, lat, false, true, mx⟩], matBusy := occ } : Team).tileOps = t.tileOps + 1 := by
  show (List.filter Landing.matrix (t.landings ++ [_])).length = _
  rw [List.filter_append, List.length_append]
  rfl

/-- The postmark counter of its number after it. -/
theorem landMatrix_pm : (landMatrix s t ws flags occ lat true).state.pm s.cur.cid s.cur.vdie 2 =
    { drawn := (s.pm s.cur.cid s.cur.vdie 2).drawn + 1,
      pending := (s.pm s.cur.cid s.cur.vdie 2).pending ++ [(s.pm s.cur.cid s.cur.vdie 2).drawn + 1] } :=
  (s.setTeam t).pm_drawPm s.cur.cid s.cur.vdie 2

end

/-! ### Products that issue -/

section
variable {o : LF} {s : State}

/-- An effect that lands a matrix result completes its instruction. -/
theorem exec_of_landMatrix {i : Instr} {v : State} {t : Team} {ws : List LWrite} {flags : BitVec 6} {occ lat : Nat} {draw : Bool}
    (hx : exec i s = (landMatrix v t ws flags occ lat draw).finish 8) :
    ∃ u, landMatrix v t ws flags occ lat draw = .done u ∧ exec i s = .next (u.completed 8) :=
  ⟨_, landMatrix_done .., hx⟩

theorem exec_mma_issued (hi : s.issues .seq o (shapeMma o) { entry := true, matrix := true, tile := true }) :
    exec (.mma o) s = (matMul o (s.cur.team.res o) s).finish 8 := by
  rw [exec, execMma]
  exact issue_ok hi

theorem exec_mmac_issued (hi : s.issues .seq o (shapeMmac o) { entry := true, matrix := true, tile := true }) :
    exec (.mmac o) s = (matMulAcc o (s.cur.team.res o) s).finish 8 := by
  rw [exec, execMmac]
  exact issue_ok hi

end

/-- Settles O38: with the checks passed, each product is its landing, which appends one pending result and draws one number. -/
theorem matrixMultiply : Obligations.MatrixMultiply := by
  refine ⟨fun o s => ⟨fun hi ha hb hcols hpair hok => ?mma, fun hi hb hpair hok => ?mmac⟩, fun s t ws f occ lat => ?issue⟩
  case mma =>
    refine exec_of_landMatrix ?_
    rw [exec_mma_issued hi]
    simp only [matMul, ha, hb, beq_iff_eq.mpr hcols, hpair, hok, Bool.and_true, Bool.not_true, Bool.false_eq_true, if_false]
  case mmac =>
    refine exec_of_landMatrix ?_
    rw [exec_mmac_issued hi]
    simp only [matMulAcc, hb, hpair, hok, Bool.and_true, Bool.not_true, Bool.false_eq_true, if_false]
  case issue =>
    have hpm := landMatrix_pm s t ws f occ lat
    exact ⟨_, landMatrix_done .., landMatrix_team .., t.tileOps_append_matrix .., congrArg Postmark.drawn hpm,
      congrArg Postmark.pending hpm, rfl, rfl, rfl, rfl, rfl, rfl⟩

end Sys2Proof.Machine
end

section
/-! Table lookup and accumulator transfers (03 R47, 11 R209-R214). -/

namespace Sys2Proof.Machine

/-! ### Lists by index -/

/-- What is formed from a list and its indices, where the list is itself formed from its indices. -/
theorem map_zipIdx_range {α β : Type} (n : Nat) (f : Nat → α) (g : α × Nat → β) :
    ((List.range n).map f).zipIdx.map g = (List.range n).map fun i => g (f i, i) := by
  refine List.ext_getElem (by simp) fun i _ _ => ?_
  simp only [List.getElem_map, List.getElem_zipIdx, List.getElem_range, Nat.zero_add]

/-- Successive elements of a list, by their indices. -/
theorem take_drop_eq_map_range {α : Type} (d : α) {l : List α} {p q : Nat} (h : p + q ≤ l.length) :
    (l.drop p).take q = (List.range q).map fun i => l.getD (p + i) d := by
  refine List.ext_getElem (by simp; omega) fun i hi _ => ?_
  rw [List.length_take, List.length_drop] at hi
  rw [List.getElem_take, List.getElem_drop, List.getElem_map, List.getElem_range, List.getD_eq_getElem _ _ (by omega)]

theorem chunks_succ {α : Type} (q fuel : Nat) {l : List α} (hl : l ≠ []) :
    chunks q (fuel + 1) l = l.take q :: chunks q fuel (l.drop q) := by
  rw [chunks, if_neg (by rwa [List.isEmpty_iff])]

/-- Piece `g` of a list that reaches beyond the pieces before it. -/
theorem getElem?_chunks {α : Type} {q g fuel : Nat} {l : List α} (hg : q * g < l.length) (hf : g < fuel) :
    (chunks q fuel l)[g]? = some ((l.drop (q * g)).take q) := by
  induction fuel generalizing g l with
  | zero => exact absurd hf (Nat.not_lt_zero g)
  | succ fuel ih =>
    rw [chunks_succ q fuel (List.ne_nil_of_length_pos (Nat.zero_lt_of_lt hg))]
    cases g with
    | zero => rfl
    | succ g =>
      rw [Nat.mul_succ] at hg ⊢
      rw [List.getElem?_cons_succ, ih (by rw [List.length_drop]; omega) (Nat.lt_of_succ_lt_succ hf), List.drop_drop, Nat.add_comm]

section
variable {α β : Type} {q g : Nat} {l : List α}

/-- Piece `g` of a list that holds it whole, by the indices of its elements. -/
theorem getElem?_chunks_whole (d : α) (hq : 0 < q) (hg : q * g + q ≤ l.length) :
    (chunks q l.length l)[g]? = some ((List.range q).map fun i => l.getD (q * g + i) d) := by
  have hgq : g ≤ q * g := Nat.le_mul_of_pos_left g hq
  rw [getElem?_chunks (by omega) (by omega), take_drop_eq_map_range d hg]

theorem getD_map_chunks (d : α) (e : β) (f : List α → β) (hq : 0 < q) (hg : q * g + q ≤ l.length) :
    ((chunks q l.length l).map f).getD g e = f ((List.range q).map fun i => l.getD (q * g + i) d) := by
  rw [List.getD_eq_getElem?_getD, List.getElem?_map, getElem?_chunks_whole d hq hg]
  rfl

end

/-- An element of lists of one length put one after another. -/
theorem getElem?_flatMap_uniform {α β : Type} {f : α → List β} {k : Nat} (hf : ∀ a, (f a).length = k) {l : List α} {g w : Nat} {a : α}
    (hg : l[g]? = some a) (hw : w < k) : (l.flatMap f)[k * g + w]? = (f a)[w]? := by
  induction l generalizing g with
  | nil => simp at hg
  | cons b rest ih =>
    rw [List.flatMap_cons]
    cases g with
    | zero =>
      obtain rfl : b = a := by simpa using hg
      rw [Nat.mul_zero, Nat.zero_add, List.getElem?_append_left (by rwa [hf])]
    | succ g =>
      rw [Nat.mul_succ, List.getElem?_append_right (by rw [hf]; omega), hf, ← ih (by simpa using hg)]
      congr 1
      omega

/-! ### Table lookup (03 R47, 11 R209, R210) -/

/-- Entry `w` of table `g` of a row, from the elements of group `g`. -/
theorem tableRow_getD (q : Nat) (terms : List Val → Nat → List (Val × Bool)) {as : List Val} {g w : Nat} (hq : 0 < q)
    (hg : q * g + q ≤ as.length) (hw : w < 16) :
    (tableRow q terms as).getD (16 * g + w) (0, 0) =
      tableEntry (terms ((List.range q).map fun i => as.getD (q * g + i) vZero) w) := by
  have hentry := getElem?_flatMap_uniform (f := fun g => (List.range 16).map fun w => tableEntry (terms g w))
    (fun _ => by simp) (getElem?_chunks_whole vZero hq hg) hw
  rw [List.getElem?_map, List.getElem?_range hw] at hentry
  obtain ⟨hlt, -⟩ := List.getElem?_eq_some_iff.mp hentry
  rw [List.getD_eq_getElem?_getD, tableRow, List.getElem?_append_left hlt, hentry]
  rfl

/-- Under LUT1, bit `i` of an entry's number gives the sign of element `i`. -/
theorem lut1Terms_eq (f : Nat → Val) (n w : Nat) :
    lut1Terms ((List.range n).map f) w = (List.range n).map fun i => (if w.testBit i then f i else (f i).flip, false) := by
  simp only [lut1Terms, map_zipIdx_range, Nat.testBit_eq_decide_div_mod_eq, decide_eq_true_eq]

/-- Under LUT2, two bits of an entry's number give the factor of an element. -/
theorem lut2Terms_eq (cb : List Val) (f : Nat → Val) (n w : Nat) :
    lut2Terms cb ((List.range n).map f) w = (List.range n).map fun i => (cb.getD (w / 4 ^ i % 4) vZero).mul (f i) := by
  simp only [lut2Terms, map_zipIdx_range]

section
variable {cs : List Nat} {g : Nat}

/-- Four weights of one bit are the binary digits of their group's index. -/
theorem lutIndex_one_getD (hg : 4 * g + 4 ≤ cs.length) : (lutIndex true cs).getD g 0 =
    cs.getD (4 * g) 0 + 2 * cs.getD (4 * g + 1) 0 + 4 * cs.getD (4 * g + 2) 0 + 8 * cs.getD (4 * g + 3) 0 := by
  rw [lutIndex, if_pos rfl, getD_map_chunks 0 0 _ (by decide) hg]
  simp only [List.range_succ, List.range_zero, List.nil_append, List.cons_append, List.map_cons, List.map_nil, List.foldr_cons,
    List.foldr_nil, Nat.add_zero]
  omega

/-- Two weights of two bits are its digits to base 4. -/
theorem lutIndex_two_getD (hg : 2 * g + 2 ≤ cs.length) :
    (lutIndex false cs).getD g 0 = cs.getD (2 * g) 0 + 4 * cs.getD (2 * g + 1) 0 := by
  rw [lutIndex, if_neg Bool.false_ne_true, getD_map_chunks 0 0 _ (by decide) hg]
  simp only [List.range_succ, List.range_zero, List.nil_append, List.cons_append, List.map_cons, List.map_nil, List.foldr_cons,
    List.foldr_nil, Nat.add_zero]
  omega

end

theorem lutColumns_ok {one : Bool} {c : Nat} (h : if one then 4 ≤ c ∧ c % 4 = 0 else 2 ≤ c ∧ c % 2 = 0) :
    (if one then 4 ≤ c && c % 4 == 0 else 2 ≤ c && c % 2 == 0) = true := by
  cases one <;> simpa using h

/-! ### Accumulator transfers (11 R213, R214) -/

/-- Reading tiles rebuilds lines of the cluster's scratchpad, and changes no task. -/
theorem State.readTiles_cur (s : State) (hs : List Tile) : (s.readTiles hs).cur = s.cur := by
  have hrows (h : Tile) (rs : List Nat) (u : State) :
      (rs.foldl (fun v r => v.rebuild (h.row r) (rowSize h.fmt h.cols)) u).cur = u.cur := by
    induction rs generalizing u with
    | nil => rfl
    | cons r rs ih => rw [List.foldl_cons, ih, State.rebuild_cur]
  have htiles (u : State) :
      (hs.foldl (fun u h => (List.range h.rows).foldl (fun v r => v.rebuild (h.row r) (rowSize h.fmt h.cols)) u) u).cur = u.cur := by
    induction hs generalizing u with
    | nil => rfl
    | cons h hs ih => rw [List.foldl_cons, ih, hrows]
  rw [State.readTiles]
  split
  · rfl
  · exact htiles s

section
variable (o : LF) (r : Res) (s : State)

/-- Elements of the accumulator, each rounded once, land on a register group. -/
theorem accToVec_elements (h : isNb r.fmt = false) :
    let n := elems (groupRegs o) (fmtWidth r.fmt)
    let dr := s.cur.team.drawn r.rm n
    accToVec o r s = .done (s.withElems dr.2 o (fmtWidth r.fmt) (groupRegs o) 8 ((List.range n).map fun i =>
      roundElem r.fmt r.rm r.ovf (dr.1.getD i 0)
        (fp32.decode (Sparse.get 0 s.cur.team.acc (2048 * o.a.toNat + 64 * o.b.toNat + i)).toNat))) := by
  simp only [accToVec, h, Bool.false_eq_true, if_false, map_zipIdx_range, landElems_eq]

/-- In a nested format they land in blocks, of which the active elements are written and raise flags. -/
theorem accToVec_blocks (h : isNb r.fmt = true) :
    let n := elems (groupRegs o) (fmtWidth r.fmt)
    let dr := s.cur.team.drawn r.rm n
    let bs := blocksOf r dr.1 ((List.range n).map fun i =>
      fp32.decode (Sparse.get 0 s.cur.team.acc (2048 * o.a.toNat + 64 * o.b.toNat + i)).toNat)
    accToVec o r s = .done (s.setTeam (dr.2.land
      ((nbRegs r.fmt (bs.map (·.1))).zipIdx.map fun vi => .v (s.cur.team.wb + o.d.toNat + vi.2) vi.1
        (nbMask r.fmt ((List.range (nbPer r.fmt)).map fun i => s.cur.team.active o.m (nbPer r.fmt * vi.2 + i))))
      (activeFlags (bs.zipIdx.flatMap fun bi => bi.1.2.zipIdx.map fun fi =>
        if s.cur.team.active o.m (16 * bi.2 + fi.2) then some fi.1 else none)) 8 o)) := by
  simp only [accToVec, h, if_true, List.map_map, Function.comp_def]

/-- Each element of a group lands in the accumulator as the FP32 code of its value. -/
theorem vecToAcc_eq : vecToAcc o r s = .done (s.withWrites
    ((List.range (elems (groupRegs o) (fmtWidth r.fmt))).map fun i => .acc (2048 * o.d.toNat + 64 * o.b.toNat + i) (BitVec.ofNat 32
      (fp32Code (decodeElem r.fmt (elemAt (s.cur.team.group o.a.toNat (groupRegs o)) (fmtWidth r.fmt) i))))) 4) := by
  simp only [vecToAcc, elemCodes, map_zipIdx_range, landAt_eq rfl]

end

/-! ### Instructions that issue -/

section
variable {o : LF} {s : State}

theorem exec_mlutb_issued (hi : s.issues .seq o (shapeMlutb o)
    { gb := if (s.cur.team.res o).fmt = 14 then 1 else 0, ok4 := (s.cur.team.res o).fmt == 14 || o.b == 0, entry := true,
      matrix := true, tile := true }) : exec (.mlutb o) s = (lutBuild o (s.cur.team.res o) s).finish 8 := by
  rw [exec, execMlutb]
  exact issue_ok hi

theorem exec_mlut_issued (hi : s.issues .seq o (shapeMlut o) { entry := true, matrix := true, tile := true }) :
    exec (.mlut o) s = (lutAccum o (s.cur.team.res o) s).finish 8 := by
  rw [exec, execMlut]
  exact issue_ok hi

theorem exec_ald_issued (hi : s.issues .seq o (shapeAld o) { entry := true }) :
    exec (.ald o) s = (accLoad o (s.cur.team.res o) s).finish 8 := by
  rw [exec, execAld]
  exact issue_ok hi

theorem exec_ast_issued (hi : s.issues .seq o (shapeAst o) {}) : exec (.ast o) s = (accStore o (s.cur.team.res o) s).finish 8 := by
  rw [exec, execAst]
  exact issue_ok hi

end

/-- Settles O39: with the checks passed each instruction ends as its operation does; tables and indices are read group by group. -/
theorem tablesAndAccumulators : Obligations.TablesAndAccumulators := by
  refine ⟨fun o s => ⟨fun hi hshape hcols hok => ?mlutb, fun hi hshape hcols hok => ?mlut⟩,
    fun o s => ⟨fun hi => ?azero, fun hi hshape hok => ?ald, fun hi hshape hok => ?ast, fun hi hf => ?elements, fun hi hf => ?blocks,
      fun hi => ?awrv⟩,
    fun as cb cs g w hw => ⟨fun n hn _ hg => ?lut1, fun n hn _ hg => ?lut2, fun n hn hg => lutIndex_one_getD (by omega),
      fun n hn hg => lutIndex_two_getD (by omega)⟩⟩
  case mlutb =>
    refine exec_of_landMatrix ?_
    rw [exec_mlutb_issued hi]
    simp only [lutBuild, hshape, lutColumns_ok hcols, hok, Bool.and_true, Bool.not_true, Bool.false_eq_true, if_false]
  case mlut =>
    refine exec_of_landMatrix ?_
    rw [exec_mlut_issued hi]
    simp only [lutAccum, hshape, lutColumns_ok hcols, hok, Bool.and_true, Bool.not_true, Bool.false_eq_true, if_false]
  case azero =>
    rw [exec, execAzero]
    exact issue_done hi rfl
  case ald =>
    rw [exec_ald_issued hi]
    simp only [accLoad, hshape, hok, Bool.not_true, Bool.false_eq_true, if_false]
    exact congrArg (Eff.finish 8) (landAt_eq (congrArg Task.team (s.readTiles_cur _)) _ _)
  case ast =>
    rw [exec_ast_issued hi]
    simp only [accStore, hshape, hok, Bool.not_true, Bool.false_eq_true, if_false, Eff.finish_done]
  case elements =>
    rw [exec, execArdv]
    exact issue_done hi (accToVec_elements o _ s hf)
  case blocks =>
    rw [exec, execArdv]
    exact issue_done hi (accToVec_blocks o _ s hf)
  case awrv =>
    rw [exec, execAwrv]
    exact issue_done hi (vecToAcc_eq o _ s)
  case lut1 => rw [tableRow_getD 4 lut1Terms (by decide) (by omega) hw, lut1Terms_eq]
  case lut2 => rw [tableRow_getD 2 (lut2Terms cb) (by decide) (by omega) hw, lut2Terms_eq]

end Sys2Proof.Machine
end

section
/-! Loops and the format table (03 R54, R55, 11 R216-R218). -/

namespace Sys2Proof.Machine

/-! ### Instructions that issue -/

section
variable {o : LF} {s : State} {i : Instr} {n : Nat}

theorem exec_loop_issued (hi : s.issues .seq o (shapeLoop o) { ok5 := 3 ≤ o.b.toInt }) :
    exec (.loop o) s = (loopStart s (loopNum o.d) (s.x (fieldReg o.a)) o.b).finish 8 := by
  rw [exec, execLoop]
  exact issue_ok hi

theorem exec_lcrd_issued (h : spells .lcrd .lcrdShort shortLong o i n) (hi : s.issues .seq o (shapeLcrd o) {}) :
    exec i s = .next ((s.setX (fieldReg o.d) ((s.cur.team.loopOf (loopNum o.b)).count.setWidth 64)).completed n) :=
  (exec_of_spells (run := runLcrd) (fun _ _ => rfl) (fun _ _ _ _ => rfl) h s).trans (issue_done hi rfl)

theorem exec_lbrk_issued (h : spells .lbrk .lbrkShort shortLong o i n) (hi : s.issues .seq o (shapeLbrk o) {}) :
    exec i s = (loopBreak s (loopNum o.b)).finish n :=
  (exec_of_spells (run := runLbrk) (fun _ _ => rfl) (fun _ _ _ _ => rfl) h s).trans (issue_ok hi)

theorem exec_fmtsel_issued (h : spells .fmtsel .fmtselShort shortLong o i n)
    (hi : s.issues .seq o (shapeFmtsel o) { ok5 := o.a.toNat ≤ 4 && o.b.toNat ≤ 15 }) :
    exec i s = (formatSelect s o.a o.b).finish n :=
  (exec_of_spells (run := runFmtsel) (fun _ _ => rfl) (fun _ _ _ _ => rfl) h s).trans (issue_ok hi)

theorem exec_fmtget_issued (h : spells .fmtget .fmtgetShort shortLong o i n)
    (hi : s.issues .seq o (shapeFmtget o) { ok5 := o.b.toNat ≤ 15 }) :
    exec i s = .next ((s.setX (fieldReg o.d) ((s.cur.team.ft.get (ftNum o.b)).setWidth 64)).completed n) :=
  (exec_of_spells (run := runFmtget) (fun _ _ => rfl) (fun _ _ _ _ => rfl) h s).trans (issue_done hi rfl)

end

/-- An instruction that passes checks 4 to 6 of 08 R139 has passed its own part of check 5. -/
theorem Plan.ok5_of_check {p : Plan} {t : Team} {w : Who} {o : LF} {sh : Shape} (h : p.check t w o sh = none) : p.ok5 = true := by
  by_contra h5
  rw [Bool.not_eq_true] at h5
  simp only [Plan.check, h5, Bool.not_false, Bool.or_true, Bool.true_or, if_true] at h
  split at h <;> cases h

/-! ### `loop` (11 R216) -/

/-- Whether the innermost loop, if there is one, holds `pc` and ends no earlier than `stop`. -/
def Team.encloses (t : Team) (pc stop : Nat) : Bool :=
  t.loops.head?.all fun top => (t.loopOf top).start ≤ pc && pc < (t.loopOf top).stop && stop ≤ (t.loopOf top).stop

theorem Team.encloses_iff {t : Team} {pc stop : Nat} : t.encloses pc stop = true ↔ ∀ top rest, t.loops = top :: rest →
    (t.loopOf top).start ≤ pc ∧ pc < (t.loopOf top).stop ∧ stop ≤ (t.loopOf top).stop := by
  cases h : t.loops with
  | nil => simp [Team.encloses, h]
  | cons top rest => simp [Team.encloses, h, and_assoc]

section
variable (s : State) (n : Fin 4) (bound : Word) (off : BitVec 11)

/-- `loop` by its three checks, then by its bound. -/
theorem loopStart_eq : loopStart s n bound off =
    if (s.cur.team.loopOf n).active || 2 ^ 32 ≤ bound.toNat || !s.cur.team.encloses s.cur.team.seq.pc (s.cur.team.seq.pc + 4 * off.toNat) then
      .trap (trapOf .illegalOperand) s
    else if bound = 0 then
      .jump (s.setTeam (s.cur.team.setLoop n { s.cur.team.loopOf n with count := 0 }))
        (BitVec.ofNat 64 (s.cur.team.seq.pc + 4 * off.toNat))
    else .done (s.setTeam { s.cur.team.setLoop n { count := 0, bound := bound.setWidth 32, start := s.cur.team.seq.pc + 8,
                                                   stop := s.cur.team.seq.pc + 4 * off.toNat, active := true } with
                            loops := n :: s.cur.team.loops }) := by
  rw [loopStart, Team.encloses]
  cases s.cur.team.loops <;> rfl

theorem loopStart_refused (h : (s.cur.team.loopOf n).active = true ∨ 2 ^ 32 ≤ bound.toNat ∨
      ¬ s.cur.team.encloses s.cur.team.seq.pc (s.cur.team.seq.pc + 4 * off.toNat) = true) :
    loopStart s n bound off = .trap (trapOf .illegalOperand) s := by
  rw [loopStart_eq, if_pos]
  simpa only [Bool.or_eq_true, decide_eq_true_eq, Bool.not_eq_true', Bool.not_eq_true, or_assoc] using h

/-- The three checks of a loop that starts, as `loop` tests them. -/
theorem loop_accepted (hact : (s.cur.team.loopOf n).active = false) (hbound : bound.toNat < 2 ^ 32)
    (hin : s.cur.team.encloses s.cur.team.seq.pc (s.cur.team.seq.pc + 4 * off.toNat) = true) :
    ¬ ((s.cur.team.loopOf n).active || 2 ^ 32 ≤ bound.toNat ||
      !s.cur.team.encloses s.cur.team.seq.pc (s.cur.team.seq.pc + 4 * off.toNat)) = true := by
  simp only [hact, hin, decide_eq_false (Nat.not_le.mpr hbound), Bool.not_true, Bool.or_self, Bool.false_eq_true, not_false_eq_true]

end

/-! ### `lbrk` (11 R216) -/

/-- A team whose counter `k` has ended, and with it the top of its stack. -/
def Team.popLoop (t : Team) (k : Fin 4) (rest : List (Fin 4)) : Team :=
  { t.setLoop k { t.loopOf k with active := false } with loops := rest }

theorem Team.popLoop_loopOf (t : Team) (k j : Fin 4) (rest : List (Fin 4)) :
    (t.popLoop k rest).loopOf j = if j = k then { t.loopOf k with active := false } else t.loopOf j :=
  vector_get_set t.lc k j _

theorem Team.popTo_cons (t : Team) (n k : Fin 4) (rest : List (Fin 4)) :
    t.popTo n (k :: rest) = if k = n then t.popLoop k rest else (t.popLoop k rest).popTo n rest := rfl

/-- A break ends the loop it names and every loop inside it, and no other. -/
theorem Team.popTo_spec {m : Fin 4} {inner : List (Fin 4)} (outer : List (Fin 4)) (hm : m ∉ inner) (t : Team) :
    (t.popTo m (inner ++ m :: outer)).loops = outer ∧ ((t.popTo m (inner ++ m :: outer)).loopOf m).active = false ∧
      (∀ k ∈ inner, ((t.popTo m (inner ++ m :: outer)).loopOf k).active = false) ∧
      (∀ k, k ≠ m → k ∉ inner → (t.popTo m (inner ++ m :: outer)).loopOf k = t.loopOf k) := by
  induction inner generalizing t with
  | nil =>
    rw [List.nil_append, Team.popTo_cons, if_pos rfl]
    exact ⟨rfl, by rw [Team.popLoop_loopOf, if_pos rfl], nofun, fun k hk _ => by rw [Team.popLoop_loopOf, if_neg hk]⟩
  | cons j inner ih =>
    obtain ⟨hjm, hm⟩ := not_or.mp (mt List.mem_cons.mpr hm)
    rw [List.cons_append, Team.popTo_cons, if_neg (Ne.symm hjm)]
    obtain ⟨hloops, hact, hinner, hother⟩ := ih hm (t.popLoop j (inner ++ m :: outer))
    refine ⟨hloops, hact, List.forall_mem_cons.mpr ⟨?_, hinner⟩, fun k hk hkj => ?_⟩
    · by_cases hj : j ∈ inner
      · exact hinner j hj
      · rw [hother j (Ne.symm hjm) hj, Team.popLoop_loopOf, if_pos rfl]
    · obtain ⟨hne, hk'⟩ := not_or.mp (mt List.mem_cons.mpr hkj)
      rw [hother k hk hk', Team.popLoop_loopOf, if_neg hne]

theorem loopBreak_inactive {s : State} {n : Fin 4} (h : (s.cur.team.loopOf n).active = false) : loopBreak s n = .done s := by
  rw [loopBreak, h]
  rfl

theorem loopBreak_active {s : State} {n : Fin 4} (h : (s.cur.team.loopOf n).active = true) :
    loopBreak s n = .done (s.setTeam (s.cur.team.popTo n s.cur.team.loops)) := by
  rw [loopBreak, h]
  rfl

/-! ### The format table (11 R218) -/

/-- The counter that `fmtsel` names, where check 5 has bounded its operand. -/
theorem formatSelect_counter {a : BitVec 11} (ha : a.toNat ≤ 4) :
    (if a = 0 then none else some (⟨(a.toNat - 1) % 4, Nat.mod_lt _ (by decide)⟩ : Fin 4)).map Fin.val =
      if a = 0 then none else some (a.toNat - 1) := by
  by_cases h : a = 0
  · rw [if_pos h, if_pos h, Option.map_none]
  · have hpos : a.toNat ≠ 0 := fun h0 => h (BitVec.eq_of_toNat_eq h0)
    rw [if_neg h, if_neg h]
    exact congrArg some (Nat.mod_eq_of_lt (by omega))

/-- Settles O41: each instruction ends as its operation on the loop stack or the format table does. -/
theorem loopsAndFormats : Obligations.LoopsAndFormats := by
  refine ⟨fun o s => ⟨fun hi => ⟨fun h => ?refused, fun hact hbound hin => ⟨fun hz => ?skipped, fun hz => ?started⟩⟩,
      fun i k h hi => exec_lcrd_issued h hi, fun i k h hi => ⟨fun hact => ?idle, fun hact => ?ended⟩⟩,
    fun o s => ⟨fun hi => ?fmtset, fun i k h hi => ?fmtsel, fun i k h hi => exec_fmtget_issued h hi, fun h15 => ?table⟩⟩
  case refused =>
    rw [← Team.encloses_iff] at h
    rw [exec_loop_issued hi, loopStart_refused s _ _ _ h, Eff.finish_trap]
  case skipped =>
    have hok := loop_accepted s _ _ _ hact hbound (Team.encloses_iff.mpr hin)
    rw [exec_loop_issued hi, loopStart_eq, if_neg hok, if_pos hz, Eff.finish_jump]
  case started =>
    have hok := loop_accepted s _ _ _ hact hbound (Team.encloses_iff.mpr hin)
    rw [exec_loop_issued hi, loopStart_eq, if_neg hok, if_neg hz, Eff.finish_done]
  case idle => rw [exec_lbrk_issued h hi, loopBreak_inactive hact, Eff.finish_done]
  case ended =>
    refine ⟨_, by rw [exec_lbrk_issued h hi, loopBreak_active hact, Eff.finish_done], fun inner outer hl hm => ?_⟩
    rw [hl]
    exact Team.popTo_spec outer hm s.cur.team
  case fmtset =>
    rw [exec, execFmtset]
    exact issue_done hi rfl
  case fmtsel =>
    have ⟨_, _, hcheck, _⟩ := hi
    have h5 := Plan.ok5_of_check hcheck
    simp only [Bool.and_eq_true, decide_eq_true_eq] at h5
    exact ⟨_, by rw [exec_fmtsel_issued h hi, formatSelect, Eff.finish_done], rfl, formatSelect_counter h5.1⟩
  case table =>
    rw [Team.res, if_pos h15]
    exact ⟨rfl, rfl, rfl⟩

end Sys2Proof.Machine
end

section
/-! What the movement instructions share: their checks, and the issue of what runs on its own (12 R229, R230). -/

namespace Sys2Proof.Machine

/-! ### Checks (12 R229, 05 R79, 04 R72) -/

section
variable {s : State} {b : Word} {a n rights : Nat}

theorem need_of {c : Bool} {t : Trap} (h : c = true) : need c t = .ok () := if_pos h

theorem State.checkOver_of_passes (h : s.passes s.cur.cid b n rights = true) : s.checkOver [(b, n, rights)] = .ok () := by
  simp [State.checkOver, State.check_of_passes h, List.findSome?]

theorem State.checkAll_of_passes (h : s.passes s.cur.cid b n rights = true) : s.checkAll [(b, n)] rights = .ok () :=
  State.check_of_passes h

theorem State.localOk_inside (h : s.inScratch a n = true) : s.localOk a n = .ok () := if_pos h

theorem State.localOk_outside (h : s.inScratch a n = false) :
    s.localOk a n = .error (trapAt .localAddr (BitVec.ofNat 64 a) n) := if_neg (Bool.eq_false_iff.mp h)

theorem State.destOk_plain {o : LF} (ho : o.isPh = false) : s.destOk o a n = s.localOk a n := if_neg (Bool.eq_false_iff.mp ho)

theorem State.holeNamed_plain {o : LF} (ho : o.isPh = false) : s.holeNamed o = .ok () := need_of (by rw [ho]; rfl)

theorem State.readLocal_clean (h : s.badLineIn a n = none) : s.readLocal a n = .ok (s.rebuild a n) := by
  rw [State.readLocal, h]

@[simp] theorem thenCheck_ok (b : Except Trap Unit) : thenCheck (.ok ()) b = b := rfl

@[simp] theorem thenCheck_error (t : Trap) (b : Except Trap Unit) : thenCheck (.error t) b = .error t := rfl

end

/-! ### How an issue ends (12 R229, R230) -/

theorem Miss.eff_trap {m : Miss} {t : Trap} (h : m.trap = some t) : m.eff = .trap t m.state := by
  rw [Miss.eff, h]

theorem Miss.eff_waits {m : Miss} (h : m.trap = none) : m.eff = .stay .interlock m.state := by
  rw [Miss.eff, h]

/-- The state in which an issue that drew a number has completed: x[D] holds the number, and the STEP record the
counter, the number and the completed value (12 R230, 18 R321). -/
def afterIssue (o : LF) (cls : Nat) (x : State × Nat) : State :=
  (x.1.setX (fieldReg o.d) (BitVec.ofNat 64 x.2)).completedWith 8 (BitVec.ofNat 64 (cls * 2 ^ 61 + x.2))
    (BitVec.ofNat 64 (x.1.pmCompleted cls))

theorem issued_finish (o : LF) (cls : Nat) (x : State × Nat) : (issued o cls x.2 x.1).finish 8 = .next (afterIssue o cls x) := rfl

end Sys2Proof.Machine
end

section
/-! Copies: their checks and moves, and their issue (12 R227-R234, 04 R72). -/

namespace Sys2Proof.Machine

section
variable {o : LF} {w : Who} {s u : State} {i : Instr}

/-! ### Instructions that issue -/

theorem exec_cpld_issued (hi : s.issues w o (shapeCpld o) {}) : exec (.cpld o) s = (copyOf o w s (planLoad o s)).finish 8 := by
  rw [exec, execCpld]
  exact issue_ok hi

theorem exec_cpst_issued (hi : s.issues w o (shapeCpst o) {}) : exec (.cpst o) s = (copyOf o w s (planStore o s)).finish 8 := by
  rw [exec, execCpst]
  exact issue_ok hi

theorem exec_cploc_issued (hi : s.issues w o (shapeCploc o) {}) : exec (.cploc o) s = (copyOf o w s (planLocal o s)).finish 8 := by
  rw [exec, execCploc]
  exact issue_ok hi

theorem copyRows_quiet {scatter : Bool} (hz : s.rowsHazard w (s.x (fieldReg o.a)).toNat = false) :
    copyRows o w scatter s = copyOf o w s (planRows o scatter s) := if_neg (Bool.eq_false_iff.mp hz)

theorem exec_cpgat_issued (hi : s.issues w o (shapeCpgat o) {}) (hz : s.rowsHazard w (s.x (fieldReg o.a)).toNat = false) :
    exec (.cpgat o) s = (copyOf o w s (planRows o false s)).finish 8 := by
  rw [exec, execCpgat, ← copyRows_quiet hz]
  exact issue_ok hi

theorem exec_cpsca_issued (hi : s.issues w o (shapeCpsca o) {}) (hz : s.rowsHazard w (s.x (fieldReg o.a)).toNat = false) :
    exec (.cpsca o) s = (copyOf o w s (planRows o true s)).finish 8 := by
  rw [exec, execCpsca, ← copyRows_quiet hz]
  exact issue_ok hi

theorem exec_cprem_issued (hi : s.issues w o (shapeCprem o) {}) : exec (.cprem o) s = (copyRemote o w s).finish 8 := by
  rw [exec, execCprem]
  exact issue_ok hi

/-! ### The issue of a copy whose checks passed (12 R230, R231, R234) -/

/-- The moves of a plan, from the slot at the tail of the pigeonhole in the pigeonhole form. -/
def CopyPlan.movesIn (p : CopyPlan) (o : LF) (s : State) : List Move :=
  p.moves (if o.isPh then (s.cur.team.hole o.fmt.toNat).slotAddr (s.cur.team.hole o.fmt.toNat).tail else 0)

/-- A copy of plan `p`, checked in `s`, can issue: its member's counter has room and its pigeonhole a slot, and none of its moves
overlaps itself or meets an earlier copy of the member. -/
structure State.CopyRoom (s : State) (o : LF) (w : Who) (p : CopyPlan) : Prop where
  counter : s.copyHeld w = false
  slot : o.isPh = true → (s.cur.team.hole o.fmt.toNat).free ≠ 0
  apart : (p.movesIn o s).any Move.overlaps = false
  quiet : (p.movesIn o s).any (s.moveHazard w) = false

/-- The copy of plan `p`, checked in `s`, started from `u`: its slot reserved, its number drawn. -/
def State.started (s u : State) (o : LF) (w : Who) (p : CopyPlan) (remote : Bool) : State × Nat :=
  let h := s.cur.team.hole o.fmt.toNat
  (if o.isPh then u.setHole o.fmt.toNat (h.reserve o.ap (some u.nextId)) else u).startCopy o w (p.movesIn o s) p.pages h.tail remote

theorem issueCopy_room {p : CopyPlan} {remote : Bool} (h : s.CopyRoom o w p) :
    issueCopy o w remote p s u = issued o (copyClass w) (s.started u o w p remote).2 (s.started u o w p remote).1 := by
  have hslot : (o.isPh && (s.cur.team.hole o.fmt.toNat).free == 0) = false := by
    simpa using h.slot
  have hapart := h.apart
  have hquiet := h.quiet
  unfold CopyPlan.movesIn at hapart hquiet
  unfold issueCopy
  simp only [h.counter, hslot, hapart, hquiet, Bool.false_eq_true, if_false]
  rfl

theorem copyRemote_speculative (hs : s.cur.spec = true) : copyRemote o w s = .stay .spec s := if_pos hs

theorem copyRemote_error {m : Miss} (hs : s.cur.spec = false) (hp : planRemote o s = .error m) : copyRemote o w s = m.eff := by
  simp only [copyRemote, hs, hp, Bool.false_eq_true, if_false]

theorem copyRemote_ok {p : CopyPlan} (hs : s.cur.spec = false) (hp : planRemote o s = .ok (u, p)) :
    copyRemote o w s = issueCopy o w true p s
      (u.wbRange s.cur.cluster s.cur.cid (s.vaOf s.cur.cid (s.x (fieldReg o.a))) (s.x (fieldReg o.d)).toNat) := by
  simp only [copyRemote, hs, hp, Bool.false_eq_true, if_false]

/-- How an instruction ends that is a copy by a plan: it issues, or takes the trap of the first check that fails, or waits. -/
theorem exec_of_copyOf {plan : Except Miss (State × CopyPlan)} {p : CopyPlan} (h : exec i s = (copyOf o w s plan).finish 8) :
    (plan = .ok (u, p) → s.CopyRoom o w p → exec i s = .next (afterIssue o (copyClass w) (s.started u o w p false))) ∧
    (∀ m, plan = .error m → (∀ t, m.trap = some t → exec i s = .next (m.state.trapped t)) ∧
      (m.trap = none → exec i s = .next (m.state.blockWith .interlock))) := by
  rw [h]
  refine ⟨?_, ?_⟩
  · rintro rfl hroom
    rw [copyOf, issueCopy_room hroom, issued_finish]
  · rintro m rfl
    exact ⟨fun t ht => by rw [copyOf, Miss.eff_trap ht, Eff.finish_trap], fun ht => by rw [copyOf, Miss.eff_waits ht, Eff.finish_stay]⟩

/-! ### A copy in flight (12 R230) -/

/-- Drawing a number changes neither the copies in flight nor any byte. -/
theorem State.drawFor_frame (s : State) (cls : Nat) :
    (s.drawFor cls).1.copies = s.copies ∧ (s.drawFor cls).1.mem = s.mem ∧ (s.drawFor cls).1.clus = s.clus := by
  rw [State.drawFor]
  dsimp only
  split <;> exact ⟨rfl, rfl, rfl⟩

/-- A copy that starts joins those in flight with its moves and its number, and writes no byte. -/
theorem State.started_spec (s u : State) (o : LF) (w : Who) (p : CopyPlan) (remote : Bool) :
    ∃ c : Copy, (s.started u o w p remote).1.copies = u.copies ++ [c] ∧ c.moves = p.movesIn o s ∧
      c.num = (s.started u o w p remote).2 ∧ c.who = w ∧ c.cls = copyClass w ∧
      c.hole = (if o.isPh then some o.fmt.toNat else none) ∧ (s.started u o w p remote).1.mem = u.mem ∧
      (s.started u o w p remote).1.clus = u.clus := by
  unfold State.started
  dsimp only
  generalize hv : (if o.isPh then u.setHole o.fmt.toNat ((s.cur.team.hole o.fmt.toNat).reserve o.ap (some u.nextId)) else u) = v
  obtain ⟨hcopies, hmem, hclus⟩ : v.copies = u.copies ∧ v.mem = u.mem ∧ v.clus = u.clus := by
    subst hv
    split <;> exact ⟨rfl, rfl, rfl⟩
  obtain ⟨hdcopies, hdmem, hdclus⟩ := ({ v with nextId := v.nextId + 1 } : State).drawFor_frame (copyClass w)
  exact ⟨_, congrArg (· ++ [_]) (hdcopies.trans hcopies), rfl, rfl, rfl, rfl, rfl, hdmem.trans hmem, hdclus.trans hclus⟩

end

/-! ### The plans of the plain forms (12 R227, R229, R231) -/

section
variable {o : LF} {s u : State} {ps : List Tlb} {l : LocalWord} {b : Word} (hl : localWord (s.x (fieldReg o.a)) = l)
include hl

/-- A plain copy of no bytes is refused before any other check. -/
theorem plans_empty (hz : o.tr = 0) (h : l.len = 0) :
    ∀ r ∈ [planLoad o s, planStore o s, planLocal o s], r = .error ((trapOf .illegalOperand).miss s) := by
  simp only [List.forall_mem_cons]
  exact ⟨by simp [planLoad, hl, hz, h, need], by simp [planStore, hl, h, need], by simp [planLocal, hl, h, need],
    fun _ hr => nomatch hr⟩

variable (hlen : 1 ≤ l.len)
include hlen

/-- A plain copy to or from buffer memory whose local range leaves the scratchpads. -/
theorem plans_outside (ho : o.isPh = false) (hz : o.tr = 0) (h : s.inScratch l.laddr l.len = false) :
    ∀ r ∈ [planLoad o s, planStore o s], r = .error ((trapAt .localAddr (BitVec.ofNat 64 l.laddr) l.len).miss s) := by
  simp only [List.forall_mem_cons]
  exact ⟨by simp [planLoad, hl, hz, need_of, hlen, State.destOk_plain ho, State.localOk_outside h],
    by simp [planStore, hl, need_of, hlen, State.localOk_outside h], fun _ hr => nomatch hr⟩

variable (hb : s.x (fieldReg o.b) = b) (hin : s.inScratch l.laddr l.len = true)
include hb hin

theorem planLoad_plain (ho : o.isPh = false) (hz : o.tr = 0) (ht : s.translateAll [(b, l.len)] false = .ok (u, ps))
    (hc : s.passes s.cur.cid b l.len rightR = true) :
    planLoad o s = .ok (u, ⟨fun base => [⟨.buf b, .loc (base + l.laddr), l.len⟩], ps⟩) := by
  simp [planLoad, hl, hb, hz, need_of, hlen, State.destOk_plain ho, State.localOk_inside hin, State.holeNamed_plain ho,
    State.checkOver_of_passes hc, ht]

theorem planStore_plain (ht : s.translateAll [(b, l.len)] true = .ok (u, ps)) (hc : s.passes s.cur.cid b l.len rightW = true)
    (hbad : u.badLineIn l.laddr l.len = none) :
    planStore o s = .ok (u.rebuild l.laddr l.len, ⟨fun _ => [⟨.loc l.laddr, .buf b, l.len⟩], ps⟩) := by
  simp [planStore, hl, hb, need_of, hlen, State.localOk_inside hin, State.checkAll_of_passes hc, ht, State.readLocal_clean hbad]

theorem planLocal_plain (ho : o.isPh = false) (hdst : s.inScratch b.toNat l.len = true)
    (hbad : s.badLineIn l.laddr l.len = none) (hm : meets l.laddr l.len b.toNat l.len = false) :
    planLocal o s = .ok (s.rebuild l.laddr l.len, ⟨fun base => [⟨.loc l.laddr, .loc (base + b.toNat), l.len⟩], []⟩) := by
  simp [planLocal, hl, hb, ho, hm, need_of, hlen, State.destOk_plain ho, State.localOk_inside hin, State.localOk_inside hdst,
    State.holeNamed_plain ho, State.readLocal_clean hbad]

end

/-! ### The obligation -/

/-- Settles O42: each copy ends as its plan says, and each plan of a plain form as its operands do. -/
theorem copies : Obligations.Copies := by
  unfold Obligations.Copies
  refine ⟨fun o w s u p => ?_, fun o s ho hz => ?_⟩
  · intro h moves room started after
    have hroom : room → s.CopyRoom o w p := fun ⟨hcounter, hslot, hapart, hquiet⟩ => ⟨hcounter, hslot, hapart, hquiet⟩
    refine ⟨?issues, fun hi => ⟨fun hs => ?speculative, fun hs hp hr => ?remote, fun m t hs hp ht => ?refused⟩,
      State.started_spec s u o w p⟩
    case issues =>
      have decided {i : Instr} {plan : Except Miss (State × CopyPlan)} (h : exec i s = (copyOf o w s plan).finish 8) :=
        (exec_of_copyOf (u := u) (p := p) h).imp_left fun hok hp hr => hok hp (hroom hr)
      simp only [List.forall_mem_cons]
      exact ⟨fun hi _ => decided (exec_cpld_issued hi), fun hi _ => decided (exec_cpst_issued hi),
        fun hi hz => decided (exec_cpgat_issued hi (hz (by simp))), fun hi hz => decided (exec_cpsca_issued hi (hz (by simp))),
        fun hi _ => decided (exec_cploc_issued hi), fun _ hq => nomatch hq⟩
    case speculative => rw [exec_cprem_issued hi, copyRemote_speculative hs, Eff.finish_stay]
    case remote =>
      rw [exec_cprem_issued hi, copyRemote_ok hs hp, issueCopy_room (hroom hr)]
      exact issued_finish ..
    case refused => rw [exec_cprem_issued hi, copyRemote_error hs hp, Miss.eff_trap ht, Eff.finish_trap]
  · intro l b c
    refine ⟨fun hlen => plans_empty rfl hz hlen, fun hlen hout => plans_outside rfl hlen ho hz hout,
      fun u ps hlen hin ht hc => ⟨_, planLoad_plain rfl hlen rfl hin ho hz ht hc, rfl, ?load⟩,
      fun u ps hlen hin ht hc hbad => ⟨_, planStore_plain rfl hlen rfl hin ht hc hbad, rfl, rfl⟩,
      fun hlen hin hdst hbad hm => ⟨_, planLocal_plain rfl hlen rfl hin ho hdst hbad hm, rfl, ?loc⟩⟩
    case load | loc =>
      simp only [Nat.zero_add]
      rfl

end Sys2Proof.Machine
end

section
/-! Collectives, near-bank queries, and their cancellation (12 R235-R237, R248, 07 R117-R119, R127). -/

namespace Sys2Proof.Machine

section
variable {o : LF} {w : Who} {s : State}

/-! ### Instructions that issue -/

theorem exec_coll_issued (hi : s.issues w o (shapeColl o) {}) : exec (.coll o) s = (collective o w s).finish 8 := by
  rw [exec, execColl]
  exact issue_ok hi

theorem exec_nbq_issued (hi : s.issues w o (shapeNbq o) {}) : exec (.nbq o) s = (bankQuery o w s).finish 8 := by
  rw [exec, execNbq]
  exact issue_ok hi

theorem exec_nbcan_issued {i : Instr} {n : Nat} (h : spells .nbcan .nbcanShort shortLong o i n) (hi : s.issues w o (shapeNbcan o) {}) :
    exec i s = (bankCancel o s).finish n :=
  (exec_of_spells (run := runNbcan) (fun _ _ => rfl) (fun _ _ _ _ => rfl) h s).trans (issue_ok hi)

/-! ### Collectives (12 R235-R237) -/

theorem collective_speculative (hs : s.cur.spec = true) : collective o w s = .stay .spec s := if_pos hs

/-- A collective whose descriptor lies in the scratchpads, is written by no copy of the member, is sound and aligned, and can be read. -/
theorem collective_reads {a : Nat} (ha : (s.x (fieldReg o.a)).toNat = a) (hs : s.cur.spec = false) (hl : s.onLentDie = false)
    (hin : s.inScratch a 64 = true) (hok : (s.collDesc a).ok o.fmt.toNat = true) (hal : a % 64 = 0)
    (hbad : s.badLineIn a 64 = none) (hz : s.localHazard w a 64 false = false) :
    collective o w s = collIssue o w (s.collDesc a) (s.rebuild a 64) := by
  simp [collective, ha, hs, hl, State.localOk_inside hin, hz, need_of, hok, hal, State.readLocal_clean hbad]

/-- The bytes of SRC that a member of variant `k` sends from: none of a `.bcast` member that is not the root (12 R236). -/
def CollDesc.srcLen (d : CollDesc) (k : Nat) : Nat :=
  if k = 2 then d.nmemb * d.bytes else if k = 1 ∧ d.rank ≠ d.root then 0 else d.bytes

/-- The buffer ranges that a member's sends write, by the brefs of GROUP. -/
def CollDesc.targets (d : CollDesc) (k : Nat) (bufs : List Word) : List (Word × Nat) :=
  (d.sends k bufs).map fun t => (t.2.2, d.bytes)

/-- What the checks of a collective of variant `k` find where they pass: R79 over SRC and GROUP, the translation of GROUP and its
brefs, R79 over the receive buffers that these name, and the translations of SRC and of the receive buffers (12 R229, R236). -/
structure State.CollChecked (s : State) (w : Who) (k : Nat) (d : CollDesc) (u u' v : State) (ps qs rs : List Tlb) : Prop where
  sources : s.checkOver [(d.src, d.srcLen k, rightR), (d.group, 8 * d.nmemb, rightR)] = .ok ()
  group : s.translateAll [(d.group, 8 * d.nmemb)] false = .ok (u, ps)
  quiet : s.bufHazard w (s.vaOf s.cur.cid d.group) (8 * d.nmemb) false = false
  receivers : (u.groupBufs d ps).1.checkOver ((d.targets k (u.groupBufs d ps).2).map fun x => (x.1, x.2, rightW)) = .ok ()
  source : (u.groupBufs d ps).1.translateAll [(d.src, d.srcLen k)] false = .ok (u', qs)
  targets : u'.translateAll (d.targets k (u.groupBufs d ps).2) true = .ok (v, rs)

section
variable {k : Nat} {d : CollDesc} {u u' v : State} {ps qs rs : List Tlb} (hk : o.fmt.toNat = k) (h : s.CollChecked w k d u u' v ps qs rs)
include hk h

/-- With its checks passed, the hub's verdict, the room of the counter and the member's own copies decide a collective. -/
theorem collIssue_checked :
    collIssue o w d s =
      if !s.collAllowed d k then .trap (trapOf .collMismatch) v
      else if s.tilesHeld w then .stay .interlock s
      else if (d.sends k (u.groupBufs d ps).2).any fun t => s.moveHazard w ⟨.buf t.2.1, .buf t.2.2, d.bytes⟩ then .stay .hazard s
      else
        let x := v.startColl w d k (d.sends k (u.groupBufs d ps).2) ((u.groupBufs d ps).2.getD d.rank 0) (ps ++ qs ++ rs)
        issued o 4 x.2 x.1 := by
  obtain ⟨hsources, hgroup, hquiet, hreceivers, hsource, htargets⟩ := h
  subst hk
  unfold CollDesc.targets at hreceivers htargets
  unfold CollDesc.srcLen at hsources hsource
  simp only [collIssue, hsources, hgroup, hquiet, hreceivers, hsource, htargets, Bool.false_eq_true, if_false]

theorem collIssue_mismatch (hallowed : s.collAllowed d k = false) : collIssue o w d s = .trap (trapOf .collMismatch) v := by
  rw [collIssue_checked hk h, hallowed]
  rfl

theorem collIssue_issues (hallowed : s.collAllowed d k = true) (hheld : s.tilesHeld w = false)
    (hz : ((d.sends k (u.groupBufs d ps).2).any fun t => s.moveHazard w ⟨.buf t.2.1, .buf t.2.2, d.bytes⟩) = false) :
    (collIssue o w d s).finish 8 = .next (afterIssue o 4
      (v.startColl w d k (d.sends k (u.groupBufs d ps).2) ((u.groupBufs d ps).2.getD d.rank 0) (ps ++ qs ++ rs))) := by
  rw [collIssue_checked hk h, hallowed, hheld, hz]
  rfl

end

/-! ### Near-bank queries (12 R248, 07 R118, R119) -/

theorem bankQuery_speculative (hs : s.cur.spec = true) : bankQuery o w s = .stay .spec s := if_pos hs

/-- A query whose descriptor lies aligned in the scratchpads, is written by no copy of the member, and can be read. -/
theorem bankQuery_reads {a : Nat} (ha : (s.x (fieldReg o.a)).toNat = a) (hs : s.cur.spec = false) (hin : s.inScratch a 544 = true)
    (hal : a % 32 = 0) (hbad : s.badLineIn a 544 = none) (hz : s.localHazard w a 544 false = false) :
    bankQuery o w s = queryIssue o w (s.queryDesc a) (s.rebuild a 544) := by
  simp [bankQuery, ha, hs, State.localOk_inside hin, hz, need_of, hal, State.readLocal_clean hbad]

/-- The engines that hold a query's key records (07 R115, R118). -/
def State.queryEngines (s : State) (cid : Nat) (d : QueryDesc) : List Nat :=
  keyEngines (s.vaOf cid d.kref % 0x200000) d.rs d.nkeys

/-- What checks 3 to 7 of a query find where they pass: the state of the port's translation, and the frame of the page (07 R118). -/
structure State.QueryChecked (s : State) (cid hole : Nat) (d : QueryDesc) (u : State) (frame : Nat) : Prop where
  context : s.cur.cid = cid
  fields : d.ok = true
  fits : d.holeFits (s.cur.team.hole hole) (s.queryEngines cid d).length = true
  ranges : s.checkOver [(d.kref, d.nkeys * d.rs, rightN), (d.vref, d.nkeys * d.rs, rightN)] = .ok ()
  port : s.nbPort d = .ok (u, frame)

section
variable {cid hole : Nat} {d : QueryDesc} {u : State} {frame : Nat} (hh : o.b.toNat = hole) (h : s.QueryChecked cid hole d u frame)
  (hheld : s.tilesHeld w = false)
include hh h hheld

/-- With its checks passed and room in its counter, the free slots of its pigeonhole decide a query. -/
theorem queryIssue_checked :
    queryIssue o w d s =
      if (s.cur.team.hole hole).free < (s.queryEngines cid d).length + 1 then .stay (.slot hole) s
      else
        let x := u.startQuery w d hole (s.vaOf cid d.kref % 0x200000) (s.vaOf cid d.vref % 0x200000) frame (s.queryEngines cid d)
        issued o 3 x.2 x.1 := by
  obtain ⟨rfl, hfields, hfits, hranges, hport⟩ := h
  subst hh
  unfold State.queryEngines at hfits ⊢
  simp only [queryIssue, need_of hfields, need_of hfits, hranges, thenCheck_ok, hport, hheld, Bool.false_eq_true, if_false]

theorem queryIssue_issues (hfree : (s.queryEngines cid d).length + 1 ≤ (s.cur.team.hole hole).free) :
    (queryIssue o w d s).finish 8 = .next (afterIssue o 3 (u.startQuery w d hole (s.vaOf cid d.kref % 0x200000)
      (s.vaOf cid d.vref % 0x200000) frame (s.queryEngines cid d))) := by
  rw [queryIssue_checked hh h hheld, if_neg (Nat.not_lt.mpr hfree)]
  rfl

theorem queryIssue_waits (hfree : (s.cur.team.hole hole).free < (s.queryEngines cid d).length + 1) :
    queryIssue o w d s = .stay (.slot hole) s := by
  rw [queryIssue_checked hh h hheld, if_pos hfree]

end
end

/-! ### The obligation -/

/-- Settles O43: a collective and a query read their descriptor, and then what their checks find decides. -/
theorem collectivesAndQueries : Obligations.CollectivesAndQueries := by
  unfold Obligations.CollectivesAndQueries
  intro o w s a cid after
  refine ⟨fun hi hs => by rw [exec_coll_issued hi, collective_speculative hs, Eff.finish_stay],
    fun hi hs => by rw [exec_nbq_issued hi, bankQuery_speculative hs, Eff.finish_stay], ?collective, ?query, fun i n h hi => ?cancel⟩
  case collective =>
    intro u u' v ps qs rs d r k len g sends dst hi hs hlent hin hok hal hbad hz hquiet hsources hgroup hreceivers hsource htargets
    have hread := collective_reads rfl hs hlent hin hok hal hbad hz
    have hchecked : r.CollChecked w k d u u' v ps qs rs :=
      ⟨hsources, hgroup, by rw [State.rebuild_cur]; exact hquiet, hreceivers, hsource, htargets⟩
    rw [exec_coll_issued hi, hread]
    exact ⟨fun hallowed => by rw [collIssue_mismatch rfl hchecked hallowed, Eff.finish_trap],
      fun hallowed hheld hmoves => collIssue_issues rfl hchecked hallowed hheld hmoves⟩
  case query =>
    intro u frame d r h koff es n hi hs hin hal hbad hz hok hfits hranges hport hheld
    have hread := bankQuery_reads rfl hs hin hal hbad hz
    have hchecked : r.QueryChecked cid h d u frame := ⟨congrArg Task.cid (s.rebuild_cur a 544), hok, hfits, hranges, hport⟩
    rw [exec_nbq_issued hi, hread]
    exact ⟨fun hfree => queryIssue_issues rfl hchecked hheld hfree,
      fun hfree => by rw [queryIssue_waits rfl hchecked hheld hfree, Eff.finish_stay]⟩
  case cancel => rw [exec_nbcan_issued h hi, bankCancel, Eff.finish_done]

end Sys2Proof.Machine
end

section
/-! Buffer loads, stores and atomics of a courier (12 R239-R242, 08 R141, 05 R91). -/

namespace Sys2Proof.Machine

section
variable {o : LF} {w : Who} {s u : State} {ps : List Tlb} {i : Instr} {rd : Reg} {b v : Word} {n len rights : Nat} {sx write : Bool}

/-! ### Instructions that issue -/

theorem exec_bld_issued (hi : s.issues w o (shapeBld o) {}) :
    exec (.bld o) s = (bufLoad w (fieldReg o.d) (s.x (fieldReg o.a) + o.b.signExtend 64) (2 ^ o.size) o.sx s).finish 8 := by
  rw [exec, execBld]
  exact issue_ok hi

theorem exec_bst_issued (hi : s.issues w o (shapeBst o) {}) :
    exec (.bst o) s = (bufStore w (s.x (fieldReg o.a) + o.d.signExtend 64) (s.x (fieldReg o.b)) (2 ^ o.size) s).finish 8 := by
  rw [exec, execBst]
  exact issue_ok hi

theorem exec_bamo_issued (hi : s.issues w o (shapeBamo o) {}) : exec (.bamo o) s = (bufAmo o w s).finish 8 := by
  rw [exec, execBamo]
  exact issue_ok hi

theorem exec_bcas_issued (hi : s.issues w o (shapeBcas o) {}) : exec (.bcas o) s = (bufCas o w s).finish 8 := by
  rw [exec, execBcas]
  exact issue_ok hi

/-- A courier's short buffer access ends as its access does (08 R141). -/
theorem shortBuf_courier (hf : s.focus = .member w) (hw : w ≠ .seq) (i : Instr) (e : Who → Eff) : shortBuf i s e = (e w).finish 4 := by
  rw [shortBuf_in_team hf]
  cases w with
  | seq => exact absurd rfl hw
  | ld | st => rfl

/-! ### The checks of an access (12 R239) -/

theorem State.bufAccess_misaligned (h : brefOff b % n ≠ 0) :
    s.bufAccess b n rights write = .error ⟨some (trapAt .align b n), s⟩ := if_pos h

theorem State.bufAccess_passes (ha : brefOff b % n = 0) (hc : s.passes s.cur.cid b n rights = true) :
    s.bufAccess b n rights write = s.translatePages s.memberAcc b n write := by
  rw [State.bufAccess, if_neg (not_not_intro ha), State.check_of_passes hc]

/-! ### Loads and stores (12 R240) -/

theorem bufLoad_misaligned (h : brefOff b % n ≠ 0) : bufLoad w rd b n sx s = .trap (trapAt .align b n) s := by
  rw [bufLoad, State.bufAccess_misaligned h]
  rfl

theorem bufLoad_reads (hacc : s.bufAccess b n rightR false = .ok (u, ps)) (hheld : s.loadHeld w = false)
    (hz : s.bufHazard w (s.vaOf s.cur.cid b) n false = false) :
    bufLoad w rd b n sx s = .done ((u.bufRead b ps n).1.setX rd (extendTo n sx (u.bufRead b ps n).2)) := by
  simp only [bufLoad, hacc, hheld, hz, Bool.false_eq_true, if_false]

theorem bufStore_misaligned (h : brefOff b % n ≠ 0) : bufStore w b v n s = .trap (trapAt .align b n) s := by
  rw [bufStore, State.bufAccess_misaligned h]
  rfl

theorem bufStore_writes (hacc : s.bufAccess b n rightW true = .ok (u, ps))
    (hz : s.bufHazard w (s.vaOf s.cur.cid b) n true = false) (hs : s.cur.spec = false) :
    bufStore w b v n s = .done (u.cacheWrites b ps (leBytes n v.toNat)) := by
  simp only [bufStore, hacc, hz, hs, Bool.false_eq_true, if_false]

/-- A speculative task's store goes into its own proof-store entry (06 R103). -/
theorem bufStore_speculative {u' : State} (hacc : s.bufAccess b n rightW true = .ok (u, ps))
    (hz : s.bufHazard w (s.vaOf s.cur.cid b) n true = false) (hs : s.cur.spec = true)
    (hp : u.proofWrites b ps (leBytes n v.toNat) = some u') : bufStore w b v n s = .done u' := by
  simp only [bufStore, hacc, hz, hs, hp, Bool.false_eq_true, if_false, if_true]

/-- How an instruction ends that is a buffer load. -/
theorem exec_of_bufLoad (h : exec i s = (bufLoad w rd b n sx s).finish len) :
    (brefOff b % n ≠ 0 → exec i s = .next (s.trapped (trapAt .align b n))) ∧
    (brefOff b % n = 0 → s.passes s.cur.cid b n rightR = true → s.translatePages s.memberAcc b n false = .ok (u, ps) →
      s.loadHeld w = false → s.bufHazard w (s.vaOf s.cur.cid b) n false = false →
      exec i s = .next (((u.bufRead b ps n).1.setX rd (extendTo n sx (u.bufRead b ps n).2)).completed len)) := by
  rw [h]
  exact ⟨fun ha => by rw [bufLoad_misaligned ha, Eff.finish_trap],
    fun ha hc ht hheld hz => by
      rw [bufLoad_reads ((State.bufAccess_passes ha hc).trans ht) hheld hz, Eff.finish_done]⟩

/-- How an instruction ends that is a buffer store. -/
theorem exec_of_bufStore (h : exec i s = (bufStore w b v n s).finish len) :
    (brefOff b % n ≠ 0 → exec i s = .next (s.trapped (trapAt .align b n))) ∧
    (brefOff b % n = 0 → s.passes s.cur.cid b n rightW = true → s.translatePages s.memberAcc b n true = .ok (u, ps) →
      s.bufHazard w (s.vaOf s.cur.cid b) n true = false →
      (s.cur.spec = false → exec i s = .next ((u.cacheWrites b ps (leBytes n v.toNat)).completed len)) ∧
      (∀ u', s.cur.spec = true → u.proofWrites b ps (leBytes n v.toNat) = some u' → exec i s = .next (u'.completed len))) := by
  rw [h]
  refine ⟨fun ha => by rw [bufStore_misaligned ha, Eff.finish_trap], fun ha hc ht hz => ?_⟩
  have hacc := (State.bufAccess_passes ha hc).trans ht
  exact ⟨fun hs => by rw [bufStore_writes hacc hz hs, Eff.finish_done],
    fun u' hs hp => by rw [bufStore_speculative hacc hz hs hp, Eff.finish_done]⟩

end

/-! ### The word an atomic reads (05 R91) -/

theorem leNat_lt (bs : List Byte) : leNat bs < 256 ^ bs.length := by
  induction bs with
  | nil => exact Nat.one_pos
  | cons c bs ih =>
    have hc : c.toNat < 256 := c.isLt
    rw [leNat, List.length_cons, pow_succ]
    omega

theorem linePieces_sum_le (fuel a n : Nat) : ((linePieces fuel a n).map Prod.snd).sum ≤ n := by
  induction fuel generalizing a n with
  | zero => exact Nat.zero_le n
  | succ fuel ih =>
    rw [linePieces]
    split
    · exact Nat.zero_le n
    · have := ih (a + min n (64 - a % 64)) (n - min n (64 - a % 64))
      simp only [List.map_cons, List.sum_cons]
      omega

/-- A fold whose steps each add at most a size to a measure adds at most the sum of the sizes. -/
theorem foldl_measure_le {α β : Type} {f : α → β → α} {measure : α → Nat} {size : β → Nat}
    (hf : ∀ x p, measure (f x p) ≤ measure x + size p) (l : List β) (x : α) :
    measure (l.foldl f x) ≤ measure x + (l.map size).sum := by
  induction l generalizing x with
  | nil => exact Nat.le_refl _
  | cons p l ih =>
    have h1 := hf x p
    have h2 := ih (f x p)
    simp only [List.foldl_cons, List.map_cons, List.sum_cons]
    omega

theorem State.homeReads_length_le (s : State) (src cid : Nat) (d : Desc) (ps : List Tlb) (va n : Nat) :
    (s.homeReads src cid d ps va n).2.1.length ≤ n := by
  have hsum : ((pieces va n).map Prod.snd).sum ≤ n := linePieces_sum_le _ va n
  refine (foldl_measure_le (measure := fun x : State × List Byte × List (Nat × Nat × Nat) => x.2.1.length) (size := Prod.snd)
    (fun x p => ?_) (pieces va n) _).trans ((Nat.zero_add _).trans_le hsum)
  split
  · simp
  · simp only [List.length_append, List.length_take]
    omega

/-- The operation at a home depends on what it makes of words of its size alone. -/
theorem State.homeAtomic_congr {f g : Nat → Nat} {n : Nat} (h : ∀ old < 256 ^ n, f old = g old) (s : State) (b : Word) (ps : List Tlb) :
    s.homeAtomic b ps n f = s.homeAtomic b ps n g := by
  have hold : leNat (s.homeReads s.ownDie s.cur.cid (s.desc s.cur.cid b) ps (s.vaOf s.cur.cid b) n).2.1 < 256 ^ n :=
    (leNat_lt _).trans_le (Nat.pow_le_pow_right (by decide) (s.homeReads_length_le ..))
  simp only [State.homeAtomic, h _ hold]

/-! ### Atomics (12 R241, R242) -/

theorem signedOf_bytes {n v : Nat} (hn : n ≠ 0) (h : v < 256 ^ n) :
    signedOf (8 * n) v = if 2 * v < 256 ^ n then (v : Int) else (v : Int) - (256 ^ n : Nat) := by
  have hpow : 2 ^ (8 * n) = 256 ^ n := pow_mul 2 8 n
  have hhalf : 2 * 2 ^ (8 * n - 1) = 256 ^ n := by rw [← pow_succ', Nat.sub_add_cancel (by omega), hpow]
  have hiff : v < 2 ^ (8 * n - 1) ↔ 2 * v < 256 ^ n := by omega
  have hint : (2 : Int) ^ (8 * n) = (256 ^ n : Nat) := by rw [← hpow, Nat.cast_pow, Nat.cast_ofNat]
  simp only [signedOf, hpow, Nat.mod_eq_of_lt h, hiff, hint]

/-- The operations of `bamo` by FMT, on words of `n` bytes (12 R241). -/
theorem amoNew_eq {n old c : Nat} (hn : n ≠ 0) (hold : old < 256 ^ n) (hc : c < 256 ^ n) (k : BitVec 4) :
    let m := 256 ^ n
    let sgn (v : Nat) : Int := if 2 * v < m then v else (v : Int) - m
    amoNew k.toNat n old c =
      if k = 0 then (old + c) % m else if k = 1 then old &&& c else if k = 2 then old ||| c
      else if k = 3 then old ^^^ c else if k = 4 then (if sgn c < sgn old then c else old)
      else if k = 5 then (if sgn old < sgn c then c else old)
      else if k = 6 then min old c else if k = 7 then max old c else c := by
  intro m sgn
  simp only [amoNew, signedOf_bytes hn hold, signedOf_bytes hn hc, BitVec.toNat_eq]
  split <;> simp_all [m, sgn]

theorem atomic_speculative {o : LF} {w : Who} {n : Nat} {f : Nat → Nat} {s : State} (hs : s.cur.spec = true) :
    atomic o w n f s = .stay .spec s := if_pos hs

/-- An atomic whose checks pass: in device or system scope the cluster's dirty lines are written back before the operation at the
home, and its lines invalidated after (05 R91). -/
theorem atomic_operates {o : LF} {w : Who} {n : Nat} {f : Nat → Nat} {s u : State} {ps : List Tlb} (hs : s.cur.spec = false)
    (hacc : s.bufAccess (s.x (fieldReg o.a)) n rightA true = .ok (u, ps))
    (hz : s.bufHazard w (s.vaOf s.cur.cid (s.x (fieldReg o.a))) n true = false)
    (hown : 1 ≤ o.scope → (s.ownCopies w).isEmpty = true) :
    atomic o w n f s =
      let x := (if 1 ≤ o.scope then u.wbAll s.cur.cluster s.cur.cid else u).homeAtomic (s.x (fieldReg o.a)) ps n f
      let v := if 1 ≤ o.scope then x.1.invAll s.cur.cluster s.cur.cid else x.1
      .done (v.external.setX (fieldReg o.d) (extendTo n o.sx x.2)) := by
  have hwait : (decide (1 ≤ o.scope) && !(s.ownCopies w).isEmpty) = false := by
    by_cases h : 1 ≤ o.scope
    · rw [hown h, Bool.not_true, Bool.and_false]
    · rw [decide_eq_false h, Bool.false_and]
  simp only [atomic, hs, hacc, hz, hwait, Bool.false_eq_true, if_false]

/-- How an instruction ends that is an atomic of some operation, which need be known on words of its size alone. -/
theorem exec_of_atomic {i : Instr} {o : LF} {w : Who} {n : Nat} {f g : Nat → Nat} {s u : State} {ps : List Tlb}
    (h : exec i s = (atomic o w n f s).finish 8) (hfg : ∀ old < 256 ^ n, f old = g old) :
    (s.cur.spec = true → exec i s = .next (s.blockWith .spec)) ∧
    (s.cur.spec = false → brefOff (s.x (fieldReg o.a)) % n = 0 → s.passes s.cur.cid (s.x (fieldReg o.a)) n rightA = true →
      s.translatePages s.memberAcc (s.x (fieldReg o.a)) n true = .ok (u, ps) →
      s.bufHazard w (s.vaOf s.cur.cid (s.x (fieldReg o.a))) n true = false →
      (decide (1 ≤ o.scope) = true → (s.ownCopies w).isEmpty = true) →
      let x := (if decide (1 ≤ o.scope) then u.wbAll s.cur.cluster s.cur.cid else u).homeAtomic (s.x (fieldReg o.a)) ps n g
      let v := if decide (1 ≤ o.scope) then x.1.invAll s.cur.cluster s.cur.cid else x.1
      exec i s = .next ((v.external.setX (fieldReg o.d) (extendTo n o.sx x.2)).completed 8)) := by
  rw [h]
  refine ⟨fun hs => by rw [atomic_speculative hs, Eff.finish_stay], fun hs ha hc ht hz hown => ?_⟩
  simp only [decide_eq_true_eq] at hown ⊢
  rw [atomic_operates hs ((State.bufAccess_passes ha hc).trans ht) hz hown, Eff.finish_done, State.homeAtomic_congr hfg]

/-! ### The obligation -/

/-- Settles O44: every load is one load, every store one store, and both atomics one atomic with its own operation. -/
theorem bufferMemory : Obligations.BufferMemory := by
  unfold Obligations.BufferMemory
  refine ⟨fun o w s u ps rd rs1 rs2 imm => ⟨?loads, ?stores⟩, fun o w s u ps => ?atomics⟩
  case loads =>
    simp only [List.forall_mem_cons]
    refine ⟨fun hi => exec_of_bufLoad (exec_bld_issued hi), ?_, ?_, ?_, ?_, fun _ hp => nomatch hp⟩
    all_goals exact fun ⟨hf, hw, _⟩ => exec_of_bufLoad (shortBuf_courier hf hw _ _)
  case stores =>
    simp only [List.forall_mem_cons]
    refine ⟨fun hi => exec_of_bufStore (exec_bst_issued hi), ?_, ?_, ?_, ?_, fun _ hp => nomatch hp⟩
    all_goals exact fun ⟨hf, hw, _⟩ => exec_of_bufStore (shortBuf_courier hf hw _ _)
  case atomics =>
    have hn : 2 ^ o.size ≠ 0 := (Nat.two_pow_pos _).ne'
    simp only [List.forall_mem_cons]
    exact ⟨fun hi => exec_of_atomic (exec_bamo_issued hi) fun _ hold =>
        amoNew_eq hn hold (Nat.mod_lt _ (Nat.pow_pos (by decide))) o.fmt,
      fun hi => exec_of_atomic (exec_bcas_issued hi) fun _ _ => rfl, fun _ hp => nomatch hp⟩

end Sys2Proof.Machine
end

section
/-! The task that `tenq` hands to the sorter (13 R250, R251, 02 R27). -/

namespace Sys2Proof.Machine

section
variable {o : LF} {w : Who} {s s1 u : State} {i : Instr} {n : Nat} {b : Word} {ps : List Tlb}

theorem exec_tenq_issued (h : spells .tenq .tenqShort shortLong o i n) (hi : s.issues w o (shapeTenq o) {}) :
    exec i s = (taskEnqueue o w s).finish n :=
  (exec_of_spells (run := runTenq) (fun _ _ => rfl) (fun _ _ _ _ => rfl) h s).trans (issue_ok hi)

theorem taskEnqueue_speculative (hs : s.cur.spec = true) : taskEnqueue o w s = .stay .spec s := if_pos hs

theorem taskEnqueue_misaligned (hb : s.x (fieldReg o.a) = b) (hs : s.cur.spec = false) (hown : s.ownCopies w = [])
    (ha : brefOff b % 128 ≠ 0) :
    taskEnqueue o w s = .trap (trapAt .align b 128) (s.wbAll s.cur.cluster s.cur.cid) := by
  simp [taskEnqueue, hb, hs, hown, ha]

/-- A TCB that can be read is judged by its checks and then by its state, as the sorter reads them. -/
theorem taskEnqueue_reads (h1 : s.wbAll s.cur.cluster s.cur.cid = s1) (hb : s.x (fieldReg o.a) = b)
    (hs : s.cur.spec = false) (hown : s.ownCopies w = []) (ha : brefOff b % 128 = 0)
    (hc : s1.passes s1.cur.cid b 128 (rightR ||| rightW) = true) (ht : s1.translatePages s1.memberAcc b 128 true = .ok (u, ps)) :
    taskEnqueue o w s =
      let v := u.devTouch u.sorterAcc b 128
      let t := parseTcb (v.devRead v.sorterAcc b 128)
      let x := v.devTouch (v.tcbAcc t) t.code 128
      if x.tcbOk s.cur.cid t = false then .trap { cause := .taskDesc, d1 := b, d2 := BitVec.ofNat 64 t.state } x
      else if t.state % 16 ∉ [0, 4, 7] then .trap { cause := .taskState, d1 := b, d2 := BitVec.ofNat 64 t.state } x
      else .done ((x.touchDecls t).registerTask b t).external := by
  simp only [taskEnqueue, h1, hb, hs, hown, ha, State.check_of_passes hc, ht, List.isEmpty_nil, Bool.not_true, Bool.false_eq_true,
    if_false, ne_eq, not_true, Bool.not_eq_true', List.contains_eq_mem, decide_eq_false_iff_not]

end

end Sys2Proof.Machine

namespace Sys2Proof
open Machine

/-- Settles O47: what the checks of the TCB find decides. -/
theorem taskEnqueue : Obligations.TaskEnqueue := by
  unfold Obligations.TaskEnqueue
  intro o w s i n b s1 h hi
  rw [exec_tenq_issued h hi]
  refine ⟨fun hs => by rw [taskEnqueue_speculative hs, Eff.finish_stay], fun hs hown =>
    ⟨fun ha => by rw [taskEnqueue_misaligned rfl hs hown ha, Eff.finish_trap], fun u ps ha hc ht => ?_⟩⟩
  rw [taskEnqueue_reads rfl rfl hs hown ha hc ht]
  exact ⟨fun hbad => by rw [if_pos hbad, Eff.finish_trap],
    fun hok hstate => by rw [if_neg (ne_false_of_eq_true hok), if_pos hstate, Eff.finish_trap],
    fun hok hstate => by rw [if_neg (ne_false_of_eq_true hok), if_neg (not_not_intro hstate), Eff.finish_done],
    rfl, rfl, rfl, rfl⟩

end Sys2Proof
end

section
/-! What a task asks about itself and its place, and the clearing of local bytes (13 R258, R259, R261, R266). -/

namespace Sys2Proof.Machine

section
variable {o : LF} {w : Who} {s u : State} {i : Instr} {n a len : Nat} {b c : Word} {ps : List Tlb}

/-! ### Instructions that issue -/

theorem exec_specq_issued (h : spells .specq .specqShort shortLong o i n) (hi : s.issues w o (shapeSpecq o) {}) :
    exec i s = .next ((s.setX (fieldReg o.d) s.cur.specWord).completed n) :=
  (exec_of_spells (run := runSpecq) (fun _ _ => rfl) (fun _ _ _ _ => rfl) h s).trans (issue_done hi rfl)

theorem exec_vdist_issued (h : spells .vdist .vdistShort shortLong o i n) (hi : s.issues w o (shapeVdist o) {}) :
    exec i s = .next ((s.setX (fieldReg o.d) (s.vdistance (s.x (fieldReg o.a)) (s.x (fieldReg o.b)))).completed n) :=
  (exec_of_spells (run := runVdist) (fun _ _ => rfl) (fun _ _ _ _ => rfl) h s).trans (issue_done hi rfl)

theorem exec_kstat_issued (h : spells .kstat .kstatShort shortLong o i n) (hi : s.issues w o (shapeKstat o) {}) :
    exec i s = (blockStat o s).finish n :=
  (exec_of_spells (run := runKstat) (fun _ _ => rfl) (fun _ _ _ _ => rfl) h s).trans (issue_ok hi)

theorem exec_scrub_issued (h : spells .scrub .scrubShort shortLong o i n) (hi : s.issues w o (shapeScrub o) {}) :
    exec i s = (scrubLocal o w s).finish n :=
  (exec_of_spells (run := runScrub) (fun _ _ => rfl) (fun _ _ _ _ => rfl) h s).trans (issue_ok hi)

/-! ### `specq` and `vdist` (13 R258, R259) -/

theorem Task.specWord_root {t : Task} (h : t.tcb = 0) : t.specWord = 0 := if_pos h

theorem Task.specWord_tcb {t : Task} (h : t.tcb ≠ 0) :
    t.specWord = BitVec.ofNat 64 (64 * t.slot1 + 16 * t.slot0 + (if t.spec then 2 * t.depth + 1 else 0)) := by
  rw [Task.specWord, if_neg h, Nat.mul_comm t.slot1, Nat.mul_comm t.slot0]

theorem State.vdistance_inside (hb : b.toNat < (s.vdies s.cur.cid).length) (hc : c.toNat < (s.vdies s.cur.cid).length) :
    s.vdistance b c =
      BitVec.ofNat 64 (s.hops ((s.vdies s.cur.cid).getD b.toNat 0) ((s.vdies s.cur.cid).getD c.toNat 0)) := if_pos ⟨hb, hc⟩

theorem State.vdistance_outside (h : (s.vdies s.cur.cid).length ≤ b.toNat ∨ (s.vdies s.cur.cid).length ≤ c.toNat) :
    s.vdistance b c = BitVec.allOnes 64 := if_neg fun ⟨hb, hc⟩ => h.elim (Nat.not_le.mpr hb) (Nat.not_le.mpr hc)

/-! ### `kstat` (13 R261) -/

theorem blockStat_reads {p : Page} (hb : s.x (fieldReg o.a) = b) (hc : s.passes s.cur.cid b 1 rightR = true)
    (ht : s.translatePages s.memberAcc b 1 false = .ok (u, ps)) (hp : pageOf ps (s.vaOf s.cur.cid b) = some p) :
    blockStat o s =
      let pa := p.at (s.vaOf s.cur.cid b)
      let v := u.settle pa
      .done (v.setX (fieldReg o.d) (v.blockWord (v.block pa) (s.desc s.cur.cid b).keyslot p.nb)) := by
  simp only [blockStat, hb, State.check_of_passes hc, ht, hp]

/-! ### `scrub` (13 R266) -/

theorem need_fails {c : Bool} {t : Trap} (h : c = false) : need c t = .error t := if_neg (Bool.eq_false_iff.mp h)

theorem scrubLocal_empty (hn : (s.x (fieldReg o.b)).toNat = 0) : scrubLocal o w s = .done s := if_pos hn

theorem scrubLocal_outside (hb : s.x (fieldReg o.a) = b) (hl : (s.x (fieldReg o.b)).toNat = len) (hn : len ≠ 0)
    (hin : s.inScratch b.toNat len = false) : scrubLocal o w s = .trap (trapAt .localAddr b len) s := by
  simp [scrubLocal, hb, hl, hn, State.localOk_outside hin]

theorem scrubLocal_misaligned (hb : s.x (fieldReg o.a) = b) (hl : (s.x (fieldReg o.b)).toNat = len) (hn : len ≠ 0)
    (hin : s.inScratch b.toNat len = true) (ha : b.toNat % 64 ≠ 0 ∨ len % 64 ≠ 0) :
    scrubLocal o w s = .trap (trapAt .align b len) s := by
  have hneed : (b.toNat % 64 == 0 && len % 64 == 0) = false := by simpa [← Decidable.not_and_iff_or_not] using ha
  simp [scrubLocal, hb, hl, hn, State.localOk_inside hin, need_fails hneed]

theorem scrubLocal_zeroes (ha : (s.x (fieldReg o.a)).toNat = a) (hl : (s.x (fieldReg o.b)).toNat = len) (hn : len ≠ 0)
    (hin : s.inScratch a len = true) (haa : a % 64 = 0) (hal : len % 64 = 0) (hz : s.localHazard w a len true = false) :
    scrubLocal o w s = .done (s.setLocalBytes a (List.replicate len 0)) := by
  simp [scrubLocal, ha, hl, hn, State.localOk_inside hin, need_of, haa, hal, hz]

end

/-! ### The obligation -/

/-- Settles O49: each query and each range by what its checks find. -/
theorem taskQueries : Obligations.TaskQueries := by
  unfold Obligations.TaskQueries
  intro o w s i n b len
  refine ⟨fun h hi => ?specq, fun h hi => ?vdist, fun u ps p h hi hc ht hp => ?kstat, fun h hi => ?scrub⟩
  case specq =>
    rw [exec_specq_issued h hi]
    exact ⟨fun hz => by rw [Task.specWord_root hz], fun hz => by rw [Task.specWord_tcb hz]⟩
  case vdist =>
    rw [exec_vdist_issued h hi]
    exact ⟨fun hb hc => by rw [State.vdistance_inside hb hc], fun ho => by rw [State.vdistance_outside ho]⟩
  case kstat => rw [exec_kstat_issued h hi, blockStat_reads rfl hc ht hp, Eff.finish_done]
  case scrub =>
    rw [exec_scrub_issued h hi]
    exact ⟨fun hn => by rw [scrubLocal_empty hn, Eff.finish_done],
      fun hn hin => by rw [scrubLocal_outside rfl rfl hn hin, Eff.finish_trap],
      fun hn hin ha => by rw [scrubLocal_misaligned rfl rfl hn hin ha, Eff.finish_trap],
      fun hn hin haa hal hz => by rw [scrubLocal_zeroes rfl rfl hn hin haa hal hz, Eff.finish_done]⟩

end Sys2Proof.Machine
end

section
/-! A release leaves every task as it is: the write-back of cached lines, and what has to arrive before (05 R81, R94, 22 R373). -/

namespace Sys2Proof.Machine.State.TasksOf

variable {r s : State}

theorem settle (h : r.TasksOf s) {pa : Nat} : r.TasksOf (s.settle pa) := h.settleOut.reportErrors

theorem unlock (h : r.TasksOf s) {pa : Nat} : r.TasksOf (s.unlock pa) := h.unlockOut.reportErrors

theorem lineWrite (h : r.TasksOf s) {cid slot : Nat} {nb : Bool} {b : Word} {pa : Nat} {data : BitVec 512} {mask : BitVec 64} :
    r.TasksOf (s.lineWrite cid slot nb b pa data mask) := (h.lineOut (b := b)).reportErrors

theorem settleWhere (h : r.TasksOf s) {p : Txn → Bool} : r.TasksOf (s.settleWhere p) :=
  (h.foldl fun _ _ hu => hu.unlock).arriveOut.reportErrors.foldl fun _ _ hu => hu.unlock

theorem crossPort (h : r.TasksOf s) {part pkg : Nat} : r.TasksOf (s.crossPort part pkg) := by
  unfold State.crossPort State.setPort
  dsimp only
  split <;> exact h

theorem cross (h : r.TasksOf s) {cid src pa : Nat} : r.TasksOf (s.cross cid src pa) :=
  have hu := h.arriveOut.reportErrors.settle.burstTaken.burstTaken
  hu.crossPort.ite hu

theorem putCache (h : r.TasksOf s) {l : CacheLine} : r.TasksOf (s.putCache l) := h

theorem writeBack (h : r.TasksOf s) {l : CacheLine} : r.TasksOf (s.writeBack l) := h.ite h.cross.lineWrite.unlock.putCache

theorem wbRange (h : r.TasksOf s) {c cid va n : Nat} : r.TasksOf (s.wbRange c cid va n) :=
  h.settleWhere.foldl fun _ _ hu => hu.writeBack

theorem childAdded (h : r.TasksOf s) {cid id : Nat} : r.TasksOf (s.childAdded cid id) := by
  unfold State.childAdded
  split <;> exact h

end Sys2Proof.Machine.State.TasksOf
end

section
/-! The ends of a team's members, child launches and waits on a word (13 R252-R257, 02 R20, 06 R107, 20 R339). -/

namespace Sys2Proof.Machine

section
variable {o : LF} {w : Who} {s : State} {i : Instr} {n : Nat}

/-! ### Instructions that issue -/

theorem exec_tend_issued (h : spells .tend (fun _ _ _ => .tendShort) (fun _ _ _ => shortLF 0 0 0 0) o i n)
    (hi : s.issues w o (shapeTend o) {}) : exec i s = (taskEnd w s).finish n :=
  (exec_of_spells (run := runTend) (fun _ _ => rfl) (fun _ _ _ _ => rfl) h s).trans (issue_ok hi)

theorem exec_tyield_issued (h : spells .tyield (fun _ _ _ => .tyieldShort) (fun _ _ _ => shortLF 0 0 0 0) o i n)
    (hi : s.issues w o (shapeTyield o) {}) : exec i s = (taskYield s).finish n :=
  (exec_of_spells (run := runTyield) (fun _ _ => rfl) (fun _ _ _ _ => rfl) h s).trans (issue_ok hi)

theorem exec_tabort_issued (h : spells .tabort .tabortShort shortLong o i n) (hi : s.issues w o (shapeTabort o) {}) :
    exec i s = (taskAbort o s).finish n :=
  (exec_of_spells (run := runTabort) (fun _ _ => rfl) (fun _ _ _ _ => rfl) h s).trans (issue_ok hi)

theorem exec_lnch_issued (hi : s.issues w o (shapeLnch o) {}) : exec (.lnch o) s = (launchChild o w s).finish 8 := by
  rw [exec, execLnch]
  exact issue_ok hi

theorem exec_twait_issued (hi : s.issues w o (shapeTwait o) {}) : exec (.twait o) s = (wordWait o w s).finish 8 := by
  rw [exec, execTwait]
  exact issue_ok hi

/-! ### The end of a member (13 R252, R253, 06 R107) -/

/-- Nothing of a member is in flight: no result and no matrix operation of the sequencer, no copy and no tile operation of a courier. -/
def State.idle (s : State) (w : Who) : Prop :=
  if w = .seq then s.cur.team.landings = [] ∧ s.cur.team.matBusy = 0 else s.ownCopies w = [] ∧ s.courierTiles w = 0

/-- Every member but one has ended. -/
def State.lastMember (s : State) (w : Who) : Bool := w.others.all fun v => (s.member v).ended

theorem taskEnd_idle (h : s.idle w) :
    taskEnd w s = if s.lastMember w && s.holding then .trap (trapOf .syncState) s else .done (s.endMember w).park := by
  unfold State.idle at h
  cases w <;> simp_all [taskEnd, State.lastMember]

theorem taskEnd_busy_seq (h : ¬ s.idle .seq) : taskEnd .seq s = .drain (s.blockWith .tend) := by
  refine if_pos ?_
  simpa [State.idle, Decidable.not_and_iff_or_not, imp_iff_not_or] using h

theorem taskEnd_busy_courier (hw : w ≠ .seq) (h : ¬ s.idle w) : taskEnd w s = .stay .tend s := by
  rw [State.idle, if_neg hw] at h
  cases w with
  | seq => exact absurd rfl hw
  | ld | st => exact if_pos (by simpa [imp_iff_not_or] using h)

theorem State.endMember_last (h : s.lastMember w = true) :
    s.endMember w =
      let ended := s.setMember w { s.member w with ended := true }
      ended.setTeam { ended.cur.team with tq := Vector.replicate 8 [] } := if_pos h

theorem State.endMember_not_last (h : s.lastMember w = false) :
    s.endMember w = s.setMember w { s.member w with ended := true } := if_neg (Bool.eq_false_iff.mp h)

theorem State.endMember_spec (s : State) (w : Who) : (s.endMember w).cur.spec = s.cur.spec := by
  unfold State.endMember
  dsimp only
  split <;> rfl

/-- All members have ended as soon as the one that ends is the last. -/
theorem State.endMember_allEnded (s : State) (w : Who) : (s.endMember w).cur.allEnded = s.lastMember w := by
  have h : (s.endMember w).cur.allEnded = (s.setMember w { s.member w with ended := true }).cur.allEnded := by
    unfold State.endMember
    dsimp only
    split <;> rfl
  rw [h]
  cases w <;> simp [State.lastMember, Who.others, Task.allEnded, State.setMember, State.setTeam, State.member, Team.setMember, Team.member]

theorem State.park_running (h : s.cur.allEnded = false) : s.park = s := if_neg (by simp_all [Task.allEnded])

theorem State.park_certain (h : s.cur.spec = false) : s.park = s := if_neg (by simp [h])

/-! ### `tyield` and `tabort` (13 R254, R255) -/

theorem taskYield_makesWay (h : s.othersWait = true) :
    taskYield s = .done { s with cur := { s.cur with stop := some (.save 6) } } := if_pos h

theorem taskYield_alone (h : s.othersWait = false) : taskYield s = .done s := if_neg (Bool.eq_false_iff.mp h)

end

/-! ### The record in its queue (20 R339) -/

theorem State.part_setPart (s : State) {p : Nat} (hp : p < 8) (v : Part) : (s.setPart p v).part p = v := by
  simp [State.setPart, State.part, hp]

theorem Part.queue_setQueue (p : Part) (q : Nat) (v : Queue) : (p.setQueue q v).queue q = some v := by
  simp [Part.setQueue, Part.queue]

section
variable {s : State} {part q : Nat} {v : Queue} {a : Acc} {p : Posted} {bs : List Byte}

/-- A queue with room does not stall by the record it takes. -/
theorem State.enqueueRecord_stalled (hp : part < 8) (hv : v.stall = false) (ht : v.tail < 62) :
    (s.enqueueRecord part q v a p bs).stalled part q = false := by
  simp [State.enqueueRecord, ht, State.stalled, State.part_setPart, hp, Part.queue_setQueue, hv]

theorem State.TasksOf.enqueueRecord {r : State} (h : r.TasksOf s) (ht : v.tail < 62) :
    r.TasksOf (s.enqueueRecord part q v a p bs) := by
  unfold State.enqueueRecord
  dsimp only
  rw [if_pos ht]
  exact h.devWrite.setPart

theorem State.childAdded_stalled (s : State) (cid id : Nat) : (s.childAdded cid id).stalled part q = s.stalled part q := by
  unfold State.childAdded
  split <;> rfl

end

/-! ### `lnch` (13 R256) -/

/-- What a read of local space rebuilds is the errors of its lines alone. -/
theorem State.rebuild_only (s : State) (a n : Nat) : ∃ bad, s.rebuild a n = { s with clusBad := bad } := by
  unfold State.rebuild
  split <;> exact ⟨_, rfl⟩

section
variable {o : LF} {w : Who} {s : State} {q : Nat} {v : Queue} {bs : List Byte}

/-- No copy of the task is among those that would still write its ranges. -/
theorem State.no_own_copy (h : ∀ c ∈ s.copies, c.task ≠ s.cur.id) (f : Copy → Bool) :
    (s.copies.any fun c => c.task == s.cur.id && f c) = false := by
  simpa using fun c hc he => absurd he (h c hc)

/-- The visibility ranges of a record that name bytes. -/
def recordRanges (bs : List Byte) : List (Word × Nat) := (visRanges bs).filter fun r => r.2 != 0

/-- The ranges released, in the issuer's cluster (13 R256, R264). -/
def State.released (s : State) (cluster cid : Nat) (rs : List (Word × Nat)) : State :=
  rs.foldl (fun (u : State) r => u.wbRange cluster cid (u.vaOf cid r.1) r.2) s

/-- A `lnch` with no copy of its task in flight, to a queue that takes its record. -/
theorem launchPost_posts (hown : ∀ c ∈ s.copies, c.task ≠ s.cur.id) (hp : s.cur.part < 8) (hv : v.stall = false) (ht : v.tail < 62) :
    let s1 := s.released s.cur.cluster s.cur.cid (recordRanges bs)
    let p : Posted := ⟨s.cur.launch, if s.cur.stepping = some w then some s.cur.id else none, false⟩
    let s2 := (s1.enqueueRecord s.cur.part q v { s1.memberAcc with cluster := none } p bs).childAdded s.cur.cid s.cur.launch
    launchPost w q v bs s = if s.cur.stepping = some w then .doneWith s2.external (BitVec.ofNat 64 q) 1 else .done s2.external := by
  intro s1 p s2
  have hstalled : s2.stalled s.cur.part q = false := (State.childAdded_stalled ..).trans (State.enqueueRecord_stalled hp hv ht)
  have hcur : s2.cur = s.cur :=
    (((State.TasksOf.refl s).foldl fun _ _ hu => hu.wbRange).enqueueRecord ht).childAdded.cur_eq
  have hends : launchEnds w q s2 =
      if s.cur.stepping = some w then .doneWith s2.external (BitVec.ofNat 64 q) 1 else .done s2.external := by rw [launchEnds, hcur]
  unfold launchPost
  dsimp only
  rw [← hends, if_neg (Bool.eq_false_iff.mp (State.no_own_copy hown _)), if_neg (Bool.eq_false_iff.mp hv)]
  exact if_neg (Bool.eq_false_iff.mp hstalled)

theorem launchPost_stalls (hown : ∀ c ∈ s.copies, c.task ≠ s.cur.id) (hv : v.stall = true) :
    launchPost w q v bs s = .stay (.reservePool none) (s.released s.cur.cluster s.cur.cid (recordRanges bs)) := by
  unfold launchPost
  dsimp only
  rw [if_neg (Bool.eq_false_iff.mp (State.no_own_copy hown _)), if_pos hv]
  rfl

/-- The checks of a first try that pass lead to the queue (13 R256). -/
theorem launchChild_checked {a : Nat} (ha : (s.x (fieldReg o.a)).toNat = a) (hq : (s.x (fieldReg o.b)).toNat = q)
    (hw : (s.member w).wait = none) (hs : s.cur.spec = false) (hin : s.inScratch a 64 = true) (hal : a % 64 = 0)
    (hz : s.localHazard w a 64 false = false) (hbad : s.badLineIn a 64 = none) (hqueue : s.queueOf s.cur.cid q = some v)
    (hvis : ((visRanges (s.localBytes a 64)).any fun r => r.2 == 0 && r.1 != 0) = false)
    (hc : (s.rebuild a 64).checkAll (recordRanges (s.localBytes a 64)) rightR = .ok ()) :
    launchChild o w s = launchPost w q v (s.localBytes a 64) (s.rebuild a 64) := by
  have hnew : launchChild o w s = launchNew o w s := by rw [launchChild, State.launchHeld, hw]
  rw [recordRanges] at hc
  rw [hnew]
  simp only [launchNew, ha, hq, hs, State.localOk_inside hin, need_of, hal, hz, State.readLocal_clean hbad, hqueue, hvis, hc,
    thenCheck_ok, Bool.false_eq_true, if_false, beq_self_eq_true]

end

/-! ### `twait` (13 R257, 18 R316, 19 R325) -/

/-- The conditions of `twait` by COND, on words of `n` bytes (13 R257). -/
theorem waitCond_eq {n v k : Nat} (hn : n ≠ 0) (hv : v < 256 ^ n) (hk : k < 256 ^ n) (cond : Nat) :
    let m := 256 ^ n
    let sgn (v : Nat) : Int := if 2 * v < m then v else (v : Int) - m
    waitCond cond (8 * n) v k =
      if cond = 0 then v == k else if cond = 1 then v != k else if cond = 2 then v < k else if cond = 3 then k ≤ v
      else if cond = 4 then sgn v < sgn k else sgn k ≤ sgn v := by
  intro m sgn
  unfold waitCond
  rw [signedOf_bytes hn hv, signedOf_bytes hn hk]
  split <;> simp_all [m, sgn]

section
variable {o : LF} {w : Who} {s u : State} {b : Word} {n : Nat} {desc : List Byte} {ps : List Tlb} {report : Bool}

/-- What `twait` goes by at its first try, with its checks passed, and while it waits: a descriptor, and whether a failing line is
reported (13 R257, 18 R316, 19 R325). -/
def State.WaitsBy (s : State) (w : Who) (b : Word) (n : Nat) (desc : List Byte) (report : Bool) : Prop :=
  ((∀ a k x f d, (s.member w).wait ≠ some (.twait a k x f d)) ∧ brefOff b % n = 0 ∧ s.passes s.cur.cid b n rightA = true ∧
      desc = s.descBytes s.cur.cid b ∧ report = true) ∨
    (∃ a k x f, (s.member w).wait = some (.twait a k x f desc) ∧ report = !f)

theorem State.WaitsBy.waitDesc (h : s.WaitsBy w b n desc report) : s.waitDesc w b n = .ok desc := by
  obtain ⟨hfirst, ha, hc, rfl, -⟩ | ⟨a, k, x, f, hw, -⟩ := h
  · unfold State.waitDesc
    split
    next e => exact absurd e (hfirst _ _ _ _ _)
    · rw [if_neg (not_not_intro ha), State.check_of_passes hc]
  · rw [State.waitDesc, hw]

/-- The word is read at its home after the cluster's dirty lines are written back, and the condition decides between the completion
and the wait. -/
theorem wordWait_reads (hb : s.x (fieldReg o.a) = b) (hn : (if o.sub.getLsbD 3 then 8 else 4) = n) (hs : s.cur.spec = false)
    (h : s.WaitsBy w b n desc report) (ht : s.translateUnder (parseDesc desc) s.memberAcc b n false = .ok (u, ps))
    (hown : s.ownCopies w = []) :
    wordWait o w s =
      let va := (parseDesc desc).vbase + brefOff b
      let x := (u.wbAll s.cur.cluster s.cur.cid).waitRead (parseDesc desc) b ps va n report
      if waitCond (o.sub.extractLsb' 0 3).toNat (8 * n) (x.2.1 &&& (s.x (fieldReg o.d)).toNat % 256 ^ n)
          ((s.x (fieldReg o.b)).toNat % 256 ^ n) then
        .done ((x.1.invAll s.cur.cluster s.cur.cid).external.setX (fieldReg o.d) (BitVec.ofNat 64 x.2.1))
      else .stay (.twait va n (BitVec.ofNat 64 x.2.1) x.2.2 desc) x.1 := by
  unfold wordWait
  dsimp only
  rw [if_neg (Bool.eq_false_iff.mp hs), hb, hn, h.waitDesc]
  dsimp only
  rw [ht]
  dsimp only
  rw [if_neg (by simp [hown])]
  obtain ⟨hfirst, -, -, -, rfl⟩ | ⟨a, k, x, f, hw, rfl⟩ := h
  · -- `hfirst` leaves the match its default alone: a first try reports.
    simp only []
  · rw [hw]

end

/-! ### The obligation -/

/-- Settles O48: what is in flight and who is left decide the end of a member, the queue a child launch, the condition a wait. -/
theorem taskControl : Obligations.TaskControl := by
  unfold Obligations.TaskControl
  refine ⟨fun o w s i n => ?ends, fun o w s => ⟨fun v => ?lnch, fun u ps desc report => ?twait⟩⟩
  case ends =>
    intro t idle ended last
    refine ⟨fun h hi => ?tend, fun h hi => ?tyield, fun h hi => ?tabort⟩
    case tend =>
      rw [exec_tend_issued h hi]
      have hends (hq : s.idle w) (hl : s.lastMember w = true → s.holding = false) :
          (taskEnd w s).finish n = .next ((s.endMember w).park.completed n) := by
        rw [taskEnd_idle hq, if_neg (by simpa using hl), Eff.finish_done]
      refine ⟨fun hq hl => ?_, fun hq hl hh => ?_, fun hq hl hh hs => ?_, fun hq hl hh hs => ?_, fun hb hw => ?_, fun hb hw => ?_⟩
      · rw [hends hq fun h => absurd h (Bool.eq_false_iff.mp hl), State.park_running ((s.endMember_allEnded w).trans hl),
          State.endMember_not_last hl]
      · rw [taskEnd_idle hq, if_pos (by simpa using ⟨hl, hh⟩), Eff.finish_trap]
      · rw [hends hq fun _ => hh, State.park_certain ((s.endMember_spec w).trans hs), State.endMember_last hl]
      · exact ⟨hends hq fun _ => hh, (s.endMember_allEnded w).trans hl⟩
      · subst hw
        rw [taskEnd_busy_seq hb, Eff.finish_drain]
      · rw [taskEnd_busy_courier hw hb, Eff.finish_stay]
    case tyield =>
      rw [exec_tyield_issued h hi]
      exact ⟨fun hw => by rw [taskYield_makesWay hw, Eff.finish_done], fun hw => by rw [taskYield_alone hw, Eff.finish_done]⟩
    case tabort => rw [exec_tabort_issued h hi, taskAbort, Eff.finish_trap]
  case lnch =>
    intro q bs ranges r held hi hw hs hin hal hz hbad hqueue hpart hp8 hvis hc hown s1 s2
    obtain ⟨bad, hr⟩ := s.rebuild_only (s.x (fieldReg o.a)).toNat 64
    have hchecked := launchChild_checked rfl rfl hw hs hin hal hz hbad hqueue hvis hc
    have hcur : r.cur = s.cur := s.rebuild_cur _ _
    have hquiet : ∀ c ∈ r.copies, c.task ≠ r.cur.id := by
      simp only [r, hr]
      exact hown
    refine ⟨fun hv => ?_, fun hv ht => ?_⟩
    · rw [exec_lnch_issued hi, hchecked, launchPost_stalls hquiet hv, Eff.finish_stay, hcur]
      rfl
    · have hends : exec (.lnch o) s =
          (if s.cur.stepping = some w then Eff.doneWith s2.external (BitVec.ofNat 64 q) 1 else .done s2.external).finish 8 := by
        rw [exec_lnch_issued hi, hchecked, launchPost_posts hquiet (hcur ▸ hp8) hv ht, hcur]
        rfl
      have hheld : held = none ↔ s.cur.stepping ≠ some w := by simp [held]
      exact ⟨fun hh => by rw [hends, if_neg (hheld.mp hh), Eff.finish_done],
        fun hh => by rw [hends, if_pos (not_not.mp (hheld.not.mp hh)), Eff.finish_doneWith]⟩
  case twait =>
    intro n m b sgn d va x v k cond holds hi hs h ht hown
    have hn : n ≠ 0 := by unfold n; split <;> decide
    have hk (c : Nat) : c % 256 ^ n < 256 ^ n := Nat.mod_lt _ (Nat.pow_pos (by decide))
    have hcond : waitCond cond (8 * n) v k = holds := waitCond_eq hn (Nat.and_le_right.trans_lt (hk _)) (hk _) cond
    have hends := wordWait_reads rfl rfl hs h ht hown
    rw [exec_twait_issued hi, hends]
    exact ⟨fun hh => by rw [if_pos (hcond.trans hh), Eff.finish_done],
      fun hh => by rw [if_neg (Bool.eq_false_iff.mp (hcond.trans hh)), Eff.finish_stay]⟩

end Sys2Proof.Machine
end

section
/-! Key rotation and dead ranges (13 R260, R267, 22 R369, R374). -/

namespace Sys2Proof.Machine

section
variable {o : LF} {w : Who} {s u : State} {b : Word} {n va : Nat} {ps : List Tlb}

/-! ### Instructions that issue -/

theorem exec_krot_issued (hi : s.issues w o (shapeKrot o) {}) : exec (.krot o) s = (rotateKeys o w s).finish 8 := by
  rw [exec, execKrot]
  exact issue_ok hi

theorem exec_mdead_issued (hi : s.issues w o (shapeMdead o) {}) : exec (.mdead o) s = (markDeadRange o w s).finish 8 := by
  rw [exec, execMdead]
  exact issue_ok hi

/-! ### `krot` (13 R260) -/

theorem rotateKeys_speculative (hs : s.cur.spec = true) : rotateKeys o w s = .stay .spec s := if_pos hs

theorem rotateKeys_refused (hl : (s.x (fieldReg o.b)).toNat = n) (hs : s.cur.spec = false) (h : n % 4096 ≠ 0 ∨ 1048576 < n) :
    rotateKeys o w s = .trap (trapOf .illegalOperand) s := by
  subst hl
  exact (if_neg (Bool.eq_false_iff.mp hs)).trans (if_pos h)

theorem rotateKeys_empty (hs : s.cur.spec = false) (hn : (s.x (fieldReg o.b)).toNat = 0) :
    rotateKeys o w s = .done (s.external.setX (fieldReg o.d) 0) :=
  (if_neg (Bool.eq_false_iff.mp hs)).trans ((if_neg (by simp [hn])).trans (if_pos hn))

theorem rotateKeys_misaligned (hb : s.x (fieldReg o.a) = b) (hl : (s.x (fieldReg o.b)).toNat = n) (hs : s.cur.spec = false)
    (h0 : n ≠ 0) (h1 : n % 4096 = 0) (h2 : n ≤ 1048576) (ha : s.vaOf s.cur.cid b % 4096 ≠ 0) :
    rotateKeys o w s = .trap (trapAt .align b n) s := by
  subst hb hl
  exact (if_neg (Bool.eq_false_iff.mp hs)).trans ((if_neg (by omega)).trans ((if_neg h0).trans (if_pos ha)))

/-- One more block of a rotated range, and the count of those that failed. -/
def rotateInto (b : Word) (slot : Nat) (ps : List Tlb) (x : State × Nat) (a : Nat) : State × Nat :=
  match pageOf ps a with
  | none => x
  | some p => ((x.1.rotateBlock b a (p.at a) slot).1, x.2 + (x.1.rotateBlock b a (p.at a) slot).2)

theorem rotateKeys_rotates (hb : s.x (fieldReg o.a) = b) (hl : (s.x (fieldReg o.b)).toNat = n) (hva : s.vaOf s.cur.cid b = va)
    (hs : s.cur.spec = false) (h0 : n ≠ 0) (h1 : n % 4096 = 0) (h2 : n ≤ 1048576) (ha : va % 4096 = 0)
    (hc : s.passes s.cur.cid b n (rightR ||| rightW) = true) (ht : s.translatePages s.memberAcc b n true = .ok (u, ps))
    (hz : s.bufHazard w va n true = false) :
    rotateKeys o w s =
      let x := (blockStarts va n).foldl (rotateInto b (s.desc s.cur.cid b).keyslot ps) (u, 0)
      .done (x.1.external.setX (fieldReg o.d) (BitVec.ofNat 64 x.2)) := by
  have hlen : ¬ (n % 4096 ≠ 0 ∨ 1048576 < n) := by omega
  unfold rotateKeys
  dsimp only
  rw [hb, hl, hva, if_neg (Bool.eq_false_iff.mp hs), if_neg hlen, if_neg h0, if_neg (not_not_intro ha), State.check_of_passes hc]
  dsimp only
  rw [ht]
  exact if_neg (Bool.eq_false_iff.mp hz)

/-! ### `mdead` (13 R267) -/

theorem markDeadRange_speculative (hs : s.cur.spec = true) : markDeadRange o w s = .stay .spec s := if_pos hs

theorem markDeadRange_empty (hs : s.cur.spec = false) (hn : (s.x (fieldReg o.b)).toNat = 0) :
    markDeadRange o w s = .done s.external := (if_neg (Bool.eq_false_iff.mp hs)).trans (if_pos hn)

section
variable (hb : s.x (fieldReg o.a) = b) (hl : (s.x (fieldReg o.b)).toNat = n) (hva : s.vaOf s.cur.cid b = va) (hs : s.cur.spec = false)
  (h0 : n ≠ 0)
include hb hl hva hs h0

theorem markDeadRange_misaligned (ha : va % 4096 ≠ 0 ∨ n % 4096 ≠ 0) : markDeadRange o w s = .trap (trapAt .align b n) s := by
  subst hb hl hva
  exact (if_neg (Bool.eq_false_iff.mp hs)).trans ((if_neg h0).trans (if_pos ha))

variable (ha : va % 4096 = 0) (hn : n % 4096 = 0) (hc : s.passes s.cur.cid b n rightW = true)
include ha hn hc

theorem markDeadRange_without_de (hde : (s.desc s.cur.cid b).de = false) :
    markDeadRange o w s = .trap (trapAt .bufRights b n) s := by
  unfold markDeadRange
  dsimp only
  rw [hb, hl, hva, if_neg (Bool.eq_false_iff.mp hs), if_neg h0, if_neg (by simp [ha, hn]), State.check_of_passes hc]
  exact if_pos (by simp [hde])

/-- The blocks of a range marked dead, each with what its lock holds performed before (22 R374). -/
def State.killBlocks (s : State) (ps : List Tlb) (as : List Nat) : State :=
  as.foldl (fun (x : State) a => match pageOf ps a with
    | none => x
    | some p => x.killBlock (p.at a)) s

theorem markDeadRange_kills (hde : (s.desc s.cur.cid b).de = true) (hnb : ∀ a ∈ blockStarts va n, s.onNbPage a = false)
    (ht : s.translatePages s.memberAcc b n true = .ok (u, ps)) (hz : s.bufHazard w va n true = false) :
    markDeadRange o w s =
      let u2 := (u.wbRange s.cur.cluster s.cur.cid va n).killBlocks ps (blockStarts va n)
      .done (u2.invRange s.cur.cluster s.cur.cid va n).external := by
  have hany : (blockStarts va n).any s.onNbPage = false := by simpa using hnb
  unfold markDeadRange
  dsimp only
  rw [hb, hl, hva, if_neg (Bool.eq_false_iff.mp hs), if_neg h0, if_neg (by simp [ha, hn]), State.check_of_passes hc]
  dsimp only
  rw [if_neg (by simp [hde]), if_neg (Bool.eq_false_iff.mp hany), ht]
  exact if_neg (Bool.eq_false_iff.mp hz)

end
end

/-! ### The obligation -/

/-- Settles O50: the length and the place of a range come first, and then what its checks find. -/
theorem blockInstructions : Obligations.BlockInstructions := by
  unfold Obligations.BlockInstructions
  intro o w s u ps b n va d
  simp only [List.forall_mem_cons]
  refine ⟨⟨fun hi hs => by rw [exec_krot_issued hi, rotateKeys_speculative hs, Eff.finish_stay],
    fun hi hs => by rw [exec_mdead_issued hi, markDeadRange_speculative hs, Eff.finish_stay], fun _ hp => nomatch hp⟩,
    fun hi hs => ?krot, fun hi hs => ?mdead⟩
  case krot =>
    rw [exec_krot_issued hi]
    exact ⟨fun h => by rw [rotateKeys_refused rfl hs h, Eff.finish_trap],
      fun h0 => by rw [rotateKeys_empty hs h0, Eff.finish_done],
      fun h0 h1 h2 ha => by rw [rotateKeys_misaligned rfl rfl hs h0 h1 h2 ha, Eff.finish_trap],
      fun h0 h1 h2 ha hc ht hz => by
        rw [rotateKeys_rotates rfl rfl rfl hs h0 h1 h2 ha hc ht hz, Eff.finish_done]
        rfl⟩
  case mdead =>
    rw [exec_mdead_issued hi]
    exact ⟨fun h0 => by rw [markDeadRange_empty hs h0, Eff.finish_done],
      fun h0 ha => by rw [markDeadRange_misaligned rfl rfl rfl hs h0 ha, Eff.finish_trap],
      fun h0 ha hn hc hde => by rw [markDeadRange_without_de rfl rfl rfl hs h0 ha hn hc hde, Eff.finish_trap],
      fun h0 ha hn hc hde hnb ht hz => by
        rw [markDeadRange_kills rfl rfl rfl hs h0 ha hn hc hde hnb ht hz, Eff.finish_done]
        rfl⟩

end Sys2Proof.Machine
end

section
/-! Sealed images (13 R262-R265). -/

namespace Sys2Proof.Machine

section
variable {o : LF} {w : Who} {s : State} {a : Nat}

/-! ### Instructions that issue -/

theorem exec_sealImage_issued (hi : s.issues w o (shapeSealImage o) {}) : exec (.sealImage o) s = (sealRanges o w s).finish 8 := by
  rw [exec, execSealImage]
  exact issue_ok hi

theorem exec_unsealImage_issued (hi : s.issues w o (shapeUnsealImage o) {}) :
    exec (.unsealImage o) s = (unsealRanges o w s).finish 8 := by
  rw [exec, execUnsealImage]
  exact issue_ok hi

/-! ### `seal` (13 R264) -/

theorem sealRanges_speculative (hs : s.cur.spec = true) : sealRanges o w s = .stay .spec s := if_pos hs

/-- A descriptor in the scratchpads that no copy of the member writes, with its ranges, and that can be read. -/
theorem sealRanges_reads (ha : (s.x (fieldReg o.a)).toNat = a) (hs : s.cur.spec = false) (hal : a % 64 = 0)
    (hin : s.inScratch a 64 = true) (hins : s.inScratch a (s.sealSize a) = true) (hz : s.localHazard w a 64 false = false)
    (hzs : s.localHazard w a (s.sealSize a) false = false) (hbad : s.badLineIn a (s.sealSize a) = none) :
    sealRanges o w s = sealIssue o w a (s.rebuild a (s.sealSize a)) := by
  have hplace : s.sealPlace a = .ok () := by
    simp [State.sealPlace, State.localOk_inside hin, State.localOk_inside hins, need_of, hal]
  simp [sealRanges, ha, hs, hz, hplace, hzs, State.readLocal_clean hbad]

/-- The ranges of a seal descriptor. -/
def State.sealEntries (s : State) (a : Nat) : List (Word × Nat × Nat) :=
  parseRanges (s.localBytes (a + 64) (16 * (s.sealDesc a).2.2.1)) (s.sealDesc a).2.2.1

/-- What the checks of `seal` find where they pass: a sound descriptor whose image meets none of its ranges `rs`, R79 over both, and
their translations (13 R262, R264). -/
structure State.SealChecked (s : State) (a : Nat) (img : Word) (rs : List (Word × Nat × Nat)) (u v : State)
    (ps qs : List Tlb) : Prop where
  entries : s.sealEntries a = rs
  image : (s.sealDesc a).1 = img
  reserved : (s.sealDesc a).2.2.2 = false
  someRange : 1 ≤ (s.sealDesc a).2.2.1
  fewRanges : (s.sealDesc a).2.2.1 ≤ 8
  sound : ∀ r ∈ rs, rangeOk r = true
  room : imageSize rs ≤ (s.sealDesc a).2.1
  apart : ∀ r ∈ rs, meets (s.vaOf s.cur.cid img) (imageSize rs) (s.vaOf s.cur.cid r.1) r.2.1 = false
  readable : s.checkAll (rs.map fun r => (r.1, r.2.1)) rightR = .ok ()
  writable : s.passes s.cur.cid img (imageSize rs) rightW = true
  sources : s.translateAll (rs.map fun r => (r.1, r.2.1)) false = .ok (u, ps)
  target : u.translateAll [(img, imageSize rs)] true = .ok (v, qs)

section
variable {img : Word} {rs : List (Word × Nat × Nat)} {u v : State} {ps qs : List Tlb}

theorem State.SealChecked.accepts (h : s.SealChecked a img rs u v ps qs) :
    ((s.sealDesc a).2.2.2 || (s.sealDesc a).2.2.1 == 0 || decide (8 < (s.sealDesc a).2.2.1) || !rs.all rangeOk
      || decide ((s.sealDesc a).2.1 < imageSize rs)
      || rs.any fun r => meets (s.vaOf s.cur.cid img) (imageSize rs) (s.vaOf s.cur.cid r.1) r.2.1) = false := by
  have hsome := Nat.one_le_iff_ne_zero.mp h.someRange
  simpa [h.reserved, hsome, h.fewRanges, h.room] using And.intro h.sound h.apart

/-- The ranges are written back, and the image of what their homes then hold is written (13 R264). -/
theorem sealIssue_seals (h : s.SealChecked a img rs u v ps qs) (hown : ∀ c ∈ s.copies, c.task ≠ s.cur.id)
    (hz : s.bufHazard w (s.vaOf s.cur.cid img) (imageSize rs) true = false) :
    sealIssue o w a s =
      let u1 := v.released s.cur.cluster s.cur.cid (rs.map fun r => (r.1, r.2.1))
      .done (((u1.sealImage img rs (ps ++ qs)).external).setX (fieldReg o.d) (BitVec.ofNat 64 (imageSize rs))) := by
  have haccepts := h.accepts
  obtain ⟨rfl, rfl, -, -, -, -, -, -, hreadable, hwritable, hsources, htarget⟩ := h
  rw [State.sealEntries] at haccepts hreadable hwritable hsources htarget hz ⊢
  unfold sealIssue
  dsimp only
  rw [if_neg (Bool.eq_false_iff.mp haccepts), hreadable, thenCheck_ok, State.check_of_passes hwritable]
  dsimp only
  rw [hsources]
  dsimp only
  rw [htarget]
  dsimp only
  rw [if_neg (Bool.eq_false_iff.mp (State.no_own_copy hown _)), if_neg (Bool.eq_false_iff.mp hz)]
  rfl

end

/-! ### `unseal` (13 R265) -/

/-- The verdict of an image that is not written is 1 to 4 (13 R265). -/
theorem State.unsealVerdict_code {img : List Byte} {avail code : Nat} (h : s.unsealVerdict img avail = .error code) :
    1 ≤ code ∧ code ≤ 4 := by
  unfold State.unsealVerdict at h
  dsimp only at h
  split at h
  · cases h; decide
  · split at h
    · cases h; decide
    · split at h
      · cases h; decide
      · split at h
        · cases h; decide
        · split at h
          · cases h; decide
          · cases h

theorem unsealRanges_speculative (hs : s.cur.spec = true) : unsealRanges o w s = .stay .spec s := if_pos hs

section
variable {img : Word} {n avail : Nat} {u v : State} {ps qs : List Tlb} {bs : List Byte} {rs : List ((Word × Nat × Nat) × List Byte)}

/-- A descriptor that can be read and names no ranges, with an image that can be read: it is read at its home, after the dirty bytes
of it that the cluster still holds (05 R82). -/
theorem unsealRanges_reads (ha : (s.x (fieldReg o.a)).toNat = a) (hd : s.sealDesc a = (img, n, 0, false)) (hs : s.cur.spec = false)
    (hin : s.inScratch a 64 = true) (hal : a % 64 = 0) (hbad : s.badLineIn a 64 = none) (hzl : s.localHazard w a 64 false = false)
    (hc : (s.rebuild a 64).passes s.cur.cid img n rightR = true)
    (ht : (s.rebuild a 64).translatePages (s.rebuild a 64).memberAcc img n false = .ok (u, ps))
    (hz : s.bufHazard w (s.vaOf s.cur.cid img) n false = false) :
    unsealRanges o w s =
      let x := (u.wbRange s.cur.cluster s.cur.cid (s.vaOf s.cur.cid img) n).sealRead img ps n
      unsealImageOf o w x.2 n x.1 := by
  have hcheck : (s.rebuild a 64).check (s.rebuild a 64).cur.cid img n rightR = .ok () := by
    rw [State.rebuild_cur]
    exact State.check_of_passes hc
  simp [unsealRanges, ha, hd, hs, State.localOk_inside hin, need_of, hal, hzl, State.readLocal_clean hbad, hcheck, ht, hz]

theorem unsealImageOf_fails {code : Nat} (h : s.unsealVerdict bs avail = .error code) :
    unsealImageOf o w bs avail s = .done (s.external.setX (fieldReg o.d) (BitVec.ofNat 64 code)) := by
  unfold unsealImageOf
  rw [h]

theorem unsealImageOf_opens (h : s.unsealVerdict bs avail = .ok rs)
    (ht : s.translateAll (rs.map fun r => (r.1.1, r.1.2.1)) true = .ok (v, qs))
    (hz : ∀ r ∈ rs, s.bufHazard w (s.vaOf s.cur.cid r.1.1) r.1.2.1 true = false) :
    unsealImageOf o w bs avail s = .done ((v.unsealWrite qs rs).external.setX (fieldReg o.d) 0) := by
  have hany : (rs.any fun r => s.bufHazard w (s.vaOf s.cur.cid r.1.1) r.1.2.1 true) = false := by simpa using hz
  unfold unsealImageOf
  rw [h]
  dsimp only
  rw [ht]
  exact if_neg (Bool.eq_false_iff.mp hany)

end
end

/-! ### The obligation -/

/-- Settles O51: each reads its descriptor, and then what its checks find, and the verdict of the image, decide. -/
theorem sealedImages : Obligations.SealedImages := by
  unfold Obligations.SealedImages
  intro o w s a cid d
  refine ⟨fun hi hs => by rw [exec_sealImage_issued hi, sealRanges_speculative hs, Eff.finish_stay],
    fun hi hs => by rw [exec_unsealImage_issued hi, unsealRanges_speculative hs, Eff.finish_stay],
    fun u v ps qs => ?sealing, fun u ps => ?unsealing⟩
  case sealing =>
    intro len rs size ranges r hi hs hal hin hins hz hzs hbad hres hsome hfew hsound hroom hapart hread hwrite hsources htarget hown
      hzi u1
    have hreads : sealRanges o w s = sealIssue o w a r := sealRanges_reads rfl hs hal hin hins hz hzs hbad
    obtain ⟨bad, hr⟩ := s.rebuild_only a len
    have hchecked : r.SealChecked a d.1 rs u v ps qs := by
      simp only [r, hr] at hread hwrite hsources ⊢
      exact ⟨rfl, rfl, hres, hsome, hfew, hsound, hroom, hapart, hread, hwrite, hsources, htarget⟩
    have hquiet : (∀ c ∈ r.copies, c.task ≠ r.cur.id) ∧ r.bufHazard w (r.vaOf r.cur.cid d.1) size true = false := by
      simp only [r, hr]
      exact ⟨hown, hzi⟩
    have hseals := sealIssue_seals (o := o) hchecked hquiet.1 hquiet.2
    have hcur : r.cur = s.cur := s.rebuild_cur _ _
    rw [exec_sealImage_issued hi, hreads, hseals, Eff.finish_done, hcur]
    rfl
  case unsealing =>
    intro x r hi hs hin hal hbad hzl hres hnone hc ht hz
    have hd : s.sealDesc a = (d.1, d.2.1, 0, false) := by rw [← hnone, ← hres]
    have hreads := unsealRanges_reads rfl hd hs hin hal hbad hzl hc ht hz
    rw [exec_unsealImage_issued hi, hreads]
    exact ⟨fun code h => ⟨by rw [unsealImageOf_fails h, Eff.finish_done], State.unsealVerdict_code h⟩,
      fun rs v qs h ht' hz' => by rw [unsealImageOf_opens h ht' hz', Eff.finish_done]⟩

end Sys2Proof.Machine
end

section
/-! What reset leaves (18 R305, 20 R336, 21 R365, 22, 24 R404, R405, 25 R410). -/

namespace Sys2Proof.Machine

theorem State.reset_hart (h : Fin 16) : State.reset.hart h = blankHart := Vector.getElem_replicate (n := 16) h.isLt

theorem State.reset_part (p : Nat) : State.reset.part p = blankPart := by
  rw [State.part, List.getD_eq_getElem?_getD]
  exact List.getElem?_getD_replicate_default_eq blankPart 8 p

/-- Settles O6: every hart is a blank one and every partition a blank one; the rest stands in the state. -/
theorem reset : Obligations.Reset := by
  refine ⟨⟨rfl, rfl, rfl, rfl, rfl, rfl, rfl, rfl, rfl, rfl, rfl, fun h => ?harts, fun p => ?parts⟩, ⟨rfl, rfl⟩, rfl, rfl, rfl⟩
  case harts =>
    rw [State.reset_hart]
    rfl
  case parts =>
    rw [State.reset_part]
    exact ⟨rfl, rfl, rfl, rfl, rfl, rfl, rfl⟩

end Sys2Proof.Machine
end

section
/-! Exceptions and returns of a privileged hart (18 R304, by the Privileged ISA). -/

namespace Sys2Proof.Machine

/-! ### Bits of `mstatus` -/

theorem getLsbD_putBit (v : Word) {i : Nat} (hi : i < 64) (b : Bool) (j : Nat) :
    (putBit v i b).getLsbD j = if j = i then b else v.getLsbD j := by
  have hbit : (1#64 <<< i).getLsbD j = decide (j = i) := by
    simp only [BitVec.getLsbD_shiftLeft, BitVec.getLsbD_one]
    grind
  have hv : 64 ≤ j → v.getLsbD j = false := BitVec.getLsbD_of_ge v j
  cases b <;> simp only [putBit, BitVec.getLsbD_or, BitVec.getLsbD_and, BitVec.getLsbD_not, hbit, if_true] <;> grind

/-- The two bits of MPP cleared. -/
theorem getLsbD_clearMpp (v : Word) (j : Nat) :
    (v &&& ~~~(3#64 <<< 11)).getLsbD j = if j = 11 ∨ j = 12 then false else v.getLsbD j := by
  have hv : 64 ≤ j → v.getLsbD j = false := BitVec.getLsbD_of_ge v j
  rw [show (3#64 : Word) = (BitVec.allOnes 2).setWidth 64 from rfl]
  simp only [BitVec.getLsbD_and, BitVec.getLsbD_not, BitVec.getLsbD_shiftLeft, BitVec.getLsbD_setWidth, BitVec.getLsbD_allOnes]
  grind

/-- MPP replaced. -/
theorem getLsbD_withMpp (v : Word) (m : BitVec 2) (j : Nat) :
    (v &&& ~~~(3#64 <<< 11) ||| m.setWidth 64 <<< 11).getLsbD j =
      if j = 11 then m.getLsbD 0 else if j = 12 then m.getLsbD 1 else v.getLsbD j := by
  have hm : 2 ≤ j - 11 → m.getLsbD (j - 11) = false := BitVec.getLsbD_of_ge m _
  rw [BitVec.getLsbD_or, getLsbD_clearMpp, BitVec.getLsbD_shiftLeft, BitVec.getLsbD_setWidth]
  grind

/-- A field of two bits is what its bits are. -/
theorem extractLsb'_two {v : Word} {m : BitVec 2} (i : Nat) (h0 : v.getLsbD i = m.getLsbD 0) (h1 : v.getLsbD (i + 1) = m.getLsbD 1) :
    v.extractLsb' i 2 = m := by
  refine BitVec.eq_of_getLsbD_eq fun k hk => ?_
  rw [BitVec.getLsbD_extractLsb']
  interval_cases k <;> simp [h0, h1]

/-! ### Exceptions -/

section
variable {v : Hart} {code : Nat} {tval : Word}

theorem Hart.take_delegated (hm : v.mode ≠ 3) (hd : v.medeleg.getLsbD code = true) :
    v.take code tval = v.enter true (BitVec.ofNat 64 code) tval (v.stvec &&& ~~~3#64) := by
  have hs : (v.mode != 3 && v.medeleg.getLsbD code) = true := by rw [hd, Bool.and_true, bne_iff_ne]; exact hm
  rw [Hart.take, hs]
  rfl

theorem Hart.take_not_delegated (h : v.mode = 3 ∨ v.medeleg.getLsbD code = false) :
    v.take code tval = v.enter false (BitVec.ofNat 64 code) tval (v.mtvec &&& ~~~3#64) := by
  have hs : (v.mode != 3 && v.medeleg.getLsbD code) = false := by
    rw [Bool.and_eq_false_iff]
    exact h.imp_left fun hm => by rw [hm]; rfl
  rw [Hart.take, hs]
  rfl

/-- An exception into S stacks SIE in SPIE and keeps the old mode in SPP. -/
theorem Hart.enter_S_mstatus (v : Hart) (cause tval pc : Word) (i : Nat) :
    (v.enter true cause tval pc).mstatus.getLsbD i =
      if i = 8 then decide (v.mode ≠ 0) else if i = 1 then false else if i = 5 then v.mstatus.getLsbD 1 else v.mstatus.getLsbD i := by
  have hspp : (v.mode != 0) = decide (v.mode ≠ 0) := (decide_not ..).symm
  simp only [Hart.enter, if_true, getLsbD_putBit _ (show 8 < 64 by decide), getLsbD_putBit _ (show 5 < 64 by decide),
    getLsbD_putBit _ (show 1 < 64 by decide), hspp]

/-- An exception into M stacks MIE in MPIE and keeps the old mode in MPP. -/
theorem Hart.enter_M_mstatus (v : Hart) (cause tval pc : Word) (i : Nat) :
    (v.enter false cause tval pc).mstatus.getLsbD i =
      if i = 11 then v.mode.getLsbD 0 else if i = 12 then v.mode.getLsbD 1
      else if i = 3 then false else if i = 7 then v.mstatus.getLsbD 3 else v.mstatus.getLsbD i := by
  simp only [Hart.enter, Bool.false_eq_true, if_false, getLsbD_withMpp, getLsbD_putBit _ (show 7 < 64 by decide),
    getLsbD_putBit _ (show 3 < 64 by decide)]

end

/-! ### Returns -/

section
variable (v : Hart)

/-- `mret` leaves MIE as MPIE had it, and no privilege in MPP. -/
theorem Hart.mret_mstatus {i : Nat} (hi : i ≠ 17) : v.mret.mstatus.getLsbD i =
    if i = 11 ∨ i = 12 then false else if i = 7 then true else if i = 3 then v.mstatus.getLsbD 7 else v.mstatus.getLsbD i := by
  simp only [Hart.mret, apply_ite (fun w : Word => w.getLsbD i), getLsbD_putBit _ (show 17 < 64 by decide), if_neg hi, ite_self,
    getLsbD_clearMpp, getLsbD_putBit _ (show 7 < 64 by decide), getLsbD_putBit _ (show 3 < 64 by decide)]

/-- `sret` leaves SIE as SPIE had it, and no privilege in SPP. -/
theorem Hart.sret_mstatus {i : Nat} (hi : i ≠ 17) : v.sret.mstatus.getLsbD i =
    if i = 8 then false else if i = 5 then true else if i = 1 then v.mstatus.getLsbD 5 else v.mstatus.getLsbD i := by
  simp only [Hart.sret, getLsbD_putBit _ (show 17 < 64 by decide), if_neg hi, getLsbD_putBit _ (show 8 < 64 by decide),
    getLsbD_putBit _ (show 5 < 64 by decide), getLsbD_putBit _ (show 1 < 64 by decide)]

end

/-! ### The obligation -/

/-- Settles O27: an exception enters the mode its delegation names, and a return is one of the mode that may make it. -/
theorem hartTraps : Obligations.HartTraps := by
  refine ⟨fun v code tval => ⟨fun hm hd => ?toS, fun h => ?toM⟩, fun s h tval hf => ?returns⟩
  case toS =>
    rw [Hart.take_delegated hm hd]
    simp only [Hart.enter_S_mstatus]
    exact ⟨rfl, rfl, rfl, rfl, rfl, rfl, rfl, rfl, fun i h1 h5 h8 => by rw [if_neg h8, if_neg h1, if_neg h5], rfl, rfl, rfl, rfl⟩
  case toM =>
    rw [Hart.take_not_delegated h]
    have hmpp := extractLsb'_two 11 (Hart.enter_M_mstatus v (BitVec.ofNat 64 code) tval (v.mtvec &&& ~~~3#64) 11)
      (Hart.enter_M_mstatus v (BitVec.ofNat 64 code) tval (v.mtvec &&& ~~~3#64) 12)
    simp only [Hart.enter_M_mstatus]
    exact ⟨rfl, rfl, rfl, rfl, rfl, rfl, rfl, hmpp,
      fun i h3 h7 h11 h12 => by rw [if_neg h11, if_neg h12, if_neg h3, if_neg h7], rfl, rfl, rfl, rfl⟩
  case returns =>
    refine ⟨fun hm => if_pos hm, fun hm => if_neg hm, fun hm => if_pos hm, fun h0 => if_neg (by simp [h0]), rfl, rfl,
      Hart.mret_mstatus _ (by decide), Hart.mret_mstatus _ (by decide),
      extractLsb'_two 11 (Hart.mret_mstatus _ (by decide)) (Hart.mret_mstatus _ (by decide)), rfl, rfl,
      Hart.sret_mstatus _ (by decide), Hart.sret_mstatus _ (by decide), Hart.sret_mstatus _ (by decide)⟩

end Sys2Proof.Machine
end

section
/-! The CSR instructions of a privileged hart, and PARTID (18 R304, R305, 09 R162). -/

namespace Sys2Proof.Machine

section
variable {s : State} {h : Fin 16} {i : Instr} {k : CsrOp} {n least : Nat} {csr : BitVec 12} {rd : Reg} {src old : Word} {reads writes : Bool}

/-- An instruction of a hart owes no drain cycle: a base instruction ends as its effect says. -/
theorem issueBase_on_hart (hf : s.focus = .hart h) (e : Eff) : issueBase s e = e.finish 4 :=
  issueBase_ready fun hm => nomatch hf.symm.trans hm

/-- A CSR that the hart's mode may read, and the instruction may write, is read and written; one that is not read leaves `rd` alone. -/
theorem State.hartCsrOp_found (hc : s.hartCsr h n = some (least, old)) (hl : least ≤ (s.hart h).mode.toNat)
    (hb : (s.hart h).barred n = false) (hw : writes = true → n < 0xC00) (hrd : reads = false → rd = 0) :
    s.hartCsrOp i h k n rd src reads writes =
      .done ((if writes then s.setHart h ((s.hart h).writeCsr n (k.apply old src)) else s).setX rd old) := by
  have hok : ¬ ((decide ((s.hart h).mode.toNat < least) || (writes && decide (0xC00 ≤ n)) || (s.hart h).barred n) = true) := by
    simpa [hb, hl] using hw
  rw [State.hartCsrOp, hc]
  dsimp only
  rw [if_neg hok]
  cases reads with
  | true => rfl
  | false => rw [hrd rfl, State.setX_zero]; rfl

/-- A CSR above the hart's mode, kept from it, or written where it is read-only, is an illegal instruction. -/
theorem State.hartCsrOp_refused (hc : s.hartCsr h n = some (least, old))
    (hr : (s.hart h).mode.toNat < least ∨ (s.hart h).barred n = true ∨ (writes = true ∧ 0xC00 ≤ n)) :
    s.hartCsrOp i h k n rd src reads writes = .trap (illegalOnHart i) s := by
  rw [State.hartCsrOp, hc]
  refine if_pos ?_
  simp only [Bool.or_eq_true, Bool.and_eq_true, decide_eq_true_eq]
  tauto

theorem State.hartCsrOp_missing (hc : s.hartCsr h n = none) :
    s.hartCsrOp i h k n rd src reads writes = .trap (illegalOnHart i) s := by
  rw [State.hartCsrOp, hc]

/-- How a CSR instruction of a hart ends, with whether it writes as the ratified rules say (09 R162). -/
theorem exec_of_hartCsr {writes' : Bool} (hf : s.focus = .hart h) (hexec : exec i s = issueBase s (s.csrOp i k rd csr src writes'))
    (hw : writes' = writes) :
    (∀ least old, s.hartCsr h csr.toNat = some (least, old) → least ≤ (s.hart h).mode.toNat → (s.hart h).barred csr.toNat = false →
      (writes = true → csr.toNat < 0xC00) →
      exec i s = .next (((if writes then s.setHart h ((s.hart h).writeCsr csr.toNat (k.apply old src)) else s).setX rd old).completed 4)) ∧
    (∀ least old, s.hartCsr h csr.toNat = some (least, old) →
      (s.hart h).mode.toNat < least ∨ (s.hart h).barred csr.toNat = true ∨ (writes = true ∧ 0xC00 ≤ csr.toNat) →
      exec i s = .next (s.setHart h ((s.hart h).take 2 (lowWord i)))) ∧
    (s.hartCsr h csr.toNat = none → exec i s = .next (s.setHart h ((s.hart h).take 2 (lowWord i)))) := by
  subst hw
  have hop : exec i s = (s.hartCsrOp i h k csr.toNat rd src (k != .write || rd != 0) writes').finish 4 := by
    rw [hexec, issueBase_on_hart hf, State.csrOp, hf]
  have hrd (hno : (k != .write || rd != 0) = false) : rd = 0 := by simpa using (Bool.or_eq_false_iff.mp hno).2
  have hillegal : (Eff.trap (illegalOnHart i) s).finish 4 = .next (s.setHart h ((s.hart h).take 2 (lowWord i))) := by
    rw [Eff.finish_trap, State.trapped_on_hart hf]
    rfl
  rw [hop]
  refine ⟨fun least old hc hl hb hw => ?_, fun least old hc hr => ?_, fun hc => ?_⟩
  · rw [State.hartCsrOp_found hc hl hb hw hrd, Eff.finish_done]
  · rw [State.hartCsrOp_refused hc hr, hillegal]
  · rw [State.hartCsrOp_missing hc, hillegal]

end

/-- No CSR but 0x7C0 writes PARTID (18 R305). -/
theorem Hart.writeCsr_partid (v : Hart) {n : Nat} (hn : n ≠ 0x7C0) (a : Word) : (v.writeCsr n a).partid = v.partid := by
  unfold Hart.writeCsr
  split
  case h_25 => exact absurd rfl hn
  all_goals rfl

/-- Settles O15: the CSR's map, the hart's mode and the number decide an instruction; PARTID stands under two numbers. -/
theorem hartCsrs : Obligations.HartCsrs := by
  intro s h rd rs1 csr hf
  refine ⟨fun p hp => ?instructions, rfl, rfl, fun v => rfl, fun n v hn => (s.hart h).writeCsr_partid hn v⟩
  suffices hop : ∃ writes', exec p.1 s = issueBase s (s.csrOp p.1 p.2.1 rd csr p.2.2.1 writes') ∧ writes' = p.2.2.2 by
    obtain ⟨_, hexec, hw⟩ := hop
    exact exec_of_hartCsr hf hexec hw
  revert p
  simp only [List.forall_mem_cons, List.not_mem_nil, false_imp_iff, implies_true, and_true]
  exact ⟨⟨_, rfl, rfl⟩, ⟨_, rfl, decide_not.symm⟩, ⟨_, rfl, decide_not.symm⟩, ⟨_, rfl, rfl⟩, ⟨_, rfl, decide_not.symm⟩,
    ⟨_, rfl, decide_not.symm⟩⟩

end Sys2Proof.Machine
end

section
/-! A privileged hart's loads and stores of physical memory (18 R304, R305, 22 R372). -/

namespace Sys2Proof.Machine

/-! ### Bytes within a line -/

theorem pieces_within_line {a n : Nat} (hn : 0 < n) (h : a % 64 + n ≤ 64) : pieces a n = [(a, n)] := by
  have hmin : min n (64 - a % 64) = n := by omega
  simp [pieces, linePieces, hmin, hn.ne']

/-- An aligned access of a size that divides a line's lies within a line. -/
theorem aligned_within_line {a n : Nat} (hn : n ∣ 64) (ha : a % n = 0) : a % 64 + n ≤ 64 := by
  have hdvd : n ∣ a % 64 := (Nat.dvd_mod_iff hn).mpr (Nat.dvd_of_mod_eq_zero ha)
  obtain ⟨k, hk⟩ := hn
  obtain ⟨q, hq⟩ := hdvd
  have hlt : n * q < n * k := by
    rw [← hq, ← hk]
    exact Nat.mod_lt _ (by decide)
  calc a % 64 + n = n * (q + 1) := by rw [hq, Nat.mul_succ]
    _ ≤ n * k := Nat.mul_le_mul_left n (Nat.lt_of_mul_lt_mul_left hlt)
    _ = 64 := hk.symm

section
variable {s : State} {h : Fin 16} {i : Instr} {rd rs1 rs2 : Reg} {base v a : Word} {imm : BitVec 12} {n : Nat} {sx : Bool}

theorem State.fwNat_within_line (s : State) {a n : Nat} (hn : 0 < n) (hdvd : n ∣ 64) (ha : a % n = 0)
    (hr : s.readError 0 fwSlot a = none) : s.fwNat a n = leNat (bytesAt s.mem a n) := by
  simp [State.fwNat, State.fwRead, pieces_within_line hn (aligned_within_line hdvd ha), hr]

theorem State.hartMay_iff (s : State) (a : Nat) : s.hartMay a = true ↔ s.homeOf a = .here ∧ s.readError 0 fwSlot a = none := by
  simp [State.hartMay]

/-! ### Checks -/

theorem hartAlign_aligned (ha : a.toNat % n = 0) (code : Nat) : hartAlign a n code = none := if_pos ha

theorem hartAlign_misaligned (ha : a.toNat % n ≠ 0) (code : Nat) :
    hartAlign a n code = some { cause := .hart (BitVec.ofNat 16 code), d1 := a } := if_neg ha

/-! ### Loads and stores -/

theorem State.hartLoad_answered (e : base + sext12 imm = a) (hn : 0 < n) (hdvd : n ∣ 64) (ha : a.toNat % n = 0)
    (hh : (s.settle a.toNat).homeOf a.toNat = .here) (hr : (s.settle a.toNat).readError 0 fwSlot a.toNat = none) :
    s.hartLoad rd base imm n sx =
      .done ((s.settle a.toNat).setX rd (extended n sx (leNat (bytesAt (s.settle a.toNat).mem a.toNat n)))) := by
  rw [State.hartLoad]
  dsimp only
  rw [e, hartAlign_aligned ha, (State.hartMay_iff ..).mpr ⟨hh, hr⟩, State.fwNat_within_line _ hn hdvd ha hr]
  rfl

theorem State.hartLoad_unanswered (e : base + sext12 imm = a) (ha : a.toNat % n = 0) (hm : (s.settle a.toNat).hartMay a.toNat = false) :
    s.hartLoad rd base imm n sx = .trap (accessFault 5 a) (s.settle a.toNat) := by
  rw [State.hartLoad]
  dsimp only
  rw [e, hartAlign_aligned ha, hm]
  rfl

theorem State.hartLoad_misaligned (e : base + sext12 imm = a) (ha : a.toNat % n ≠ 0) :
    s.hartLoad rd base imm n sx = .trap { cause := .hart 4, d1 := a } s := by
  rw [State.hartLoad]
  dsimp only
  rw [e, hartAlign_misaligned ha]
  rfl

theorem State.hartStore_answered (e : base + sext12 imm = a) (ha : a.toNat % n = 0)
    (hm : (s.settle a.toNat).hartMay a.toNat = true) (ho : (s.settle a.toNat).hartOwns h a.toNat n = true) :
    s.hartStore h base v imm n = .done ((s.settle a.toNat).fwWrite a.toNat (leBytes n v.toNat)) := by
  rw [State.hartStore]
  dsimp only
  rw [e, hartAlign_aligned ha, hm, ho]
  rfl

theorem State.hartStore_refused (e : base + sext12 imm = a) (ha : a.toNat % n = 0)
    (hm : (s.settle a.toNat).hartMay a.toNat = false ∨ (s.settle a.toNat).hartOwns h a.toNat n = false) :
    s.hartStore h base v imm n = .trap (accessFault 7 a) (s.settle a.toNat) := by
  have hno : (!(s.settle a.toNat).hartMay a.toNat || !(s.settle a.toNat).hartOwns h a.toNat n) = true := by simpa using hm
  rw [State.hartStore]
  dsimp only
  rw [e, hartAlign_aligned ha]
  exact if_pos hno

theorem State.hartStore_misaligned (e : base + sext12 imm = a) (ha : a.toNat % n ≠ 0) :
    s.hartStore h base v imm n = .trap { cause := .hart 6, d1 := a } s := by
  rw [State.hartStore]
  dsimp only
  rw [e, hartAlign_misaligned ha]
  rfl

/-- How a hart's load ends: by its alignment, and by whether memory answers. -/
theorem exec_of_hartLoad (hf : s.focus = .hart h) (e : s.x rs1 + sext12 imm = a) (hn : 0 < n) (hdvd : n ∣ 64)
    (hexec : exec i s = issueBase s (s.load rd rs1 imm n sx)) :
    let u := s.settle a.toNat
    (a.toNat % n = 0 → u.homeOf a.toNat = .here → u.readError 0 fwSlot a.toNat = none →
      exec i s = .next ((u.setX rd (extended n sx (leNat (bytesAt u.mem a.toNat n)))).completed 4)) ∧
    (a.toNat % n ≠ 0 → exec i s = .next (s.setHart h ((s.hart h).take 4 a))) ∧
    (a.toNat % n = 0 → (u.homeOf a.toNat ≠ .here ∨ u.readError 0 fwSlot a.toNat ≠ none) →
      exec i s = .next (u.trapped { cause := .hart 5, d1 := a })) := by
  have hload : exec i s = (s.hartLoad rd (s.x rs1) imm n sx).finish 4 := by rw [hexec, issueBase_on_hart hf, State.load, hf]
  rw [hload]
  refine ⟨fun ha hh hr => ?_, fun ha => ?_, fun ha hno => ?_⟩
  · rw [State.hartLoad_answered e hn hdvd ha hh hr, Eff.finish_done]
  · rw [State.hartLoad_misaligned e ha, Eff.finish_trap, State.trapped_on_hart hf]
    rfl
  · have hm : (s.settle a.toNat).hartMay a.toNat = false := by
      rwa [Bool.eq_false_iff, ne_eq, State.hartMay_iff, not_and_or]
    rw [State.hartLoad_unanswered e ha hm, Eff.finish_trap]
    rfl

/-- How a hart's store ends: by its alignment, and by whether memory answers and the hart may write there. -/
theorem exec_of_hartStore (hf : s.focus = .hart h) (e : s.x rs1 + sext12 imm = a)
    (hexec : exec i s = issueBase s (s.store rs1 rs2 imm n)) :
    let u := s.settle a.toNat
    (a.toNat % n = 0 → u.homeOf a.toNat = .here → u.readError 0 fwSlot a.toNat = none → u.hartOwns h a.toNat n = true →
      exec i s = .next ((u.fwWrite a.toNat (leBytes n (s.x rs2).toNat)).completed 4)) ∧
    (a.toNat % n ≠ 0 → exec i s = .next (s.setHart h ((s.hart h).take 6 a))) ∧
    (a.toNat % n = 0 → (u.homeOf a.toNat ≠ .here ∨ u.readError 0 fwSlot a.toNat ≠ none ∨ u.hartOwns h a.toNat n = false) →
      exec i s = .next (u.trapped { cause := .hart 7, d1 := a })) := by
  have hstore : exec i s = (s.hartStore h (s.x rs1) (s.x rs2) imm n).finish 4 := by rw [hexec, issueBase_on_hart hf, State.store, hf]
  rw [hstore]
  refine ⟨fun ha hh hr ho => ?_, fun ha => ?_, fun ha hno => ?_⟩
  · rw [State.hartStore_answered e ha ((State.hartMay_iff ..).mpr ⟨hh, hr⟩) ho, Eff.finish_done]
  · rw [State.hartStore_misaligned e ha, Eff.finish_trap, State.trapped_on_hart hf]
    rfl
  · have hm : (s.settle a.toNat).hartMay a.toNat = false ∨ (s.settle a.toNat).hartOwns h a.toNat n = false := by
      rwa [Bool.eq_false_iff, ne_eq, State.hartMay_iff, not_and_or, or_assoc]
    rw [State.hartStore_refused e ha hm, Eff.finish_trap]
    rfl

end

/-- Settles O13: each form issues as the shared access of its size, whose alignment, home and owner decide how it ends. -/
theorem hartAccesses : Obligations.HartAccesses := by
  intro s h rd rs1 rs2 imm hf a u
  refine ⟨fun p hp => ?loads, fun p hp => ?stores⟩
  case loads =>
    suffices hop : exec p.1 s = issueBase s (s.load rd rs1 imm p.2.1 p.2.2) ∧ 0 < p.2.1 ∧ p.2.1 ∣ 64 by
      obtain ⟨hexec, hn, hdvd⟩ := hop
      exact exec_of_hartLoad hf rfl hn hdvd hexec
    revert p
    simp only [List.forall_mem_cons, List.not_mem_nil, false_imp_iff, implies_true, and_true]
    exact ⟨⟨rfl, by decide⟩, ⟨rfl, by decide⟩, ⟨rfl, by decide⟩, ⟨rfl, by decide⟩, ⟨rfl, by decide⟩, ⟨rfl, by decide⟩,
      ⟨rfl, by decide⟩⟩
  case stores =>
    suffices hexec : exec p.1 s = issueBase s (s.store rs1 rs2 imm p.2) from exec_of_hartStore hf rfl hexec
    revert p
    simp only [List.forall_mem_cons, List.not_mem_nil, false_imp_iff, implies_true, and_true]
    exact ⟨rfl, rfl, rfl, rfl⟩

end Sys2Proof.Machine
end

section
/-! Taking a trap in a team, and the return from it (02 R29, R30, 06 R107, 18 R307, R308, R313). -/

namespace Sys2Proof.Machine

theorem State.TasksOf.wbAll {r s : State} (h : r.TasksOf s) {c cid : Nat} : r.TasksOf (s.wbAll c cid) :=
  h.settleWhere.foldl fun _ _ hu => hu.writeBack

section
variable {s : State} {w : Who} {t : Trap}

/-! ### The save of a stopped task (18 R308, 20 R348) -/

/-- An image changes of its task what it says of the image. -/
theorem State.writeImage_cur (s : State) (reason : Nat) (x : TState) :
    ∃ b, (s.writeImage reason x).cur = { s.cur with image := true, sealed := b, reason := reason } := by
  unfold State.writeImage
  dsimp only
  split
  · refine ⟨s.imageOf s.cur.part s.cur.cid (s.imageHeader reason x), ?_⟩
    dsimp only
    rw [(State.TasksOf.refl _).fwWrite.cur_eq, State.setPart_cur]
  · refine ⟨[], ?_⟩
    dsimp only
    rw [State.setPart_cur]

/-- A task that leaves its core keeps its team, its state and its image. -/
theorem State.releaseCore_cur (s : State) :
    ∃ lc d rt, s.releaseCore.cur = { s.cur with core := none, lastCluster := lc, stop := none, draining := d, runTime := rt } := by
  unfold State.releaseCore
  dsimp only
  split
  next hc =>
    refine ⟨s.cur.lastCluster, s.cur.draining, s.cur.runTime, ?_⟩
    rw [← hc]
  next => exact ⟨_, _, _, rfl⟩

/-- A task saved off its core: its team stands as it stopped. -/
def State.SavedAs (s u : State) : Prop :=
  u.cur.team = s.cur.team ∧ u.cur.core = none ∧ u.cur.stop = none ∧ u.cur.image = true

theorem State.savedAs_of_release (s : State) (reason : Nat) (x : TState) : s.SavedAs (s.writeImage reason x).releaseCore := by
  obtain ⟨b, hb⟩ := s.writeImage_cur reason x
  obtain ⟨lc, d, rt, hr⟩ := (s.writeImage reason x).releaseCore_cur
  rw [State.SavedAs, hr, hb]
  exact ⟨rfl, rfl, rfl, rfl⟩

theorem State.release_state (s : State) (reason : Nat) (x : TState) : (s.writeImage reason x).releaseCore.cur.state = s.cur.state := by
  obtain ⟨b, hb⟩ := s.writeImage_cur reason x
  obtain ⟨lc, d, rt, hr⟩ := (s.writeImage reason x).releaseCore_cur
  rw [hr, hb]

/-! ### The end of a trap's stop (18 R308, 06 R107) -/

theorem State.finishTrap_saves (s : State) (r : FaultRec) : s.SavedAs (s.finishTrap r) := by
  unfold State.finishTrap
  dsimp only
  split
  · exact s.savedAs_of_release 4 .running
  · rw [State.SavedAs, (State.TasksOf.refl _).postFault.cur_eq, State.putState_faulted]
    exact s.savedAs_of_release 4 .faulted

/-- A speculative task's trap is held: the task's state stays. -/
theorem State.finishTrap_spec_state {r : FaultRec} (hs : s.cur.spec = true) : (s.finishTrap r).cur.state = s.cur.state := by
  rw [State.finishTrap, if_pos hs]
  exact s.release_state 4 .running

/-- The state in which a trap of a member has stopped its team: the member stands before its instruction, and a hang timer that has run
out starts anew. -/
def State.stoppedAt (s : State) (w : Who) : State :=
  let u := s.setMember w { s.member w with wait := none }
  { u with cur := { u.cur with stepping := none, hung := if 16000 * (s.part s.cur.part).hang ≤ u.cur.hung then 0 else u.cur.hung } }

/-- The first trap of a stop is recorded, and the stop finishes at once where nothing of the task is in flight (18 R308). -/
theorem State.takeTrap_first (hstop : s.cur.stop = none) (hc : t.cause ≠ .hang) : s.takeTrap w t =
    let r : FaultRec := ⟨t.cause.code, w, (s.member w).pc, t.d1, t.d2⟩
    let u := s.stoppedAt w
    if s.inFlight s.cur.id then { u with cur := { u.cur with stop := some (.trap r) } } else u.finishTrap r := by
  rw [State.takeTrap, hstop]
  simp only [if_neg hc]
  rfl

/-! ### The return (02 R30, 18 R313) -/

theorem State.putState_ready (s : State) (spec : Bool) : (s.putState .ready spec).cur = { s.cur with state := .ready, spec := spec } := by
  dsimp only [State.putState, State.answerTask, State.answerHarts]
  exact (State.TasksOf.refl _).tcbOwned.cur_eq

/-- Where RESUME leaves a task: READY, its members as a return from the trap leaves them. -/
theorem State.resumeTask_cur (s : State) :
    ∃ k, s.resumeTask.cur =
      let c := if s.cur.state = .faulted then s.cur.fault.cause else 0
      let m (w : Who) : Member := (s.member w).resumed (s.cur.fault.who == w) c
      { s.cur with team := { s.cur.team with seq := m .seq, ld := m .ld, st := m .st }, halted := false, stepping := none,
                   readyAt := k, state := .ready } := by
  unfold State.resumeTask State.makeReady
  dsimp only
  rw [State.putState_ready]
  exact ⟨_, rfl⟩

theorem State.resumeTask_member (s : State) (w : Who) : s.resumeTask.member w =
    (s.member w).resumed (s.cur.fault.who == w) (if s.cur.state = .faulted then s.cur.fault.cause else 0) := by
  obtain ⟨k, hk⟩ := s.resumeTask_cur
  rw [State.member, hk]
  cases w <;> rfl

theorem Member.resumed_x (m : Member) (marked : Bool) (cause : BitVec 16) : (m.resumed marked cause).x = m.x := by
  unfold Member.resumed
  split <;> rfl

/-- Only the member that stopped at an `ebreak` stands past its instruction. -/
theorem Member.resumed_pc (m : Member) (marked : Bool) (cause : BitVec 16) :
    (m.resumed marked cause).pc = m.pc + if marked = true ∧ cause = 0x000C then 4 else 0 := by
  have hmark : (marked && cause == Cause.breakpoint.code) = true ↔ marked = true ∧ cause = 0x000C := by
    rw [Bool.and_eq_true, beq_iff_eq]
    rfl
  simp only [Member.resumed, hmark]
  split <;> rfl

end

/-! ### The obligation -/

/-- Settles O26: a trap is recorded once, its stop saves the task as it stands, and RESUME gives the team back. -/
theorem taskTraps : Obligations.TaskTraps := by
  refine ⟨fun s w tr hc => ?trap, fun s w => ?resume⟩
  case trap =>
    intro r t saved
    refine ⟨fun q hq => ?second, fun hstop hfly => ?flying, fun hstop hfly => ?quiet⟩
    case second =>
      show s.takeTrap w tr = s
      rw [State.takeTrap, hq]
    case flying =>
      have ht : t = { s.stoppedAt w with cur := { (s.stoppedAt w).cur with stop := some (.trap r) } } :=
        (State.takeTrap_first hstop hc).trans (if_pos hfly)
      rw [ht]
      exact ⟨rfl, rfl⟩
    case quiet =>
      have ht : t = (s.stoppedAt w).finishTrap r := (State.takeTrap_first hstop hc).trans (if_neg (Bool.eq_false_iff.mp hfly))
      obtain ⟨hteam, hcore, hnone, himage⟩ := (s.stoppedAt w).finishTrap_saves r
      rw [ht]
      exact ⟨hteam, hcore, hnone, himage, State.finishTrap_fault (s := s.stoppedAt w),
        fun hs => ⟨State.finishTrap_spec (s := s.stoppedAt w) hs, State.finishTrap_spec_state (s := s.stoppedAt w) hs⟩⟩
  case resume =>
    have hx : (s.resumeTask.member w).x = (s.member w).x := by rw [State.resumeTask_member, Member.resumed_x]
    have hpc : (s.resumeTask.member w).pc = (s.member w).pc +
        (if s.cur.state = .faulted ∧ s.cur.fault.cause = 0x000C ∧ s.cur.fault.who = w then 4 else 0) := by
      rw [State.resumeTask_member, Member.resumed_pc]
      by_cases hfault : s.cur.state = .faulted <;> simp [hfault, and_comm]
    obtain ⟨k, hk⟩ := s.resumeTask_cur
    refine ⟨?_, hx, ?_, ?_, ?_, ?_, hpc⟩ <;> rw [hk]

end Sys2Proof.Machine
end

section
/-! Records that firmware writes (19 R325, R331, 20 R336-R338, R341, 24 R398). -/

namespace Sys2Proof.Machine

variable {s : State}

/-! ### Scheduling blocks and queues (20 R336, R338) -/

section
variable {part q cid weight prio tokcap refill : Nat} {seg : Word} {u : Queue}

theorem Tdi.held_of_open {t : Tdi} (h : t = .unlocked ∨ t = .error) : t.held = false := by
  obtain rfl | rfl := h <;> rfl

theorem Tdi.held_of_locked {t : Tdi} (h : t = .locked ∨ t = .run) : t.held = true := by
  obtain rfl | rfl := h <;> rfl

theorem evSchedBlockWrite_open (ha : s.arg 0 < 8) (ht : (s.part (s.arg 0)).tdi.held = false) :
    evSchedBlockWrite s =
      let p := s.part (s.arg 0)
      let o := p.pendingSched.getD (p.teamWait, p.hang, p.drainMax, p.ckptInt, p.proofsz)
      s.setPart (s.arg 0) { p with pendingSched := some (inRangeOr (s.arg 1) 10 10000 o.1, inRangeOr (s.arg 2) 1000 1000000 o.2.1,
        inRangeOr (s.arg 3) 0 1000 o.2.2.1, inRangeOr (s.arg 4) 10 1000 o.2.2.2.1, inRangeOr (s.arg 5) 0 2 o.2.2.2.2) } := by
  unfold evSchedBlockWrite State.writeSched
  exact if_neg (by simp [ha, ht])

theorem evSchedBlockWrite_held (ht : (s.part (s.arg 0)).tdi.held = true) : evSchedBlockWrite s = s := by
  unfold evSchedBlockWrite State.writeSched
  exact if_pos (by simp [ht])

/-- A descriptor within its ranges changes the queue of its context. -/
theorem State.writeQueue_kept (h : s.queueOk part q cid weight prio tokcap refill = true) (hu : (s.part part).queue q = some u)
    (hc : u.cid = cid) : s.writeQueue part q cid weight prio tokcap refill seg =
      s.setPart part ((s.part part).setQueue q (u.written s.hub.time weight prio tokcap refill)) := by
  unfold State.writeQueue
  rw [if_neg (by simp [h])]
  simp only [hu, if_pos hc]

/-- The queue of another context starts anew, and its window's counts go on. -/
theorem State.writeQueue_other (h : s.queueOk part q cid weight prio tokcap refill = true) (hu : (s.part part).queue q = some u)
    (hc : u.cid ≠ cid) : s.writeQueue part q cid weight prio tokcap refill seg =
      s.setPart part ((s.part part).setQueue q
        ((Queue.fresh cid seg u.accepted u.refused).written s.hub.time weight prio tokcap refill)) := by
  unfold State.writeQueue
  rw [if_neg (by simp [h])]
  simp only [hu, if_neg hc]

theorem State.writeQueue_new (h : s.queueOk part q cid weight prio tokcap refill = true) (hu : (s.part part).queue q = none) :
    s.writeQueue part q cid weight prio tokcap refill seg =
      s.setPart part ((s.part part).setQueue q ((Queue.fresh cid seg 0 0).written s.hub.time weight prio tokcap refill)) := by
  unfold State.writeQueue
  rw [if_neg (by simp [h])]
  simp only [hu]

theorem State.writeQueue_refused (h : s.queueOk part q cid weight prio tokcap refill = false) :
    s.writeQueue part q cid weight prio tokcap refill seg = s := by
  unfold State.writeQueue
  exact if_pos (by simp [h])

end

/-! ### Contexts and buffer descriptors (19 R325, 20 R337) -/

section
variable {part cid index : Nat} {bs : List Byte} {c d : Context}

/-- Whether a partition may write a context descriptor: it holds slices, and the CID is one of its own. -/
def State.MayDescribe (s : State) (part : Nat) (bs : List Byte) : Prop :=
  part < 8 ∧ partOf (leNat (bs.take 2)) = part ∧ (s.part part).slices ≠ []

/-- A descriptor that parses changes a context and leaves what firmware does not write of it. -/
theorem State.writeContext_changes (h : s.MayDescribe part bs) (hc : s.ctx? (leNat (bs.take 2)) = some c)
    (hd : parseContext bs c.vdies c.launchCount c.slots c.used = some d) : s.writeContext part bs = s.setCtx d := by
  obtain ⟨hp, hpart, hs⟩ := h
  unfold State.writeContext
  dsimp only
  rw [if_neg (by simp [hp, hpart, hs])]
  simp only [hc, hd]

theorem State.writeContext_malformed (h : s.MayDescribe part bs) (hc : s.ctx? (leNat (bs.take 2)) = some c)
    (hd : parseContext bs c.vdies c.launchCount c.slots c.used = none) : s.writeContext part bs = s := by
  obtain ⟨hp, hpart, hs⟩ := h
  unfold State.writeContext
  dsimp only
  rw [if_neg (by simp [hp, hpart, hs])]
  simp only [hc, hd]

/-- A new context gets the partition's slices in order as its virtual-die table (21 R358). -/
theorem State.writeContext_creates (h : s.MayDescribe part bs) (hc : s.ctx? (leNat (bs.take 2)) = none)
    (hd : parseContext bs (s.part part).slices 0 [] [] = some d) : s.writeContext part bs =
      ({ s with contexts := s.contexts ++ [d] }).fwWrite d.vdtab (tableBytes (s.part part).slices) := by
  obtain ⟨hp, hpart, hs⟩ := h
  unfold State.writeContext
  dsimp only
  rw [if_neg (by simp [hp, hpart, hs])]
  simp only [hc, hd]

theorem State.writeContext_refused (h : 8 ≤ part ∨ partOf (leNat (bs.take 2)) ≠ part ∨ (s.part part).slices = []) :
    s.writeContext part bs = s := by
  unfold State.writeContext
  exact if_pos (by simpa [or_assoc] using h)

/-- Whether a buffer descriptor may stand in a context's table: its owner is of the partition, and its key slot is loaded for it. -/
def State.DescFits (s : State) (part cid index : Nat) (bs : List Byte) : Prop :=
  let owner := leNat ((bs.drop 16).take 2)
  let slot := leNat ((bs.drop 21).take 1)
  let k := s.keySlot slot
  partOf cid = part ∧ index < 4096 ∧ bs.length = 64 ∧ partOf owner = part ∧ owner < 4096 ∧ slot < 64 ∧ k.part = part ∧
    (k.h0 ≠ none ∨ k.h1 ≠ none)

theorem State.writeDesc_fits (hc : s.ctx? cid = some c) (h : s.DescFits part cid index bs) :
    s.writeDesc part cid index bs = s.fwWrite (c.bdt + 64 * index) bs := by
  obtain ⟨hpart, hindex, hlen, howner, hcid, hslot, hk, hloaded⟩ := h
  unfold State.writeDesc
  rw [hc]
  refine if_pos ⟨hpart, hindex, hlen, howner, hcid, ?_⟩
  simpa [hslot, hk, Option.isSome_iff_ne_none] using hloaded

theorem State.writeDesc_unfit (hc : s.ctx? cid = some c) (h : ¬ s.DescFits part cid index bs) : s.writeDesc part cid index bs = s := by
  unfold State.writeDesc
  rw [hc]
  refine if_neg fun ⟨hpart, hindex, hlen, howner, hcid, hloaded⟩ => h ?_
  simp only [Bool.and_eq_true, Bool.or_eq_true, beq_iff_eq, decide_eq_true_eq, Option.isSome_iff_ne_none] at hloaded
  obtain ⟨⟨hk, hloaded⟩, hslot⟩ := hloaded
  exact ⟨hpart, hindex, hlen, howner, hcid, hslot, hk, hloaded⟩

theorem State.writeDesc_without_context (hc : s.ctx? cid = none) (part index : Nat) (bs : List Byte) : s.writeDesc part cid index bs = s := by
  rw [State.writeDesc, hc]

end

/-! ### Free pools (19 R331) -/

section
variable {part stack size : Nat} {ns : List Nat}

/-- Whether frames, numbered within a stack, may be added to a pool of a partition: a page size, a stack of its slices, and frames that are
aligned and lie below the stack's own area. -/
def State.FramesFit (s : State) (part stack size : Nat) (ns : List Nat) : Prop :=
  (size = 4096 ∨ size = 65536 ∨ size = 0x200000) ∧ stack < 16 ∧ stack / 2 ∈ (s.part part).slices ∧
    ∀ n ∈ ns, 4096 * n % size = 0 ∧ n + size / 4096 ≤ 14680064

/-- The addresses of frames numbered within a stack. -/
def State.framesAt (s : State) (stack : Nat) (ns : List Nat) : List Nat :=
  ns.map fun n => s.hub.pkgid.toNat * 2 ^ 40 + stack * 2 ^ 36 + 4096 * n

/-- A stack's pool of a partition and page size replaced. -/
def State.setPool (s : State) (part stack size : Nat) (fs : List Nat) (ring : Nat) : State :=
  let m := s.mdie stack
  s.setMdie stack { m with pools := (m.pools.filter fun p => !(p.1 == part && p.2.1 == size)) ++ [(part, size, fs, ring)] }

theorem State.framesFit_iff : s.FramesFit part stack size ns ↔
    ([4096, 65536, 0x200000].contains size && stack < 16 && (s.part part).slices.contains (stack / 2)
      && ns.all fun n => 4096 * n % size == 0 && n + size / 4096 ≤ 14680064) = true := by
  simp [State.FramesFit, and_assoc]

/-- Frames that fit begin a pool that was not there. -/
theorem State.addFrames_new (h : s.FramesFit part stack size ns)
    (hp : ((s.mdie stack).pools.find? fun p => p.1 == part && p.2.1 == size) = none) (hn : (s.framesAt stack ns).length ≤ 65536) :
    s.addFrames part stack size ns = s.setPool part stack size (s.framesAt stack ns) (max 0 (s.framesAt stack ns).length) := by
  unfold State.addFrames
  dsimp only
  rw [State.framesFit_iff.mp h, hp, Bool.true_and]
  exact if_pos (decide_eq_true hn)

/-- Frames that fit go behind those the pool holds, whose ring grows to hold them. -/
theorem State.addFrames_more {q : Nat × Nat × List Nat × Nat} (h : s.FramesFit part stack size ns)
    (hp : ((s.mdie stack).pools.find? fun p => p.1 == part && p.2.1 == size) = some q)
    (hn : (q.2.2.1 ++ s.framesAt stack ns).length ≤ 65536) : s.addFrames part stack size ns =
      s.setPool part stack size (q.2.2.1 ++ s.framesAt stack ns) (max q.2.2.2 (q.2.2.1 ++ s.framesAt stack ns).length) := by
  unfold State.addFrames
  dsimp only
  rw [State.framesFit_iff.mp h, hp, Bool.true_and]
  exact if_pos (decide_eq_true hn)

theorem State.addFrames_unfit (h : ¬ s.FramesFit part stack size ns) : s.addFrames part stack size ns = s := by
  rw [State.framesFit_iff, Bool.not_eq_true] at h
  unfold State.addFrames
  dsimp only
  rw [h]
  rfl

end

/-! ### Aperture tables (24 R398) -/

theorem evApertureTableWrite_fits (hb : s.arg 1 < 64) (hc : s.arg 3 < 4096) (ha : partOf (s.arg 3) = s.arg 0) :
    evApertureTableWrite s =
      let p := s.part (s.arg 0)
      let e : ApEntry := ⟨BitVec.ofNat 64 (s.arg 2), s.arg 3, s.arg 4 % 2 = 1, s.arg 4 / 2 % 2 = 1⟩
      s.setPart (s.arg 0) { p with apertures := (p.apertures.filter fun k => k.1 != s.arg 1) ++ [(s.arg 1, e)] } :=
  if_pos (by simp [hb, hc, ha])

theorem evApertureTableWrite_unfit (h : 64 ≤ s.arg 1 ∨ 4096 ≤ s.arg 3 ∨ partOf (s.arg 3) ≠ s.arg 0) : evApertureTableWrite s = s :=
  if_neg (by simp; omega)

end Sys2Proof.Machine
end

section
/-! Compute and memory dies replaced and read back; and what the memory system does on its own takes no memory die in or out of reset
(18 R310, R316-R318, 19 R327-R335, 22 R371-R375). -/

namespace Sys2Proof.Machine

theorem State.die_setDie (s : State) {n : Nat} (hn : n < 8) (d : Die) : (s.setDie n d).die n = d := by
  simp [State.setDie, State.die, hn]

theorem State.die_setDie_ne (s : State) {n k : Nat} (h : k ≠ n) (d : Die) : (s.setDie n d).die k = s.die k := by
  unfold State.setDie
  split
  · simp [State.die, List.getD_eq_getElem?_getD, h.symm]
  · rfl

theorem State.mdie_setMdie (s : State) {n : Nat} (hn : n < 16) (m : Stack) : (s.setMdie n m).mdie n = m := by
  simp [State.setMdie, State.mdie, hn]

theorem State.mdie_setMdie_ne (s : State) {n k : Nat} (h : k ≠ n) (m : Stack) : (s.setMdie n m).mdie k = s.mdie k := by
  unfold State.setMdie
  split
  · simp [State.mdie, List.getD_eq_getElem?_getD, h.symm]
  · rfl

/-- A state whose memory dies are in reset where those of another are. -/
def State.ResetsOf (r s : State) : Prop := ∀ n, (s.mdie n).inReset = (r.mdie n).inReset

namespace State.ResetsOf

variable {r s u : State}

theorem refl (s : State) : s.ResetsOf s := fun _ => rfl

/-- Another state with the same memory dies. -/
theorem same (h : r.ResetsOf s) (hm : u.mdies = s.mdies) : r.ResetsOf u := fun n => by
  rw [State.mdie, hm]
  exact h n

theorem of_memoryOnly (h : r.ResetsOf s) (hu : s.memoryOnly u) : r.ResetsOf u := by
  obtain ⟨_, _, _, _, _, rfl⟩ := hu
  exact h

/-- A memory die replaced by one that is in reset where it was. -/
theorem setMdie (h : r.ResetsOf s) {n : Nat} {m : Stack} (hm : m.inReset = (s.mdie n).inReset) : r.ResetsOf (s.setMdie n m) := fun k => by
  by_cases hk : k = n
  · subst hk
    by_cases hn : k < 16
    · rw [s.mdie_setMdie hn, hm, h k]
    · rw [State.setMdie, dif_neg hn, h k]
  · rw [s.mdie_setMdie_ne hk, h k]

/-! ### Control -/

theorem ite {c : Prop} {_ : Decidable c} (h : r.ResetsOf s) (h' : r.ResetsOf u) : r.ResetsOf (if c then s else u) := by
  split <;> assumption

theorem ite_fst {α : Type} {c : Prop} {_ : Decidable c} {x y : State × α} (h : r.ResetsOf x.1) (h' : r.ResetsOf y.1) :
    r.ResetsOf (if c then x else y).1 := by
  split <;> assumption

theorem foldl {α : Type} {f : State → α → State} {as : List α} (h : r.ResetsOf s) (hf : ∀ u a, r.ResetsOf u → r.ResetsOf (f u a)) :
    r.ResetsOf (as.foldl f s) := List.foldlRecOn as f h fun u hu a _ => hf u a hu

theorem foldl_fst {α β : Type} {f : State × β → α → State × β} {x : State × β} {as : List α} (h : r.ResetsOf x.1)
    (hf : ∀ u a, r.ResetsOf u.1 → r.ResetsOf (f u a).1) : r.ResetsOf (as.foldl f x).1 :=
  List.foldlRecOn (motive := fun x : State × β => r.ResetsOf x.1) as f h fun u hu a _ => hf u a hu

theorem ok {α : Type} {x : Except Miss (State × α)} {a : α} (h : r.ResetsOf (stateAfter x)) (e : x = .ok (u, a)) : r.ResetsOf u := by
  rwa [e] at h

theorem error {α : Type} {x : Except Miss (State × α)} {m : Miss} (h : r.ResetsOf (stateAfter x)) (e : x = .error m) :
    r.ResetsOf m.state := by rwa [e] at h

/-! ### Homes and links -/

theorem notify (h : r.ResetsOf s) {p k cid : Nat} : r.ResetsOf (s.notify p k cid) :=
  (h.same (State.setPart_mdies ..)).ite (h.same (State.setPart_mdies ..))

theorem setPte (h : r.ResetsOf s) {a v : Nat} : r.ResetsOf (s.setPte a v) := h.of_memoryOnly (s.fwWrite_only a _)

theorem lineOut (h : r.ResetsOf s) {cid slot : Nat} {nb : Bool} {b : Word} {pa : Nat} {data : BitVec 512} {mask : BitVec 64} :
    r.ResetsOf (s.lineOut cid slot nb b pa data mask).1 := h.of_memoryOnly (s.homeWrite_only ..)

theorem serve (h : r.ResetsOf s) {t : Txn} : r.ResetsOf (s.serve t).state := by
  unfold State.serve
  split
  · exact h
  · exact h.lineOut (b := t.bref)
  · unfold State.atomicAt
    dsimp only
    split
    · exact h
    · exact h.ite_fst (h.lineOut (b := t.bref))
  all_goals exact h

/-- The answer of what was served is on its way. -/
theorem sent {x : Served} (h : r.ResetsOf x.state) {t : Txn} : r.ResetsOf (x.sent t) := by
  unfold Served.sent
  split <;> exact h

theorem unlockOut (h : r.ResetsOf s) {pa : Nat} : r.ResetsOf (s.unlockOut pa).1 := by
  have hb (b : Block) : r.ResetsOf (s.setBlock pa b) := h
  unfold State.unlockOut
  dsimp only
  split
  · exact (hb _).foldl_fst fun _ _ hu => hu.serve.sent
  · exact h

theorem burstTaken (h : r.ResetsOf s) {part src dst : Nat} : r.ResetsOf (s.burstTaken part src dst) :=
  (h.same (State.setPart_mdies ..)).ite h

theorem arriveOut (h : r.ResetsOf s) {p : Txn → Bool} : r.ResetsOf (s.arriveOut p).1 := by
  have carried {u : State} (hu : r.ResetsOf u) (t : Txn) : r.ResetsOf (u.carried t) := hu.ite hu.burstTaken
  unfold State.arriveOut
  refine foldl_fst h fun _ t hu => ?_
  split
  · exact (carried hu.unlockOut t).lineOut (b := t.bref)
  · exact hu

theorem settleOut (h : r.ResetsOf s) {pa : Nat} : r.ResetsOf (s.settleOut pa).1 := h.unlockOut.arriveOut.unlockOut

/-! ### Translation -/

theorem takeFrame (h : r.ResetsOf s) {stack part size f : Nat} (e : s.takeFrame stack part size = some (f, u)) : r.ResetsOf u := by
  unfold State.takeFrame at e
  dsimp only at e
  split at e
  · cases e
    refine .ite (.notify (h.setMdie ?_)) (h.setMdie ?_) <;> rfl
  · cases e

theorem backPage (h : r.ResetsOf s) {a : Acc} {d : Desc} {va entry size : Nat} (e : s.backPage a d va entry size = some u) :
    r.ResetsOf u := by
  have markDead {u : State} (hu : r.ResetsOf u) (pa : Nat) : r.ResetsOf (u.markDead pa) := hu
  unfold State.backPage at e
  dsimp only at e
  split at e
  · cases e
  · split at e
    · cases e
    · split at e
      · cases e
      next ef =>
        cases e
        refine .ite (.foldl ?_ fun _ _ hu => hu.setPte) (.setPte ?_) <;>
          exact (h.takeFrame ef).setPte.foldl fun _ _ hu => markDead hu _

theorem install (h : r.ResetsOf s) {a : Acc} {p : Page} {d : Bool} : r.ResetsOf (s.install a p d) := by
  unfold State.install
  split <;> exact h

theorem useLeaf (h : r.ResetsOf s) {a : Acc} {va e size frame : Nat} {write : Bool} :
    r.ResetsOf (stateAfter (s.useLeaf a va e size frame write)) := by
  unfold State.useLeaf
  dsimp only
  split
  · exact h
  · exact (h.ite h.setPte).install

theorem walkPage (h : r.ResetsOf s) {a : Acc} {d : Desc} {va : Nat} {write : Bool} :
    r.ResetsOf (stateAfter (s.walkPage a d va write)) := by
  unfold State.walkPage
  split
  · exact h
  · split
    · exact h
    · exact h
    · exact h
    · exact h.useLeaf
    · split
      · exact h
      next e =>
        split
        · exact (h.backPage e).useLeaf
        · exact h.backPage e

theorem translate (h : r.ResetsOf s) {a : Acc} {d : Desc} {va : Nat} {write : Bool} :
    r.ResetsOf (stateAfter (s.translate a d va write)) := by
  unfold State.translate
  dsimp only
  split
  · split <;> exact h
  · exact h.walkPage

theorem translatePages (h : r.ResetsOf s) {a : Acc} {b : Word} {n : Nat} {write : Bool} :
    r.ResetsOf (stateAfter (s.translatePages a b n write)) := by
  unfold State.translatePages State.translateUnder
  refine List.foldlRecOn (motive := fun x => r.ResetsOf (stateAfter x)) _ _ h fun x hx _ _ => ?_
  split
  · exact hx
  next v _ =>
    have hv : r.ResetsOf v := hx
    split
    next e => exact (hv.translate.error e :)
    next e => exact (hv.translate.ok e :)

/-! ### The device's own accesses and records -/

theorem devPut (h : r.ResetsOf s) {a : Acc} {b : Word} {bs : List Byte} : r.ResetsOf (s.devPut a b bs).1 := by
  unfold State.devPut
  split
  · exact h
  · refine foldl_fst h fun _ _ hu => ?_
    split
    next e => exact hu.translate.error e
    next e => exact (hu.translate.ok e).settleOut.lineOut (b := b)

theorem touchOut (h : r.ResetsOf s) {a : Acc} {b : Word} {n : Nat} : r.ResetsOf (s.touchOut a b n).1 := by
  unfold State.touchOut
  split
  · exact h
  · split
    next e => exact h.translatePages.error e
    next e =>
      refine foldl_fst (h.translatePages.ok e) fun _ _ hu => ?_
      split
      · exact hu.settleOut
      · exact hu

theorem postCore (h : r.ResetsOf s) {cid k : Nat} {bs : List Byte} : r.ResetsOf (s.postCore cid k bs).1 := by
  unfold State.postCore
  split
  · exact h
  · refine ite_fst ?_ ?_
    · exact h.touchOut.devPut.devPut.notify
    · exact h.touchOut.devPut

theorem reportAll (h : r.ResetsOf s) {fuel : Nat} {rs : List Report} : r.ResetsOf (State.reportAll fuel s rs) := by
  induction fuel generalizing s rs with
  | zero => exact h
  | succ fuel ih =>
    unfold State.reportAll
    split
    · exact h
    · refine ih (.postCore (.ite (h.setMdie ?_) h))
      rfl

theorem unlock (h : r.ResetsOf s) {pa : Nat} : r.ResetsOf (s.unlock pa) := h.unlockOut.ite h.unlockOut.reportAll

theorem failHeld (h : r.ResetsOf s) {m : Nat} : r.ResetsOf (s.failHeld m) := h.foldl fun _ _ hu => hu.unlock

end State.ResetsOf

/-- A memory die that is reset is in reset, whatever the accesses that its locks held then report (19 R335). -/
theorem State.resetStack_inReset (s : State) {m : Nat} (hm : m < 16) : ((s.resetStack m).mdie m).inReset = true := by
  let u : State := s.setMdie m { s.mdie m with inReset := true, clock := blankClock }
  let v : State := { u with nodes := u.nodes.filter fun kv => !Node.inStack m kv }
  have hu : (u.mdie m).inReset = true := by rw [s.mdie_setMdie hm]
  have hv : u.ResetsOf v := (State.ResetsOf.refl u).same rfl
  exact (hv.failHeld m).trans hu

end Sys2Proof.Machine
end

section
/-! Dies reset and brought back, watchdogs of firmware, and thermal limits (18 R323, 19 R335, 21 R364, 25 R409). -/

namespace Sys2Proof.Machine

variable {s : State} {n : Nat}

/-! ### Resets and returns (19 R335, 21 R364) -/

theorem State.notify_dies (s : State) (p k cid : Nat) : (s.notify p k cid).dies = s.dies := by
  unfold State.notify
  dsimp only
  split <;> exact State.setPart_dies ..

/-- A compute die that is reset is in reset: what follows its taking off reports it, and resets its hart. -/
theorem State.resetDie_inReset (s : State) (hn : n < 8) : ((s.resetDie n).die n).inReset = true := by
  have same {u v : State} (h : (u.die n).inReset = true) (hd : v.dies = u.dies) : (v.die n).inReset = true := by
    rwa [State.die, hd]
  have hdie (u : State) (d : Die) (hd : d.inReset = true) : ((u.setDie n d).die n).inReset = true := by rw [u.die_setDie hn, hd]
  unfold State.resetDie State.resetDieWith
  dsimp only
  rw [dif_pos (by omega)]
  split
  · exact same (hdie _ _ rfl) ((State.notify_dies ..).trans (State.setHart_dies ..))
  · exact same (hdie _ _ rfl) (State.setHart_dies ..)

theorem State.sliceOwner_setDie (s : State) (n k : Nat) (d : Die) : (s.setDie n d).sliceOwner k = s.sliceOwner k := by
  simp only [State.sliceOwner, State.part, State.setDie_parts]

theorem State.bringBack_die (h1 : 1 ≤ n) (h8 : n ≤ 8) (h : (s.die (n - 1)).inReset = true ∨ (s.die (n - 1)).orphan = true) :
    s.bringBack n =
      let d := s.die (n - 1)
      ((s.setDie (n - 1) { d with inReset := false, orphan := false, clock := blankClock, keys := d.loan.map Loan.borrower }).rekey
        ((s.sliceOwner (n - 1)).toList ++ (d.loan.map Loan.borrower).toList)).retrain n := by
  unfold State.bringBack
  rw [if_pos ⟨h1, h8⟩]
  dsimp only
  rw [if_pos (by simpa using h), State.sliceOwner_setDie]

theorem State.bringBack_standing_die (h1 : 1 ≤ n) (h8 : n ≤ 8) (hr : (s.die (n - 1)).inReset = false)
    (ho : (s.die (n - 1)).orphan = false) : s.bringBack n = s := by
  unfold State.bringBack
  rw [if_pos ⟨h1, h8⟩]
  exact if_neg (by simp [hr, ho])

theorem State.bringBack_stack (h1 : 16 ≤ n) (h2 : n ≤ 31) (h : (s.mdie (n - 16)).inReset = true ∨ (s.mdie (n - 16)).orphan = true) :
    s.bringBack n =
      ((s.setMdie (n - 16) { s.mdie (n - 16) with inReset := false, orphan := false, clock := blankClock, refreshed := [] }).killStack
        (n - 16)).retrain n := by
  unfold State.bringBack
  rw [if_neg (by omega), if_pos ⟨h1, h2⟩]
  exact if_pos (by simpa using h)

theorem State.bringBack_standing_stack (h1 : 16 ≤ n) (h2 : n ≤ 31) (hr : (s.mdie (n - 16)).inReset = false)
    (ho : (s.mdie (n - 16)).orphan = false) : s.bringBack n = s := by
  unfold State.bringBack
  rw [if_neg (by omega), if_pos ⟨h1, h2⟩]
  exact if_neg (by simp [hr, ho])

/-- A cleared range reads as the default. -/
theorem Sparse.get_clear_inside {α : Type} (d : α) {lo n k : Nat} (hlo : lo ≤ k) (hhi : k < lo + n) (l : List (Nat × α)) :
    Sparse.get d (Sparse.clear l lo n) k = d := by
  induction l with
  | nil => rfl
  | cons kv rest ih =>
    rw [Sparse.clear, List.filter_cons]
    split
    next hkv =>
      have hne : kv.1 ≠ k := by
        simp only [Bool.or_eq_true, decide_eq_true_eq] at hkv
        omega
      rw [Sparse.get, if_neg hne]
      exact ih
    next => exact ih

/-- Every byte of a stack whose blocks were killed reads 0. -/
theorem State.killStack_get (s : State) (m : Nat) {pa : Nat} (h : pa / 2 ^ 36 = (s.hub.pkgid.toNat * 2 ^ 40 + m * 2 ^ 36) / 2 ^ 36) :
    Sparse.get 0 (s.killStack m).mem pa = 0 :=
  Sparse.get_clear_inside 0 (by omega) (by omega) s.mem

theorem evDieReset_die (h1 : 1 ≤ s.arg 0) (h8 : s.arg 0 ≤ 8) : evDieReset s = (s.resetDie (s.arg 0 - 1)).noted s :=
  if_pos (by simp [h1, h8])

theorem evDieReset_stack (h1 : 16 ≤ s.arg 0) (h2 : s.arg 0 ≤ 31) : evDieReset s = s.resetStack (s.arg 0 - 16) := by
  unfold evDieReset
  dsimp only
  rw [if_neg (by simp; omega), if_pos (by simp [h1, h2])]

/-! ### Watchdogs of firmware (18 R323) -/

section
variable (ha : s.arg 0 < 16)
include ha

theorem evFirmwareWatchdog_serviced (hw : (s.hart ⟨s.arg 0, ha⟩).wdog = true) :
    evFirmwareWatchdog s = s.setHart ⟨s.arg 0, ha⟩ { s.hart ⟨s.arg 0, ha⟩ with wdog := false } := by
  unfold evFirmwareWatchdog
  rw [dif_pos ha]
  exact if_pos hw

theorem evFirmwareWatchdog_hub (hw : (s.hart ⟨s.arg 0, ha⟩).wdog = false) (h8 : s.arg 0 < 8) :
    evFirmwareWatchdog s =
      let r := s.setHart ⟨s.arg 0, ha⟩ blankHart
      { r with hub := { r.hub with evt := r.hub.evt ||| 1 } } := by
  unfold evFirmwareWatchdog
  rw [dif_pos ha]
  dsimp only
  rw [hw]
  exact if_pos h8

theorem evFirmwareWatchdog_die (hw : (s.hart ⟨s.arg 0, ha⟩).wdog = false) (h8 : 8 ≤ s.arg 0) :
    evFirmwareWatchdog s =
      let r := s.setHart ⟨s.arg 0, ha⟩ blankHart
      let d := s.arg 0 - 8
      ((r.setDie d { r.die d with evt := (r.die d).evt ||| 1 }).takeOffDie d s.hangDetail).noted s := by
  unfold evFirmwareWatchdog
  rw [dif_pos ha]
  dsimp only
  rw [hw]
  exact if_neg (Nat.not_lt.mpr h8)

end

/-! ### Thermal limits (25 R409) -/

/-- The state in which a compute die has been reset for its temperature, and its event bit tells it. -/
def State.tripReset (s : State) (n : Nat) : State :=
  let r := (s.resetDie n).noted s
  r.setDie n { r.die n with evt := (r.die n).evt ||| 2 }

/-- A present die above 115 degrees is reset; any other only has its new record. -/
theorem State.tripped_setDie (s : State) (hn : n < 8) (d : Die) :
    (s.setDie n d).tripped n = if 115 < d.temp ∧ d.present = true then (s.setDie n d).tripReset n else s.setDie n d := by
  unfold State.tripped
  rw [s.die_setDie hn]
  exact if_congr (by simp) rfl rfl

/-- A die's thermal cap after a step at a temperature: 68 lower above 100 degrees, 68 higher below 95, within its bounds. -/
def thermalCap (cap temp : Nat) : Nat := if 100 < temp then max 680 (cap - 68) else if temp < 95 then min 1360 (cap + 68) else cap

theorem evThermalCapStep_due (ha : s.arg 0 < 8) (hp : s.past (s.die (s.arg 0)).capAt 1000 = true) :
    evThermalCapStep s =
      let d := s.die (s.arg 0)
      let cap := thermalCap d.cap (s.arg 1)
      (s.setDie (s.arg 0) { d with cap := cap, temp := s.arg 1, capAt := s.hub.time, pool := min d.stampSet cap }).tripped (s.arg 0) := by
  unfold evThermalCapStep
  exact if_neg (by simp [ha, hp])

theorem evThermalCapStep_early (hp : s.past (s.die (s.arg 0)).capAt 1000 = false) : evThermalCapStep s = s := by
  unfold evThermalCapStep
  exact if_pos (by simp [hp])

theorem evThermalTrip_die (h1 : 1 ≤ s.arg 0) (h8 : s.arg 0 ≤ 8) :
    evThermalTrip s = (s.setDie (s.arg 0 - 1) { s.die (s.arg 0 - 1) with temp := s.arg 1 }).tripped (s.arg 0 - 1) := by
  unfold evThermalTrip
  exact if_pos (by simp [h1, h8])

theorem evThermalTrip_stack (h1 : 16 ≤ s.arg 0) (h2 : s.arg 0 ≤ 31) :
    evThermalTrip s =
      let m := (s.mdie (s.arg 0 - 16)).refilled s.hub.time
      let evt := if 105 < s.arg 1 ∧ m.present = true then m.evt ||| 2 else m.evt
      let u := s.setMdie (s.arg 0 - 16) { m with temp := s.arg 1, halved := 85 < s.arg 1, evt := evt }
      if 105 < s.arg 1 ∧ m.present = true then u.resetStack (s.arg 0 - 16) else u := by
  unfold evThermalTrip
  dsimp only
  rw [if_neg (by simp; omega), if_pos (by simp [h1, h2])]
  simp only [Bool.and_eq_true, decide_eq_true_eq]

end Sys2Proof.Machine
end

section
/-! Bring-up, and what a reset leaves (21 R356, 25 R407). -/

namespace Sys2Proof.Machine

/-! ### A reset of the module (25 R407) -/

theorem State.part_of_map {s u : State} {f : Part → Part} (h : u.parts = s.parts.map f) {p : Nat} (hp : p < 8) :
    u.part p = f (s.part p) := by
  simp [State.part, h, hp, List.getD_eq_getElem?_getD]

theorem State.die_of_map {s u : State} {f : Die → Die} (h : u.dies = s.dies.map f) {n : Nat} (hn : n < 8) : u.die n = f (s.die n) := by
  simp [State.die, h, hn, List.getD_eq_getElem?_getD]

theorem State.blank_part (s : State) {p : Nat} (hp : p < 8) : s.blank.part p = (s.part p).wiped := State.part_of_map rfl hp

theorem State.blank_die (s : State) {n : Nat} (hn : n < 8) : s.blank.die n = (s.die n).fused := State.die_of_map rfl hn

/-! ### The end of a step -/

section
variable {s u : State} {time : Nat} {fs peers : List Nat}

theorem State.bringUp_held (h : (s.hub.bootStep = 1 ∧ failsAt fs 1 0 = true) ∨ s.hub.bootFail = 2) : s.bringUp time fs peers = s := by
  unfold State.bringUp
  exact if_pos (by simpa using h)

theorem State.bringUp_failed (hk : s.hub.bootStep = 2) (hf : failsAt fs 2 0 = true) :
    s.bringUp time fs peers = { s with hub := { s.hub with bootFail := 2 } } := by
  unfold State.bringUp
  dsimp only
  split
  next h =>
    have hb : s.hub.bootFail = 2 := by simpa [hk] using h
    rw [← hb]
  next => exact if_pos (by simp [hk, hf])

theorem State.bringUp_next (h1 : s.hub.bootStep = 1 → failsAt fs 1 0 = false) (h2 : s.hub.bootStep = 2 → failsAt fs 2 0 = false)
    (hb : s.hub.bootFail ≠ 2) : s.bringUp time fs peers =
      let u := s.bootStage s.hub.bootStep time fs peers
      { u with hub := { u.hub with bootStep := if s.hub.bootStep < 9 then s.hub.bootStep + 1 else 15 } } := by
  have hone : ¬ (((s.hub.bootStep = 1 && failsAt fs 1 0) || s.hub.bootFail = 2) = true) := by simpa [hb] using h1
  have htwo : ¬ ((s.hub.bootStep = 2 && failsAt fs 2 0) = true) := by simpa using h2
  unfold State.bringUp
  dsimp only
  rw [if_neg hone, if_neg htwo]

/-- A bring-up that begins: its first step ends at once where it does not fail. -/
theorem State.bringUp_first (hk : u.hub.bootStep = 1) (hb : u.hub.bootFail = 0) :
    u.bringUp time fs peers = if failsAt fs 1 0 then u else { u with hub := { u.hub with bootStep := 2 } } := by
  split
  next hf => exact State.bringUp_held (.inl ⟨hk, hf⟩)
  next hf =>
    rw [State.bringUp_next (fun _ => Bool.eq_false_iff.mpr hf) (by simp [hk]) (by simp [hb]), hk]
    rfl

theorem evPowerUp_done (h : s.hub.bootStep = 15) : evPowerUp s = s := by
  unfold evPowerUp
  exact if_pos h

theorem evPowerUp_begins (h : s.hub.bootStep = 0) :
    evPowerUp s = s.bootWith { s.blank with hub := { s.blank.hub with
      pkgid := s.hub.pkgid, domain := s.hub.domain, tmaster := s.hub.tmaster, owner := s.hub.owner, epoch := s.hub.epoch } } := by
  unfold evPowerUp
  dsimp only
  rw [if_neg (by simp [h]), if_pos h]

theorem evPowerUp_goes_on (h0 : s.hub.bootStep ≠ 0) (h15 : s.hub.bootStep ≠ 15) : evPowerUp s = s.bootWith s := by
  unfold evPowerUp
  dsimp only
  rw [if_neg h15, if_neg h0]

end

/-! ### Slices that fail a step (21 R356) -/

section
variable (s : State) (fs : List Nat) (step : Nat) {d : Nat}

/-- A compute die of a slice found absent. -/
def Die.dropped (d : Die) : Die := { d with present := false, clock := blankClock, evt := 8 }

theorem State.dropSlice_hub (n : Nat) : (s.dropSlice n).hub = s.hub := by
  simp only [State.dropSlice, State.setMdie_hub, State.setDie_hub]

theorem State.dropSlice_die (n : Nat) (hd : d < 8) : (s.dropSlice n).die d = if d = n then (s.die d).dropped else s.die d := by
  have hdies : (s.dropSlice n).dies = (s.setDie n (s.die n).dropped).dies := by
    simp only [State.dropSlice, State.setMdie_dies]
    rfl
  rw [State.die, hdies]
  split
  next h =>
    subst h
    exact s.die_setDie hd _
  next h => exact s.die_setDie_ne h _

theorem State.dropSlices_hub (ns : List Nat) : (ns.foldl State.dropSlice s).hub = s.hub := by
  induction ns generalizing s with
  | nil => rfl
  | cons n ns ih => rw [List.foldl_cons, ih, s.dropSlice_hub]

theorem State.dropSlices_die (ns : List Nat) (hd : d < 8) :
    (ns.foldl State.dropSlice s).die d = if d ∈ ns then (s.die d).dropped else s.die d := by
  induction ns generalizing s with
  | nil => rfl
  | cons n ns ih =>
    rw [List.foldl_cons, ih, s.dropSlice_die n hd]
    by_cases hn : d = n <;> by_cases hmem : d ∈ ns <;> simp [hn, hmem, Die.dropped]

/-- A check of slices changes of the hub what FAIL reports. -/
theorem State.checkSlices_hub : ∃ f, (s.checkSlices fs step).hub = { s.hub with bootFail := f } := by
  refine ⟨(s.checkSlices fs step).hub.bootFail, ?_⟩
  unfold State.checkSlices
  dsimp only
  rw [State.dropSlices_hub]

/-- A check of slices drops the die of each that stands and fails. -/
theorem State.checkSlices_die (hd : d < 8) : (s.checkSlices fs step).die d =
    if (s.die d).present = true ∧ s.sliceFails fs d step = true then (s.die d).dropped else s.die d := by
  refine (s.dropSlices_die _ hd).trans (if_congr ?_ rfl rfl)
  simp [hd]

end

/-! ### The steps (25 R407) -/

section
variable (s : State) (t : Nat) (fs peers : List Nat) {d : Nat}

theorem State.bootStage_measures (hd : d < 8) :
    ((s.bootStage 3 t fs peers).die d).present = !(failsAt fs 3 (1 + d) || failsAt fs 3 (16 + 2 * d) || failsAt fs 3 (17 + 2 * d)) := by
  have hraised : s.raiseDies.die d = { s.die d with present := true } :=
    State.die_of_map (f := fun d => { d with present := true }) rfl hd
  have hfails : s.raiseDies.sliceFails fs d 3 = (failsAt fs 3 (1 + d) || failsAt fs 3 (16 + 2 * d) || failsAt fs 3 (17 + 2 * d)) := rfl
  rw [State.bootStage, State.checkSlices_die _ _ _ hd, hraised, hfails]
  cases failsAt fs 3 (1 + d) || failsAt fs 3 (16 + 2 * d) || failsAt fs 3 (17 + 2 * d) <;> rfl

theorem State.bootStage_locksRemaps (hd : d < 8) : ((s.bootStage 6 t fs peers).die d).remapLock = true := by
  have hlocked : s.lockRemaps.die d = { s.die d with remapLock := true } :=
    State.die_of_map (f := fun d => { d with remapLock := true }) rfl hd
  rw [State.bootStage, State.checkSlices_die _ _ _ hd, hlocked]
  split <;> rfl

theorem State.bootStage_loadsMaster :
    (s.bootStage 7 t fs peers).hub.time = t % 2 ^ 64 ∧ (s.bootStage 7 t fs peers).hub.timeLocked = true := by
  obtain ⟨f, hf⟩ := (s.loadTime (t % 2 ^ 64)).checkSlices_hub fs 7
  rw [State.bootStage, hf]
  exact ⟨rfl, rfl⟩

/-- A die's copy of package time starts at the master's, and is locked where the die stands. -/
theorem State.bootStage_loadsDies (hd : d < 8) : ((s.bootStage 7 t fs peers).die d).time = t % 2 ^ 64 ∧
    (((s.bootStage 7 t fs peers).die d).present = true → ((s.bootStage 7 t fs peers).die d).clock.locked = true) := by
  have hloaded : (s.loadTime (t % 2 ^ 64)).die d =
      { s.die d with time := t % 2 ^ 64, clock := { (s.die d).clock with locked := (s.die d).present } } :=
    State.die_of_map (f := fun d => { d with time := t % 2 ^ 64, clock := { d.clock with locked := d.present } }) rfl hd
  rw [State.bootStage, State.checkSlices_die _ _ _ hd, hloaded]
  split
  · exact ⟨rfl, fun hp => nomatch hp⟩
  · exact ⟨rfl, id⟩

/-- A number whose set bits a test picks, built from its lowest bit up. -/
theorem testBit_mask (f : Nat → Bool) (k d : Nat) :
    ((List.range k).foldl (fun m n => if f n then m + 2 ^ n else m) 0).testBit d = (decide (d < k) && f d) := by
  induction k generalizing d with
  | zero => simp
  | succ k ih =>
    have hlt : (List.range k).foldl (fun m n => if f n then m + 2 ^ n else m) 0 < 2 ^ k :=
      Nat.lt_pow_two_of_testBit _ fun i hi => by rw [ih, decide_eq_false (Nat.not_lt.mpr hi), Bool.false_and]
    rw [List.range_succ, List.foldl_append, List.foldl_cons, List.foldl_nil]
    generalize hm : (List.range k).foldl (fun m n => if f n then m + 2 ^ n else m) 0 = m at ih hlt
    have hor : m + 2 ^ k = 2 ^ k ||| m := by
      have := Nat.two_pow_add_eq_or_of_lt hlt 1
      rwa [Nat.mul_one, Nat.add_comm] at this
    cases hf : f k <;> simp only [hor, Nat.testBit_or, Nat.testBit_two_pow, ih, Bool.false_eq_true, if_false, if_true] <;> grind

/-- PRESENT and the stamp pools at the end of bring-up. -/
theorem State.bootStage_raisesPools (hd : d < 8) :
    (s.bootStage 9 t fs peers).hub.bootPresent.getLsbD d = (s.die d).present ∧
      ((s.bootStage 9 t fs peers).die d).pool = min 1360 (s.die d).cap := by
  have hdie : s.raisePools.die d = { s.die d with stampSet := 1360, pool := min 1360 (s.die d).cap } :=
    State.die_of_map (f := fun d => { d with stampSet := 1360, pool := min 1360 d.cap }) rfl hd
  refine ⟨?_, congrArg Die.pool hdie⟩
  rw [State.bootStage, State.raisePools, BitVec.getLsbD_ofNat, testBit_mask fun n => (s.die n).present]
  simp [hd]

end

end Sys2Proof.Machine
end

section
/-! Events of firmware's records, bring-up, resets and thermal limits (18 R323, 19 R325, R331, R335, 20 R336-R341, 21 R356, R364, 24 R398,
25 R407, R409, R410). -/

namespace Sys2Proof.Machine

/-- Settles O60: each record by the rule of its ranges, each step of bring-up by what it does to a die, and each die's event by the rule of
its reset or return. -/
theorem firmwareEvents : Obligations.FirmwareEvents := by
  unfold Obligations.FirmwareEvents
  intro s a b p now
  refine ⟨?sched, ?queue, ?context, ?desc, ?noContext, ?frames, ?aperture, ?noAperture, ?resetDie, ?resetStack, ?returnDie, ?returnStack,
    ?bringUp, ?blank, ?stages, ?watchdog, ?thermalCap, ?tripBelow, ?tripDie, ?tripStack⟩
  case sched =>
    exact fun ha => ⟨fun ht => congrArg _ (evSchedBlockWrite_open ha (Tdi.held_of_open ht)),
      fun ht => congrArg _ (evSchedBlockWrite_held (Tdi.held_of_locked ht))⟩
  case queue =>
    intro cid v seg fresh
    exact ⟨fun h => ⟨fun u hu hc => congrArg _ (State.writeQueue_kept h hu hc), fun u hu hc => congrArg _ (State.writeQueue_other h hu hc),
      fun hu => congrArg _ (State.writeQueue_new h hu)⟩, fun h => congrArg _ (State.writeQueue_refused h)⟩
  case context =>
    intro bs cid
    refine ⟨fun ha hc hs => ?_, fun h => congrArg _ (State.writeContext_refused h)⟩
    have may : s.MayDescribe a bs := ⟨ha, hc, hs⟩
    exact ⟨fun c d hc hd => congrArg _ (State.writeContext_changes may hc hd),
      fun c hc hd => congrArg _ (State.writeContext_malformed may hc hd), fun d hc hd => congrArg _ (State.writeContext_creates may hc hd)⟩
  case desc =>
    exact fun c hc => ⟨fun h => congrArg _ (State.writeDesc_fits hc h), fun h => congrArg _ (State.writeDesc_unfit hc h)⟩
  case noContext => exact fun hc => congrArg _ (State.writeDesc_without_context hc ..)
  case frames =>
    exact ⟨fun h hp hn => congrArg _ (State.addFrames_new h hp hn), fun q h hp hn => congrArg _ (State.addFrames_more h hp hn),
      fun h => congrArg _ (State.addFrames_unfit h)⟩
  case aperture =>
    intro hb hc ha h8
    have hpart : partOf (s.arg 3) = s.arg 0 := by
      rw [partOf, ha]
      exact Nat.mod_eq_of_lt h8
    exact congrArg _ (evApertureTableWrite_fits hb hc hpart)
  case noAperture => exact fun h => congrArg _ (evApertureTableWrite_unfit h)
  case resetDie =>
    exact fun h1 h8 => ⟨congrArg _ (evDieReset_die h1 h8), s.resetDie_inReset (by omega)⟩
  case resetStack =>
    exact fun h1 h2 => ⟨congrArg _ (evDieReset_stack h1 h2), s.resetStack_inReset (by omega)⟩
  case returnDie =>
    exact fun h1 h8 => ⟨fun h => congrArg _ (State.bringBack_die h1 h8 h), fun hr ho => congrArg _ (State.bringBack_standing_die h1 h8 hr ho)⟩
  case returnStack =>
    intro m h1 h2
    refine ⟨fun h => ⟨congrArg _ (State.bringBack_stack h1 h2 h), fun pa hpa => State.killStack_get _ _ ?_⟩,
      fun hr ho => congrArg _ (State.bringBack_standing_stack h1 h2 hr ho)⟩
    rwa [State.setMdie_hub]
  case bringUp =>
    intro k fs peers z first
    refine ⟨fun h => congrArg _ (evPowerUp_done h), fun h => congrArg _ ((evPowerUp_begins h).trans (State.bringUp_first rfl rfl)),
      congrArg _ (State.bringUp_first rfl rfl), fun h0 h15 => ?_⟩
    have goes {u : State} (h : s.bootWith s = u) : exec .powerUp s = .next u := congrArg _ ((evPowerUp_goes_on h0 h15).trans h)
    exact ⟨fun h => goes (State.bringUp_held h), fun h2 hf => goes (State.bringUp_failed h2 hf),
      fun h1 h2 hb => goes (State.bringUp_next h1 h2 hb)⟩
  case blank =>
    refine ⟨rfl, rfl, rfl, rfl, rfl, fun n hn => ?_, fun d hd => ?_⟩
    · rw [s.blank_part hn]
      exact ⟨rfl, rfl, rfl, rfl⟩
    · rw [s.blank_die hd]
      exact ⟨rfl, rfl⟩
  case stages =>
    intro t fs peers at_
    obtain ⟨htime, hlocked⟩ := s.bootStage_loadsMaster t fs peers
    refine ⟨rfl, htime, hlocked, fun d hd => ?_⟩
    obtain ⟨hdie, hclock⟩ := s.bootStage_loadsDies t fs peers hd
    obtain ⟨hpresent, hpool⟩ := s.bootStage_raisesPools t fs peers hd
    exact ⟨s.bootStage_measures t fs peers hd, s.bootStage_locksRemaps t fs peers hd, hdie, hclock, hpresent, hpool⟩
  case watchdog =>
    exact fun ha => ⟨fun hw => congrArg _ (evFirmwareWatchdog_serviced ha hw), fun hw h8 => congrArg _ (evFirmwareWatchdog_hub ha hw h8),
      fun hw h8 => congrArg _ (evFirmwareWatchdog_die ha hw h8)⟩
  case thermalCap =>
    refine fun ha => ⟨fun hp => ?_, fun hp => congrArg _ (evThermalCapStep_early ?_)⟩
    · exact congrArg Host.Outcome.next ((evThermalCapStep_due ha ((s.past_iff _ _).mpr hp)).trans (State.tripped_setDie _ ha _))
    · rw [Bool.eq_false_iff, ne_eq, s.past_iff]
      exact Nat.not_le.mpr hp
  case tripBelow =>
    intro h1 h8 h
    refine congrArg _ ((evThermalTrip_die h1 h8).trans ((State.tripped_setDie _ (by omega) _).trans (if_neg fun ⟨ht, hp⟩ => ?_)))
    exact h.elim (fun hb => absurd ht (Nat.not_lt.mpr hb)) fun hno => absurd hp (Bool.eq_false_iff.mp hno)
  case tripDie =>
    exact fun h1 h8 hb hp => congrArg _ ((evThermalTrip_die h1 h8).trans ((State.tripped_setDie _ (by omega) _).trans (if_pos ⟨hb, hp⟩)))
  case tripStack => exact fun h1 h2 => congrArg _ (evThermalTrip_stack h1 h2)

end Sys2Proof.Machine
end

section
/-! Events of the die links (21 R364, 22 R375, 24 R399-R401). -/

namespace Sys2Proof.Machine

variable {s : State}

/-! ### Bursts and flits (22 R375, 24 R399-R401) -/

/-- A burst that is no duplicate and comes over a link of its route is accepted with its transactions, or it fails as a whole. -/
theorem evBurstTag_arrives {route : List Nat} (hl : (s.link (s.arg 0)).up = true) (hr : s.routeOf (s.arg 3) (s.arg 4) = some route)
    (hn : s.arg 0 ∈ route) (hs : s.nextBurst (s.arg 2) (s.arg 3) (s.arg 4) ≤ s.arg 1) :
    evBurstTag s =
      let ts := s.burstTxns (s.arg 2) (s.arg 3) (s.arg 4) (s.args.drop 6)
      if !ts.isEmpty && flitsOf ts ≤ 8 && s.arg 1 == s.nextBurst (s.arg 2) (s.arg 3) (s.arg 4) &&
          beBytes 16 (s.arg 5) == (s.burst (s.arg 2) (s.arg 3) (s.arg 4) (s.arg 1) ts).2 then
        ((s.setLink (s.arg 0) { s.link (s.arg 0) with fails := 0, failing := [] }).burstTaken (s.arg 2) (s.arg 3) (s.arg 4)).accept ts
      else s.linkFails (s.arg 0) [s.arg 2, s.arg 3, s.arg 4, s.arg 1] :=
  if_neg (by simp [State.linkUp, hl, hr, hn, hs])

/-- A burst over a link that is down or not of its route, and a duplicate, change nothing. -/
theorem evBurstTag_discarded (h : (s.link (s.arg 0)).up = false ∨ s.routeOf (s.arg 3) (s.arg 4) = none ∨
    (∃ route, s.routeOf (s.arg 3) (s.arg 4) = some route ∧ s.arg 0 ∉ route) ∨ s.arg 1 < s.nextBurst (s.arg 2) (s.arg 3) (s.arg 4)) :
    evBurstTag s = s := by
  refine if_pos ?_
  obtain hl | hr | ⟨route, hr, hn⟩ | hs := h
  · simp [State.linkUp, hl]
  · simp [hr]
  · simp [hr, hn]
  · simp [hs]

/-- A flit is good where its CRC is right and no slot has a reserved TYPE. -/
theorem flitBad_iff {crc : Nat} {types : List Nat} : (crc = 0 || !types.all typeOk) = true ↔ crc = 0 ∨ ∃ type ∈ types, 8 < type := by
  simp [typeOk]

theorem evReplayRequest_bad (hl : (s.link (s.arg 0)).up = true) (h : s.arg 2 = 0 ∨ ∃ type ∈ s.args.drop 3, 8 < type) :
    evReplayRequest s = s.linkFails (s.arg 0) [s.arg 1 % 256] :=
  if_pos (Bool.and_eq_true_iff.mpr ⟨hl, flitBad_iff.mpr h⟩)

theorem evReplayRequest_good (h : (s.link (s.arg 0)).up = false ∨ (s.arg 2 ≠ 0 ∧ ∀ type ∈ s.args.drop 3, type ≤ 8)) : evReplayRequest s = s := by
  refine if_neg fun hbad => ?_
  obtain ⟨hl, hf⟩ := Bool.and_eq_true_iff.mp hbad
  obtain hdown | ⟨hcrc, htypes⟩ := h
  · exact Bool.eq_false_iff.mp hdown hl
  · obtain hc | ⟨type, hm, ht⟩ := flitBad_iff.mp hf
    · exact hcrc hc
    · exact Nat.not_lt.mpr (htypes type hm) ht

/-! ### Links up and down, and the dies they cut off (21 R364, 24 R400) -/

theorem evLinkDown_up (hl : (s.link (s.arg 0)).up = true) : evLinkDown s = s.dropLink (s.arg 0) := if_pos hl

theorem evLinkDown_down (hl : (s.link (s.arg 0)).up = false) : evLinkDown s = s := if_neg (Bool.eq_false_iff.mp hl)

theorem State.longDown_iff (s : State) (n : Nat) :
    s.longDown n = true ↔ (s.link n).up = false ∧ (s.link n).downAt + 16000000 ≤ s.hub.time := by
  simp [State.longDown, s.past_iff]

theorem evLinkUp_retrained (h : s.longDown (s.arg 0) = false) :
    evLinkUp s = (s.setLink (s.arg 0) { s.link (s.arg 0) with up := true, fails := 0, failing := [] }).noteCuts :=
  if_neg (Bool.eq_false_iff.mp h)

theorem evLinkUp_late (h : s.longDown (s.arg 0) = true) : evLinkUp s = s := if_pos h

theorem State.noteCuts_cutAt (s : State) {d : Nat} (hd : d < 8) :
    (s.noteCuts.die d).cutAt = if s.cdConnected d then none else some ((s.die d).cutAt.getD (s.die d).time) := by
  simp [State.noteCuts, State.die, hd]

theorem State.cdCut_iff {d : Nat} : s.cdCut d = true ↔ ∃ t, (s.die d).cutAt = some t ∧ t + 16000000 ≤ (s.die d).time :=
  (Option.any_eq_true ..).trans (exists_congr fun _ => and_congr_right' decide_eq_true_iff)

theorem State.mdCut_iff {m : Nat} : s.mdCut m = true ↔ ∃ t, (s.mdie m).cutAt = some t ∧ t + 16000000 ≤ (s.mdie m).time :=
  (Option.any_eq_true ..).trans (exists_congr fun _ => and_congr_right' decide_eq_true_iff)

section
variable (h1 : 1 ≤ s.arg 0) (h8 : s.arg 0 ≤ 8)
include h1 h8

theorem evOrphanTimeout_die (hp : (s.die (s.arg 0 - 1)).present = true) (ho : (s.die (s.arg 0 - 1)).orphan = false)
    (hc : s.cdCut (s.arg 0 - 1) = true) : evOrphanTimeout s = (s.orphanDie (s.arg 0 - 1)).noted s :=
  if_pos (by simp [h1, h8, hp, ho, hc])

theorem evOrphanTimeout_connected_die (hc : (s.die (s.arg 0 - 1)).cutAt = none) : evOrphanTimeout s = s := by
  unfold evOrphanTimeout State.cdCut
  dsimp only
  rw [hc, if_neg (by simp), if_neg (by simp; omega)]

end

section
variable (h1 : 16 ≤ s.arg 0) (h2 : s.arg 0 ≤ 31)
include h1 h2

theorem evOrphanTimeout_stack (hp : (s.mdie (s.arg 0 - 16)).present = true) (ho : (s.mdie (s.arg 0 - 16)).orphan = false)
    (hc : s.mdCut (s.arg 0 - 16) = true) : evOrphanTimeout s = s.orphanStack (s.arg 0 - 16) := by
  unfold evOrphanTimeout
  dsimp only
  rw [if_neg (by simp; omega), if_pos (by simp [h1, h2, hp, ho, hc])]

theorem evOrphanTimeout_connected_stack (hc : (s.mdie (s.arg 0 - 16)).cutAt = none) : evOrphanTimeout s = s := by
  unfold evOrphanTimeout State.mdCut
  dsimp only
  rw [hc, if_neg (by simp; omega), if_neg (by simp)]

end

end Sys2Proof.Machine
end

section
/-! Package time (23 R394, 24 R405, R406). -/

namespace Sys2Proof.Machine

variable {s : State}

/-! ### Exchanges (24 R405, R406) -/

theorem evTimeExchangeTick_due (hl : s.timeLinkUp (s.arg 0) = true) (ht : (s.clockOf (s.arg 0)).tick < s.interval (s.arg 0)) :
    evTimeExchangeTick s =
      let d := s.arg 0
      let u := { s.setClock d ((s.clockOf d).ask (s.interval d)) with reply := [BitVec.ofNat 64 s.hub.time] }
      if d = 0 then u else u.burstTaken 8 0 d :=
  if_pos (by simp [hl, ht])

theorem evTimeExchangeTick_early (h : s.timeLinkUp (s.arg 0) = false ∨ s.interval (s.arg 0) ≤ (s.clockOf (s.arg 0)).tick) :
    evTimeExchangeTick s = s :=
  if_neg (by simpa [or_iff_not_imp_left] using h)

/-- A child that was not asked takes no reply. -/
theorem evTimeExchange_unasked (h : (s.clockOf (s.arg 0)).asked = false) : evTimeExchange s = s := by
  unfold evTimeExchange
  dsimp only
  split
  next h0 =>
    have hasked : s.hub.clock.asked = false := by rwa [h0] at h
    exact if_neg (by simp [hasked])
  next => exact if_pos (by simp [h])

theorem evTimeExchange_die (h1 : 1 ≤ s.arg 0) (h8 : s.arg 0 ≤ 8) (hl : s.timeLinkUp (s.arg 0) = true)
    (ha : (s.die (s.arg 0 - 1)).clock.asked = true) :
    evTimeExchange s = (s.setDie (s.arg 0 - 1) { s.die (s.arg 0 - 1) with
      clock := (s.die (s.arg 0 - 1)).clock.follow s.hub.time (s.die (s.arg 0 - 1)).time (s.arg 1) (s.arg 2) }).burstTaken 8 (s.arg 0) 0 := by
  have h0 : s.arg 0 ≠ 0 := by omega
  have hasked : (s.clockOf (s.arg 0)).asked = true := by rwa [State.clockOf, if_neg h0, if_pos h8]
  unfold evTimeExchange
  dsimp only
  rw [if_neg h0, if_neg (by simp [hl, hasked]), if_pos h8]

theorem evTimeExchange_stack (h1 : 16 ≤ s.arg 0) (hl : s.timeLinkUp (s.arg 0) = true)
    (ha : (s.mdie (s.arg 0 - 16)).clock.asked = true) :
    evTimeExchange s = (s.setMdie (s.arg 0 - 16) { s.mdie (s.arg 0 - 16) with
      clock := (s.mdie (s.arg 0 - 16)).clock.follow s.hub.time (s.mdie (s.arg 0 - 16)).time (s.arg 1) (s.arg 2) }).burstTaken 8 (s.arg 0) 0 := by
  have h0 : s.arg 0 ≠ 0 := by omega
  have h8 : ¬ s.arg 0 ≤ 8 := by omega
  have hasked : (s.clockOf (s.arg 0)).asked = true := by rwa [State.clockOf, if_neg h0, if_neg h8]
  unfold evTimeExchange
  dsimp only
  rw [if_neg h0, if_neg (by simp [hl, hasked]), if_neg h8]

/-- A package that follows its domain's master takes an exchange whose two delays differ by no more than the asymmetry configured. -/
theorem evTimeExchange_package (h0 : s.arg 0 = 0) (hd : s.hub.domain = true) (hm : s.hub.tmaster = false) (ha : s.hub.clock.asked = true) :
    evTimeExchange s =
      let child := s.hub.time + s.arg 2
      let t (f : Int → Int → Int → Int → Int) : Int := f (s.arg 1) child (child + s.arg 3) (s.arg 1 + s.arg 2 + s.arg 3 + s.arg 4)
      if (s.arg 2 : Int) - s.arg 4 ≤ min Config.timePortAsymmetry 768 && (s.arg 4 : Int) - s.arg 2 ≤ min Config.timePortAsymmetry 768 then
        { s with hub := s.hub.exchange (t exchangeOffset) (t exchangeDelay) } else s := by
  unfold evTimeExchange
  dsimp only
  rw [if_pos h0, hd, hm, ha]
  rfl

/-! ### Clocks -/

/-- A clock with nothing to slew counts the time that passes. -/
theorem slewed_level (time : Nat) {c : Clock} (hs : c.slew = 0) (hf : c.frac < 16000000) (e : Nat) : (slewed time c e).1 = time + e := by
  have hpart : (c.frac : Int) / 16000000 = 0 := by omega
  have hnone : min (0 : Int) (e * c.rate) = 0 := min_eq_left (by positivity)
  simp only [slewed, hs, Int.natAbs_zero, Nat.cast_zero, lt_irrefl, if_false, hnone]
  omega

/-- The master counts at its corrected rate, and what is less than a unit stays in its fraction (23 R394). -/
theorem Hub.elapse_counts (b : Hub) (e : Nat) (ha : b.ahead = 0) (hs : b.clock.slew = 0) (hf : b.clock.frac < 16000000)
    (hr : -4294967296 ≤ b.rate) :
    ((b.elapse e).time : Int) * 4294967296 + (b.elapse e).frac = b.time * 4294967296 + b.frac + e * (4294967296 + b.rate) := by
  have hq : 0 ≤ (e : Int) * (4294967296 + b.rate) := mul_nonneg (by omega) (by omega)
  obtain ⟨q, hq⟩ := Int.eq_ofNat_of_zero_le hq
  have htime : (b.elapse e).time = b.time + (q + b.frac) / 4294967296 := by
    simp [Hub.elapse, slewed_level _ hs hf, ha, hq]
  have hfrac : (b.elapse e).frac = (q + b.frac) % 4294967296 := by
    simp [Hub.elapse, ha, hq]
  rw [htime, hfrac, hq]
  push_cast
  omega

theorem evTimeUnlockTimeout_die (h1 : 1 ≤ s.arg 0) (h8 : s.arg 0 ≤ 8) (hd : s.longDown (s.arg 0 - 1) = true) :
    evTimeUnlockTimeout s = s.setDie (s.arg 0 - 1)
      { s.die (s.arg 0 - 1) with clock := { (s.die (s.arg 0 - 1)).clock with locked := false, good := 0 } } :=
  if_pos (by simp [h1, h8, hd])

theorem evTimeUnlockTimeout_stack (h1 : 16 ≤ s.arg 0) (h2 : s.arg 0 ≤ 31) (hd : s.longDown (s.arg 0 + 16) = true) :
    evTimeUnlockTimeout s = s.setMdie (s.arg 0 - 16)
      { s.mdie (s.arg 0 - 16) with clock := { (s.mdie (s.arg 0 - 16)).clock with locked := false, good := 0 } } := by
  have hn : 32 + (s.arg 0 - 16) = s.arg 0 + 16 := by omega
  unfold evTimeUnlockTimeout
  dsimp only
  rw [if_neg (by simp; omega), hn, if_pos (by simp [h1, h2, hd])]

end Sys2Proof.Machine
end

section
/-! Transactions over UALink (22 R376, 24 R403). -/

namespace Sys2Proof.Machine

variable {s : State}

theorem ualinkLength_eq (kind size : Nat) : ualinkLength kind size = if kind = 0 then 0 else if kind = 11 then 2 * size else size := by
  unfold ualinkLength
  split <;> simp_all

/-- A peer's transaction under a port's key for the partition: performed at its home and answered where its tag is right, and counted
and dropped where it is not. -/
theorem evUalinkTransaction_keyed {k : LinkKey} (hk : (s.port (s.arg 0)).keyFrom (partOf (s.arg 5)) (s.arg 7) = some k)
    (hu : (s.port (s.arg 0)).up = true) (hpeer : s.isPeer (s.arg 7) = true) (hh : s.homeOf (s.arg 2) = .here)
    (hsize : s.arg 2 % 64 + s.arg 3 ≤ 64) (hkind : s.arg 1 ≤ 11) :
    evUalinkTransaction s =
      let p := s.port (s.arg 0)
      let part := partOf (s.arg 5)
      let b : Word := BitVec.ofNat 64 (s.arg 10)
      let h := ualinkHeader (s.arg 1) (s.arg 2) (s.arg 3) (s.arg 5) (s.arg 6) (s.arg 9 != 0) b
      let iv := digestBytes (Config.ualinkIv k.seq)
      let cipher := leBytes (ualinkLength (s.arg 1) (s.arg 3)) (s.arg 4)
      let x := (s.setPort (s.arg 0) { p with into := usedKey p.into part (s.arg 7) }).ualinkAt (s.arg 1) (s.arg 2) (s.arg 3)
        (gcmOpen k.key iv cipher) (s.arg 5) (s.arg 6) (s.arg 9 != 0) b
      if gcmTag k.key iv h cipher = beBytes 16 (s.arg 8) then x.1.ualinkReply (s.arg 0) part (s.arg 7) h x.2
      else { s.setPort (s.arg 0) { p with errs := p.errs + 1 } with reply := [] } := by
  simp only [evUalinkTransaction, hk, LinkKey.opens]
  rw [if_neg (by simp [hu, hpeer, hh, hsize, hkind])]
  split <;> split <;> simp_all

theorem evUalinkTransaction_keyless (hk : (s.port (s.arg 0)).keyFrom (partOf (s.arg 5)) (s.arg 7) = none) : evUalinkTransaction s = s := by
  simp only [evUalinkTransaction, hk]

/-- A compare and swap writes its second operand where the word is its first. -/
theorem ualinkNew_swap (size old : Nat) (bs : List Byte) :
    ualinkNew 11 size old bs = if old = leNat (bs.take size) then leNat ((bs.drop size).take size) else old := if_pos rfl

theorem evUalinkLaneFault_halves (h : 2 ≤ (s.port (s.arg 0)).lanes) : evUalinkLaneFault s =
    s.setPort (s.arg 0) { s.port (s.arg 0) with lanes := (s.port (s.arg 0)).lanes / 2, errs := (s.port (s.arg 0)).errs + 1 } :=
  if_neg (Nat.not_le.mpr h)

theorem evUalinkLaneFault_last (h : (s.port (s.arg 0)).lanes ≤ 1) : evUalinkLaneFault s =
    s.setPort (s.arg 0) { s.port (s.arg 0) with up := false, errs := (s.port (s.arg 0)).errs + 1 } := if_pos h

end Sys2Proof.Machine
end

section
/-! Events of the die links, package time and UALink (21 R364, 22 R375, R376, 23 R394, 24 R399-R406). -/

namespace Sys2Proof.Machine

/-- Settles O58: each clause is the lemma of its event. -/
theorem linkEvents : Obligations.LinkEvents := by
  unfold Obligations.LinkEvents
  intro s n l p down failing off found
  have longDown_of {k : Nat} (hl : (s.link k).up = false) (ht : (s.link k).downAt + 16000000 ≤ s.hub.time) : s.longDown k = true :=
    (s.longDown_iff k).mpr ⟨hl, ht⟩
  refine ⟨⟨fun route hl hr hn hs => congrArg _ (evBurstTag_arrives hl hr hn hs), fun h => congrArg _ (evBurstTag_discarded h)⟩,
    fun _ => rfl, fun hl h => congrArg _ (evReplayRequest_bad hl h), fun h => congrArg _ (evReplayRequest_good h),
    fun hl => congrArg _ (evLinkDown_up hl), fun hl => congrArg _ (evLinkDown_down hl), ?linkUp,
    fun hl ht => congrArg _ (evLinkUp_late (longDown_of hl ht)), fun d hd => s.noteCuts_cutAt hd, ?orphanDie, ?orphanStack, ?exchange,
    fun b e ha hs hf hr => b.elapse_counts e ha hs hf hr, fun h1 h8 hl ha => congrArg _ (evTimeExchange_die h1 h8 hl ha),
    fun h1 h2 hl ha => congrArg _ (evTimeExchange_stack h1 hl ha), fun h0 hd hm ha => congrArg _ (evTimeExchange_package h0 hd hm ha),
    fun h1 h8 hd => congrArg _ (evTimeUnlockTimeout_die h1 h8 hd), fun h1 h2 hd => congrArg _ (evTimeUnlockTimeout_stack h1 h2 hd), ?ualink,
    ualinkNew_swap, fun h => congrArg _ (evUalinkLaneFault_halves h), fun h => congrArg _ (evUalinkLaneFault_last h)⟩
  case linkUp =>
    refine fun h => congrArg _ (evLinkUp_retrained (Bool.eq_false_iff.mpr fun hlong => ?_))
    obtain ⟨hl, ht⟩ := (s.longDown_iff n).mp hlong
    exact h.elim (fun hup => absurd hup (Bool.eq_false_iff.mp hl)) fun hearly => Nat.not_le.mpr hearly ht
  case orphanDie =>
    exact fun h1 h8 hp ho => ⟨fun t hc ht => congrArg _ (evOrphanTimeout_die h1 h8 hp ho (State.cdCut_iff.mpr ⟨t, hc, ht⟩)),
      fun hc => congrArg _ (evOrphanTimeout_connected_die h1 h8 hc)⟩
  case orphanStack =>
    exact fun h1 h2 hp ho => ⟨fun t hc ht => congrArg _ (evOrphanTimeout_stack h1 h2 hp ho (State.mdCut_iff.mpr ⟨t, hc, ht⟩)),
      fun hc => congrArg _ (evOrphanTimeout_connected_stack h1 h2 hc)⟩
  case exchange =>
    exact ⟨fun hl ht => congrArg _ (evTimeExchangeTick_due hl ht), fun h => congrArg _ (evTimeExchangeTick_early h),
      fun ha => congrArg _ (evTimeExchange_unasked ha), fun _ _ _ => ⟨rfl, rfl⟩⟩
  case ualink =>
    intro kind pa size cid peer b nb h cipher
    refine ⟨fun k hk hu hpeer hh hsize hkind => ?_, fun hk => congrArg _ (evUalinkTransaction_keyless hk)⟩
    have hcipher : cipher = leBytes (ualinkLength kind size) (s.arg 4) := by rw [ualinkLength_eq]
    rw [hcipher]
    exact congrArg _ (evUalinkTransaction_keyed hk hu hpeer hh hsize hkind)

end Sys2Proof.Machine
end

section
/-! The management owner: claims, handovers and the requests that only the owner may make (21 R365). -/

namespace Sys2Proof.Machine

variable {s : State} {m : Nat}

/-! ### Messages of the masters -/

theorem State.heard_host (s : State) : s.heard 1 = s := rfl

theorem State.heard_bmc (s : State) : s.heard 2 = { s with hub := { s.hub with bmcAt := s.hub.time } } := rfl

/-- A message changes of the hub at most when the BMC was heard. -/
theorem State.heard_hub (s : State) (m : Nat) : ∃ t, (s.heard m).hub = { s.hub with bmcAt := t } := by
  unfold State.heard
  split
  · exact ⟨s.hub.time, rfl⟩
  · exact ⟨s.hub.bmcAt, rfl⟩

@[simp] theorem State.heard_owner (s : State) (m : Nat) : (s.heard m).hub.owner = s.hub.owner := by
  obtain ⟨_, h⟩ := s.heard_hub m
  rw [h]

@[simp] theorem State.heard_pref (s : State) (m : Nat) : (s.heard m).hub.pref = s.hub.pref := by
  obtain ⟨_, h⟩ := s.heard_hub m
  rw [h]

@[simp] theorem State.heard_target (s : State) (m : Nat) : (s.heard m).hub.target = s.hub.target := by
  obtain ⟨_, h⟩ := s.heard_hub m
  rw [h]

@[simp] theorem State.heard_targetAt (s : State) (m : Nat) : (s.heard m).hub.targetAt = s.hub.targetAt := by
  obtain ⟨_, h⟩ := s.heard_hub m
  rw [h]

@[simp] theorem State.heard_time (s : State) (m : Nat) : (s.heard m).hub.time = s.hub.time := by
  obtain ⟨_, h⟩ := s.heard_hub m
  rw [h]

@[simp] theorem State.heard_pkgLock (s : State) (m : Nat) : (s.heard m).hub.pkgLock = s.hub.pkgLock := by
  obtain ⟨_, h⟩ := s.heard_hub m
  rw [h]

theorem State.owns_iff : s.owns m = true ↔ (m = 1 ∨ m = 2) ∧ s.hub.owner.toNat = m := by simp [State.owns]

theorem State.heard_owns (s : State) (k m : Nat) : (s.heard k).owns m = s.owns m := by
  rw [State.owns, State.owns, State.heard_owner]

theorem State.byOwner_owned (h : (m = 1 ∨ m = 2) ∧ s.hub.owner.toNat = m) (f : State → State) :
    s.byOwner m f = { f (s.heard m) with reply := [0] } :=
  if_pos ((s.heard_owns m m).trans (State.owns_iff.mpr h))

theorem State.byOwner_refused (h : ¬ ((m = 1 ∨ m = 2) ∧ s.hub.owner.toNat = m)) (f : State → State) :
    s.byOwner m f = { s.heard m with reply := [1] } :=
  if_neg fun ho => h (State.owns_iff.mp ((s.heard_owns m m).symm.trans ho))

/-! ### A change of OWNER -/

/-- The state with another OWNER: EPOCH has risen, and no handover stands. -/
def State.reowned (s : State) (o : BitVec 2) : State :=
  { s with hub := { s.hub with owner := o, target := 0, epoch := s.hub.epoch + 1 } }

theorem State.setOwner_changes {o : BitVec 2} (h : o ≠ s.hub.owner) : s.setOwner o = s.reowned o := by
  unfold State.setOwner State.reowned
  rw [if_neg h]

theorem State.setOwner_same {o : BitVec 2} (h : o = s.hub.owner) : s.setOwner o = { s with hub := { s.hub with target := 0 } } := by
  unfold State.setOwner
  rw [if_pos h, h]

/-- The code of a master is not that of none. -/
theorem masterCode_ne_zero (h : m = 1 ∨ m = 2) : BitVec.ofNat 2 m ≠ 0 := by
  obtain rfl | rfl := h <;> decide

/-! ### Claims -/

/-- A claim that finds no owner is granted, to the preferred of two rivals. -/
theorem State.claim_free {rival : Bool} {won : BitVec 2} (ho : s.hub.owner = 0) (hw : won ≠ 0)
    (h : (if rival && s.hub.pref != 0 then s.hub.pref else BitVec.ofNat 2 m) = won) :
    s.claim m rival = { s.reowned won with reply := [if won = BitVec.ofNat 2 m then 0 else 1] } := by
  unfold State.claim
  dsimp only
  rw [if_pos ho, h, State.setOwner_changes (by rwa [ho])]

/-- The target of a handover that claims in its second. -/
theorem State.claim_target {rival : Bool} (ho : s.hub.owner ≠ 0) (ht : s.hub.target = BitVec.ofNat 2 m)
    (hin : s.hub.time ≤ s.hub.targetAt + 16000000000) : s.claim m rival = { s.setOwner (BitVec.ofNat 2 m) with reply := [0] } := by
  unfold State.claim
  dsimp only
  rw [if_neg ho, if_pos ⟨ht, hin⟩]

theorem State.claim_refused {rival : Bool} (ho : s.hub.owner ≠ 0)
    (h : s.hub.target ≠ BitVec.ofNat 2 m ∨ s.hub.targetAt + 16000000000 < s.hub.time) : s.claim m rival = { s with reply := [1] } := by
  unfold State.claim
  dsimp only
  rw [if_neg ho, if_neg fun ⟨ht, hin⟩ => h.elim (absurd ht) (Nat.not_lt.mpr hin)]

theorem evMgmtClaim_alone (hm : s.arg 0 = 1 ∨ s.arg 0 = 2) (h : s.arg 1 = 0) :
    evMgmtClaim s = (s.heard (s.arg 0)).claim (s.arg 0) false := by
  unfold evMgmtClaim
  dsimp only
  rw [if_pos hm, h]
  rfl

theorem evMgmtClaim_rivalled (hm : s.arg 0 = 1 ∨ s.arg 0 = 2) (h : s.arg 1 ≠ 0) : evMgmtClaim s = (s.heard 2).claim (s.arg 0) true := by
  have hr : (s.arg 1 != 0) = true := by simpa using h
  unfold evMgmtClaim
  dsimp only
  rw [if_pos hm, hr]
  rfl

section
variable (hm : s.arg 0 = 1 ∨ s.arg 0 = 2)
include hm

/-- With no owner and no preference between rivals, the claimant is the owner. -/
theorem evMgmtClaim_first (ho : s.hub.owner = 0) (h : s.arg 1 = 0 ∨ s.hub.pref = 0) :
    evMgmtClaim s =
      { (if s.arg 1 = 0 then s.heard (s.arg 0) else s.heard 2).reowned (BitVec.ofNat 2 (s.arg 0)) with reply := [0] } := by
  by_cases h1 : s.arg 1 = 0
  · rw [evMgmtClaim_alone hm h1, if_pos h1, State.claim_free (by simpa using ho) (masterCode_ne_zero hm) rfl, if_pos rfl]
  · have hp : s.hub.pref = 0 := h.resolve_left h1
    rw [evMgmtClaim_rivalled hm h1, if_neg h1, State.claim_free (by simpa using ho) (masterCode_ne_zero hm) (by simp [hp]), if_pos rfl]

/-- With no owner, the preferred of two rivals is the owner, and the claimant is told. -/
theorem evMgmtClaim_preferred (ho : s.hub.owner = 0) (h1 : s.arg 1 ≠ 0) (hp : s.hub.pref ≠ 0) :
    evMgmtClaim s =
      { (s.heard 2).reowned s.hub.pref with reply := [if s.hub.pref = BitVec.ofNat 2 (s.arg 0) then 0 else 1] } := by
  rw [evMgmtClaim_rivalled hm h1, State.claim_free (by simpa using ho) hp (by rw [State.heard_pref, if_pos (by simpa using hp)])]

section
variable (h1 : s.arg 1 = 0) (ho : s.hub.owner ≠ 0)
include h1 ho

theorem evMgmtClaim_target (ht : s.hub.target = BitVec.ofNat 2 (s.arg 0)) (hin : s.hub.time ≤ s.hub.targetAt + 16000000000) :
    evMgmtClaim s = { (s.heard (s.arg 0)).setOwner (BitVec.ofNat 2 (s.arg 0)) with reply := [0] } := by
  rw [evMgmtClaim_alone hm h1, State.claim_target (by simpa using ho) (by simpa using ht) (by simpa using hin)]

theorem evMgmtClaim_refused (h : s.hub.target ≠ BitVec.ofNat 2 (s.arg 0) ∨ s.hub.targetAt + 16000000000 < s.hub.time) :
    evMgmtClaim s = { s.heard (s.arg 0) with reply := [1] } := by
  rw [evMgmtClaim_alone hm h1, State.claim_refused (by simpa using ho) (by simpa using h)]

end

end

theorem evMgmtClaim_stranger (h1 : s.arg 0 ≠ 1) (h2 : s.arg 0 ≠ 2) : evMgmtClaim s = s :=
  if_neg fun h => h.elim h1 h2

/-! ### Timers of ownership -/

theorem evHandoverTimeout_late (h : s.hub.target ≠ 0) (ht : s.hub.targetAt + 16000000000 ≤ s.hub.time) :
    evHandoverTimeout s = { s with hub := { s.hub with target := 0 } } :=
  if_pos (Bool.and_eq_true_iff.mpr ⟨bne_iff_ne.mpr h, (s.past_iff ..).mpr ht⟩)

theorem evBmcSilenceTimeout_late (h : s.hub.owner = 2) (ht : s.hub.bmcAt + 80000000000 ≤ s.hub.time) : evBmcSilenceTimeout s = s.reowned 0 :=
  (if_pos (Bool.and_eq_true_iff.mpr ⟨decide_eq_true h, (s.past_iff ..).mpr ht⟩)).trans (State.setOwner_changes (by rw [h]; decide))

theorem evBmcSilenceTimeout_kept (h : s.hub.owner ≠ 2 ∨ s.hub.time < s.hub.bmcAt + 80000000000) : evBmcSilenceTimeout s = s := by
  refine if_neg fun hlate => ?_
  obtain ⟨ho, ht⟩ := Bool.and_eq_true_iff.mp hlate
  exact h.elim (absurd (of_decide_eq_true ho)) (Nat.not_lt.mpr ((s.past_iff ..).mp ht))

theorem evHostLinkDown_owner (h : s.hub.owner = 1) : evHostLinkDown s = s.reowned 0 :=
  (if_pos h).trans (State.setOwner_changes (by rw [h]; decide))

theorem evHostLinkDown_other (h : s.hub.owner ≠ 1) : evHostLinkDown s = s := if_neg h

/-! ### Partitions (21 R357) -/

theorem evPartitionRequest_granted (h : (s.arg 0 = 1 ∨ s.arg 0 = 2) ∧ s.hub.owner.toNat = s.arg 0) {v : State}
    (hv : (s.heard (s.arg 0)).partRequest (s.arg 1) (s.arg 2) (s.arg 3) (s.args.drop 4) = some v) :
    evPartitionRequest s = { v with reply := [0] } := by
  have ho := (s.heard_owns (s.arg 0) (s.arg 0)).trans (State.owns_iff.mpr h)
  simp only [evPartitionRequest, ho, hv]
  rfl

theorem evPartitionRequest_impossible (h : (s.arg 0 = 1 ∨ s.arg 0 = 2) ∧ s.hub.owner.toNat = s.arg 0)
    (hv : (s.heard (s.arg 0)).partRequest (s.arg 1) (s.arg 2) (s.arg 3) (s.args.drop 4) = none) :
    evPartitionRequest s = { s.heard (s.arg 0) with reply := [1] } := by
  have ho := (s.heard_owns (s.arg 0) (s.arg 0)).trans (State.owns_iff.mpr h)
  simp only [evPartitionRequest, ho, hv]
  rfl

theorem evPartitionRequest_refused (h : ¬ ((s.arg 0 = 1 ∨ s.arg 0 = 2) ∧ s.hub.owner.toNat = s.arg 0)) :
    evPartitionRequest s = { s.heard (s.arg 0) with reply := [1] } := by
  have ho : (s.heard (s.arg 0)).owns (s.arg 0) = false := by
    rw [s.heard_owns, Bool.eq_false_iff, ne_eq, State.owns_iff]
    exact h
  simp only [evPartitionRequest, ho]
  rfl

end Sys2Proof.Machine
end

section
/-! The management registers (21 R356, R365, 24 R404, 25 R410). -/

namespace Sys2Proof.Machine

variable {s : State}

/-! ### Writes of a master -/

theorem evRegisterWrite_master (h : s.arg 0 < 8) :
    evRegisterWrite s = s.byOwner (s.arg 0) fun u =>
      if s.arg 1 = pkgcfgReg then { u with hub := u.hub.writeConfig (BitVec.ofNat 64 (s.arg 2)) }
      else u.clearStatus (s.arg 1) (BitVec.ofNat 64 (s.arg 2)) := by
  unfold evRegisterWrite
  dsimp only
  rw [if_neg (by omega), if_neg (by omega)]

theorem Hub.writeConfig_open {b : Hub} (h : b.pkgLock = false) (v : Word) : b.writeConfig v =
    { b with pkgid := v.extractLsb' 0 20, domain := v.getLsbD 21, tmaster := v.getLsbD 23, pkgLock := v.getLsbD 22 } :=
  if_neg (Bool.eq_false_iff.mp h)

theorem Hub.writeConfig_locked {b : Hub} (h : b.pkgLock = true) (v : Word) : b.writeConfig v = b := if_pos h

/-! ### Reads -/

theorem evRegisterWrite_read {reader : Nat} (hr : reader < 8) (h : s.arg 0 = 8 + reader) :
    evRegisterWrite s = { s.heard reader with reply := [BitVec.ofNat 64 (s.mgmtRead (s.arg 1))] } := by
  unfold evRegisterWrite
  dsimp only
  rw [if_neg (by omega), if_pos (by omega), show s.arg 0 - 8 = reader by omega]

theorem State.mgmtRead_bootstat (s : State) :
    s.mgmtRead 0 = s.hub.bootStep % 16 + 256 * (s.hub.bootFail % 256) + 65536 * s.hub.bootPresent.toNat := by
  have h : s.mgmtRead 0 = s.hub.bootstat := rfl
  rw [h, Hub.bootstat]
  omega

theorem State.mgmtRead_owner (s : State) :
    s.mgmtRead ownerReg = s.hub.owner.toNat + 4 * s.hub.pref.toNat + 16 * s.hub.target.toNat + 256 * s.hub.epoch.toNat := by
  have h : s.mgmtRead ownerReg = s.hub.mgmtOwner := rfl
  rw [h, Hub.mgmtOwner]
  omega

theorem State.mgmtRead_pkgcfg (s : State) : s.mgmtRead pkgcfgReg =
    s.hub.pkgid.toNat + 2097152 * s.hub.domain.toNat + 4194304 * s.hub.pkgLock.toNat + 8388608 * s.hub.tmaster.toNat := by
  have bit (b : Bool) (k : Nat) : (if b then k else 0) = k * b.toNat := by cases b <;> simp
  have h : s.mgmtRead pkgcfgReg = s.hub.pkgcfg := rfl
  rw [h, Hub.pkgcfg, bit, bit, bit]
  rfl

theorem diestat_eq (temp cap evt errcnt : Nat) : diestat temp cap evt errcnt =
    temp % 256 + 256 * (cap / 8 % 256) + 65536 * (evt % 16) + 4294967296 * (errcnt % 4294967296) := by
  unfold diestat
  omega

/-- A DIESTAT register reads as the word of its die. -/
theorem State.mgmtRead_diestat (s : State) {d : Nat} (hd : d < 32) : s.mgmtRead (0x100 + 8 * d) = s.dieStat d := by
  unfold State.mgmtRead pkgcfgReg ownerReg
  rw [if_neg (by omega), if_neg (by omega), if_neg (by omega), if_pos (by omega)]
  congr 1
  omega

theorem State.dieStat_hub (s : State) :
    s.dieStat 0 = diestat ((Config.hubTemperature s.freeCount).toNat % 256) 0 s.hub.evt s.hub.errcnt := by
  rw [diestat_eq, Nat.mod_mod, ← diestat_eq]
  rfl

theorem State.dieStat_die (s : State) {d : Nat} (hd : d < 8) :
    s.dieStat (d + 1) = diestat (s.die d).temp (s.die d).cap (s.die d).evt (s.die d).errcnt := by
  unfold State.dieStat
  rw [if_neg (by omega), if_pos (by omega), Nat.add_sub_cancel]

theorem State.dieStat_stack (s : State) {d : Nat} (hd : d < 16) :
    s.dieStat (d + 16) = diestat (s.mdie d).temp 0 (s.mdie d).evt (s.mdie d).errcnt := by
  unfold State.dieStat
  rw [if_neg (by omega), if_neg (by omega), if_pos (by omega), Nat.add_sub_cancel]

/-! ### Remap registers (21 R356) -/

theorem evRegisterWrite_firmware {d : Nat} (h : s.arg 0 = 16 + d) :
    evRegisterWrite s = s.writeRemap d (s.arg 1) (BitVec.ofNat 64 (s.arg 2)) := by
  unfold evRegisterWrite
  dsimp only
  rw [if_pos (by omega), show s.arg 0 - 16 = d by omega]

section
variable {d : Die} {k i : Nat} (v : Word)

theorem Die.remapEntry_remap (hk : k < d.remap.length) : (d.remapEntry k v).remap[i]? =
    if i = k then some (v.extractLsb' (8 * (k % 8)) 6).toNat else d.remap[i]? := by
  have hphys : (v.extractLsb' (8 * (k % 8)) 8).extractLsb' 0 6 = v.extractLsb' (8 * (k % 8)) 6 :=
    BitVec.eq_of_getLsbD_eq fun n hn => by simp [hn, show n < 8 by omega]
  rw [Die.remapEntry, List.getElem?_set, hphys]
  by_cases h : i = k
  · rw [if_pos h.symm, if_pos hk, if_pos h]
  · rw [if_neg (Ne.symm h), if_neg h]

theorem Die.remapEntry_remapOk (hi : i < 32) : (d.remapEntry k v).remapOk.getLsbD i =
    if i = k then v.getLsbD (8 * (k % 8) + 6) else d.remapOk.getLsbD i := by
  have hok : (v.extractLsb' (8 * (k % 8)) 8).getLsbD 6 = v.getLsbD (8 * (k % 8) + 6) := by
    rw [BitVec.getLsbD_extractLsb', decide_eq_true (by decide), Bool.true_and]
  have hbit : (BitVec.ofNat 32 (2 ^ k)).getLsbD i = decide (i = k) := by
    rw [BitVec.getLsbD_ofNat, Nat.testBit_two_pow, decide_eq_true hi, Bool.true_and, decide_eq_decide]
    exact eq_comm
  rw [Die.remapEntry, hok]
  dsimp only
  cases v.getLsbD (8 * (k % 8) + 6)
  · rw [if_neg Bool.false_ne_true, BitVec.getLsbD_and, BitVec.getLsbD_not, hbit, decide_eq_true hi]
    by_cases h : i = k <;> simp [h]
  · rw [if_pos rfl, BitVec.getLsbD_or, hbit]
    by_cases h : i = k <;> simp [h]

/-- The entries of a register written from its first on. -/
def Die.remapWritten (d : Die) (j n : Nat) (v : Word) : Die := (List.range n).foldl (fun (d : Die) k => d.remapEntry (8 * j + k) v) d

theorem Die.remapWritten_length (d : Die) (j n : Nat) : (d.remapWritten j n v).remap.length = d.remap.length :=
  List.foldlRecOn (motive := fun u : Die => u.remap.length = d.remap.length) _ _ rfl fun u hu k _ => by
    rw [Die.remapEntry, List.length_set, hu]

theorem Die.remapWritten_succ (d : Die) (j n : Nat) : d.remapWritten j (n + 1) v = (d.remapWritten j n v).remapEntry (8 * j + n) v := by
  rw [Die.remapWritten, List.range_succ, List.foldl_append]
  rfl

/-- After the first entries of a register, those read as its bytes give, and the others as before. -/
theorem Die.remapWritten_entries {j : Nat} (hj : j < 4) (hlen : d.remap.length = 32) (hk : k < 32) (n : Nat) (hn : n ≤ 8) :
    (d.remapWritten j n v).remap[k]? =
        (if k / 8 = j ∧ k % 8 < n then some (v.extractLsb' (8 * (k % 8)) 6).toNat else d.remap[k]?) ∧
      (d.remapWritten j n v).remapOk.getLsbD k =
        (if k / 8 = j ∧ k % 8 < n then v.getLsbD (8 * (k % 8) + 6) else d.remapOk.getLsbD k) := by
  induction n with
  | zero => simp [Die.remapWritten]
  | succ n ih =>
    obtain ⟨hphys, hok⟩ := ih (by omega)
    have hin : 8 * j + n < (d.remapWritten j n v).remap.length := by rw [Die.remapWritten_length, hlen]; omega
    have hmod : (8 * j + n) % 8 = n := by omega
    have hstep : (k / 8 = j ∧ k % 8 < n + 1) ↔ k = 8 * j + n ∨ (k / 8 = j ∧ k % 8 < n) := by omega
    rw [Die.remapWritten_succ, Die.remapEntry_remap v hin, Die.remapEntry_remapOk v hk, hphys, hok, hmod]
    by_cases h : k = 8 * j + n
    · have hlow : k % 8 = n := by omega
      rw [if_pos h, if_pos h, if_pos (hstep.mpr (.inl h)), if_pos (hstep.mpr (.inl h)), hlow]
      exact ⟨rfl, rfl⟩
    · simp only [h, hstep, false_or, if_false, and_self]

end

theorem State.writeRemap_locked {d : Nat} (h : (s.die d).remapLock = true) (reg : Nat) (v : Word) : s.writeRemap d reg v = s :=
  if_pos (by simp [h])

theorem State.writeRemap_open {d j : Nat} (hd : d < 8) (hj : j < 4) (h : (s.die d).remapLock = false) (v : Word) :
    s.writeRemap d (remapReg + j) v = s.setDie d ((s.die d).remapWritten j 8 v) := by
  unfold State.writeRemap
  dsimp only
  rw [Nat.add_sub_cancel_left, if_neg (by simp [h]; omega)]
  rfl

end Sys2Proof.Machine
end

section
/-! The host port: the notification register and the aperture (24 R395, R397, R398). -/

namespace Sys2Proof.Machine

variable {s : State}

section
variable (hb : s.barServes (s.arg 0) = true)
include hb

theorem evNotificationPop_entry {k cid : Nat} {rest : List (Nat × Nat)} (hf : (s.part (s.arg 0)).fifo = (k, cid) :: rest) :
    evNotificationPop s =
      let p := s.part (s.arg 0)
      { s.setPart (s.arg 0) { p with ovf := false, fifo := rest } with
        reply := [BitVec.ofNat 64 (2 ^ 63 + (if p.ovf then 2 ^ 62 else 0) + k % 4 * 4096 + cid % 4096)] } := by
  simp only [evNotificationPop, hb, hf]
  rfl

theorem evNotificationPop_empty (hf : (s.part (s.arg 0)).fifo = []) :
    evNotificationPop s =
      let p := s.part (s.arg 0)
      { s.setPart (s.arg 0) { p with ovf := false } with reply := [BitVec.ofNat 64 (if p.ovf then 2 ^ 62 else 0)] } := by
  simp only [evNotificationPop, hb, hf]
  rfl

theorem evApertureRead_served (hn : 1 ≤ s.arg 2) (ho : s.arg 1 < 2 ^ 36) : evApertureRead s = s.aperRead (s.arg 0) (s.arg 1) (s.arg 2) :=
  if_pos (by simpa [hb, hn] using ho)

theorem evApertureWrite_served (ho : s.arg 1 < 2 ^ 36) :
    evApertureWrite s = s.aperWrite (s.arg 0) (s.arg 1) ((s.args.drop 2).map fun n => BitVec.ofNat 8 n) :=
  if_pos (by simpa [hb] using ho)

end

theorem State.aperRead_unmapped {part off : Nat} (h : s.aperture part off false = none) (n : Nat) : s.aperRead part off n = s.aperFails part := by
  simp only [State.aperRead, h]

theorem State.aperWrite_unmapped {part off : Nat} (h : s.aperture part off true = none) (bs : List Byte) :
    s.aperWrite part off bs = s.aperFails part := by
  simp only [State.aperWrite, h]

/-- An interface that does not run serves no access of its BARs. -/
theorem exec_barAccess_unserved (hb : s.barServes (s.arg 0) = false) :
    ∀ i ∈ ([.notificationPop, .apertureRead, .apertureWrite] : List Instr), exec i s = .next { s with reply := [] } := by
  have hpop : evNotificationPop s = { s with reply := [] } := if_pos (by simp [hb])
  have hread : evApertureRead s = { s with reply := [] } := if_neg (by simp [hb])
  have hwrite : evApertureWrite s = { s with reply := [] } := if_neg (by simp [hb])
  simp only [List.forall_mem_cons]
  exact ⟨congrArg _ hpop, congrArg _ hread, congrArg _ hwrite, List.forall_mem_nil _⟩

end Sys2Proof.Machine
end

section
/-! Events of the management owner and the host port (21 R356, R357, R365, 24 R395-R398, R404, 25 R410). -/

namespace Sys2Proof.Machine

/-- Settles O59: each clause is the lemma of its event, whose request passes, or is refused, by the owner's test. -/
theorem managementEvents : Obligations.ManagementEvents := by
  unfold Obligations.ManagementEvents
  intro s m h b owned cleared
  have master (ho : owned) : s.arg 0 < 8 := by obtain ⟨h1 | h2, -⟩ := ho <;> omega
  refine ⟨fun u => ⟨u.heard_host, u.heard_bmc⟩, ?free, ?held, fun h1 h2 => congrArg _ (evMgmtClaim_stranger h1 h2), ?handover, ?lock, ?clear,
    ?config, ?status, ?read, ?remap, fun v ho hv => congrArg _ (evPartitionRequest_granted ho hv),
    fun ho hv => congrArg _ (evPartitionRequest_impossible ho hv), ?refused, ?unwritten,
    fun ht hl => congrArg _ (evHandoverTimeout_late ht hl), fun ho ht => congrArg _ (evBmcSilenceTimeout_late ho ht),
    fun hk => congrArg _ (evBmcSilenceTimeout_kept hk), fun ho => congrArg _ (evHostLinkDown_owner ho),
    fun ho => congrArg _ (evHostLinkDown_other ho), ?served, fun hb => exec_barAccess_unserved hb⟩
  case free =>
    exact fun hm ho => ⟨fun hp => congrArg _ (evMgmtClaim_first hm ho hp), fun h1 hp => congrArg _ (evMgmtClaim_preferred hm ho h1 hp)⟩
  case held =>
    refine fun hm h1 ho => ⟨fun ht hin => ?_, fun hr => congrArg _ (evMgmtClaim_refused hm h1 ho hr)⟩
    have hclaim := evMgmtClaim_target hm h1 ho ht hin
    refine ⟨fun hne => congrArg _ (hclaim.trans ?_), fun he => congrArg _ (hclaim.trans ?_)⟩
    · rw [State.setOwner_changes (by simpa using Ne.symm hne)]
      rfl
    · rw [State.setOwner_same (by simpa using Eq.symm he)]
  case handover =>
    exact fun ho ht => congrArg _ ((State.byOwner_owned ho _).trans (by rw [if_pos ht]))
  case lock => exact fun ho => congrArg _ (State.byOwner_owned ho _)
  case clear => exact fun ho => congrArg _ (State.byOwner_owned ho _)
  case config =>
    intro ho hreg v
    have hlock : h.hub.pkgLock = b.pkgLock := s.heard_pkgLock m
    have hwrite := (evRegisterWrite_master (master ho)).trans (State.byOwner_owned ho _)
    rw [if_pos hreg] at hwrite
    exact ⟨fun hl => congrArg _ (hwrite.trans (by rw [Hub.writeConfig_open (hlock.trans hl)])),
      fun hl => congrArg _ (hwrite.trans (by rw [Hub.writeConfig_locked (hlock.trans hl)]))⟩
  case status =>
    intro ho hreg
    have hwrite := (evRegisterWrite_master (master ho)).trans (State.byOwner_owned ho _)
    rw [if_neg hreg] at hwrite
    exact congrArg _ hwrite
  case read =>
    intro reader hr hm reads status
    have reads_of {x : Nat} (hx : s.mgmtRead (s.arg 1) = x) : reads x := congrArg _ ((evRegisterWrite_read hr hm).trans (by rw [hx]))
    refine ⟨fun h1 => reads_of ?_, fun h1 => reads_of ?_, fun h1 => reads_of ?_,
      fun h1 => ⟨(Config.hubTemperature s.freeCount).toNat % 256, Nat.mod_lt _ (by decide), reads_of ?_⟩, fun d hd h1 => reads_of ?_, fun d hd h1 => reads_of ?_⟩
    · rw [h1, State.mgmtRead_bootstat]
    · rw [h1, State.mgmtRead_owner]
    · rw [h1, State.mgmtRead_pkgcfg]
    · rw [h1, s.mgmtRead_diestat (d := 0) (by decide), s.dieStat_hub, diestat_eq]
    · rw [h1, show 0x108 + 8 * d = 0x100 + 8 * (d + 1) by omega, s.mgmtRead_diestat (by omega), s.dieStat_die hd, diestat_eq]
    · rw [h1, show 0x180 + 8 * d = 0x100 + 8 * (d + 16) by omega, s.mgmtRead_diestat (by omega), s.dieStat_stack hd, diestat_eq]
  case remap =>
    intro d j hm hreg w
    have hwrite := evRegisterWrite_firmware hm
    rw [hreg] at hwrite
    refine ⟨fun hd hj hl hlen => ?_, fun hl => congrArg _ (hwrite.trans (State.writeRemap_locked hl ..))⟩
    refine ⟨_, congrArg Host.Outcome.next (hwrite.trans (State.writeRemap_open hd hj hl _)), fun e he => s.die_setDie_ne he _, State.setDie_mem .., fun k hk => ?_⟩
    have hentries := Die.remapWritten_entries w hj hlen hk 8 le_rfl
    simp only [Nat.mod_lt k (by decide : 0 < 8), and_true] at hentries
    rwa [s.die_setDie hd]
  case refused =>
    intro ho
    have byOwner_refused (f : State → State) := State.byOwner_refused (s := s) ho f
    simp only [List.forall_mem_cons]
    exact ⟨congrArg _ (byOwner_refused _), congrArg _ (byOwner_refused _), congrArg _ (byOwner_refused _),
      congrArg _ (evPartitionRequest_refused ho), List.forall_mem_nil _⟩
  case unwritten => exact fun ho h8 => congrArg _ ((evRegisterWrite_master h8).trans (State.byOwner_refused ho _))
  case served =>
    refine fun hb => ⟨fun k cid rest hf => congrArg _ (evNotificationPop_entry hb hf), fun hf => congrArg _ (evNotificationPop_empty hb hf),
      fun hn ho => congrArg _ (evApertureRead_served hb hn ho), fun ho => congrArg _ (evApertureWrite_served hb ho),
      fun hu hn ho => congrArg _ ((evApertureRead_served hb hn ho).trans (State.aperRead_unmapped hu _)),
      fun hu ho => congrArg _ ((evApertureWrite_served hb ho).trans (State.aperWrite_unmapped hu _))⟩

end Sys2Proof.Machine
end

section
/-! Class 15: how its instructions end, where they may act, and the task that one of them selects (23 R382-R384). -/

namespace Sys2Proof.Machine

variable {o : LF} {h : Fin 16} {s : State} {t : Task} {k : Task → Eff} {code : Nat}

/-- A status of a class 15 instruction, written to its register as it completes. -/
theorem sysEnd_finish (o : LF) (code : Nat) (s : State) :
    (sysEnd o code s).finish 8 = .next ((s.setX (fieldReg o.d) (BitVec.ofNat 64 code)).completed 8) := rfl

theorem sysWait_finish (h : Fin 16) (w : HartWait) (s : State) :
    (sysWait h w s).finish 8 = .next (s.setHart h { s.hart h with wait := some w }) := rfl

theorem exec_ends {i : Instr} {e : Eff} {u : State} (hx : exec i s = e.finish 8) (he : e = sysEnd o code u) :
    exec i s = .next ((u.setX (fieldReg o.d) (BitVec.ofNat 64 code)).completed 8) := by rw [hx, he, sysEnd_finish]

theorem exec_waits {i : Instr} {e : Eff} {u : State} {w : HartWait} (hx : exec i s = e.finish 8) (he : e = sysWait h w u) :
    exec i s = .next (u.setHart h { u.hart h with wait := some w }) := by rw [hx, he, sysWait_finish]

/-- An instruction of a hart whose wait is settled takes the status. -/
theorem issueSys_settled {i : Instr} {sh : Shape} {body : Fin 16 → State → Eff} (hf : s.focus = .hart h) (hm : (s.hart h).mode ≠ 0)
    (hs : sh.fieldsOk o = true) (hw : (s.hart h).wait = some (.status code)) : issueSys i o sh body s =
      .next (((s.setHart h { s.hart h with wait := none }).setX (fieldReg o.d) (BitVec.ofNat 64 code)).completed 8) := by
  unfold issueSys
  simp only [hf, hs, hw]
  rw [if_neg (by simpa using hm)]
  rfl

theorem hubOnly_hub (hh : h.val < 8) (e : Eff) : hubOnly o h s e = e :=
  if_neg (by simp [dieOfHart, hh])

theorem hubOnly_die (hh : 8 ≤ h.val) (e : Eff) : hubOnly o h s e = sysEnd o 1 s :=
  if_pos (by simp [dieOfHart, hh])

theorem onTask_selected (hs : s.selected h (s.x (fieldReg o.a)).toNat = .ok t) (k : Task → Eff) : onTask o h s k = k t := by
  simp only [onTask, hs]

theorem onTask_unselected (hs : s.selected h (s.x (fieldReg o.a)).toNat = .error code) (k : Task → Eff) : onTask o h s k = sysEnd o code s := by
  simp only [onTask, hs]

theorem onTaskHub_selected (hh : h.val < 8) (hs : s.selected h (s.x (fieldReg o.a)).toNat = .ok t) (k : Task → Eff) :
    onTaskHub o h s k = k t := (hubOnly_hub hh _).trans (onTask_selected hs k)

theorem onTaskHub_unselected (hh : h.val < 8) (hs : s.selected h (s.x (fieldReg o.a)).toNat = .error code) (k : Task → Eff) :
    onTaskHub o h s k = sysEnd o code s := (hubOnly_hub hh _).trans (onTask_unselected hs k)

theorem bne_zero_iff_toNat (w : Word) : (w != 0) = true ↔ w.toNat ≠ 0 := by
  rw [bne_iff_ne, ne_eq, ← BitVec.toNat_inj]
  rfl

theorem not_bne_zero {w : Word} (h : w.toNat = 0) : ¬ (w != 0) = true := (bne_zero_iff_toNat w).not.mpr (not_not.mpr h)

/-- What an instruction on a task does, and the status it gives where it selects none. -/
def SelectsTask (i : Instr) (o : LF) (sh : Shape) : Prop := ∀ s h, s.issuesSys h o sh → ∃ k, exec i s = (onTask o h s k).finish 8

/-- The same of one that only the hub's harts execute. -/
def SelectsTaskOnHub (i : Instr) (o : LF) (sh : Shape) : Prop :=
  ∀ s h, s.issuesSys h o sh → ∃ k, exec i s = (onTaskHub o h s k).finish 8

theorem selectsTask : ∀ p ∈ ([(.ctxsv o, shapeCtxsv o), (.ctxsvHalt o, shapeCtxsvHalt o), (.ctxrs o, shapeCtxrs o), (.ckpt o, shapeCkpt o),
    (.ckrb o, shapeCkrb o)] : List (Instr × Shape)), SelectsTask p.1 o p.2 := by
  simp only [List.forall_mem_cons]
  exact ⟨fun _ _ hi => ⟨_, issueSys_ok hi⟩, fun _ _ hi => ⟨_, issueSys_ok hi⟩, fun _ _ hi => ⟨_, issueSys_ok hi⟩,
    fun _ _ hi => ⟨_, issueSys_ok hi⟩, fun _ _ hi => ⟨_, issueSys_ok hi⟩, List.forall_mem_nil _⟩

theorem selectsTaskOnHub : ∀ p ∈ ([(.tresmResume o, shapeTresmResume o), (.tresmRestart o, shapeTresmRestart o),
    (.tresmStep o, shapeTresmStep o), (.tresmAbandon o, shapeTresmAbandon o), (.tresmRel o, shapeTresmRel o), (.tresmSvc o, shapeTresmSvc o),
    (.tcanc o, shapeTcanc o)] : List (Instr × Shape)), SelectsTaskOnHub p.1 o p.2 := by
  simp only [List.forall_mem_cons]
  exact ⟨fun _ _ hi => ⟨_, issueSys_ok hi⟩, fun _ _ hi => ⟨_, issueSys_ok hi⟩, fun _ _ hi => ⟨_, issueSys_ok hi⟩,
    fun _ _ hi => ⟨_, issueSys_ok hi⟩, fun _ _ hi => ⟨_, issueSys_ok hi⟩, fun _ _ hi => ⟨_, issueSys_ok hi⟩, fun _ _ hi => ⟨_, issueSys_ok hi⟩,
    List.forall_mem_nil _⟩

end Sys2Proof.Machine
end

section
/-! The sorter, image and debug instructions of class 15 on the task they select (23 R386, R387). -/

namespace Sys2Proof.Machine

variable {o : LF} {h : Fin 16} {s : State} {t : Task}

/-! ### Saves and checkpoints (23 R386) -/

section
variable (hs : s.selected h (s.x (fieldReg o.a)).toNat = .ok t) {r : Nat}
include hs

theorem ctxSave_stopped (ht : t.state ≠ .running) : ctxSave r o h s = sysEnd o 3 s := by
  rw [ctxSave, onTask_selected hs, if_pos (by simpa using ht)]

/-- A parked or held task is saved at once. -/
theorem ctxSave_parked (ht : t.state = .running) (hc : t.core = none) :
    ctxSave r o h s = sysEnd o 0 (s.withTask t.id fun u => u.finishSave r) := by
  rw [ctxSave, onTask_selected hs, if_neg (by simp [ht]), if_pos (by simp [hc])]

theorem ctxSave_stopping (ht : t.state = .running) (hc : t.core ≠ none) (hp : t.stop ≠ none) :
    ctxSave r o h s = sysWait h (.saved t.id) s := by
  rw [ctxSave, onTask_selected hs, if_neg (by simp [ht]), if_neg (by simpa using hc), if_pos (by simpa [Option.isSome_iff_ne_none] using hp)]

theorem ctxSave_begins (ht : t.state = .running) (hc : t.core ≠ none) (hp : t.stop = none) :
    ctxSave r o h s = sysWait h (.saved t.id)
      (s.withTask t.id fun u => { u with cur := { u.cur with stop := some (.save r), preemptAt := u.hub.time } }) := by
  rw [ctxSave, onTask_selected hs, if_neg (by simp [ht]), if_neg (by simpa using hc), if_neg (by simp [hp])]

theorem ctxCheckpoint_stopped (ht : t.state ≠ .running) : ctxCheckpoint o h s = sysEnd o 3 s := by
  rw [ctxCheckpoint, onTask_selected hs, if_pos (by simpa using ht)]

theorem ctxCheckpoint_asks (ht : t.state = .running) : ctxCheckpoint o h s =
    sysWait h (.ckpt t.id) (s.withTask t.id fun u => { u with cur := { u.cur with ckptDue := true } }) := by
  rw [ctxCheckpoint, onTask_selected hs, if_neg (by simp [ht])]

end

/-! ### Restores (23 R386) -/

/-- Whether a task is one that `ctxrs` restores: saved or rolled back, halted or forced back by a gang switch, and not being stepped. -/
def Task.Restorable (t : Task) : Prop :=
  (t.state = .saved ∨ t.state = .rolledBack) ∧ (t.halted = true ∨ t.reason = 7) ∧ t.stepping = none

theorem Task.restorable_iff : t.Restorable ↔
    (!(t.state == .saved || t.state == .rolledBack) || !(t.halted || t.reason == 7) || t.stepping.isSome) = false := by
  simp [Task.Restorable, and_assoc, or_iff_not_imp_left]

section
variable (hs : s.selected h (s.x (fieldReg o.a)).toNat = .ok t)
include hs

theorem ctxRestore_unready (ht : ¬ t.Restorable) : ctxRestore o h s = sysEnd o 3 s := by
  rw [Task.restorable_iff, Bool.not_eq_false] at ht
  rw [ctxRestore, onTask_selected hs, if_pos ht]

section
variable (ht : t.Restorable)
include ht

theorem ctxRestore_no_image (hi : t.image = false) : ctxRestore o h s = sysEnd o 4 s := by
  rw [ctxRestore, onTask_selected hs, Task.restorable_iff.mp ht, if_neg Bool.false_ne_true, if_pos (by simp [hi])]

theorem ctxRestore_bad_image (hi : t.image = true) (hv : s.verifies t.id = false) :
    ctxRestore o h s = sysEnd o 6 (s.failedImage t.id) := by
  rw [ctxRestore, onTask_selected hs, Task.restorable_iff.mp ht, if_neg Bool.false_ne_true, if_neg (by simp [hi]), if_pos (by simp [hv])]

theorem ctxRestore_requeues (hi : t.image = true) (hv : s.verifies t.id = true) : ctxRestore o h s = sysEnd o 0
    ((s.withTask t.id fun u => ({ u with cur := { u.cur with halted := false } } : State).makeReady).readied [t.id]) := by
  rw [ctxRestore, onTask_selected hs, Task.restorable_iff.mp ht, if_neg Bool.false_ne_true, if_neg (by simp [hi]), if_neg (by simp [hv])]

end

/-! ### Rollbacks (23 R386) -/

theorem ctxRollback_unready (ht : t.state ≠ .running ∨ s.rollbackable t = false) : ctxRollback o h s = sysEnd o 3 s := by
  rw [ctxRollback, onTask_selected hs, if_pos (by simpa using ht)]

section
variable (ht : t.state = .running) (hr : s.rollbackable t = true)
include ht hr

theorem ctxRollback_within (hk : t.ckptInSpec = true) : ctxRollback o h s = sysEnd o 0 (s.withTask t.id fun u => u.rollback 3) := by
  rw [ctxRollback, onTask_selected hs, if_neg (by simp [ht, hr]), if_pos hk]

variable (hk : t.ckptInSpec = false)
include hk

theorem ctxRollback_kills (hp : t.policy.getLsbD 3 = true) :
    ctxRollback o h s = sysEnd o 0 ((s.withTask t.id State.kill).noted s) := by
  rw [ctxRollback, onTask_selected hs, if_neg (by simp [ht, hr]), if_neg (by simp [hk]), if_pos hp]

theorem ctxRollback_parked (hp : t.policy.getLsbD 3 = false) (hc : t.core = none) :
    ctxRollback o h s = sysEnd o 0 (s.withTask t.id fun u => u.finishSave 1) := by
  rw [ctxRollback, onTask_selected hs, if_neg (by simp [ht, hr]), if_neg (by simp [hk]), if_neg (Bool.eq_false_iff.mp hp), if_pos (by simp [hc])]

theorem ctxRollback_saves (hp : t.policy.getLsbD 3 = false) (hc : t.core ≠ none) :
    ctxRollback o h s = sysWait h (.saved t.id) (s.withTask t.id fun u => u.applyPolicy .save 1) := by
  rw [ctxRollback, onTask_selected hs, if_neg (by simp [ht, hr]), if_neg (by simp [hk]), if_neg (Bool.eq_false_iff.mp hp), if_neg (by simpa using hc)]

end
end

/-! ### Answers (23 R387) -/

section
variable (hh : h.val < 8) (hs : s.selected h (s.x (fieldReg o.a)).toNat = .ok t)
include hh hs

section
variable (hb : (s.x (fieldReg o.b)).toNat ≠ 0)
include hb

theorem tresmResume_badArg : tresmResume o h s = sysEnd o 2 s := by
  rw [tresmResume, onTaskHub_selected hh hs, if_pos ((bne_zero_iff_toNat _).mpr hb)]

theorem tresmRestart_badArg : tresmRestart o h s = sysEnd o 2 s := by
  rw [tresmRestart, onTaskHub_selected hh hs, if_pos ((bne_zero_iff_toNat _).mpr hb)]

theorem tresmAbandon_badArg : tresmAbandon o h s = sysEnd o 2 s := by
  rw [tresmAbandon, onTaskHub_selected hh hs, if_pos ((bne_zero_iff_toNat _).mpr hb)]

theorem tresmRelease_badArg : tresmRelease o h s = sysEnd o 2 s := by
  rw [tresmRelease, onTaskHub_selected hh hs, if_pos ((bne_zero_iff_toNat _).mpr hb)]

end

section
variable (hb : (s.x (fieldReg o.b)).toNat = 0)
include hb

theorem tresmResume_unready (ha : t.answerable = false) : tresmResume o h s = sysEnd o 3 s := by
  rw [tresmResume, onTaskHub_selected hh hs, if_neg (not_bne_zero hb), if_pos (by simp [ha])]

theorem tresmRestart_unready (ha : t.answerable = false) : tresmRestart o h s = sysEnd o 3 s := by
  rw [tresmRestart, onTaskHub_selected hh hs, if_neg (not_bne_zero hb), if_pos (by simp [ha])]

section
variable (ha : t.answerable = true)
include ha

theorem tresmResume_no_image (hi : t.image = false) : tresmResume o h s = sysEnd o 4 s := by
  rw [tresmResume, onTaskHub_selected hh hs, if_neg (not_bne_zero hb), if_neg (by simp [ha]),
    if_pos (by simp [hi])]

theorem tresmResume_bad_image (hi : t.image = true) (hv : s.verifies t.id = false) :
    tresmResume o h s = sysEnd o 6 (s.failedImage t.id) := by
  rw [tresmResume, onTaskHub_selected hh hs, if_neg (not_bne_zero hb), if_neg (by simp [ha]),
    if_neg (by simp [hi]), if_pos (by simp [hv])]

theorem tresmResume_resumes (hi : t.image = true) (hv : s.verifies t.id = true) :
    tresmResume o h s = sysEnd o 0 ((s.withTask t.id fun u => u.releaseHeld.resumeTask).readied [t.id]) := by
  rw [tresmResume, onTaskHub_selected hh hs, if_neg (not_bne_zero hb), if_neg (by simp [ha]),
    if_neg (by simp [hi]), if_neg (by simp [hv])]

theorem tresmRestart_restarts :
    tresmRestart o h s = sysEnd o 0 ((s.withTask t.id fun u => u.releaseHeld.restartTask).readied [t.id]) := by
  rw [tresmRestart, onTaskHub_selected hh hs, if_neg (not_bne_zero hb), if_neg (by simp [ha])]

end

theorem tresmAbandon_no_step (hn : t.stepping = none) : tresmAbandon o h s = sysEnd o 3 s := by
  rw [tresmAbandon, onTaskHub_selected hh hs, if_neg (not_bne_zero hb), hn]

/-- A step that runs is not abandoned. -/
theorem tresmAbandon_runs {w : Who} (hw : t.stepping = some w) (hc : t.core ≠ none) (hm : (t.team.member w).wait = none) :
    tresmAbandon o h s = sysEnd o 3 s := by
  rw [tresmAbandon, onTaskHub_selected hh hs, if_neg (not_bne_zero hb), hw]
  exact if_pos (by simpa [hm, Option.isSome_iff_ne_none] using hc)

/-- A step that waits for a core or is blocked ends before its instruction. -/
theorem tresmAbandon_ends {w : Who} (hw : t.stepping = some w) (hm : t.core = none ∨ (t.team.member w).wait ≠ none) :
    tresmAbandon o h s =
      sysEnd o 0 (s.withTask t.id fun u => (u.setMember w (u.member w).abandoned).stepEnds w 0 (BitVec.allOnes 64)) := by
  rw [tresmAbandon, onTaskHub_selected hh hs, if_neg (not_bne_zero hb), hw]
  exact if_neg (by simpa [imp_iff_not_or, Option.isSome_iff_ne_none] using hm)

theorem tresmRelease_none (hn : (s.focusTask t.id).heldChildren = 0) : tresmRelease o h s = sysEnd o 3 s := by
  rw [tresmRelease, onTaskHub_selected hh hs, if_neg (not_bne_zero hb), if_pos hn]

theorem tresmRelease_releases (hn : (s.focusTask t.id).heldChildren ≠ 0) :
    tresmRelease o h s = sysEnd o 0 (s.withTask t.id State.releaseHeld) := by
  rw [tresmRelease, onTaskHub_selected hh hs, if_neg (not_bne_zero hb), if_neg hn]

end

/-! ### Steps (18 R320) -/

theorem tresmStep_badArg (hb : 2 < (s.x (fieldReg o.b)).toNat) : tresmStep o h s = sysEnd o 2 s := by
  rw [tresmStep, onTaskHub_selected hh hs, if_pos hb]

section
variable (hb : (s.x (fieldReg o.b)).toNat ≤ 2)
include hb

theorem tresmStep_unready (ha : t.answerable = false) : tresmStep o h s = sysEnd o 3 s := by
  rw [tresmStep, onTaskHub_selected hh hs, if_neg (Nat.not_lt.mpr hb), if_pos (by simp [ha])]

variable (ha : t.answerable = true)
include ha

theorem tresmStep_no_image (hi : t.image = false) : tresmStep o h s = sysEnd o 4 s := by
  rw [tresmStep, onTaskHub_selected hh hs, if_neg (Nat.not_lt.mpr hb), if_neg (by simp [ha]), if_pos (by simp [hi])]

variable (hi : t.image = true) (he : (t.team.member (whoOf (s.x (fieldReg o.b)).toNat)).ended = false)
include hi he

theorem tresmStep_bad_image (hv : s.verifies t.id = false) : tresmStep o h s = sysEnd o 6 (s.failedImage t.id) := by
  rw [tresmStep, onTaskHub_selected hh hs, if_neg (Nat.not_lt.mpr hb), if_neg (by simp [ha]), if_neg (by simp [hi]),
    if_neg (Bool.eq_false_iff.mp he), if_pos (by simp [hv])]

theorem tresmStep_begins (hv : s.verifies t.id = true) :
    tresmStep o h s = sysEnd o 0 (s.withTask t.id fun u => u.beginStep (whoOf (s.x (fieldReg o.b)).toNat)) := by
  rw [tresmStep, onTaskHub_selected hh hs, if_neg (Nat.not_lt.mpr hb), if_neg (by simp [ha]), if_neg (by simp [hi]),
    if_neg (Bool.eq_false_iff.mp he), if_neg (by simp [hv])]

end

/-! ### Service answers and cancellation (18 R314, 02 R30) -/

theorem tresmService_badArg (hb : s.blockAt (s.x (fieldReg o.b)).toNat = false ∨ (s.answerAt (s.x (fieldReg o.b)).toNat).ok = false) :
    tresmService o h s = sysEnd o 2 s := by
  rw [tresmService, onTaskHub_selected hh hs, if_pos (by simpa using hb)]

section
variable (hb : s.blockAt (s.x (fieldReg o.b)).toNat = true) {r : Answer} (hr : s.answerAt (s.x (fieldReg o.b)).toNat = r) (hok : r.ok = true)
include hb hr hok

theorem tresmService_stale (ht : t.state = .done ∨ t.state = .cancelled ∨ (t.team.member (whoOf r.member)).svc ≠ some r.tag ∨
    (t.team.member (whoOf r.member)).answer ≠ none) : tresmService o h s = sysEnd o 3 s := by
  rw [tresmService, onTaskHub_selected hh hs, hr, if_neg (by simp [hb, hok])]
  exact if_pos (by simpa [or_assoc, Option.isSome_iff_ne_none] using ht)

theorem tresmService_delivers (hd : t.state ≠ .done) (hc : t.state ≠ .cancelled) (hsvc : (t.team.member (whoOf r.member)).svc = some r.tag)
    (ha : (t.team.member (whoOf r.member)).answer = none) :
    tresmService o h s = sysEnd o 0 (s.withTask t.id fun u =>
      if r.action = 0 then u.deliverReturn (whoOf r.member) r else u.deliverFault (whoOf r.member) r) := by
  rw [tresmService, onTaskHub_selected hh hs, hr, if_neg (by simp [hb, hok])]
  exact if_neg (by simp [hd, hc, hsvc, ha])

end

theorem taskCancel_unready (ha : t.answerable = false) : taskCancel o h s = sysEnd o 3 s := by
  rw [taskCancel, onTaskHub_selected hh hs, if_pos (by simp [ha])]

theorem taskCancel_cancels (ha : t.answerable = true) : taskCancel o h s = sysEnd o 0 (s.withTask t.id State.cancel) := by
  rw [taskCancel, onTaskHub_selected hh hs, if_neg (by simp [ha])]

end

end Sys2Proof.Machine
end

section
/-! Class 15 on tasks (23 R383-R387, 18 R313, R314, R320, R321). -/

namespace Sys2Proof.Machine

/-- Settles O52: each clause is the lemma of its instruction on the task selected. -/
theorem taskAnswers : Obligations.TaskAnswers := by
  unfold Obligations.TaskAnswers
  intro o h s t b status waits hold sel
  refine ⟨?unselected, ?unselectedHub, ?settled, fun hs => ⟨?save, ?restoreUnready, ?ckptStopped, ?rollbackUnready, ?restore, ?ckpt, ?rollback⟩,
    fun hh hs => ⟨?badArg, ?unready, ?stepUnready, ?stepBadArg, ?cancelUnready, fun ha => ⟨?resume, ?restart, ?step, ?image, ?cancel⟩,
      ?abandon, ?release, ?service, ?serviceBadArg⟩⟩
  case unselected =>
    intro i sh code hmem hi hs
    obtain ⟨k, hx⟩ := selectsTask (i, sh) hmem s h hi
    exact exec_ends hx (onTask_unselected hs k)
  case unselectedHub =>
    intro i sh hmem hi
    obtain ⟨k, hx⟩ := selectsTaskOnHub (i, sh) hmem s h hi
    exact ⟨fun hd => exec_ends hx (hubOnly_die hd _), fun code hh hs => exec_ends hx (onTaskHub_unselected hh hs k)⟩
  case settled =>
    intro i sh code hmem hf hm hfields hw
    obtain ⟨body, hx⟩ : ∃ body, exec i s = issueSys i o sh body s := by
      simp only [List.mem_cons, Prod.mk.injEq, List.not_mem_nil, or_false] at hmem
      obtain ⟨rfl, rfl⟩ | ⟨rfl, rfl⟩ | ⟨rfl, rfl⟩ | ⟨rfl, rfl⟩ := hmem <;> exact ⟨_, rfl⟩
    exact hx.trans (issueSys_settled hf hm hfields hw)
  case save =>
    intro p hmem hi
    have hx : exec p.1 s = (ctxSave p.2.2 o h s).finish 8 := by
      simp only [List.mem_cons, List.not_mem_nil, or_false] at hmem
      obtain rfl | rfl := hmem <;> exact issueSys_ok hi
    exact ⟨fun ht => exec_ends hx (ctxSave_stopped hs ht), fun ht hc => exec_ends hx (ctxSave_parked hs ht hc),
      fun ht hc hp => exec_waits hx (ctxSave_begins hs ht hc hp), fun ht hc hp => exec_waits hx (ctxSave_stopping hs ht hc hp)⟩
  case restoreUnready =>
    refine fun hi ht => exec_ends (issueSys_ok hi) (ctxRestore_unready hs fun ⟨hstate, hheld, hstep⟩ => ?_)
    obtain ⟨hsaved, hback⟩ | ⟨hhalted, hreason⟩ | hstepping := ht
    · exact hstate.elim hsaved hback
    · exact hheld.elim (Bool.eq_false_iff.mp hhalted) hreason
    · exact hstepping hstep
  case ckptStopped => exact fun hi ht => exec_ends (issueSys_ok hi) (ctxCheckpoint_stopped hs ht)
  case rollbackUnready => exact fun hi ht => exec_ends (issueSys_ok hi) (ctxRollback_unready hs ht)
  case restore =>
    intro hi hstate hheld hstep
    have ht : t.Restorable := ⟨hstate, hheld, hstep⟩
    exact ⟨fun hn => exec_ends (issueSys_ok hi) (ctxRestore_no_image hs ht hn),
      fun hn hv => exec_ends (issueSys_ok hi) (ctxRestore_bad_image hs ht hn hv),
      fun hn hv => exec_ends (issueSys_ok hi) (ctxRestore_requeues hs ht hn hv)⟩
  case ckpt => exact fun hi ht => exec_waits (issueSys_ok hi) (ctxCheckpoint_asks hs ht)
  case rollback =>
    exact fun hi ht hr => ⟨fun hk => exec_ends (issueSys_ok hi) (ctxRollback_within hs ht hr hk),
      fun hk hp => exec_ends (issueSys_ok hi) (ctxRollback_kills hs ht hr hk hp),
      fun hk hp hc => exec_ends (issueSys_ok hi) (ctxRollback_parked hs ht hr hk hp hc),
      fun hk hp hc => exec_waits (issueSys_ok hi) (ctxRollback_saves hs ht hr hk hp hc)⟩
  case badArg =>
    simp only [List.forall_mem_cons]
    exact ⟨fun hi hb => exec_ends (issueSys_ok hi) (tresmResume_badArg hh hs hb), fun hi hb => exec_ends (issueSys_ok hi) (tresmRestart_badArg hh hs hb),
      fun hi hb => exec_ends (issueSys_ok hi) (tresmAbandon_badArg hh hs hb), fun hi hb => exec_ends (issueSys_ok hi) (tresmRelease_badArg hh hs hb),
      List.forall_mem_nil _⟩
  case unready =>
    simp only [List.forall_mem_cons]
    exact ⟨fun hi hb ha => exec_ends (issueSys_ok hi) (tresmResume_unready hh hs hb ha),
      fun hi hb ha => exec_ends (issueSys_ok hi) (tresmRestart_unready hh hs hb ha), List.forall_mem_nil _⟩
  case stepUnready => exact fun hi hb ha => exec_ends (issueSys_ok hi) (tresmStep_unready hh hs hb ha)
  case stepBadArg => exact fun hi hb => exec_ends (issueSys_ok hi) (tresmStep_badArg hh hs hb)
  case cancelUnready => exact fun hi ha => exec_ends (issueSys_ok hi) (taskCancel_unready hh hs ha)
  case resume => exact fun hi hb hn hv => exec_ends (issueSys_ok hi) (tresmResume_resumes hh hs hb ha hn hv)
  case restart => exact fun hi hb => exec_ends (issueSys_ok hi) (tresmRestart_restarts hh hs hb ha)
  case step => exact fun hi hb hn he hv => exec_ends (issueSys_ok hi) (tresmStep_begins hh hs hb ha hn he hv)
  case image =>
    simp only [List.forall_mem_cons]
    exact ⟨fun hi hb => ⟨fun hn _ => exec_ends (issueSys_ok hi) (tresmResume_no_image hh hs hb ha hn),
        fun hn hv => exec_ends (issueSys_ok hi) (tresmResume_bad_image hh hs hb ha hn hv)⟩,
      fun hi ⟨hb, he⟩ => ⟨fun hn _ => exec_ends (issueSys_ok hi) (tresmStep_no_image hh hs hb ha hn),
        fun hn hv => exec_ends (issueSys_ok hi) (tresmStep_bad_image hh hs hb ha hn he hv)⟩, List.forall_mem_nil _⟩
  case cancel => exact fun hi => exec_ends (issueSys_ok hi) (taskCancel_cancels hh hs ha)
  case abandon =>
    exact fun hi hb => ⟨fun hn => exec_ends (issueSys_ok hi) (tresmAbandon_no_step hh hs hb hn),
      fun w hw => ⟨fun hc hm => exec_ends (issueSys_ok hi) (tresmAbandon_runs hh hs hb hw hc hm),
        fun hm => exec_ends (issueSys_ok hi) (tresmAbandon_ends hh hs hb hw hm)⟩⟩
  case release =>
    exact fun hi hb => ⟨fun hn => exec_ends (issueSys_ok hi) (tresmRelease_none hh hs hb hn),
      fun hn => exec_ends (issueSys_ok hi) (tresmRelease_releases hh hs hb hn)⟩
  case service =>
    exact fun hi hb hok => ⟨fun hd hc hsvc ha => exec_ends (issueSys_ok hi) (tresmService_delivers hh hs hb rfl hok hd hc hsvc ha),
      fun ht => exec_ends (issueSys_ok hi) (tresmService_stale hh hs hb rfl hok ht)⟩
  case serviceBadArg => exact fun hi hb => exec_ends (issueSys_ok hi) (tresmService_badArg hh hs hb)

end Sys2Proof.Machine
end

section
/-! Class 15 of the hub: translations and key slots (23 R388, R389, 19 R334, 22 R368). -/

namespace Sys2Proof.Machine

variable {o : LF} {h : Fin 16} {s : State}

/-! ### Key slots (23 R389) -/

section
variable {p n : Nat} {k : KeySlot} (hh : h.val < 8) (hp : ((s.x (fieldReg o.a)).extractLsb' 0 3).toNat = p)
  (hn : ((s.x (fieldReg o.a)).extractLsb' 8 6).toNat = n) (hk : s.keySlot n = k) (hmay : (s.hart h).mayActOn p = true)
  (hfits : s.x (fieldReg o.a) &&& ~~~0x3F07#64 = 0)
include hh hp hn hk hmay hfits

/-- A key instruction on a slot that no partition holds, or one of a partition on which the hart may act. -/
theorem onSlot_passes (hown : 8 ≤ k.part ∨ k.part = p) (f : Nat → Nat → KeySlot → Eff) : onSlot o h s f = f p n k := by
  have hslot : (k.part < 8 && !(s.hart h).mayActOn k.part) = false := by
    obtain h8 | hpart := hown
    · rw [decide_eq_false (Nat.not_lt.mpr h8), Bool.false_and]
    · rw [hpart, hmay, Bool.not_true, Bool.and_false]
  have hok : keyArgsOk (s.x (fieldReg o.a)) = true := beq_iff_eq.mpr hfits
  unfold onSlot keyArgs
  dsimp only
  rw [hubOnly_hub hh, hp, hn, hk, if_neg (by simp [hmay, hslot]), if_neg (by simp [hok])]

theorem keyLoadNew_assigns (hb : s.x (fieldReg o.b) = 0) (ht : (s.part p).tenant ≠ none) (hfree : 8 ≤ k.part) :
    keyLoadNew o h s = sysEnd o 0 ((s.setKeySlot n ⟨p, s.genKey p n, none, false⟩).takeGen p) := by
  rw [keyLoadNew, onSlot_passes hh hp hn hk hmay hfits (.inl hfree), if_neg (by simp [hb]), if_neg (by simp [ht, hfree])]

variable (hpart : k.part = p)
include hpart

theorem keyLoad_loads (ht : (s.part p).tenant ≠ none) (hroom : k.h0 = none ∨ k.h1 = none) :
    keyLoad o h s = sysEnd o 0 ((s.setKeySlot n
      (if k.cur then { k with h0 := s.genKey p n, cur := false } else { k with h1 := s.genKey p n, cur := true })).takeGen p) := by
  rw [keyLoad, onSlot_passes hh hp hn hk hmay hfits (.inr hpart)]
  exact if_neg (by simpa [ht, hpart, imp_iff_not_or, Option.isSome_iff_ne_none] using hroom)

theorem keyLoad_full (h0 : k.h0 ≠ none) (h1 : k.h1 ≠ none) : keyLoad o h s = sysEnd o 3 s := by
  rw [keyLoad, onSlot_passes hh hp hn hk hmay hfits (.inr hpart)]
  exact if_pos (by simp [Option.isSome_iff_ne_none, h0, h1])

theorem keyClear_low (hb : (s.x (fieldReg o.b)) = 0) (h0 : k.h0 ≠ none) :
    keyClear o h s = sysEnd o 0 ((s.settleSlot n).setKeySlot n { k with h0 := none }) := by
  rw [keyClear, onSlot_passes hh hp hn hk hmay hfits (.inr hpart), hb]
  exact (if_neg (by decide)).trans (if_neg (by simpa [hpart, KeySlot.half] using h0))

theorem keyClear_high (hb : (s.x (fieldReg o.b)) = 1) (h1 : k.h1 ≠ none) :
    keyClear o h s = sysEnd o 0 ((s.settleSlot n).setKeySlot n { k with h1 := none }) := by
  rw [keyClear, onSlot_passes hh hp hn hk hmay hfits (.inr hpart), hb]
  exact (if_neg (by decide)).trans (if_neg (by simpa [hpart, KeySlot.half] using h1))

theorem keyClearAll_clears : keyClearAll o h s = sysEnd o 0 ((s.settleSlot n).setKeySlot n ⟨8, none, none, false⟩) := by
  rw [keyClearAll, onSlot_passes hh hp hn hk hmay hfits (.inr hpart), if_neg (by simp [hpart])]

end

/-! ### Invalidations (23 R388) -/

theorem tlbInvalidate_accepted {cid va len : Nat} (hh : h.val < 8) (ha : (s.x (fieldReg o.a)).toNat = va)
    (hc : (s.x (fieldReg o.b)).toNat / 2 ^ 52 = cid) (hl : (s.x (fieldReg o.b)).toNat % 2 ^ 52 = len)
    (hmay : (s.hart h).mayActOn (partOf cid) = true) (hva : va % 4096 = 0) (hlen : len % 4096 = 0) (h0 : len ≠ 0) (hin : va + len ≤ 2 ^ 56) :
    tlbInvalidate o h s = sysWait h (.tlbir s.nextId) (s.startInval h cid va len) := by
  have hlt : va < 2 ^ 56 := by omega
  unfold tlbInvalidate
  dsimp only
  rw [hubOnly_hub hh, ha, hc, hl, if_neg (by simp [hmay])]
  exact if_neg (by simpa [hva, hlen, h0] using ⟨hlt, hin⟩)

end Sys2Proof.Machine
end

section
/-! Class 15 of the hub: virtual-die tables, loans, queues, records, stamps and time (23 R390-R394, 21 R358-R362, 24 R406). -/

namespace Sys2Proof.Machine

variable {o : LF} {h : Fin 16} {s : State}

/-! ### Virtual-die tables (23 R392, 21 R358) -/

section
variable {cid b : Nat} {c : Context} {new : List Nat} (hh : h.val < 8) (ha : (s.x (fieldReg o.a)).toNat = cid)
  (hb : (s.x (fieldReg o.b)).toNat = b) (hmay : (s.hart h).mayActOn (partOf cid) = true) (hcid : cid < 4096) (hat : s.blockAt b = true)
  (hc : s.ctx? cid = some c) (hnew : s.vdieTable (partOf cid) (s.fwRead b 16) = some new)
include hh ha hb hmay hcid hat hc hnew

theorem sliceMap_busy (hbusy : s.ctxBusy cid = true) : sliceMap o h s = sysEnd o 3 s := by
  unfold sliceMap
  dsimp only
  rw [hubOnly_hub hh, ha, hb, if_neg (by simp [hmay]), if_neg (by simp [hcid, hat]), hc, hnew]
  exact if_pos hbusy

theorem sliceMap_binds (hbusy : s.ctxBusy cid = false) : sliceMap o h s = sysEnd o 0 (s.bindVdies c new (s.fwRead b 16)) := by
  unfold sliceMap
  dsimp only
  rw [hubOnly_hub hh, ha, hb, if_neg (by simp [hmay]), if_neg (by simp [hcid, hat]), hc, hnew]
  exact if_neg (Bool.eq_false_iff.mp hbusy)

end

/-! ### Loans (23 R392, 21 R359-R362) -/

/-- The parameter block of a loan. -/
structure LoanBlock where
  die : Nat
  borrower : Nat
  anchor : Nat
  automatic : Nat
  deadline : Nat
  reserved : Nat

/-- The parameter block of a loan at a physical address. -/
def State.loanBlock (s : State) (a : Nat) : LoanBlock :=
  ⟨s.physNat a 1, s.physNat (a + 1) 1, s.physNat (a + 2) 1, s.physNat (a + 3) 1, s.physNat (a + 4) 4, s.physNat (a + 8) 8⟩

/-- Its fields in range for a lender. -/
def State.LoanOk (s : State) (lender : Nat) (r : LoanBlock) : Prop :=
  r.borrower < 8 ∧ r.borrower ≠ lender ∧ r.anchor < (s.part r.borrower).slices.length ∧ r.automatic < 2 ∧ 140 ≤ r.deadline ∧
    r.deadline ≤ 10000 ∧ r.reserved = 0

/-- An idle die of the lender's that is not lent yet is scrubbed, the path keys of both partitions are loaded again, and it is lent. -/
theorem sliceLend_lends {a p : Nat} {r : LoanBlock} (hh : h.val < 8) (ha : (s.x (fieldReg o.a)).toNat = a) (hat : s.blockAt a = true)
    (hr : s.loanBlock a = r) (ho : s.sliceOwner r.die = some p) (hmay : (s.hart h).mayActOn p = true) (hok : s.LoanOk p r)
    (hl : (s.die r.die).loan = none) (hs : (s.die r.die).stands = true) (hi : s.dieIdle p r.die = true) :
    sliceLend o h s =
      let s1 := (s.scrubDie r.die).rekey [p, r.borrower]
      sysEnd o 0 (s1.setDie r.die { s1.die r.die with
        loan := some ⟨p, r.borrower, r.anchor, r.deadline, r.automatic == 1, none, []⟩, keys := some r.borrower }) := by
  subst hr
  obtain ⟨h8, hne, hanchor, hauto, hlow, hhigh, hres⟩ := hok
  simp only [State.loanBlock] at *
  unfold sliceLend
  simp only [ha, Nat.add_zero, ho]
  rw [hubOnly_hub hh, if_neg (by simp [hat]), if_neg (by simp [hmay]), if_neg (by simp [h8, hne, hanchor, hauto, hlow, hhigh, hres]),
    if_neg (by simp [hl, hs, hi])]

section
variable {die : Nat} (hh : h.val < 8) (ha : (s.x (fieldReg o.a)).toNat = die) (hd : die < 8)
  (hmay : (s.hart h).mayActOn ((s.sliceOwner die).getD 8) = true)
include hh ha hd hmay

theorem sliceRecall_unlent (hl : (s.die die).loan = none) : sliceRecall o h s = sysEnd o 3 s := by
  unfold sliceRecall
  dsimp only
  rw [hubOnly_hub hh, ha, if_neg (Nat.not_le.mpr hd), if_neg (by simp [hmay]), if_pos (by simp [hl])]

theorem sliceRecall_recalls (hl : (s.die die).loan ≠ none) : sliceRecall o h s = sysWait h (.recall die) ((s.startRecall die).noted s) := by
  unfold sliceRecall
  dsimp only
  rw [hubOnly_hub hh, ha, if_neg (Nat.not_le.mpr hd), if_neg (by simp [hmay]), if_neg (by simpa using hl)]

end

/-! ### Queues (23 R390, 20 R339) -/

section
variable {p q : Nat} {b : Word} {v : Queue} (hh : h.val < 8) (hp : ((s.x (fieldReg o.a)).extractLsb' 0 3).toNat = p)
  (hq : ((s.x (fieldReg o.a)).extractLsb' 8 6).toNat = q) (hb : s.x (fieldReg o.b) = b) (hmay : (s.hart h).mayActOn p = true)
  (hfits : s.x (fieldReg o.a) &&& ~~~0x3F07#64 = 0) (hv : (s.part p).queue q = some v)
include hh hp hq hb hmay hfits hv

/-- `qlink` on a queue that has a descriptor: the new segment is checked, then its last slot, then the queue's TAIL. -/
theorem queueLink_described : queueLink o h s =
    if s.vaOf v.cid b % 4096 != 0 || !s.passes v.cid b 4096 (rightR ||| rightW) then sysEnd o 2 s
    else
      let u := s.devTouch (s.deviceAcc v.cid) (b + 4032) 64
      if (u.devRead (u.deviceAcc v.cid) (b + 4032) 64).any (· != 0) then sysEnd o 2 u
      else if v.tail != 62 then sysEnd o 3 u
      else
        let u1 := if v.stall then u else u.setPart p ((u.part p).setQueue q { v with posted := v.posted ++ [⟨0, none, true⟩] })
        sysEnd o 0 (u1.linkSegment p q b) := by
  have hok : keyArgsOk (s.x (fieldReg o.a)) = true := beq_iff_eq.mpr hfits
  unfold queueLink keyArgs
  simp only [hp, hq, hb, hv]
  rw [hubOnly_hub hh, if_neg (by simp [hmay]), if_neg (by simp [hok])]

theorem queueLink_unfit (hbad : s.vaOf v.cid b % 4096 ≠ 0 ∨ s.passes v.cid b 4096 (rightR ||| rightW) = false) :
    queueLink o h s = sysEnd o 2 s := by
  rw [queueLink_described hh hp hq hb hmay hfits hv, if_pos (by simpa using hbad)]

section
variable (hal : s.vaOf v.cid b % 4096 = 0) (hpass : s.passes v.cid b 4096 (rightR ||| rightW) = true) {u : State}
  (hu : s.devTouch (s.deviceAcc v.cid) (b + 4032) 64 = u)
include hal hpass hu

theorem queueLink_used (hused : ((u.devRead (u.deviceAcc v.cid) (b + 4032) 64).any (· != 0)) = true) :
    queueLink o h s = sysEnd o 2 u := by
  rw [queueLink_described hh hp hq hb hmay hfits hv, if_neg (by simp [hal, hpass]), hu]
  exact if_pos hused

variable (hfree : ((u.devRead (u.deviceAcc v.cid) (b + 4032) 64).any (· != 0)) = false)
include hfree

theorem queueLink_early (ht : v.tail ≠ 62) : queueLink o h s = sysEnd o 3 u := by
  rw [queueLink_described hh hp hq hb hmay hfits hv, if_neg (by simp [hal, hpass]), hu]
  exact (if_neg (Bool.eq_false_iff.mp hfree)).trans (if_pos (by simpa using ht))

theorem queueLink_links (ht : v.tail = 62) :
    queueLink o h s = sysEnd o 0 ((if v.stall then u
      else u.setPart p ((u.part p).setQueue q { v with posted := v.posted ++ [⟨0, none, true⟩] })).linkSegment p q b) := by
  rw [queueLink_described hh hp hq hb hmay hfits hv, if_neg (by simp [hal, hpass]), hu]
  exact (if_neg (Bool.eq_false_iff.mp hfree)).trans (if_neg (by simp [ht]))

end
end

/-! ### Records, stamps and time (23 R391, R393, R394) -/

theorem recordPost_posts {cid b : Nat} (hh : h.val < 8) (ha : (s.x (fieldReg o.a)).toNat = cid) (hb : (s.x (fieldReg o.b)).toNat = b)
    (hmay : (s.hart h).mayActOn (partOf cid) = true) (hcid : cid < 4096) (hat : s.blockAt b = true) (hown : s.physNat (b + 4) 2 = cid)
    (hc : s.ctx? cid ≠ none) : recordPost o h s =
      let x := s.post cid o.fmt.toNat (s.fwRead b 64)
      sysEnd o (if x.2 then 0 else 5) x.1 := by
  unfold recordPost
  dsimp only
  rw [hubOnly_hub hh, ha, hb, if_neg (by simp [hmay])]
  exact if_neg (by simpa [hcid, hat, hown] using hc)

/-- The pool of a die is set by the hub, or by the die's own controller. -/
theorem stampSetPool_sets {die n : Nat} (ha : (s.x (fieldReg o.a)).toNat = die) (hb : (s.x (fieldReg o.b)).toNat = n) (hd : die < 8)
    (hn : n ≤ 1360) (hmay : (s.hart h).mayActOn ((s.sliceOwner die).getD 8) = true) (hh : h.val < 8 ∨ h.val = 8 + die) :
    stampSetPool o h s = sysEnd o 0 (s.setDie die { s.die die with stampSet := n, pool := min n (s.die die).cap }) := by
  have hdie : dieOfHart h = none ∨ dieOfHart h = some die :=
    hh.imp (fun hhub => if_neg (Nat.not_le.mpr hhub)) fun hctl => (if_pos (by omega)).trans (congrArg some (by omega))
  unfold stampSetPool
  dsimp only
  obtain hdie | hdie := hdie <;>
    · rw [ha, hb, hdie, if_neg (Nat.not_le.mpr hd), if_neg (by simp [hmay]), if_neg (Nat.not_lt.mpr hn)]
      rfl

section
variable (hh : h.val < 8)
include hh

theorem timeSet_locked (hl : s.hub.timeLocked = true ∨ (s.hub.domain = true ∧ s.hub.tmaster = false)) : timeSet o h s = sysEnd o 3 s := by
  rw [timeSet, hubOnly_hub hh, if_pos (by simpa using hl)]

theorem timeSet_loads (hl : s.hub.timeLocked = false) (hd : s.hub.domain = false ∨ s.hub.tmaster = true) :
    timeSet o h s = sysEnd o 0 { s with hub := { s.hub with time := (s.x (fieldReg o.a)).toNat } } := by
  rw [timeSet, hubOnly_hub hh, if_neg (by simpa [hl, or_iff_not_imp_left] using hd)]

theorem timeAdjust_badArg (hr : (s.x (fieldReg o.a)).toInt < -4194304 ∨ 4194304 < (s.x (fieldReg o.a)).toInt) :
    timeAdjust o h s = sysEnd o 2 s := by
  rw [timeAdjust, hubOnly_hub hh, if_pos (by simpa using hr)]

section
variable (hlow : -4194304 ≤ (s.x (fieldReg o.a)).toInt) (hhigh : (s.x (fieldReg o.a)).toInt ≤ 4194304)
include hlow hhigh

theorem timeAdjust_follower (hd : s.hub.domain = true) (hm : s.hub.tmaster = false) : timeAdjust o h s = sysEnd o 3 s := by
  rw [timeAdjust, hubOnly_hub hh, if_neg (by simpa using ⟨hlow, hhigh⟩), if_pos (by simp [hd, hm])]

theorem timeAdjust_sets (hd : s.hub.domain = false ∨ s.hub.tmaster = true) :
    timeAdjust o h s = sysEnd o 0 { s with hub := { s.hub with rate := (s.x (fieldReg o.a)).toInt } } := by
  rw [timeAdjust, hubOnly_hub hh, if_neg (by simpa using ⟨hlow, hhigh⟩), if_neg (by simpa [or_iff_not_imp_left] using hd)]

end
end

end Sys2Proof.Machine
end

section
/-! Class 15 of the hub (23 R388-R394, 19 R334, 20 R339, 21 R358-R362, 22 R368, 24 R406, 25 R409). -/

namespace Sys2Proof.Machine

/-- An instruction marked "hub" (23 R383). -/
def OnHub (i : Instr) (o : LF) (sh : Shape) : Prop := ∀ s h, s.issuesSys h o sh → ∃ e, exec i s = (hubOnly o h s e).finish 8

theorem onHub {o : LF} : ∀ i ∈ ([(.tlbir o, shapeTlbir o), (.ksload o, shapeKsload o), (.ksloadNew o, shapeKsloadNew o),
    (.ksclr o, shapeKsclr o), (.ksclrAll o, shapeKsclrAll o), (.slmap o, shapeSlmap o), (.slend o, shapeSlend o), (.slrcl o, shapeSlrcl o),
    (.qlink o, shapeQlink o), (.errpost o, shapeErrpost o), (.tset o, shapeTset o), (.tadj o, shapeTadj o)] : List (Instr × Shape)),
    OnHub i.1 o i.2 := by
  simp only [List.forall_mem_cons]
  exact ⟨fun _ _ hi => ⟨_, issueSys_ok hi⟩, fun _ _ hi => ⟨_, issueSys_ok hi⟩, fun _ _ hi => ⟨_, issueSys_ok hi⟩,
    fun _ _ hi => ⟨_, issueSys_ok hi⟩, fun _ _ hi => ⟨_, issueSys_ok hi⟩, fun _ _ hi => ⟨_, issueSys_ok hi⟩, fun _ _ hi => ⟨_, issueSys_ok hi⟩,
    fun _ _ hi => ⟨_, issueSys_ok hi⟩, fun _ _ hi => ⟨_, issueSys_ok hi⟩, fun _ _ hi => ⟨_, issueSys_ok hi⟩, fun _ _ hi => ⟨_, issueSys_ok hi⟩,
    fun _ _ hi => ⟨_, issueSys_ok hi⟩, List.forall_mem_nil _⟩

/-- Settles O53: each clause is the lemma of its instruction. -/
theorem hubInstructions : Obligations.HubInstructions := by
  unfold Obligations.HubInstructions
  intro o h s a b status waits p n k g may fits die
  refine ⟨?dieController, ?settled, fun hh => ⟨fun hmay hfits => ⟨?new, fun hk => ⟨?load, ?full, ?clear, ?clearAll⟩⟩, ?invalidate, ?map, ?lend,
    ?recallDie, ?link, ?post, ?set, ?adjust⟩, ?stamps⟩
  case dieController =>
    intro i hmem hd hi
    obtain ⟨e, hx⟩ := onHub i hmem s h hi
    exact exec_ends hx (hubOnly_die hd e)
  case settled =>
    intro i sh code hmem hf hm hfields hw
    obtain ⟨body, hx⟩ : ∃ body, exec i s = issueSys i o sh body s := by
      simp only [List.mem_cons, Prod.mk.injEq, List.not_mem_nil, or_false] at hmem
      obtain ⟨rfl, rfl⟩ | ⟨rfl, rfl⟩ := hmem <;> exact ⟨_, rfl⟩
    exact hx.trans (issueSys_settled hf hm hfields hw)
  case new => exact fun hi hb ht hfree => exec_ends (issueSys_ok hi) (keyLoadNew_assigns hh rfl rfl rfl hmay hfits hb ht hfree)
  case load => exact fun hi ht hroom => exec_ends (issueSys_ok hi) (keyLoad_loads hh rfl rfl rfl hmay hfits hk ht hroom)
  case full => exact fun hi h0 h1 => exec_ends (issueSys_ok hi) (keyLoad_full hh rfl rfl rfl hmay hfits hk h0 h1)
  case clear =>
    exact fun hi => ⟨fun hb h0 => exec_ends (issueSys_ok hi) (keyClear_low hh rfl rfl rfl hmay hfits hk hb h0),
      fun hb h1 => exec_ends (issueSys_ok hi) (keyClear_high hh rfl rfl rfl hmay hfits hk hb h1)⟩
  case clearAll => exact fun hi => exec_ends (issueSys_ok hi) (keyClearAll_clears hh rfl rfl rfl hmay hfits hk)
  case invalidate =>
    intro hi cid len hmay hva hlen h0 hin
    exact exec_waits (issueSys_ok hi) (tlbInvalidate_accepted hh rfl rfl rfl hmay hva hlen h0 hin)
  case map =>
    exact fun c new hi hmay hcid hat hc hnew => ⟨fun hbusy => exec_ends (issueSys_ok hi) (sliceMap_busy hh rfl rfl hmay hcid hat hc hnew hbusy),
      fun hbusy => exec_ends (issueSys_ok hi) (sliceMap_binds hh rfl rfl hmay hcid hat hc hnew hbusy)⟩
  case lend =>
    intro q hi hat f ho hmay h8 hne hanchor hauto hlow hhigh hres hl hs hidle
    exact exec_ends (issueSys_ok hi) (sliceLend_lends (r := s.loanBlock die) hh rfl hat rfl ho hmay ⟨h8, hne, hanchor, hauto, hlow, hhigh, hres⟩
      hl hs hidle)
  case recallDie =>
    exact fun hi hd hmay => ⟨fun hl => exec_ends (issueSys_ok hi) (sliceRecall_unlent hh rfl hd hmay hl),
      fun hl => exec_waits (issueSys_ok hi) (sliceRecall_recalls hh rfl hd hmay hl)⟩
  case link =>
    intro v hi hmay hfits hv u used s1
    exact ⟨fun hbad => exec_ends (issueSys_ok hi) (queueLink_unfit hh rfl rfl rfl hmay hfits hv hbad), fun hal hpass =>
      ⟨fun hused => exec_ends (issueSys_ok hi) (queueLink_used hh rfl rfl rfl hmay hfits hv hal hpass rfl hused),
        fun hfree ht => exec_ends (issueSys_ok hi) (queueLink_early hh rfl rfl rfl hmay hfits hv hal hpass rfl hfree ht),
        fun hfree ht => exec_ends (issueSys_ok hi) (queueLink_links hh rfl rfl rfl hmay hfits hv hal hpass rfl hfree ht)⟩⟩
  case post =>
    exact fun hi hmay hcid hat hown hc => exec_ends (issueSys_ok hi) (recordPost_posts hh rfl rfl hmay hcid hat hown hc)
  case set =>
    exact fun hi => ⟨fun hl => exec_ends (issueSys_ok hi) (timeSet_locked hh hl), fun hl hd => exec_ends (issueSys_ok hi) (timeSet_loads hh hl hd)⟩
  case adjust =>
    exact fun hi => ⟨fun hr => exec_ends (issueSys_ok hi) (timeAdjust_badArg hh hr),
      fun hlow hhigh hd hm => exec_ends (issueSys_ok hi) (timeAdjust_follower hh hlow hhigh hd hm),
      fun hlow hhigh hd => exec_ends (issueSys_ok hi) (timeAdjust_sets hh hlow hhigh hd)⟩
  case stamps => exact fun hi hd hn hmay hh => exec_ends (issueSys_ok hi) (stampSetPool_sets rfl rfl hd hn hmay hh)

end Sys2Proof.Machine
end

section
/-! What the memory system does on its own, with what it reports, moves only the memory, the memory dies, the partitions, the links, the
translations and the hub: a property of a state that none of these touches stands (18 R310, R316-R318, 19 R327-R333, 22 R371-R375). -/

namespace Sys2Proof.Machine

/-- A property of states that looks at nothing the memory system moves. -/
structure Unmoved (R : State → Prop) : Prop where
  memory {s u : State} : R s → s.memoryOnly u → R u
  parts {s : State} (ps : Vector Part 8) : R s → R { s with parts := ps }
  mdies {s : State} (ms : Vector Stack 16) : R s → R { s with mdies := ms }
  txns {s : State} (ts : List Txn) : R s → R { s with txns := ts }
  tlbs {s : State} (ts : List Tlb) : R s → R { s with tlbs := ts }
  hub {s : State} (b : Hub) : R s → R { s with hub := b }

namespace Unmoved

variable {R : State → Prop} (k : Unmoved R) {s u : State}

/-! ### Folds -/

theorem foldl_fst {α β : Type} {f : State × β → α → State × β} {x : State × β} {as : List α} (h : R x.1)
    (hf : ∀ u a, R u.1 → R (f u a).1) : R (as.foldl f x).1 :=
  List.foldlRecOn (motive := fun x : State × β => R x.1) as f h fun u hu a _ => hf u a hu

theorem foldl {α : Type} {f : State → α → State} {as : List α} (h : R s) (hf : ∀ u a, R u → R (f u a)) : R (as.foldl f s) :=
  List.foldlRecOn as f h fun u hu a _ => hf u a hu

theorem ite {c : Prop} {_ : Decidable c} (h : R s) (h' : R u) : R (if c then s else u) := by
  split <;> assumption

theorem ite_fst {α : Type} {c : Prop} {_ : Decidable c} {x y : State × α} (h : R x.1) (h' : R y.1) : R (if c then x else y).1 := by
  split <;> assumption

theorem ok {α : Type} {x : Except Miss (State × α)} {a : α} (h : R (stateAfter x)) (e : x = .ok (u, a)) : R u := by rwa [e] at h

theorem error {α : Type} {x : Except Miss (State × α)} {m : Miss} (h : R (stateAfter x)) (e : x = .error m) : R m.state := by rwa [e] at h

include k

/-! ### Homes and links -/

theorem setPart (h : R s) (p : Nat) (v : Part) : R (s.setPart p v) := by
  unfold State.setPart
  split
  · exact k.parts _ h
  · exact h

theorem setMdie (h : R s) (n : Nat) (d : Stack) : R (s.setMdie n d) := by
  unfold State.setMdie
  split
  · exact k.mdies _ h
  · exact h

theorem notify (h : R s) (p q cid : Nat) : R (s.notify p q cid) := by
  unfold State.notify
  dsimp only
  split <;> exact k.setPart h ..

theorem lineOut (h : R s) (cid slot : Nat) (nb : Bool) (b : Word) (pa : Nat) (data : BitVec 512) (mask : BitVec 64) :
    R (s.lineOut cid slot nb b pa data mask).1 := k.memory h (s.homeWrite_only ..)

theorem serve (h : R s) (t : Txn) : R (s.serve t).state := by
  unfold State.serve
  split
  · exact h
  · exact k.lineOut h (b := t.bref) ..
  · unfold State.atomicAt
    dsimp only
    split
    · exact h
    · split
      · exact h
      · exact k.lineOut h (b := t.bref) ..
  all_goals exact h

/-- The answer of what was served is on its way. -/
theorem sent {x : Served} (h : R x.state) (t : Txn) : R (x.sent t) := by
  unfold Served.sent
  split
  · exact k.txns _ h
  · exact h

theorem unlockOut (h : R s) (pa : Nat) : R (s.unlockOut pa).1 := by
  unfold State.unlockOut
  dsimp only
  split
  · exact foldl_fst (k.memory h (s.setBlock_only ..)) fun _ t hu => k.sent (k.serve hu t) t
  · exact h

theorem burstTaken (h : R s) (part src dst : Nat) : R (s.burstTaken part src dst) := by
  unfold State.burstTaken
  exact ite (k.setPart h ..) (k.hub _ h)

theorem carried (h : R s) (t : Txn) : R (s.carried t) := by
  unfold State.carried
  split
  · exact h
  · exact k.burstTaken h ..

theorem arriveOut (h : R s) (p : Txn → Bool) : R (s.arriveOut p).1 := by
  unfold State.arriveOut
  refine foldl_fst (k.txns _ h) fun _ t hu => ?_
  split
  · exact k.lineOut (k.carried (k.unlockOut hu _) t) (b := t.bref) ..
  · exact hu

theorem settleOut (h : R s) (pa : Nat) : R (s.settleOut pa).1 := k.unlockOut (k.arriveOut (k.unlockOut h _) _) _

/-! ### Translation -/

theorem takeFrame (h : R s) {stack part size f : Nat} (e : s.takeFrame stack part size = some (f, u)) : R u := by
  unfold State.takeFrame at e
  dsimp only at e
  split at e
  · cases e
    exact ite (k.notify (k.setMdie h ..) ..) (k.setMdie h ..)
  · cases e

theorem setPte (h : R s) (a v : Nat) : R (s.setPte a v) := k.memory h (s.fwWrite_only a _)

theorem markDead (h : R s) (pa : Nat) : R (s.markDead pa) := k.memory h ⟨_, _, s.nodes, _, s.harts, rfl⟩

theorem backPage (h : R s) {a : Acc} {d : Desc} {va entry size : Nat} (e : s.backPage a d va entry size = some u) : R u := by
  unfold State.backPage at e
  dsimp only at e
  split at e
  · cases e
  · split at e
    · cases e
    · split at e
      · cases e
      next ef =>
        cases e
        split
        · exact foldl (foldl (k.setPte (k.takeFrame h ef) ..) fun _ _ hu => k.markDead hu _) fun _ _ hu => k.setPte hu ..
        · exact k.setPte (foldl (k.setPte (k.takeFrame h ef) ..) fun _ _ hu => k.markDead hu _) ..

theorem install (h : R s) (a : Acc) (p : Page) (d : Bool) : R (s.install a p d) := by
  unfold State.install
  split
  · exact h
  · exact k.tlbs _ h

theorem useLeaf (h : R s) (a : Acc) (va e size frame : Nat) (write : Bool) : R (stateAfter (s.useLeaf a va e size frame write)) := by
  unfold State.useLeaf
  dsimp only
  split
  · exact h
  · exact k.install (ite h (k.setPte h ..)) ..

theorem walkPage (h : R s) (a : Acc) (d : Desc) (va : Nat) (write : Bool) : R (stateAfter (s.walkPage a d va write)) := by
  unfold State.walkPage
  split
  · exact h
  · split
    · exact h
    · exact h
    · exact h
    · exact k.useLeaf h ..
    · split
      · exact h
      next e =>
        split
        · exact k.useLeaf (k.backPage h e) ..
        · exact k.backPage h e

theorem translate (h : R s) (a : Acc) (d : Desc) (va : Nat) (write : Bool) : R (stateAfter (s.translate a d va write)) := by
  unfold State.translate
  dsimp only
  split
  · split <;> exact h
  · exact k.walkPage h ..

theorem translatePages (h : R s) (a : Acc) (b : Word) (n : Nat) (write : Bool) : R (stateAfter (s.translatePages a b n write)) := by
  unfold State.translatePages State.translateUnder
  refine List.foldlRecOn (motive := fun x => R (stateAfter x)) _ _ h fun x hx _ _ => ?_
  split
  · exact hx
  next v _ =>
    have hv : R v := hx
    split
    next e => exact (error (k.translate hv ..) e :)
    next e => exact (ok (k.translate hv ..) e :)

/-! ### The device's own accesses, and what it reports -/

theorem devPut (h : R s) (a : Acc) (b : Word) (bs : List Byte) : R (s.devPut a b bs).1 := by
  unfold State.devPut
  split
  · exact h
  · refine foldl_fst h fun _ _ hu => ?_
    split
    next e => exact error (k.translate hu ..) e
    next e => exact k.lineOut (k.settleOut (ok (k.translate hu ..) e) _) (b := b) ..

theorem touchOut (h : R s) (a : Acc) (b : Word) (n : Nat) : R (s.touchOut a b n).1 := by
  unfold State.touchOut
  split
  · exact h
  · split
    next e => exact error (k.translatePages h ..) e
    next e =>
      refine foldl_fst (ok (k.translatePages h ..) e) fun _ _ hu => ?_
      split
      · exact k.settleOut hu _
      · exact hu

theorem postCore (h : R s) (cid q : Nat) (bs : List Byte) : R (s.postCore cid q bs).1 := by
  unfold State.postCore
  split
  · exact h
  · exact ite_fst (k.notify (k.devPut (k.devPut (k.touchOut h ..) ..) ..) ..) (k.devPut (k.touchOut h ..) ..)

theorem postReport (h : R s) (r : Report) : R (s.postReport r).1 := by
  unfold State.postReport
  exact k.postCore (ite (k.setMdie h ..) h) ..

theorem reportAll (h : R s) (fuel : Nat) (rs : List Report) : R (State.reportAll fuel s rs) := by
  induction fuel generalizing s rs with
  | zero => exact h
  | succ fuel ih =>
    unfold State.reportAll
    split
    · exact h
    · exact ih (k.postReport h _) _

theorem reportErrors (h : R s) (rs : List Report) : R (s.reportErrors rs) := by
  unfold State.reportErrors
  split
  · exact h
  · exact k.reportAll h ..

theorem unlock (h : R s) (pa : Nat) : R (s.unlock pa) := k.reportErrors (k.unlockOut h pa) _

/-- Writes in flight, and what locks hold, performed before something that waits for them (22 R368). -/
theorem settleWhere (h : R s) (p : Txn → Bool) : R (s.settleWhere p) :=
  foldl (k.reportErrors (k.arriveOut (foldl h fun _ _ hu => k.unlock hu _) _) _) fun _ _ hu => k.unlock hu _

end Unmoved

/-- The key slots are none of what the memory system moves. -/
theorem unmoved_keySlots (s : State) : Unmoved fun u => u.keySlots = s.keySlots where
  memory h := fun ⟨_, _, _, _, _, e⟩ => e ▸ h
  parts _ h := h
  mdies _ h := h
  txns _ h := h
  tlbs _ h := h
  hub _ h := h

theorem State.settleSlot_keySlots (s : State) (n : Nat) : (s.settleSlot n).keySlots = s.keySlots :=
  (unmoved_keySlots s).settleWhere rfl _

theorem State.settleSlot_keySlot (s : State) (n k : Nat) : (s.settleSlot n).keySlot k = s.keySlot k := by
  simp only [State.keySlot, s.settleSlot_keySlots]

end Sys2Proof.Machine
end

section
/-! The key slots and the tenant record that a partition's zeroisation clears (22 R366-R368, R376). -/

namespace Sys2Proof.Machine

theorem State.keySlot_setKeySlot (s : State) {n : Nat} (hn : n < 64) (k : KeySlot) : (s.setKeySlot n k).keySlot n = k := by
  simp [State.keySlot, State.setKeySlot, hn, List.getD]

theorem State.keySlot_setKeySlot_ne (s : State) {n m : Nat} (h : m ≠ n) (k : KeySlot) : (s.setKeySlot n k).keySlot m = s.keySlot m := by
  unfold State.setKeySlot
  split
  · simp [State.keySlot, List.getD, Ne.symm h]
  · rfl

/-- One slot of a partition's cleared: what `clearSlots` does for each. -/
def State.clearSlot (part : Nat) (s : State) (n : Nat) : State :=
  if (s.keySlot n).part = part then (s.settleSlot n).setKeySlot n ⟨8, none, none, false⟩ else s

theorem State.clearSlots_eq (s : State) (part : Nat) : s.clearSlots part = (List.range 64).foldl (State.clearSlot part) s := rfl

variable {part : Nat}

/-- A slot that is not the partition's stays so. -/
theorem State.clearSlot_keeps {s : State} {k : Nat} (h : (s.keySlot k).part ≠ part) (n : Nat) :
    ((s.clearSlot part n).keySlot k).part ≠ part := by
  unfold State.clearSlot
  split
  next hs =>
    have hk : k ≠ n := fun e => h (e ▸ hs)
    rwa [State.keySlot_setKeySlot_ne _ hk, State.settleSlot_keySlot]
  · exact h

/-- The slot that is cleared is no longer the partition's. -/
theorem State.clearSlot_clears (hp : part < 8) (s : State) {n : Nat} (hn : n < 64) : ((s.clearSlot part n).keySlot n).part ≠ part := by
  unfold State.clearSlot
  split
  · rw [State.keySlot_setKeySlot _ hn]
    exact Nat.ne_of_gt hp
  next h => exact h

theorem State.clearSlot_foldl_keeps {k : Nat} (ns : List Nat) {s : State} (h : (s.keySlot k).part ≠ part) :
    ((ns.foldl (State.clearSlot part) s).keySlot k).part ≠ part :=
  List.foldlRecOn (motive := fun u : State => (u.keySlot k).part ≠ part) ns _ h fun _ hu n _ => State.clearSlot_keeps hu n

theorem State.clearSlot_foldl_clears (hp : part < 8) {k : Nat} (hk : k < 64) {ns : List Nat} (hmem : k ∈ ns) (s : State) :
    ((ns.foldl (State.clearSlot part) s).keySlot k).part ≠ part := by
  obtain ⟨before, after, rfl⟩ := List.append_of_mem hmem
  rw [List.foldl_append, List.foldl_cons]
  exact State.clearSlot_foldl_keeps after (State.clearSlot_clears hp _ hk)

theorem State.clearSlots_part (hp : part < 8) (s : State) : ∀ n < 64, ((s.clearSlots part).keySlot n).part ≠ part := fun n hn => by
  rw [s.clearSlots_eq]
  exact State.clearSlot_foldl_clears hp hn (List.mem_range.mpr hn) s

@[simp] theorem State.setPart_keySlot (s : State) (p : Nat) (v : Part) (n : Nat) : (s.setPart p v).keySlot n = s.keySlot n := by
  simp [State.keySlot]

theorem State.zeroise_keySlots (s : State) (part : Nat) : (s.zeroise part).keySlots = (s.clearSlots part).keySlots := by
  simp [State.zeroise]

/-- No slot is the partition's after its zeroisation. -/
theorem State.zeroise_keySlot (hp : part < 8) (s : State) : ∀ n < 64, ((s.zeroise part).keySlot n).part ≠ part := by
  simpa only [State.keySlot, s.zeroise_keySlots] using s.clearSlots_part hp

/-- A zeroised partition holds no tenant record. -/
theorem State.zeroise_tenant (hp : part < 8) (s : State) : ((s.zeroise part).part part).tenant = none := by
  unfold State.zeroise
  rw [State.part_setPart _ hp]
  rfl

end Sys2Proof.Machine
end

section
/-! TDISP requests, by the state of the partition's interface (22 R377). -/

namespace Sys2Proof.Machine

variable {s : State}

theorem Tdi.code_word (t : Tdi) : BitVec.ofNat 64 t.code =
    if t = .unlocked then 0 else if t = .locked then 1 else if t = .run then 2 else 3 := by
  cases t <;> rfl

/-- A TDI is held where it is CONFIG_LOCKED or RUN. -/
theorem Tdi.held_eq (t : Tdi) : t.held = (t == .locked || t == .run) := by
  cases t <;> rfl

theorem evLockInterfaceRequest_unlocked (hp : s.arg 0 < 8) (ht : (s.part (s.arg 0)).tdi = .unlocked) : evLockInterfaceRequest s =
    s.setPart (s.arg 0) { s.part (s.arg 0) with tdi := .locked, block6 := some (s.block6Now (s.arg 0)) } := by
  simp [evLockInterfaceRequest, hp, ht]

theorem evLockInterfaceRequest_else (h : 8 ≤ s.arg 0 ∨ (s.part (s.arg 0)).tdi ≠ .unlocked) : evLockInterfaceRequest s = s := by
  refine if_neg ?_
  rcases h with hp | ht
  · simp [Nat.not_lt.mpr hp]
  · simp [ht]

theorem evStartInterfaceRequest_locked (hp : s.arg 0 < 8) (ht : (s.part (s.arg 0)).tdi = .locked) : evStartInterfaceRequest s =
    s.setPart (s.arg 0) { s.part (s.arg 0) with tdi := .run, ideUp := (s.part (s.arg 0)).ideKeys } := by
  simp [evStartInterfaceRequest, hp, ht]

theorem evStartInterfaceRequest_else (h : 8 ≤ s.arg 0 ∨ (s.part (s.arg 0)).tdi ≠ .locked) : evStartInterfaceRequest s = s := by
  refine if_neg ?_
  rcases h with hp | ht
  · simp [Nat.not_lt.mpr hp]
  · simp [ht]

theorem evStopInterfaceRequest_held (hp : s.arg 0 < 8) (ht : (s.part (s.arg 0)).tdi = .locked ∨ (s.part (s.arg 0)).tdi = .run) :
    evStopInterfaceRequest s = (s.zeroise (s.arg 0)).setPart (s.arg 0)
      { (s.zeroise (s.arg 0)).part (s.arg 0) with tdi := .unlocked, block6 := none, ideKeys := false, ideUp := false } := by
  simp [evStopInterfaceRequest, hp, Tdi.held_of_locked ht]

theorem evStopInterfaceRequest_error (hp : s.arg 0 < 8) (ht : (s.part (s.arg 0)).tdi = .error) :
    evStopInterfaceRequest s = s.setPart (s.arg 0) { s.part (s.arg 0) with tdi := .unlocked } := by
  simp [evStopInterfaceRequest, hp, ht, Tdi.held]

theorem evStopInterfaceRequest_else (h : 8 ≤ s.arg 0 ∨ (s.part (s.arg 0)).tdi = .unlocked) : evStopInterfaceRequest s = s := by
  rcases h with hp | ht
  · simp [evStopInterfaceRequest, Nat.not_lt.mpr hp]
  · simp [evStopInterfaceRequest, ht, Tdi.held]

theorem State.tdiError_held {part : Nat} (hp : part < 8) (ht : (s.part part).tdi = .locked ∨ (s.part part).tdi = .run) :
    s.tdiError part = (s.zeroise part).setPart part
      { (s.zeroise part).part part with tdi := .error, block6 := none, ideKeys := false, ideUp := false } := by
  simp [State.tdiError, hp, Tdi.held_of_locked ht]

theorem State.tdiError_open {part : Nat} (ht : (s.part part).tdi = .unlocked ∨ (s.part part).tdi = .error) : s.tdiError part = s := by
  simp [State.tdiError, Tdi.held_of_open ht]

/-- A held TDI in ERROR: its tenant record and its slots are gone. -/
theorem State.tdiError_zeroised {part : Nat} (hp : part < 8) (ht : (s.part part).tdi = .locked ∨ (s.part part).tdi = .run) :
    ((s.tdiError part).part part).tdi = .error ∧ ((s.tdiError part).part part).tenant = none ∧
      ∀ n < 64, ((s.tdiError part).keySlot n).part ≠ part := by
  rw [State.tdiError_held hp ht, State.part_setPart _ hp]
  refine ⟨rfl, s.zeroise_tenant hp, fun n hn => ?_⟩
  rw [State.setPart_keySlot]
  exact s.zeroise_keySlot hp n hn

theorem evIdeStreamFailure_mgmt (hp : s.arg 0 = 8) : evIdeStreamFailure s = { s with hub := { s.hub with mgmtIde := false } } := if_pos hp

theorem evIdeStreamFailure_tdi (hp : s.arg 0 ≠ 8) : evIdeStreamFailure s = (s.tdiError (s.arg 0)).setPart (s.arg 0)
    { (s.tdiError (s.arg 0)).part (s.arg 0) with ideKeys := false, ideUp := false } := if_neg hp

theorem evIdeKm_tdi (hs : (s.spdm (s.arg 0)).session = true) (hp : s.arg 0 < 8) : evIdeKm s =
    s.setPart (s.arg 0) { s.part (s.arg 0) with ideKeys := true, ideUp := (s.part (s.arg 0)).tdi == .run } := by
  simp [evIdeKm, hs, hp]

theorem evIdeKm_mgmt (hs : (s.spdm (s.arg 0)).session = true) (hp : s.arg 0 = 8) :
    evIdeKm s = { s with hub := { s.hub with mgmtIde := true } } := by
  rw [hp] at hs
  simp [evIdeKm, hs, hp]

theorem evIdeKm_noSession (hs : (s.spdm (s.arg 0)).session = false) : evIdeKm s = s := by
  simp [evIdeKm, hs]

/-- A record installed with its generation numbers, and path keys counted anew. -/
theorem State.installRecord_eq (s : State) (part : Nat) (t : Tenant) (g : BitVec 32) : s.installRecord part t g = s.setPart part
    { s.part part with tenant := some t, genno := g, pathEpoch := (s.part part).pathEpoch + 1, bursts := [] } := rfl

theorem evTenantSet_installed (hp : s.arg 0 < 8) (ht : (s.part (s.arg 0)).tdi = .locked) (hs : (s.spdm (s.arg 0)).session = true)
    (hn : (s.args.drop 3).length ≤ 16) : evTenantSet s = s.installRecord (s.arg 0)
      ⟨BitVec.ofNat 256 (s.arg 1), BitVec.ofNat 64 (s.arg 2), (s.args.drop 3).map fun n => BitVec.ofNat 512 n, []⟩ 1 :=
  if_pos (by simp only [hp, ht, hs, hn]; decide)

theorem evTenantSet_else (h : (s.part (s.arg 0)).tdi ≠ .locked ∨ (s.spdm (s.arg 0)).session = false ∨ 16 < (s.args.drop 3).length) :
    evTenantSet s = s := by
  refine if_neg ?_
  simp only [Bool.and_eq_true, decide_eq_true_eq, beq_iff_eq]
  rintro ⟨⟨⟨-, ht⟩, hs⟩, hn⟩
  rcases h with h | h | h
  · exact h ht
  · simp [hs] at h
  · omega

end Sys2Proof.Machine
end

section
/-! SPDM requests in their turn, and the messages of the peer handshake (22 R378-R380, 24 R404). -/

namespace Sys2Proof.Machine

variable {s : State}

/-! ### SPDM (22 R378) -/

/-- A request in its turn moves the connection and is answered. -/
theorem State.spdmMove_passes {port : Nat} (hp : port < 9) {ok : Spdm → Bool} (hok : ok (s.spdm port) = true) (f : Spdm → Spdm)
    (response : List Word) : s.spdmMove port ok f response = { s.setSpdm port (f (s.spdm port)) with reply := response } :=
  if_pos (by rw [hok, Bool.and_true, decide_eq_true hp])

/-- A request in its turn whose answer is the root of trust's own. -/
theorem State.spdmStep_passes {port : Nat} (hp : port < 9) {ok : Spdm → Bool} (hok : ok (s.spdm port) = true) (request nonce : Nat)
    (f : Spdm → Spdm) : s.spdmStep request port nonce ok f =
      { s.setSpdm port (f (s.spdm port)) with reply := responseWords (Config.attestation request port nonce) } :=
  State.spdmMove_passes hp hok f _

/-! ### The handshake's ends (22 R380) -/

variable {part peer : Nat}

@[simp] theorem State.setPart_setPart (s : State) (p : Nat) (v w : Part) : (s.setPart p v).setPart p w = s.setPart p w := by
  unfold State.setPart
  split
  · simp
  · rfl

/-- A handshake that stands, its role and phase those given, and its message within 10 ms. -/
theorem State.joinAt_eq {j : Join} (hj : (s.part part).join = some j) (peer : Nat) (initiator : Bool) (phase : Nat) :
    s.joinAt part peer initiator phase =
      (j.peer == peer && j.initiator == initiator && j.phase == phase && s.hub.time ≤ j.since + 160000000) := by
  unfold State.joinAt
  rw [hj]
  rfl

theorem Tenant.mem_admits (t : Tenant) (d : BitVec 512) : d ∈ (t.admits d).admitted := by
  unfold Tenant.admits
  split
  next h => exact List.contains_iff_mem.mp h
  · exact List.mem_append_right _ (List.mem_singleton_self d)

/-- What a completed handshake leaves its partition with where the record is installed anew. -/
theorem State.installRecord_joined (hp : part < 8) (t : Tenant) (g : BitVec 32) (mine theirs : List Byte) :
    (s.installRecord part t g).joined part peer t mine theirs =
      (s.setPart part { s.part part with tenant := some t, genno := g, pathEpoch := (s.part part).pathEpoch + 1, bursts := [], join := none
        }).loadLinkKeys part peer mine theirs := by
  rw [State.joined, State.installRecord_eq, State.part_setPart _ hp, State.setPart_setPart]

/-! ### JOIN_HELLO, JOIN_REPLY and JOIN_DONE (22 R379, R380) -/

theorem evJoinHello_sends (hp : s.arg 0 < 8) (hpeer : s.isPeer (s.arg 1) = true) (hj : (s.part (s.arg 0)).join = none) (ha : s.arg 2 = 2)
    (ht : (s.part (s.arg 0)).tenant ≠ none) : evJoinHello s = s.sendHello (s.arg 0) (s.arg 1) := by
  simp [evJoinHello, Nat.not_le.mpr hp, hpeer, hj, ha, Option.isSome_iff_ne_none.mpr ht]

theorem evJoinHello_answers (hp : s.arg 0 < 8) (hpeer : s.isPeer (s.arg 1) = true) (hj : (s.part (s.arg 0)).join = none) (ha : s.arg 2 ≠ 2) :
    evJoinHello s = s.answerHello (s.arg 0) (s.arg 1) (s.joinMessage 3) := by
  simp [evJoinHello, Nat.not_le.mpr hp, hpeer, hj, ha]

/-- A partition has one handshake at a time. -/
theorem evJoinHello_stands {j : Join} (hj : (s.part (s.arg 0)).join = some j) : evJoinHello s = s := by
  simp [evJoinHello, hj]

theorem evJoinReply_holder (hp : s.arg 0 < 8) {j : Join} (hj : (s.part (s.arg 0)).join = some j) {t : Tenant}
    (ht : (s.part (s.arg 0)).tenant = some t) : evJoinReply s =
      if s.joinAt (s.arg 0) (s.arg 1) true 1 && s.replyPasses (s.arg 1) t j.hello (s.joinMessage 2) then
        s.sendFinish (s.arg 0) (s.arg 1) t j (s.joinMessage 2)
      else s.joinFails (s.arg 0) := by
  simp [evJoinReply, Nat.not_le.mpr hp, hj, ht]

theorem evJoinReply_noTenant (hp : s.arg 0 < 8) {j : Join} (hj : (s.part (s.arg 0)).join = some j)
    (ht : (s.part (s.arg 0)).tenant = none) : evJoinReply s = s.joinFails (s.arg 0) := by
  simp [evJoinReply, Nat.not_le.mpr hp, hj, ht]

theorem evJoinDone_holder (hp : s.arg 0 < 8) {j : Join} (hj : (s.part (s.arg 0)).join = some j) {t : Tenant}
    (ht : (s.part (s.arg 0)).tenant = some t) : evJoinDone s =
      if s.joinAt (s.arg 0) (s.arg 1) true 2 && s.joinShape 4 (s.arg 1) 32 (s.joinMessage 2)
          && (s.joinMessage 2).drop 16 == joinDoneTag j.secret j.hello j.reply then
        s.joined (s.arg 0) (s.arg 1) (t.admits (joinDigest j.reply)) (joinKeys j.secret j.hello j.reply).2.2.1
          (joinKeys j.secret j.hello j.reply).2.2.2
      else s.joinFails (s.arg 0) := by
  simp [evJoinDone, Nat.not_le.mpr hp, hj, ht]

theorem evJoinDone_noTenant (hp : s.arg 0 < 8) {j : Join} (hj : (s.part (s.arg 0)).join = some j)
    (ht : (s.part (s.arg 0)).tenant = none) : evJoinDone s = s.joinFails (s.arg 0) := by
  simp [evJoinDone, Nat.not_le.mpr hp, hj, ht]

theorem evJoinTimeout_late (hp : s.arg 0 < 8) {j : Join} (hj : (s.part (s.arg 0)).join = some j) (ht : j.since + 160000000 ≤ s.hub.time) :
    evJoinTimeout s = s.joinFails (s.arg 0) := by
  have hlate : s.past j.since 10000 = true := (s.past_iff ..).mpr ht
  simp [evJoinTimeout, hj, hp, hlate]

/-! ### JOIN_FINISH (22 R379, R380) -/

/-- The checks of a JOIN_FINISH before its WRAP is opened. -/
def State.finishPasses (s : State) (peer : Nat) (j : Join) (m : List Byte) : Bool :=
  s.joinShape 3 peer m.length m && 3389 ≤ m.length
    && chainVerifies (Config.peerChain peer) (labelBytes "G7 join I" ++ joinTh2 j.hello j.reply) ((m.drop 16).take 3309)

/-- A responder that holds a record, its initiator admitted, and that answers JOIN_DONE. -/
def State.finishHolds (s : State) (part peer : Nat) (j : Join) (t : Tenant) (g : BitVec 32) : State :=
  { (s.setPart part { s.part part with
      tenant := some t, genno := g, pathEpoch := (s.part part).pathEpoch + 1, bursts := [], join := none }).loadLinkKeys part peer
        (joinKeys j.secret j.hello j.reply).2.2.2 (joinKeys j.secret j.hello j.reply).2.2.1 with
    reply := messageWords (s.joinDone part peer j.secret j.hello j.reply) }

variable {j : Join} {m : List Byte}

theorem State.finishRecord_eq (s : State) (peer : Nat) (j : Join) (m : List Byte) : s.finishRecord peer j m =
    if s.finishPasses peer j m then joinUnwrap (joinKeys j.secret j.hello j.reply).1 m else none := rfl

theorem State.answerFinish_eq (s : State) (hp : part < 8) (peer : Nat) (j : Join) (m : List Byte) : s.answerFinish part peer j m =
    (((s.finishRecord peer j m).bind fun t => s.joinRecord part t (joinDigest j.hello)).map fun r =>
      s.finishHolds part peer j r.1 r.2).getD (s.joinFails part) := by
  unfold State.answerFinish
  split
  next e => rw [e]; rfl
  next e =>
    rw [e]
    exact congrArg (fun u : State => { u with reply := messageWords (s.joinDone part peer j.secret j.hello j.reply) })
      (State.installRecord_joined hp ..)

/-- The record of a responder that holds none yet. -/
theorem State.joinRecord_first (ht : (s.part part).tenant = none) (sent : Tenant) (d : BitVec 512) : s.joinRecord part sent d =
    if (s.part part).tdi.held then some ({ sent with admitted := [d] }, 1) else none := by
  simp only [State.joinRecord, ht]
  cases (s.part part).tdi.held <;> rfl

/-- The record of a responder that holds one of the same tenant, with room for one more admitted. -/
theorem State.joinRecord_again {t : Tenant} (ht : (s.part part).tenant = some t) (sent : Tenant) (d : BitVec 512) : s.joinRecord part sent d =
    if (s.part part).tdi.held && t.id == sent.id && (t.admitted.contains d || t.admitted.length < 64) then
      some ({ t with trk := sent.trk, peers := sent.peers }.admits d, (s.part part).genno)
    else none := by
  simp only [State.joinRecord, ht, bne]
  cases (s.part part).tdi.held
  · rfl
  · simp only [Bool.not_true, Bool.false_eq_true, if_false, Bool.true_and, ← Bool.not_and, Bool.not_eq_true']
    cases t.id == sent.id && (t.admitted.contains d || t.admitted.length < 64) <;> rfl

theorem evJoinFinish_eq (hp : s.arg 0 < 8) (hj : (s.part (s.arg 0)).join = some j) : evJoinFinish s =
    if s.joinAt (s.arg 0) (s.arg 1) false 1 then s.answerFinish (s.arg 0) (s.arg 1) j (s.joinMessage 2) else s.joinFails (s.arg 0) := by
  simp [evJoinFinish, Nat.not_le.mpr hp, hj]

theorem State.answerFinish_noRecord (hp : part < 8) (hw : joinUnwrap (joinKeys j.secret j.hello j.reply).1 m = none) :
    s.answerFinish part peer j m = s.joinFails part := by
  simp [s.answerFinish_eq hp, s.finishRecord_eq, hw]

theorem State.answerFinish_first (hp : part < 8) {r : Tenant} (hw : joinUnwrap (joinKeys j.secret j.hello j.reply).1 m = some r)
    (ht : (s.part part).tenant = none) : s.answerFinish part peer j m =
      if s.finishPasses peer j m && (s.part part).tdi.held then s.finishHolds part peer j { r with admitted := [joinDigest j.hello] } 1
      else s.joinFails part := by
  rw [s.answerFinish_eq hp, s.finishRecord_eq, hw]
  cases s.finishPasses peer j m
  · rfl
  · cases hh : (s.part part).tdi.held <;> simp [s.joinRecord_first ht, hh]

theorem State.answerFinish_again (hp : part < 8) {r t : Tenant} (hw : joinUnwrap (joinKeys j.secret j.hello j.reply).1 m = some r)
    (ht : (s.part part).tenant = some t) : s.answerFinish part peer j m =
      if s.finishPasses peer j m && ((s.part part).tdi.held && t.id == r.id
          && (t.admitted.contains (joinDigest j.hello) || t.admitted.length < 64)) then
        s.finishHolds part peer j ({ t with trk := r.trk, peers := r.peers }.admits (joinDigest j.hello)) (s.part part).genno
      else s.joinFails part := by
  rw [s.answerFinish_eq hp, s.finishRecord_eq, hw]
  cases s.finishPasses peer j m
  · rfl
  · rw [if_pos rfl, Option.bind_some, s.joinRecord_again ht, Bool.true_and]
    split <;> rfl

/-! ### Link keys (22 R376, R380) -/

theorem Port.keyed_keyFrom (p : Port) (part peer : Nat) (mine theirs : List Byte) :
    (p.keyed part peer mine theirs).keyFrom part peer = some ⟨part, peer, theirs, 0⟩ := by
  have hrest : (p.into.filter fun k => !(k.part == part && k.peer == peer)).find? (fun k => k.part == part && k.peer == peer) = none :=
    List.find?_eq_none.mpr fun k hk => by simpa [imp_iff_not_or] using (List.mem_filter.mp hk).2
  rw [Port.keyFrom, Port.keyed, List.find?_append, hrest]
  simp

theorem State.loadLinkKeys_port (s : State) (part peer : Nat) (mine theirs : List Byte) {n : Nat} (hn : n < 24) :
    (s.loadLinkKeys part peer mine theirs).port n = (s.port n).keyed part peer mine theirs := by
  simp [State.port, State.loadLinkKeys, List.getD, hn]

end Sys2Proof.Machine
end

section
/-! The messages of the peer handshake by the checks that they pass, and the requests of attestation settled (22 R377-R380). -/

namespace Sys2Proof.Machine

variable {s : State} {j : Join}

theorem State.answerHello_eq (s : State) (part peer : Nat) (m : List Byte) : s.answerHello part peer m =
    if s.joinShape 1 peer 1744 m && joinSender peer s.freeCount m && ((s.part part).tdi == .locked || (s.part part).tdi == .run)
        && kemKeyOk ((m.drop 48).take 1568) then
      { s.joinMoves part ⟨peer, false, 1, s.hub.time, s.freeCount, m, (s.joinReply part peer s.freeCount m).1,
          (s.joinReply part peer s.freeCount m).2⟩ with reply := messageWords (s.joinReply part peer s.freeCount m).1 }
    else s.joinFails part := by
  rw [← Tdi.held_eq]
  rfl

/-- The initiator's checks of a JOIN_REPLY in full. -/
theorem evJoinReply_checks (hp : s.arg 0 < 8) (hj : (s.part (s.arg 0)).join = some j) {t : Tenant}
    (ht : (s.part (s.arg 0)).tenant = some t) : evJoinReply s =
      if (j.peer == s.arg 1 && j.initiator == true && j.phase == 1 && s.hub.time ≤ j.since + 160000000)
          && s.joinShape 2 (s.arg 1) 5053 (s.joinMessage 2) && joinSender (s.arg 1) s.freeCount (s.joinMessage 2)
          && chainVerifies (Config.peerChain (s.arg 1)) (labelBytes "G7 join R" ++ joinTh1 j.hello (s.joinMessage 2))
            ((s.joinMessage 2).drop 1744)
          && t.peers.contains (joinDigest (s.joinMessage 2))
          && (t.admitted.contains (joinDigest (s.joinMessage 2)) || t.admitted.length < 64) then
        s.sendFinish (s.arg 0) (s.arg 1) t j (s.joinMessage 2)
      else s.joinFails (s.arg 0) := by
  simp only [evJoinReply_holder hp hj ht, State.joinAt_eq hj, State.replyPasses, Tenant.mayAdmit, Bool.and_assoc]

/-- The responder's checks of a JOIN_FINISH, its own interface among them. -/
def State.finishTurn (s : State) (j : Join) : Bool :=
  (j.peer == s.arg 1 && j.initiator == false && j.phase == 1 && s.hub.time ≤ j.since + 160000000)
    && s.joinShape 3 (s.arg 1) (s.joinMessage 2).length (s.joinMessage 2) && 3389 ≤ (s.joinMessage 2).length
    && chainVerifies (Config.peerChain (s.arg 1)) (labelBytes "G7 join I" ++ joinTh2 j.hello j.reply) (((s.joinMessage 2).drop 16).take 3309)
    && ((s.part (s.arg 0)).tdi == .locked || (s.part (s.arg 0)).tdi == .run)

theorem State.finishTurn_eq (hj : (s.part (s.arg 0)).join = some j) : s.finishTurn j =
    (s.joinAt (s.arg 0) (s.arg 1) false 1 && (s.finishPasses (s.arg 1) j (s.joinMessage 2) && (s.part (s.arg 0)).tdi.held)) := by
  simp only [State.finishTurn, State.joinAt_eq hj, State.finishPasses, Tdi.held_eq, Bool.and_assoc]

theorem evJoinFinish_noRecord (hp : s.arg 0 < 8) (hj : (s.part (s.arg 0)).join = some j)
    (hw : joinUnwrap (joinKeys j.secret j.hello j.reply).1 (s.joinMessage 2) = none) : evJoinFinish s = s.joinFails (s.arg 0) := by
  rw [evJoinFinish_eq hp hj, State.answerFinish_noRecord hp hw, ite_self]

theorem evJoinFinish_first (hp : s.arg 0 < 8) (hj : (s.part (s.arg 0)).join = some j) {r : Tenant}
    (hw : joinUnwrap (joinKeys j.secret j.hello j.reply).1 (s.joinMessage 2) = some r) (ht : (s.part (s.arg 0)).tenant = none) :
    evJoinFinish s = if s.finishTurn j then s.finishHolds (s.arg 0) (s.arg 1) j { r with admitted := [joinDigest j.hello] } 1
      else s.joinFails (s.arg 0) := by
  rw [evJoinFinish_eq hp hj, State.answerFinish_first hp hw ht, State.finishTurn_eq hj]
  cases s.joinAt (s.arg 0) (s.arg 1) false 1 <;> rfl

theorem evJoinFinish_again (hp : s.arg 0 < 8) (hj : (s.part (s.arg 0)).join = some j) {r t : Tenant}
    (hw : joinUnwrap (joinKeys j.secret j.hello j.reply).1 (s.joinMessage 2) = some r) (ht : (s.part (s.arg 0)).tenant = some t) :
    evJoinFinish s =
      if s.finishTurn j && t.id == r.id && (t.admitted.contains (joinDigest j.hello) || t.admitted.length < 64) then
        s.finishHolds (s.arg 0) (s.arg 1) j ({ t with trk := r.trk, peers := r.peers }.admits (joinDigest j.hello)) (s.part (s.arg 0)).genno
      else s.joinFails (s.arg 0) := by
  rw [evJoinFinish_eq hp hj, State.answerFinish_again hp hw ht, State.finishTurn_eq hj]
  simp only [Bool.and_assoc]
  cases s.joinAt (s.arg 0) (s.arg 1) false 1 <;> rfl

/-- Settles O57: each clause is the lemma of its request or message. -/
theorem attestationEvents : Obligations.AttestationEvents := by
  unfold Obligations.AttestationEvents
  refine ⟨fun s => ?requests, fun s => ?handshake, fun s part peer n mine theirs hn => ?keys⟩
  case requests =>
    intro part p port v answer
    refine ⟨?lock, ?lockElse, ?start, ?startElse, ?stopHeld, ?stopError, ?stopElse, ?failMgmt, ?failTdi, ?zeroised, ?openTdi, ?ideKm,
      ?noSession, ?tenant, ?tenantElse, rfl, rfl, rfl, ?state, fun hport => ?spdm⟩
    case lock => exact fun hp ht => congrArg _ (evLockInterfaceRequest_unlocked hp ht)
    case lockElse => exact fun h => congrArg _ (evLockInterfaceRequest_else h)
    case start => exact fun hp ht => congrArg _ (evStartInterfaceRequest_locked hp ht)
    case startElse => exact fun h => congrArg _ (evStartInterfaceRequest_else h)
    case stopHeld => exact fun hp ht => ⟨congrArg _ (evStopInterfaceRequest_held hp ht), s.zeroise_tenant hp, s.zeroise_keySlot hp⟩
    case stopError => exact fun hp ht => congrArg _ (evStopInterfaceRequest_error hp ht)
    case stopElse => exact fun h => congrArg _ (evStopInterfaceRequest_else h)
    case failMgmt => exact fun hp => congrArg _ (evIdeStreamFailure_mgmt hp)
    case failTdi => exact fun hp => congrArg _ (evIdeStreamFailure_tdi hp)
    case zeroised => exact State.tdiError_zeroised
    case openTdi => exact State.tdiError_open
    case ideKm => exact fun hs => ⟨fun hp => congrArg _ (evIdeKm_tdi hs hp), fun hp => congrArg _ (evIdeKm_mgmt hs hp)⟩
    case noSession => exact fun hs => congrArg _ (evIdeKm_noSession hs)
    case tenant => exact fun hp ht hs hn => congrArg _ (evTenantSet_installed hp ht hs hn)
    case tenantElse => exact fun h => congrArg _ (evTenantSet_else h)
    case state => exact congrArg (fun w => Host.Outcome.next { s with reply := [w] }) p.tdi.code_word
    case spdm =>
      have moves {ok : Spdm → Bool} (hok : ok (s.spdm port) = true) (f : Spdm → Spdm) (response : List Word) :=
        congrArg (Host.Outcome.next (φ := Fault) (ρ := Refusal)) (State.spdmMove_passes hport hok f response)
      have steps {ok : Spdm → Bool} (hok : ok (s.spdm port) = true) (request nonce : Nat) (f : Spdm → Spdm) :=
        congrArg (Host.Outcome.next (φ := Fault) (ρ := Refusal)) (State.spdmStep_passes hport hok request nonce f)
      refine ⟨fun h => moves ?version .., fun h => steps ?capabilities .., fun h => steps ?algorithms .., fun h => ?known,
        fun h ha => steps ?finish .., fun h => steps ?session ..⟩
      case version => exact decide_eq_true h
      case capabilities => exact beq_iff_eq.mpr h
      case algorithms => exact beq_iff_eq.mpr h
      case known =>
        have known := moves (ok := fun v => 3 ≤ v.phase) (decide_eq_true h) fun v => v
        exact ⟨known _, known _, known _, steps (ok := fun v => 3 ≤ v.phase) (decide_eq_true h) ..,
          known (messageWords (s.touchmark (if port < 8 then port else s.arg 1) (s.arg 2)))⟩
      case finish => exact Bool.and_eq_true_iff.mpr ⟨beq_iff_eq.mpr h, bne_iff_ne.mpr ha⟩
      case session => exact h
  case handshake =>
    intro part peer p now fails turn runs hp
    refine ⟨fun hpeer hj => ⟨fun ha ht => ?sends, fun ha => ?answers⟩, fun j hj => ?standing⟩
    case sends => exact congrArg _ (evJoinHello_sends hp hpeer hj ha ht)
    case answers => exact congrArg _ ((evJoinHello_answers hp hpeer hj ha).trans (s.answerHello_eq ..))
    case standing =>
      intro m d k
      refine ⟨?stands, fun t ht => ⟨?reply, ?done, t.mem_admits _⟩, fun ht => ?noTenant, ?finish, fun ht => ?timeout⟩
      case stands => exact congrArg _ (evJoinHello_stands hj)
      case reply => exact congrArg _ (evJoinReply_checks hp hj ht)
      case done =>
        have hdone := evJoinDone_holder hp hj ht
        rw [State.joinAt_eq hj] at hdone
        exact congrArg _ hdone
      case noTenant => exact ⟨congrArg _ (evJoinReply_noTenant hp hj ht), congrArg _ (evJoinDone_noTenant hp hj ht)⟩
      case finish =>
        intro i held sent passes
        split
        next hw ht => exact congrArg _ (evJoinFinish_first hp hj hw ht)
        next hw ht => exact congrArg _ (evJoinFinish_again hp hj hw ht)
        next hw => exact congrArg _ (evJoinFinish_noRecord hp hj hw)
      case timeout => exact congrArg _ (evJoinTimeout_late hp hj ht)
  case keys => rw [State.loadLinkKeys_port _ _ _ _ _ hn, Port.keyed_keyFrom]

end Sys2Proof.Machine
end
